-- ==== Sys2Proof/Word.lean ====
section
/-!
DEFINITION. The words of the machine: the widths the manual names (00 R4, R9) and the plainest
arithmetic on them. Nothing here knows about instructions or state.
-/

namespace Sys2Proof

/-- A byte of memory. -/
abbrev Byte := BitVec 8

/-- A 32-bit instruction word, lane register or N32 (05 R95). -/
abbrev Word := BitVec 32

/-- A 64-bit value: a register pair, a latch, a Coachman register (05 R59, R95). -/
abbrev DWord := BitVec 64

end Sys2Proof
end

