-- ==== Sys2Proof/Syntax.lean ====
section
/-!
DEFINITION. The syntax of the machine: the operand forms of the 32-bit instruction words
(03 R55-R69) and one constructor for every row of the opcode table.
-/

namespace Sys2Proof

/-- A source field (03 R57): a lane register, a bypass latch, or the constant whose field value is
0xC0 + `c`. Where a form takes a predicate, `reg n` with n at most 7 names p`n`; on the Coachman
`reg n` names m`n` (03 R73). -/
inductive Src where
  | reg (n : BitVec 7)
  | latch (j : BitVec 2)
  | const (c : BitVec 6)
  deriving DecidableEq, Repr

/-- A destination field (03 R56): a lane register (a predicate or an m register where the form says
so), or write-back suppressed, which writes the latch only. -/
inductive Dst where
  | reg (n : BitVec 7)
  | suppress
  deriving DecidableEq, Repr

/-- The guard field (03 R64): `g` = 0 is unguarded, `g` = 1 to 7 tests p(g − 1), negated by `neg`. -/
structure Guard where
  neg : Bool
  g : BitVec 3
  deriving DecidableEq, Repr

/-- Rounding modes (03 R65). -/
inductive Rnd where
  | rn | rz | ru | rd | rna
  deriving DecidableEq, Repr

/-- Scopes (03 R67). -/
inductive Scope where
  | dev | blk | cls | die | sys
  deriving DecidableEq, Repr

/-- Orderings (03 R67). -/
inductive Ordering3 where
  | plain | acq | rel
  deriving DecidableEq, Repr

/-- Access sizes (03 R67): 1, 2, 4, 8 and 16 bytes. -/
inductive Size where
  | b1 | b2 | b4 | b8 | b16
  deriving DecidableEq, Repr

/-- The deadline of a waiting instruction (03 R68): relative, in units of 64 ns, or absolute, in the
register pair named (one m register on the Coachman). -/
inductive Deadline where
  | rel (units : BitVec 16)
  | abs (r : BitVec 7)
  deriving DecidableEq, Repr

/-- An extension word of format A (03 R65). -/
structure ExtA where
  guard : Guard
  ctr : BitVec 3
  srcC : Src
  rnd : Rnd
  sat : Bool
  mods : BitVec 13
  deriving DecidableEq, Repr

/-- The non-blocking layout of format M (03 R67). -/
structure ExtM where
  guard : Guard
  ctr : BitVec 3
  scope : Scope
  ordering : Ordering3
  size : Size
  sext : Bool
  mask : Bool
  off : BitVec 14
  deriving DecidableEq, Repr

/-- The blocking layout of format M (03 R67). -/
structure ExtMB where
  guard : Guard
  scope : Scope
  ordering : Ordering3
  size : Size
  sext : Bool
  esc : Bool
  deadline : Deadline
  deriving DecidableEq, Repr

/-- An extension word of format W (03 R68). `spec` is its bits 25:16. -/
structure ExtW where
  guard : Guard
  esc : Bool
  spec : BitVec 10
  deadline : Deadline
  deriving DecidableEq, Repr

/-- A base word with two sources and a format A word. Fields the form does not use hold 0. -/
structure FormA where
  dst : Dst
  a : Src
  b : Src
  x : ExtA
  deriving DecidableEq, Repr

/-- `MOVI` and `MOVH`: a destination and the 32-bit immediate of format I (03 R66). -/
structure FormI where
  dst : Dst
  imm : BitVec 32
  deriving DecidableEq, Repr

/-- `BRA`, `CALL` and `CALLX`: a signed word offset and a format A word (03 R69). -/
structure FormB where
  off : BitVec 24
  x : ExtA
  deriving DecidableEq, Repr

/-- A waiting form: destination, one source and a format W word. -/
structure FormW where
  dst : Dst
  a : Src
  x : ExtW
  deriving DecidableEq, Repr

/-- `REPEAT` (08 R173): body words, count, address register (`const 0` for none), body clauses − 1
and the register steps. -/
structure RepeatForm where
  words : BitVec 8
  count : Src
  addr : Src
  guard : Guard
  tileStep : BitVec 3
  clauses : BitVec 3
  dStep : BitVec 3
  aStep : BitVec 3
  bStep : BitVec 3
  cStep : BitVec 3
  deriving DecidableEq, Repr

/-- A load (10 R222): its data register never has bit 7 set (10 R225). -/
structure LoadForm where
  dst : BitVec 7
  a : Src
  x : ExtM
  deriving DecidableEq, Repr

/-- A store: `maskSrc` is the `DST` field, a source when the byte-mask bit is set, else 0. -/
structure StoreForm where
  maskSrc : Src
  a : Src
  data : Src
  x : ExtM
  deriving DecidableEq, Repr

/-- An atomic: bits 13:9 of the offset field are the operation and bits 8:0 the offset (10 R224). -/
structure AtomForm where
  dst : BitVec 7
  a : Src
  operand : Src
  x : ExtM
  deriving DecidableEq, Repr

/-- A reduction: an atomic without a result. -/
structure RedForm where
  a : Src
  operand : Src
  x : ExtM
  deriving DecidableEq, Repr

/-- `PREF`. -/
structure PrefForm where
  a : Src
  x : ExtM
  deriving DecidableEq, Repr

/-- A blocking load (10 R236): blocks until the value differs from `cmp`. -/
structure BlockForm where
  dst : BitVec 7
  a : Src
  cmp : Src
  x : ExtMB
  deriving DecidableEq, Repr

/-- 02 R35, R41: what the dispatcher places: the next pending block or group of a launch, or a block that had left
its place. -/
inductive PlaceTarget where
  | next (launch : Nat)
  | again (block : Nat)
  deriving DecidableEq, Repr

/-- Who waits: a thread, by its unique number, or a core's Coachman. -/
inductive Waiter where
  | thread (uid : Nat)
  | coachman (core : Nat)
  deriving DecidableEq, Repr

/-- A command posted to an engine: an entry of a cluster's reservation table, or a copy ticket of a core. -/
inductive EngineId where
  | matrix (cluster entry : Nat)
  | copy (core ticket : Nat)
  deriving DecidableEq, Repr

/-- A hardware queue with a spill ring (13 R305, R306). -/
inductive QueueId where
  | message (ctx q : Nat)
  | spawn (launch : Nat)
  | subtree (launch subtree : Nat)
  | bin (binner bin : Nat)
  | atlas (ctx : Nat)
  | fault (die : Nat)
  | svc (ctx : Nat)
  deriving DecidableEq, Repr

/-- A reply of the pager (17 R425). -/
structure PagerReply where
  record : Nat
  vpn : Nat
  action : BitVec 8
  code : BitVec 8
  ctx : Nat
  deriving DecidableEq, Repr

/-- What wakes a package from deep sleep (22 R526). -/
inductive WakeCause where
  | doorbell | spdm | snoop
  deriving DecidableEq, Repr

/-- A signed debug or return-material token (22 R520): the device it names and whether both
signatures verify under the fused debug key. -/
structure Token where
  device : Nat
  signed : Bool
  deriving DecidableEq, Repr

/-- The debug state (22 R521). -/
inductive DebugMode where
  | none | trace | halt
  deriving DecidableEq, Repr

/-- A unit that gates its own clock or can be halted (22 R521, R522). -/
inductive UnitId where
  | core (gid : Nat)
  | coachman (gid : Nat)
  | serviceCore (i : Nat)
  | clusterUnit (cluster : Nat)
  | l2Slice (i : Nat)
  | fixedUnit (i : Nat)
  | securityCore (i : Nat)
  deriving DecidableEq, Repr

/-- 22 R507: where an array with SECDED codes holds a wrong word: a thread's lane register, a sector of a block's scratchpad
rows or of a TOB, a pair of an accumulator tile, an L1 copy of a core, a sector of a line of L space in its L1, a sector of an L2
line of a die, a directory entry, a transaction barrier of a core. -/
inductive ArrayWord where
  | register (uid n : Nat)
  | scratch (block offset : Nat)
  | tob (core offset : Nat)
  | tile (cluster tile m n : Nat)
  | l1 (core line : Nat)
  | l1Private (core line sector : Nat)
  | l2 (die line sector : Nat)
  | directory (line : Nat)
  | barrier (core i : Nat)
  deriving DecidableEq, Repr

/-- 22 R507: a soft error: its word, and whether two of its bits are wrong. -/
structure SoftError where
  word : ArrayWord
  double : Bool
  deriving DecidableEq, Repr

/-- R230: the access whose data returns, and the soft errors of the arrays by then (22 R507). -/
structure LoadReturn where
  access : Nat
  errors : List SoftError := []
  deriving DecidableEq, Repr

/-- 22 R515: an image of the boot chain: its SHA-384 hash, and whether both its signatures verify. -/
structure BootImage where
  hash : BitVec 384
  signed : Bool
  deriving DecidableEq, Repr

/-- A supervisor-written field of a context (09 R208, 11 R249, 12 R274, 13 R307, 17 R400, 18 R437,
18 R441, 20 R459, 21 R488, R499). `poolFree` appends a pool page to the context's `POOLFREE` ring. -/
inductive CtxField where
  | ptRoot | maxWait | escLimit | lease | matAge | ovfQuota | trapLimit | lpBase | lpLog | lpFrames
  | saveBase | evtBase | evtSize | evtRead | svcrBase | svcrSize | svcrWrite | rplBase | rplSlots
  | cpSeed | traceOn | xfrBase | xfrSize | poolFree | poolSize | notifyVector | movBase
  | movTab (entry : Nat)
  deriving DecidableEq, Repr

/-- A write to a supervisor field or register without a row of its own (22 R512): the fields of a
die's management window, the package limits, a context's fields, the tables the supervisor writes (counter
controls, HDM decoders, port modes, extents, pager, queue descriptors, pinned and lent frames), and the
stores of agents outside the device's programs: the supervisor's to device memory (17 R400, page tables), a
host's to its own memory and to the pool (log 30). -/
inductive SupField where
  | dispRamp (die : Nat)
  | shadowWays (die : Nat)
  | evacLimit
  | extDrain
  | freeMin
  | pagerLimit
  | holdLimit
  | vsMin
  | vsMax
  | pkgLimit
  | ctx (id : Nat) (f : CtxField)
  | coreCounterCtl (core i : Nat)
  | dieCounterCtl (die i : Nat)
  | coreCounterValue (core i : Nat)
  | dieCounterValue (die i : Nat)
  | portMode (die port : Nat)
  | hdmBase (i : Nat)
  | hdmSize (i : Nat)
  | hdmPort (i : Nat)
  | extent (i : Nat)
  | pagerRequestRing
  | pagerReplyRing
  | pagerCore
  | powerCap (ctx queue : Nat)
  | queueBase (ctx queue : Nat)
  | queueSize (ctx queue : Nat)
  | queueTag (ctx queue : Nat)
  | queuePrio (ctx queue : Nat)
  | queueDie (ctx queue : Nat)
  | queueReset (ctx queue : Nat)
  | framePin (frame : Nat)
  | frameLend (frame : Nat)
  | lentMap (extent : Nat)
  | functionPage (slot : Nat)
  | linkNumber
  | deviceWord (addr : Nat)
  | hostWord (addr : Nat)
  | poolWord (addr : Nat)
  deriving DecidableEq, Repr

/-- What a service core was reading when a capability check failed (22 R519). -/
inductive FirmwareItem where
  | record (queue : Nat)
  | ringEntry
  | packet (port : Nat)
  deriving DecidableEq, Repr

/-- What the supervisor gives a context at its creation (20 R459, 17 R400, 09 R208). -/
structure ContextParams where
  ptRoot : Nat
  saveBase : Nat
  evtBase : Nat
  evtSize : Nat
  svcrBase : Nat
  svcrSize : Nat
  rplBase : Nat
  rplSlots : Nat
  lpBase : Nat
  lpLog : Nat
  lpFrames : Nat
  die : Nat
  trace : Bool
  deriving DecidableEq, Repr


/-- Every step of the machine: one constructor per row of the opcode table, the 160 forms of the
opcode map (03 R70) first and the 149 device events after them. -/
inductive Instr where
  /-- R107: Adds two 32-bit values, wrapping or saturating. -/
  | iadd (f : FormA)
  /-- R107: Adds three optionally negated 32-bit values. -/
  | iadd3 (f : FormA)
  /-- R107: Subtracts two 32-bit values. -/
  | isub (f : FormA)
  /-- R108: Adds with a carry in from a predicate and a carry out to a predicate. -/
  | addc (f : FormA)
  /-- R109: Writes the low word of a 32-bit product. -/
  | imul (f : FormA)
  /-- R109: Writes the high word of the exact 64-bit product. -/
  | imulh (f : FormA)
  /-- R109: Multiplies and adds on 32 bits. -/
  | imad (f : FormA)
  /-- R109: Multiplies two 32-bit values and adds a 64-bit pair. -/
  | imadw (f : FormA)
  /-- R110: Writes the smaller operand. -/
  | imin (f : FormA)
  /-- R110: Writes the larger operand. -/
  | imax (f : FormA)
  /-- R110: Writes the absolute value. -/
  | iabs (f : FormA)
  /-- R110: Writes the negation. -/
  | ineg (f : FormA)
  /-- R111: Bitwise AND. -/
  | andL (f : FormA)
  /-- R111: Bitwise OR. -/
  | orL (f : FormA)
  /-- R111: Bitwise XOR. -/
  | xorL (f : FormA)
  /-- R111: Bitwise complement. -/
  | notL (f : FormA)
  /-- R111: Applies a three-input truth table bit by bit. -/
  | logt (f : FormA)
  /-- R112: Shifts left. -/
  | shl (f : FormA)
  /-- R112: Shifts right logically. -/
  | shr (f : FormA)
  /-- R112: Shifts right arithmetically. -/
  | sar (f : FormA)
  /-- R112: Funnel-shifts a 64-bit value and returns one word. -/
  | fsh (f : FormA)
  /-- R112: Rotates left. -/
  | rotl (f : FormA)
  /-- R113: Extracts a bit field. -/
  | bfx (f : FormA)
  /-- R113: Inserts a bit field. -/
  | bfi (f : FormA)
  /-- R114: Counts set bits. -/
  | popc (f : FormA)
  /-- R114: Counts leading zeros. -/
  | clz (f : FormA)
  /-- R114: Counts trailing zeros. -/
  | ctz (f : FormA)
  /-- R114: Reverses bit order. -/
  | brev (f : FormA)
  /-- R115: Permutes bytes of two sources. -/
  | bsel (f : FormA)
  /-- R116: Compares integers into a predicate or register. -/
  | iset (f : FormA)
  /-- R117: Selects one of two operands by a predicate. -/
  | sel (f : FormA)
  /-- R119: Copies a value. -/
  | mov (f : FormA)
  /-- R119: Writes a 32-bit immediate. -/
  | movi (f : FormI)
  /-- R119: Writes an immediate to the high register of a pair. -/
  | movh (f : FormI)
  /-- R120: Forms a 32-bit scaled address. -/
  | lea (f : FormA)
  /-- R120: Forms a 64-bit scaled address. -/
  | leaw (f : FormA)
  /-- R118: Combines three predicates through a truth table. -/
  | plop (f : FormA)
  /-- R149: F32 addition. -/
  | fadd (f : FormA)
  /-- R149: F32 subtraction. -/
  | fsub (f : FormA)
  /-- R149: F32 multiplication. -/
  | fmul (f : FormA)
  /-- R149: F32 fused multiply-add. -/
  | ffma (f : FormA)
  /-- R150: F32 minimum. -/
  | fmin (f : FormA)
  /-- R150: F32 maximum. -/
  | fmax (f : FormA)
  /-- R151: Compares F32 values. -/
  | fset (f : FormA)
  /-- R152: Rounds to an integral F32 value. -/
  | frnd (f : FormA)
  /-- R153: Classifies a floating value. -/
  | fclass (f : FormA)
  /-- R157: Converts a floating value to an integer. -/
  | f2i (f : FormA)
  /-- R158: Converts an integer to a floating value. -/
  | i2f (f : FormA)
  /-- R159: Converts between floating formats. -/
  | f2f (f : FormA)
  /-- R154: Packed H16 addition. -/
  | hadd2 (f : FormA)
  /-- R154: Packed H16 multiplication. -/
  | hmul2 (f : FormA)
  /-- R154: Packed H16 fused multiply-add. -/
  | hfma2 (f : FormA)
  /-- R154: Packed H16 minimum. -/
  | hmin2 (f : FormA)
  /-- R154: Packed H16 maximum. -/
  | hmax2 (f : FormA)
  /-- R154: Packed BF16 addition. -/
  | badd2 (f : FormA)
  /-- R154: Packed BF16 multiplication. -/
  | bmul2 (f : FormA)
  /-- R154: Packed BF16 fused multiply-add. -/
  | bfma2 (f : FormA)
  /-- R164: Reads another lane's value within a segment. -/
  | shfl (f : FormA)
  /-- R165: Votes a predicate across participating lanes. -/
  | vote (f : FormA)
  /-- R167: Reduces across lanes by a fixed tree. -/
  | redux (f : FormA)
  /-- R168: Prefix scan in ascending lane order. -/
  | pscan (f : FormA)
  /-- R169: Groups lanes with equal values. -/
  | matchLanes (f : FormA)
  /-- R155: Reciprocal. -/
  | frcp (f : FormA)
  /-- R155: Reciprocal square root. -/
  | frsq (f : FormA)
  /-- R155: Square root. -/
  | fsqrt (f : FormA)
  /-- R155: Power of two. -/
  | fex2 (f : FormA)
  /-- R155: Base-2 logarithm. -/
  | flg2 (f : FormA)
  /-- R155: Sine of an argument in turns. -/
  | fsin (f : FormA)
  /-- R155: Cosine of an argument in turns. -/
  | fcos (f : FormA)
  /-- R155: Hyperbolic tangent. -/
  | ftanh (f : FormA)
  /-- R160: Packs or unpacks E4M3 or E5M2 elements. -/
  | cvt8 (f : FormA)
  /-- R160: Packs or unpacks E2M1 elements. -/
  | cvt4 (f : FormA)
  /-- R160: Packs or unpacks L6 elements. -/
  | cvtl (f : FormA)
  /-- R162: Builds or applies an S8 scale. -/
  | scv (f : FormA)
  /-- R230: Loads from lane-private space. -/
  | ldl (f : LoadForm)
  /-- R231: Stores to lane-private space. -/
  | stl (f : StoreForm)
  /-- R230: Loads from scratchpad space. -/
  | lds (f : LoadForm)
  /-- R231: Stores to scratchpad space. -/
  | sts (f : StoreForm)
  /-- R230: Loads from a peer's scratchpad in cluster space. -/
  | ldc (f : LoadForm)
  /-- R236: Blocks until a cluster-space value differs from a compare value. -/
  | ldcBlock (f : BlockForm)
  /-- R231: Stores to a peer's scratchpad. -/
  | stc (f : StoreForm)
  /-- R230: Loads from a constant bank. -/
  | ldk (f : LoadForm)
  /-- R230: Loads from global space. -/
  | ldg (f : LoadForm)
  /-- R236: Blocks until a global value differs from a compare value. -/
  | ldgBlock (f : BlockForm)
  /-- R231: Stores to global space. -/
  | stg (f : StoreForm)
  /-- R230: Loads from host space. -/
  | ldh (f : LoadForm)
  /-- R236: Blocks until a host value differs from a compare value. -/
  | ldhBlock (f : BlockForm)
  /-- R231: Stores to host space. -/
  | sth (f : StoreForm)
  /-- R240: Atomic on scratchpad space. -/
  | ats (f : AtomForm)
  /-- R240: Atomic on a peer's scratchpad. -/
  | atc (f : AtomForm)
  /-- R240: Atomic on global space, aggregated per sector. -/
  | atg (f : AtomForm)
  /-- R240: Atomic on host space through CXL.cache. -/
  | ath (f : AtomForm)
  /-- R238: Reduction on scratchpad space. -/
  | reds (f : RedForm)
  /-- R238: Reduction on global space. -/
  | redg (f : RedForm)
  /-- R245: Waits until the requested classes of earlier work are complete. -/
  | fence (f : FormW)
  /-- R248: Prefetches a line into its home L2 slice. -/
  | pref (f : PrefForm)
  /-- R339: Posts a copy from G to S. -/
  | cpy (f : FormA)
  /-- R339: Posts a copy from S to G. -/
  | cps (f : FormA)
  /-- R339: Posts a multicast copy to the scratchpads of cluster-group peers. -/
  | cpx (f : FormA)
  /-- R339: Posts a gathering copy through an index array. -/
  | cpg (f : FormA)
  /-- R341: Posts a converting copy. -/
  | cpc (f : FormA)
  /-- R344: Waits for a copy ticket to complete. -/
  | cpw (f : FormW)
  /-- R293: Makes and binds an L6 matrix command. -/
  | mmal6 (f : FormA)
  /-- R293: Makes and binds an E2M1 matrix command. -/
  | mmae2 (f : FormA)
  /-- R293: Makes and binds an E4M3 matrix command. -/
  | mmaf8a (f : FormA)
  /-- R293: Makes and binds an E5M2 matrix command. -/
  | mmaf8b (f : FormA)
  /-- R293: Makes and binds a BF16 matrix command. -/
  | mmab16 (f : FormA)
  /-- R293: Makes and binds an INT8 matrix command. -/
  | mmai8 (f : FormA)
  /-- R297: Reserves accumulator tiles and reservation entries. -/
  | rsv (f : FormA)
  /-- R297: Releases accumulator tiles and entries. -/
  | rls (f : FormA)
  /-- R293: Makes a command that zeroes an accumulator tile. -/
  | accz (f : FormA)
  /-- R294: Makes a command that loads an accumulator tile from memory. -/
  | accld (f : FormA)
  /-- R294: Makes a command that stores an accumulator tile under a bound register. -/
  | accst (f : FormA)
  /-- R296: Reads accumulator pairs into a register quad. -/
  | accrd (f : FormA)
  /-- R298: Waits for a matrix ticket to complete. -/
  | mwait (f : FormW)
  /-- R194: Declares the thread set of a convergence register. -/
  | kdecl (f : FormA)
  /-- R195: Signs a convergence register, posting its bound command on the last signature. -/
  | sign (f : FormA)
  /-- R176: Branches by a word offset. -/
  | bra (f : FormB)
  /-- R176: Branches to a computed address. -/
  | brx (f : FormA)
  /-- R178: Calls, storing the return address in a return slot. -/
  | call (f : FormB)
  /-- R178: Calls through an entry of a table in the code stream. -/
  | callx (f : FormB)
  /-- R180: Returns through a return slot, or exits at depth 0. -/
  | ret
  /-- R181: Ends the thread at the end of its clause. -/
  | exitThread
  /-- R183: Sets the bin key and files the thread. -/
  | reform (f : FormA)
  /-- R185: Starts a stepped loop over a captured body. -/
  | repeatLoop (f : RepeatForm)
  /-- R174: Has no effect. -/
  | nop
  /-- R182: Files the thread at the clause end. -/
  | yieldThread
  /-- R378: Claims ray slots and files rays at the root subtree. -/
  | rayq (f : FormA)
  /-- R379: Waits for a ray or a ray completion count. -/
  | rayw (f : FormW)
  /-- R380: Loads a part of a ray slot. -/
  | rayr (f : FormA)
  /-- R381: Reads the bound ray of a hit-shader thread. -/
  | hitx (f : FormA)
  /-- R398: Samples a texture. -/
  | texs (f : FormA)
  /-- R398: Gathers one channel of four bilinear taps. -/
  | texg (f : FormA)
  /-- R398: Queries a texture descriptor. -/
  | texq (f : FormA)
  /-- R391: Requests an atlas block for the current phase. -/
  | atreq (f : FormA)
  /-- R392: Takes an atlas request entry. -/
  | atget (f : FormA)
  /-- R399: Emits a primitive with a view mask to the binner. -/
  | prim (f : FormA)
  /-- R445: Arrives at a hardware barrier without waiting. -/
  | bara (f : FormA)
  /-- R446: Waits for a barrier phase. -/
  | barw (f : FormW)
  /-- R447: Arrives at a barrier and waits for the phase. -/
  | bars (f : FormW)
  /-- R448: Withdraws an arrival. -/
  | barx (f : FormA)
  /-- R348: Initialises a transaction barrier. -/
  | tbi (f : FormA)
  /-- R348: Arrives at a transaction barrier. -/
  | tba (f : FormA)
  /-- R348: Adds expected sectors to a transaction barrier. -/
  | tbe (f : FormA)
  /-- R348: Waits for a transaction-barrier phase. -/
  | tbw (f : FormW)
  /-- R325: Appends entries to a device message queue. -/
  | qsend (f : FormA)
  /-- R325: Takes an entry from a device message queue, waiting if empty. -/
  | qrecv (f : FormW)
  /-- R326: Spawns a range of blocks of the launch. -/
  | spawn (f : FormA)
  /-- R327: Cancels a level of work. -/
  | cancel (f : FormA)
  /-- R328: Reads a level's state and completion counter. -/
  | cmpl (f : FormA)
  /-- R352: Waits for a circular-buffer slot to be filled. -/
  | cbget (f : FormW)
  /-- R352: Releases a circular-buffer slot. -/
  | cbput (f : FormA)
  /-- R352: Sets up a circular buffer. -/
  | cbputInit (f : FormA)
  /-- R466: Makes a supervisor call for the participating threads. -/
  | svc (f : FormA)
  /-- R470: Waits for the reply to a supervisor call. -/
  | svcw (f : FormW)
  /-- R471: Traps the threads with USER_TRAP. -/
  | trap (f : FormA)
  /-- R471: Traps the threads with BREAKPOINT. -/
  | bkpt (f : FormA)
  /-- R455: Reads and clears the sticky check bits. -/
  | chke (f : FormA)
  /-- R472: Reads a special register. -/
  | rds (f : FormA)
  /-- R472: Writes a writable special register. -/
  | wrs (f : FormA)
  /-- R77: A clause is fetched whole and decoded before issue. -/
  | clauseFetch
  /-- R29: An issue slot draws a bundle from a full or aged bin. -/
  | bundleDraw (core bin : Nat)
  /-- R30: A bin's oldest thread exceeds the bin age limit. -/
  | binAgeLimitExpiry (core bin : Nat)
  /-- R28: A queued thread is filed when a bin frees. -/
  | filingQueueDrain (core : Nat)
  /-- R40: A blocked wait's condition holds and the thread is woken. -/
  | waitConditionMet (w : Waiter)
  /-- R40: A wait's deadline passes and it ends TIMEOUT. -/
  | waitDeadlineExpiry (w : Waiter)
  /-- R35: The dispatcher places a block when a core can hold it. -/
  | blockPlacement (target : PlaceTarget) (core : Nat)
  /-- R34: A block ends after its threads exit and its stores are released. -/
  | blockEnd (block : Nat)
  /-- R41: A block whose live threads are all blocked is evicted. -/
  | blockEviction (block : Nat)
  /-- R44: In-flight work drains, cores halt and state is saved. -/
  | partitionDrainEnd (part : Nat)
  /-- R44: The incoming partition is restored and issue starts. -/
  | partitionRestore (part : Nat)
  /-- R193: Periodic check withdraws convergence registers with unsigned exited threads. -/
  | blockLevelCheck (block : Nat)
  /-- R218: A step down starts, selecting blocks to leave. -/
  | opStepDownOrder (target : Nat)
  /-- R218: Selected blocks not ended by EVACLIMIT are parked. -/
  | evaclimitExpiry
  /-- R218: Live rows in rows unusable at the new point move and L1 lines are dropped. -/
  | rowEvacuation (core : Nat)
  /-- R218: The main clock switches and %vs and %scap change. -/
  | opClockSwitch
  /-- R218: The core rail reaches the new supply. -/
  | railSlewDone
  /-- R221: The rail slews up and the clock switches without row moves. -/
  | opStepUp (target : Nat)
  /-- R219: A parked block is refilled and resumes when room appears. -/
  | parkedBlockRefill (block : Nat)
  /-- R217: A held launch is reported after HOLDLIMIT. -/
  | holdlimitExpiry (launch : Nat)
  /-- R230: Load data returns and the destination and counter are written. -/
  | loadDataReturn (load : LoadReturn)
  /-- R231: A store is performed at its scope and its counter falls. -/
  | storePerformed (access : Nat)
  /-- R234: A release waiting for %dtime to reach %wh issues. -/
  | releaseWhWaitEnd (access : Nat)
  /-- R242: A combined atomic or reduction is applied at its home. -/
  | atomicRequestApply (access : Nat)
  /-- R242: The hot-address queue retires up to eight add requests. -/
  | hotQueueRetire (accesses : List Nat)
  /-- R237: A blocked load re-reads after a write to its sector. -/
  | blockingLoadReread (w : Waiter)
  /-- R237: A blocked H-space load re-reads on its poll interval. -/
  | hPollReread (w : Waiter)
  /-- R253: An L1 fill takes a token and a lease from its die home. -/
  | l1FillRequest (core ctx line : Nat)
  /-- R253: An L1 copy's lease expires and its token returns. -/
  | leaseExpiry (core line : Nat)
  /-- R255: A write is applied at its die home and its completion time returned. -/
  | writeApply (access : Nat)
  /-- R258: A refused request retries and may take a persistent slot. -/
  | transientRefusalRetry (request : Nat)
  /-- R258: A line leaves its transient state and serves persistent requests. -/
  | transientLineRelease (line : Nat)
  /-- R267: A die requests a line for reading from its home. -/
  | dirReadRequest (die line : Nat)
  /-- R267: A die requests ownership of a line. -/
  | dirOwnershipRequest (die line : Nat)
  /-- R267: A die in S or O upgrades to M. -/
  | dirUpgradeRequest (die line : Nat)
  /-- R267: A die writes back an M or O line to its home. -/
  | dirWriteback (die line : Nat)
  /-- R267: An atomic recalls copies and applies at the home. -/
  | dirAtomicRequest (die line : Nat)
  /-- R267: The home forwards a request to the holding die. -/
  | dirForward (die line : Nat)
  /-- R267: An invalidated die acknowledges with its latest lease expiry. -/
  | invalidationAck (die line : Nat)
  /-- R269: A die receives data and reconciles its version copy. -/
  | dataMessageReceipt (die line : Nat) (version : BitVec 16)
  /-- R268: The snoop filter evicts an entry and back-invalidates holders. -/
  | snoopFilterEviction (line : Nat)
  /-- R270: A CXL snoop starts surrender of a frame. -/
  | backInvalidationSnoop (pool : Nat)
  /-- R270: After write-back and lease expiry the snoop is answered. -/
  | pageSurrenderAnswer (frame : Nat)
  /-- R271: Dray brings back a surrendered page and waiting requests are served. -/
  | surrenderedPageRefetch (frame : Nat)
  /-- R272: A home times out on an agent and may treat its die as lost. -/
  | sleepingProbeTimeout (home die : Nat)
  /-- R264: The task scheduler releases a command whose overlap edges cleared. -/
  | engineCommandRelease (e : EngineId)
  /-- R288: The arbiter grants a slot to one eligible entry. -/
  | arbiterGrant (cluster : Nat)
  /-- R287: A pass's epilogue writes its pairs. -/
  | matrixPassEpilogue (cluster : Nat)
  /-- R308: A host announces records by writing a queue doorbell. -/
  | doorbellWrite (ctx offset : Nat) (value : Word)
  /-- R310: A launch record is read, checked and its seed block started. -/
  | launchRecord (ctx queue : Nat)
  /-- R317: A replay record takes a slot and copies its snapshot. -/
  | graphReplayRecord (ctx queue : Nat)
  /-- R310: A signal record writes its value when earlier records complete. -/
  | signalRecord (ctx queue : Nat)
  /-- R310: A wait record waits for a word to reach a value. -/
  | waitRecord (ctx queue : Nat)
  /-- R310: A phase mark closes a phase. -/
  | phaseMarkRecord (ctx queue : Nat)
  /-- R321: A cancel record cancels the named level. -/
  | cancelRecord (ctx queue : Nat)
  /-- R310: The reader re-reads a wait record's word. -/
  | waitRecordReread (ctx handle : Nat)
  /-- R312: The reader re-reads a record structure page after Dray resolves it. -/
  | recordPageResolved (ctx queue : Nat)
  /-- R310: A record completes, writing its signal and status. -/
  | recordCompletion (ctx handle : Nat)
  /-- R317: A graph node begins once its predecessors complete. -/
  | graphNodeBegin (ctx handle node : Nat)
  /-- R318: A replay waiting for a slot completes BUSY at its deadline. -/
  | replaySlotDeadline (ctx queue : Nat)
  /-- R323: Setting RESET stops a queue and cancels its work. -/
  | queueReset (ctx queue : Nat)
  /-- R323: The fence marker passes all slices and RESETDONE is set. -/
  | queueResetDone (ctx queue : Nat)
  /-- R306: The overflow engine refills the on-die part from the ring. -/
  | spillRefill (q : QueueId)
  /-- R322: Per-queue power is summed and issue throttled above POWERCAP. -/
  | powerBudgetEval (ctx queue watts : Nat)
  /-- R331: The Coachman starts a queued movement program. -/
  | movementProgramStart (core : Nat)
  /-- R340: The copy engine starts a posted command. -/
  | copyCommandStart (core ticket : Nat)
  /-- R343: A destination sector is delivered and counted on its barrier. -/
  | copySectorDelivery (core ticket : Nat)
  /-- R340: A copy completes and writes its ring entry. -/
  | copyComplete (core ticket : Nat)
  /-- R350: A stalled CB-mode copy takes a free slot. -/
  | cbSlotTake (core ticket : Nat)
  /-- R365: The Omnibus selects a subtree and starts a run. -/
  | omnibusRunStart (die cluster : Nat)
  /-- R366: The subtree is loaded and traversal begins. -/
  | subtreeLoadComplete (cluster : Nat)
  /-- R366: A ray retires from a run to a queue, the hit list or completion. -/
  | rayRetire (cluster : Nat)
  /-- R367: A run past 20 µs ends at the next ray boundary. -/
  | runTimeLimit (cluster : Nat)
  /-- R373: The oldest hit-list ray reaches 2 µs and a hit block forms. -/
  | hitListAgeExpiry (launch die : Nat)
  /-- R388: A flush ends and the binner accepts again. -/
  | binnerFlushDone (binner : Nat)
  /-- R386: The rasteriser applies a tile's primitives to the visibility buffer. -/
  | rasteriseTile (binner view tile : Nat)
  /-- R396: The sampler completes a quad and writes its lanes. -/
  | textureQuadComplete (core op : Nat)
  /-- R401: A walker walks the page tables on a TLB miss. -/
  | tlbMissWalk (core ctx vpn : Nat)
  /-- R410: A Dray forwards an entry to the page's owner. -/
  | faultEntryForward (die : Nat)
  /-- R418: Dray takes an entry into a batch or the merge table. -/
  | drayEntryTake (die : Nat)
  /-- R418: A batch closes after 2 µs or 512 pages and migrations start. -/
  | drayBatchClose (die : Nat)
  /-- R421: After write-back and lease expiry the frame becomes free. -/
  | evictionFrameFree (frame : Nat)
  /-- R422: A page's transfer ends and its leaf is written present. -/
  | migrationTransferDone (die ctx vpn : Nat)
  /-- R416: A unit replays a record whose WAITS reached zero. -/
  | recordReplay (ctx slot : Nat)
  /-- R411: A unit waiting for a replay slot takes one that freed. -/
  | replaySlotFreed (ctx : Nat)
  /-- R425: Dray takes a pager reply and resolves, retries or fails. -/
  | pagerReply (die : Nat) (reply : PagerReply)
  /-- R426: An unanswered pager entry fails with PROTECTION. -/
  | pagerlimitExpiry (die ctx vpn : Nat)
  /-- R453: A sticky bit set longer than INTERVAL is reported. -/
  | checkIntervalReport (thread bit : Nat)
  /-- R460: A held event entry is written when ring space appears. -/
  | eventHeldWrite (die : Nat)
  /-- R488: The device sends the context's MSI-X notification, at most once per µs. -/
  | notificationMessage (ctx : Nat)
  /-- R554: A failed write to a context structure is retried every 1 ms. -/
  | structureWriteRetry (ctx : Nat)
  /-- R464: Trapped threads resume at the clause header. -/
  | trapResumeRetry (die ctx slot : Nat)
  /-- R464: Trapped threads resume after the clause. -/
  | trapResumeSkip (die ctx slot : Nat)
  /-- R464: Trapped threads end and the launch is FAULTED. -/
  | trapResumeEnd (die ctx slot : Nat)
  /-- R464: The trapped block's launch is cancelled. -/
  | trapResumeCancel (die ctx slot : Nat)
  /-- R464: A trap held past TRAPLIMIT acts as action 2. -/
  | traplimitExpiry (ctx slot : Nat)
  /-- R469: The device takes a reply and matches it to a call slot. -/
  | svcReply (ctx : Nat)
  /-- R481: A shadowed block that consumed poison is restored from its checkpoint. -/
  | rollback (block : Nat)
  /-- R252: The host completes an H-space access. -/
  | hostAccessComplete (access : Nat)
  /-- R491: A host request not completed within 1 ms is ended with poison or dropped. -/
  | hostAccessTimeout (access : Nat)
  /-- R493: An extent release starts its drain. -/
  | extentReleaseRequest (extent : Nat)
  /-- R493: The extent drains and becomes gone. -/
  | extentReleaseDone (extent : Nat)
  /-- R494: The drain deadline passes and the release is forced. -/
  | extentDrainDeadline (extent : Nat)
  /-- R494: The host forces an extent release. -/
  | extentForcedRelease (extent : Nat)
  /-- R497: A lent extent is reclaimed. -/
  | extentReclaim (extent : Nat)
  /-- R496: A host or peer request to a lent extent is served. -/
  | lentMemoryRequest (extent offset : Nat) (data : Option (List Byte))
  /-- R500: A transfer record fetches remote pages to local memory. -/
  | xferFetch (ctx : Nat)
  /-- R500: A transfer record pushes local pages to a remote target. -/
  | xferPush (ctx : Nat)
  /-- R500: A transfer completes, signalling and writing its status. -/
  | xferComplete (ctx record : Nat)
  /-- R498: A Budun link is brought up and its key agreed. -/
  | budunLinkBringup (port device key : Nat)
  /-- R505: A mismatched line is corrected or poisoned and the read served. -/
  | crcCorrectionDone (line : Nat) (wrong : List (Nat × Nat))
  /-- R508: The scrubber reads a valid frame. -/
  | patrolScrub (frame : Nat) (wrong : List (Nat × Nat × Nat))
  /-- R509: A die's watchdog misses a beat. -/
  | watchdogBeatMiss (die : Nat)
  /-- R510: A die is declared lost and the census sweep starts. -/
  | dieLoss (die : Nat)
  /-- R510: The sweep ends, launches are faulted and waiting requests resume. -/
  | censusSweepDone (die : Nat)
  /-- R405: Mailbox command 1 drops translations for a page range. -/
  | translationInvalidate (die ctx vpn count : Nat)
  /-- R359: Mailbox command 3 loads a unit program table slot. -/
  | uptLoad (die ctx unit slot image : Nat)
  /-- R518: Mailbox command 4 loads a wrapped key pair. -/
  | keyLoad (die ctx index session image : Nat)
  /-- R406: Mailbox command 5 invalidates a key entry. -/
  | keyInvalidate (die index : Nat)
  /-- R524: Mailbox command 6 requests an operating point. -/
  | opPointRequest (die point : Nat)
  /-- R514: Mailbox command 7 defines a partition. -/
  | partitionDefine (die index mask : Nat)
  /-- R44: Mailbox command 7 switches the resident context of a partition. -/
  | partitionSwitch (die index ctx : Nat)
  /-- R514: Mailbox command 7 frees an empty partition entry. -/
  | partitionFree (die index : Nat)
  /-- R526: Mailbox command 8 puts the package in deep sleep. -/
  | deepSleepEntry (die : Nat)
  /-- R526: A doorbell, SPDM request or snoop wakes the package. -/
  | deepSleepWake (cause : WakeCause)
  /-- R512: A write to a supervisor field or register without a row of its own. -/
  | supervisorFieldWrite (field : SupField) (value : Nat)
  /-- R515: At reset the boot chain measures and verifies each layer. -/
  | boot (images : List BootImage)
  /-- R517: SPDM request for the protocol version. -/
  | getVersion
  /-- R517: SPDM request for capabilities. -/
  | getCapabilities
  /-- R517: SPDM algorithm negotiation. -/
  | negotiateAlgorithms (algos : Nat)
  /-- R517: SPDM request for certificate digests. -/
  | getDigests
  /-- R517: SPDM request for a certificate chain. -/
  | getCertificate (slot : Nat)
  /-- R517: SPDM challenge for a signed response. -/
  | challenge (nonce : Nat)
  /-- R517: SPDM request for measurements. -/
  | getMeasurements (index : Nat)
  /-- R517: SPDM session key exchange. -/
  | keyExchange (session : Nat)
  /-- R517: SPDM session finish. -/
  | finishSession (session : Nat)
  /-- R517: SPDM session end. -/
  | endSession (session : Nat)
  /-- R517: Vendor-defined request returning the ML-DSA-65 chain and signature. -/
  | mlDsaVendorRequest (session : Nat)
  /-- R520: A signed token authorises debug from the next reset. -/
  | debugAuthToken (session : Nat) (token : Token)
  /-- R520: A signed token burns the return-material fuse. -/
  | returnMaterialToken (session : Nat) (token : Token)
  /-- R520: A session command sets the debug state. -/
  | debugStateSet (session : Nat) (d : DebugMode)
  /-- R521: A debug command halts units. -/
  | haltCommand (session : Nat) (unit : UnitId)
  /-- R523: Firmware evaluates package power and throttles or steps down. -/
  | packagePowerEval (watts amps : Nat)
  /-- R524: Junction readings trigger steps, throttling or shutdown. -/
  | thermalEval (die celsius : Nat)
  /-- R522: A unit idle for 2 µs gates its clock. -/
  | clockGate (unit : UnitId)
  /-- R522: A gated unit wakes on its next request. -/
  | unitWake (unit : UnitId)
  /-- R519: A service-core access outside its capability faults and the record is dropped. -/
  | capabilityFault (ctx : Nat) (target : FirmwareItem)
  /-- R47: The supervisor creates a context, which sets its context time to 0, creates its 64 empty message queues, zeroes its accumulator memory and resets its copy ticket counter and CPSEED. -/
  | contextCreation (ctx : Nat) (p : ContextParams)
  /-- R325: The supervisor destroys a context, which empties its device message queues and ends the retries of R554 for it. -/
  | contextDestruction (ctx : Nat)
  deriving DecidableEq, Repr

end Sys2Proof
end

