-- ==== Sys2Proof/WellFormed.lean ====
section
/-!
DEFINITION. Which instruction terms the decoder of each agent accepts: the checks 3a, 3b, 3d and 3e
of 03 R74 that look at one instruction. One table row per form (`specA`, `specW`), read from the
encoding tables of the chapters; one generic check per word format.
-/

namespace Sys2Proof

/-- The two agents that decode instruction words (03 R73). -/
inductive Agent where
  | core
  | coachman
  deriving DecidableEq, Repr

/-- How a destination field is used (03 R56, R59, 10 R223). `quad` admits no suppression. -/
inductive DKind where
  | none | v | pair | quad | pred
  deriving DecidableEq, Repr

/-- How a source field is used. `block n a` names registers n consecutive, the first a multiple of a,
and admits neither latch nor constant; `regPair` is an even register only (16 R397). -/
inductive SKind where
  | none | v | pair | regPair | pred | block (n a : Nat)
  deriving DecidableEq, Repr

/-- The encoding-table row of a format A form. `mods` marks the modifier bits the form defines,
`ok` is the form's own condition on them, `latch` says whether it writes a latch (03 R60). -/
structure SpecA where
  d : DKind
  a : SKind
  b : SKind
  c : SKind
  mods : BitVec 13
  rnd : Bool := false
  sat : Bool := false
  ctr : Bool := false
  ok : Bool := true
  latch : Bool := true

/-- The encoding-table row of a format W form; `spec` marks the bits of field 25:16 it defines. -/
structure SpecW where
  a : SKind
  spec : BitVec 10
  ok : Bool := true

namespace FormA

/-- Bits hi:lo of the modifier field, as a number. -/
def field (f : FormA) (hi lo : Nat) : Nat := f.x.mods.toNat / 2 ^ lo % 2 ^ (hi + 1 - lo)

/-- Modifier bit i. -/
def bit (f : FormA) (i : Nat) : Bool := f.x.mods.getLsbD i

end FormA

/-- Bits hi:lo of the format W field 25:16, numbered from 0. -/
def FormW.field (f : FormW) (hi lo : Nat) : Nat := f.x.spec.toNat / 2 ^ lo % 2 ^ (hi + 1 - lo)

/-- 18 R443: a barrier index within its scope's hardware count: 4 gang, 16 block, 8 cluster-group and
4 launch barriers. -/
def barrierIndexOk (scope i : Nat) : Bool :=
  match scope with
  | 0 => i < 4
  | 1 => i < 16
  | 2 => i < 8
  | _ => i < 4

/-- 20 R471: the selects of `RDS` that name a 64-bit register. -/
def selectWide (n : Nat) : Bool := (7 ≤ n && n ≤ 9) || (32 ≤ n && n ≤ 47)

/-- 20 R471: the selects `RDS` may read. The Coachman has no bound registers. -/
def selectReadable (ag : Agent) (n : Nat) : Bool :=
  n ≤ 13 || (ag == .core && 32 ≤ n && n ≤ 63)

/-- 20 R471: the selects `WRS` may write. -/
def selectWritable (n : Nat) : Bool := n == 10 || (32 ≤ n && n ≤ 63)

/-- 07 R160: the row of a narrow-format conversion with `n` elements to a register. -/
def specCvt (f : FormA) (n : Nat) (sat : Bool) (l6 : Bool) (mods : BitVec 13) : SpecA :=
  let up := f.bit 0
  let wide := f.field 3 2
  let s := f.field 6 4
  if up then
    { d := .v, a := .v, b := .none, c := .none, mods := mods, rnd := l6 && wide != 0, ctr := true,
      ok := wide != 3 && s < (if wide == 0 then n else n / 2) }
  else
    { d := .v, a := .v, b := .v, c := if wide == 0 || n == 8 then .v else .none, mods := mods,
      rnd := true, sat := sat, ctr := true,
      ok := wide != 3 && s < (if wide == 0 then n / 2 else n / 4) }

/-- 12 R290: the row of a multiply form whose pass has `n` columns. -/
def specMma (f : FormA) (n : Nat) : SpecA :=
  let sc := f.bit 11
  { d := .v, a := .pair, b := .pair, c := if sc then .block (if n == 256 then 12 else 8) 1 else .none,
    mods := 0x1FFF,
    ok := (n != 256 || f.field 6 4 % 2 == 0)
      && (if sc then f.field 8 7 + f.field 10 9 + 1 ≤ 4 else f.field 8 7 == 0) }

/-- The format A row of each form: 05 R105, 07 R145, 08 R173, 12 R290, 13 R324, 14 R335, R347, R351,
15 R377, 16 R397, 18 R443, 19 R455, 20 R465. -/
def Instr.specA : Instr → Option (FormA × SpecA)
  | .iadd f => some (f, { d := .v, a := .v, b := .v, c := .none, mods := 1, sat := true })
  | .iadd3 f => some (f, { d := .v, a := .v, b := .v, c := .v, mods := 0xF, sat := true })
  | .isub f => some (f, { d := .v, a := .v, b := .v, c := .none, mods := 1, sat := true })
  | .addc f => some (f, { d := .v, a := .v, b := .v, c := .none, mods := 0x7F,
                          ok := !(f.bit 3 && f.field 2 0 != 0) })
  | .imul f => some (f, { d := .v, a := .v, b := .v, c := .none, mods := 1, sat := true })
  | .imulh f => some (f, { d := .v, a := .v, b := .v, c := .none, mods := 1 })
  | .imad f => some (f, { d := .v, a := .v, b := .v, c := .v, mods := 1, sat := true })
  | .imadw f => some (f, { d := .pair, a := .v, b := .v, c := .pair, mods := 1, sat := true })
  | .imin f => some (f, { d := .v, a := .v, b := .v, c := .none, mods := 1 })
  | .imax f => some (f, { d := .v, a := .v, b := .v, c := .none, mods := 1 })
  | .iabs f => some (f, { d := .v, a := .v, b := .none, c := .none, mods := 0, sat := true })
  | .ineg f => some (f, { d := .v, a := .v, b := .none, c := .none, mods := 0, sat := true })
  | .andL f => some (f, { d := .v, a := .v, b := .v, c := .none, mods := 0 })
  | .orL f => some (f, { d := .v, a := .v, b := .v, c := .none, mods := 0 })
  | .xorL f => some (f, { d := .v, a := .v, b := .v, c := .none, mods := 0 })
  | .notL f => some (f, { d := .v, a := .v, b := .none, c := .none, mods := 0 })
  | .logt f => some (f, { d := .v, a := .v, b := .v, c := .v, mods := 0xFF })
  | .shl f => some (f, { d := .v, a := .v, b := .v, c := .none, mods := 1 })
  | .shr f => some (f, { d := .v, a := .v, b := .v, c := .none, mods := 1 })
  | .sar f => some (f, { d := .v, a := .v, b := .v, c := .none, mods := 1 })
  | .fsh f => some (f, { d := .v, a := .v, b := .v, c := .v, mods := 1 })
  | .rotl f => some (f, { d := .v, a := .v, b := .v, c := .none, mods := 0 })
  | .bfx f => some (f, { d := .v, a := .v, b := .v, c := .none, mods := 1 })
  | .bfi f => some (f, { d := .v, a := .v, b := .v, c := .v, mods := 0 })
  | .popc f => some (f, { d := .v, a := .v, b := .none, c := .none, mods := 0 })
  | .clz f => some (f, { d := .v, a := .v, b := .none, c := .none, mods := 0 })
  | .ctz f => some (f, { d := .v, a := .v, b := .none, c := .none, mods := 0 })
  | .brev f => some (f, { d := .v, a := .v, b := .none, c := .none, mods := 0 })
  | .bsel f => some (f, { d := .v, a := .v, b := .v, c := if f.bit 12 then .v else .none,
                          mods := 0x1FFF, ok := !f.bit 12 || f.field 11 0 == 0 })
  | .iset f => some (f, { d := if f.bit 4 then .v else .pred, a := .v, b := .v, c := .none,
                          mods := 0x1F, ok := f.field 3 1 < 6, latch := f.bit 4 })
  | .sel f => some (f, { d := .v, a := .v, b := .v, c := .pred, mods := 0 })
  | .mov f => some (f, { d := .v, a := .v, b := .none, c := .none, mods := 0 })
  | .lea f => some (f, { d := .v, a := .v, b := .v, c := .none, mods := 0x1F })
  | .leaw f => some (f, { d := .pair, a := .pair, b := .v, c := .none, mods := 0x3F })
  | .plop f => some (f, { d := .pred, a := .pred, b := .pred, c := .pred, mods := 0xFF, latch := false })
  | .fadd f => some (f, { d := .v, a := .v, b := .v, c := .none, mods := 0xD80, rnd := true, sat := true })
  | .fsub f => some (f, { d := .v, a := .v, b := .v, c := .none, mods := 0xD80, rnd := true, sat := true })
  | .fmul f => some (f, { d := .v, a := .v, b := .v, c := .none, mods := 0xD80, rnd := true, sat := true })
  | .ffma f => some (f, { d := .v, a := .v, b := .v, c := .v, mods := 0x1F80, rnd := true, sat := true })
  | .fmin f => some (f, { d := .v, a := .v, b := .v, c := .none, mods := 0xD80 })
  | .fmax f => some (f, { d := .v, a := .v, b := .v, c := .none, mods := 0xD80 })
  | .fset f => some (f, { d := if f.bit 4 then .v else .pred, a := .v, b := .v, c := .none,
                          mods := 0xD9E, latch := f.bit 4 })
  | .frnd f => some (f, { d := .v, a := .v, b := .none, c := .none, mods := 0x480, rnd := true })
  | .fclass f => some (f, { d := .v, a := .v, b := .none, c := .none, mods := 7,
                            ok := f.field 1 0 != 3 && (!f.bit 2 || f.field 1 0 != 0) })
  | .f2i f => some (f, { d := if f.bit 1 then .pair else .v, a := .v, b := .none, c := .none,
                         mods := 0x1F, rnd := true,
                         ok := f.field 3 2 != 3 && (!f.bit 4 || f.field 3 2 != 0) })
  | .i2f f => some (f, { d := .v, a := if f.bit 1 then .pair else .v, b := .none, c := .none,
                         mods := 0xF, rnd := true, sat := true, ok := f.field 3 2 != 3 })
  | .f2f f => some (f, { d := .v, a := .v, b := .none, c := .none, mods := 0x1F, rnd := true, sat := true,
                         ok := f.field 1 0 != 3 && f.field 3 2 != 3 && (!f.bit 4 || f.field 1 0 != 0) })
  | .hadd2 f => some (f, { d := .v, a := .v, b := .v, c := .none, mods := 0xD80, rnd := true, sat := true })
  | .hmul2 f => some (f, { d := .v, a := .v, b := .v, c := .none, mods := 0xD80, rnd := true, sat := true })
  | .hfma2 f => some (f, { d := .v, a := .v, b := .v, c := .v, mods := 0x1F80, rnd := true, sat := true })
  | .hmin2 f => some (f, { d := .v, a := .v, b := .v, c := .none, mods := 0xD80 })
  | .hmax2 f => some (f, { d := .v, a := .v, b := .v, c := .none, mods := 0xD80 })
  | .badd2 f => some (f, { d := .v, a := .v, b := .v, c := .none, mods := 0xD80, rnd := true, sat := true })
  | .bmul2 f => some (f, { d := .v, a := .v, b := .v, c := .none, mods := 0xD80, rnd := true, sat := true })
  | .bfma2 f => some (f, { d := .v, a := .v, b := .v, c := .v, mods := 0x1F80, rnd := true, sat := true })
  | .shfl f => some (f, { d := .v, a := .v, b := .v, c := .none, mods := 0x3F,
                          ok := f.field 2 0 < 5 && f.field 5 3 < 6 })
  | .vote f => some (f, { d := if f.field 1 0 == 0 then .v else .pred, a := .pred, b := .none, c := .none,
                          mods := 7, latch := f.field 1 0 == 0 })
  | .redux f => some (f, { d := .v, a := .v, b := .none, c := .none, mods := 0xF,
                           rnd := f.field 3 0 == 8, ok := f.field 3 0 < 11 })
  | .pscan f => some (f, { d := .v, a := .v, b := .none, c := .none, mods := 0x1F,
                           rnd := f.field 3 0 == 8, ok := f.field 3 0 < 11 })
  | .matchLanes f => some (f, { d := .v, a := if f.bit 0 then .pair else .v, b := .none, c := .none,
                                mods := 3 })
  | .frcp f => some (f, { d := .v, a := .v, b := .none, c := .none, mods := 0x480, rnd := true,
                          sat := true, ctr := true })
  | .frsq f => some (f, { d := .v, a := .v, b := .none, c := .none, mods := 0x480, ctr := true })
  | .fsqrt f => some (f, { d := .v, a := .v, b := .none, c := .none, mods := 0x480, rnd := true, ctr := true })
  | .fex2 f => some (f, { d := .v, a := .v, b := .none, c := .none, mods := 0x480, ctr := true })
  | .flg2 f => some (f, { d := .v, a := .v, b := .none, c := .none, mods := 0x480, ctr := true })
  | .fsin f => some (f, { d := .v, a := .v, b := .none, c := .none, mods := 0x480, ctr := true })
  | .fcos f => some (f, { d := .v, a := .v, b := .none, c := .none, mods := 0x480, ctr := true })
  | .ftanh f => some (f, { d := .v, a := .v, b := .none, c := .none, mods := 0x480, ctr := true })
  | .cvt8 f => some (f, specCvt f 4 true false 0x7F)
  | .cvt4 f => some (f, specCvt f 8 false false 0x7D)
  | .cvtl f => some (f, specCvt f 4 false true 0x7D)
  | .scv f => some (f,
      if f.bit 0 then { d := .v, a := .v, b := .v, c := .none, mods := 0x3F, rnd := true, sat := true,
                        ctr := true, ok := f.field 3 2 == 0 }
      else { d := .v, a := .v, b := .none, c := .v, mods := 0x3F, ctr := true, ok := !f.bit 1 })
  | .cpy f => some (f, { d := .v, a := .block 5 1, b := .none, c := .none, mods := 0, latch := false })
  | .cps f => some (f, { d := .v, a := .block 5 1, b := .none, c := .none, mods := 0, latch := false })
  | .cpx f => some (f, { d := .v, a := .block 5 1, b := .none, c := .none, mods := 0, latch := false })
  | .cpg f => some (f, { d := .v, a := .block 5 1, b := .none, c := .none, mods := 0, latch := false })
  | .cpc f => some (f, { d := .v, a := .block 5 1, b := .none, c := .none, mods := 0, latch := false })
  | .mmal6 f => some (f, specMma f 256)
  | .mmae2 f => some (f, specMma f 256)
  | .mmaf8a f => some (f, specMma f 128)
  | .mmaf8b f => some (f, specMma f 128)
  | .mmab16 f => some (f, specMma f 128)
  | .mmai8 f => some (f, specMma f 128)
  | .rsv f => some (f, { d := .v, a := .v, b := .v, c := .none, mods := 3 })
  | .rls f => some (f, { d := .v, a := .v, b := .v, c := .none, mods := 0 })
  | .accz f => some (f, { d := .v, a := .none, b := .none, c := .none, mods := 0x7F })
  | .accld f => some (f, { d := .v, a := if f.bit 8 then .v else .pair, b := .v, c := .pair, mods := 0x1FF })
  | .accst f => some (f, { d := .v, a := if f.bit 8 then .v else .pair, b := .v, c := .pair, mods := 0x1FFF })
  | .accrd f => some (f, { d := .quad, a := .v, b := .none, c := .none, mods := 0xF0, ctr := true,
                           latch := false })
  | .kdecl f => some (f, { d := .v, a := .v, b := .v, c := .none, mods := 0xF })
  | .sign f => some (f, { d := .v, a := .none, b := .none, c := .none, mods := 0xF })
  | .brx f => some (f, { d := .none, a := .pair, b := .none, c := .none, mods := 0, latch := false })
  | .reform f => some (f, { d := .none, a := .v, b := .none, c := .none, mods := 0, latch := false })
  | .rayq f => some (f, { d := .v, a := .v, b := .block 16 4, c := .none, mods := 0, ctr := true })
  | .rayr f => some (f, { d := .quad, a := .v, b := .none, c := .none, mods := 3, ctr := true, latch := false })
  | .hitx f => some (f, { d := if f.bit 2 then .v else .quad, a := .none, b := .none, c := .none,
                          mods := 7, ctr := true, latch := false })
  | .texs f => some (f, { d := .quad, a := .regPair, b := .v, c := .none, mods := 0, ctr := true, latch := false })
  | .texg f => some (f, { d := .quad, a := .regPair, b := .v, c := .none, mods := 3, ctr := true, latch := false })
  | .texq f => some (f, { d := .quad, a := .none, b := .v, c := .none, mods := 0, ctr := true, latch := false })
  | .atreq f => some (f, { d := .v, a := .v, b := .none, c := .none, mods := 0, ctr := true })
  | .atget f => some (f, { d := .v, a := .none, b := .none, c := .none, mods := 0, ctr := true })
  | .prim f => some (f, { d := .v, a := .block 14 2, b := .block 4 4, c := .none, mods := 0, ctr := true })
  | .bara f => some (f, { d := .v, a := .none, b := .none, c := .none, mods := 0x3F, ctr := true,
                          ok := barrierIndexOk (f.field 5 4) (f.field 3 0) })
  | .barx f => some (f, { d := .v, a := .none, b := .none, c := .none, mods := 0x3F, ctr := true,
                          ok := barrierIndexOk (f.field 5 4) (f.field 3 0) })
  | .tbi f => some (f, { d := .v, a := .v, b := .none, c := .none, mods := 0x3F, ctr := true })
  | .tba f => some (f, { d := .v, a := .none, b := .none, c := .none, mods := 0x3F, ctr := true })
  | .tbe f => some (f, { d := .v, a := .v, b := .none, c := .none, mods := 0x3F, ctr := true })
  | .qsend f => some (f, { d := .v, a := .v, b := .pair, c := .none, mods := 1, ctr := true })
  | .spawn f => some (f, { d := .v, a := .v, b := .pair, c := .pair, mods := 0, ctr := true })
  | .cancel f => some (f, { d := .v, a := if f.bit 4 then .v else .none, b := .none, c := .none,
                            mods := 0x17, ctr := true,
                            ok := f.field 2 0 < 5 && !(f.bit 4 && (f.field 2 0 == 0 || f.field 2 0 == 4)) })
  | .cmpl f => some (f, { d := .v, a := if f.bit 4 then .v else .none, b := .none, c := .none,
                          mods := 0x1F, ctr := true,
                          ok := f.field 2 0 < 5 && !(f.bit 4 && (f.field 2 0 == 0 || f.field 2 0 == 4)) })
  | .cbput f => some (f, { d := .v, a := .v, b := .none, c := .none, mods := 0xF, ctr := true })
  | .cbputInit f => some (f, { d := .v, a := .v, b := .v, c := .none, mods := 0x1F, ctr := true, ok := f.bit 4 })
  | .svc f => some (f, { d := .v, a := .v, b := .pair, c := .none, mods := 0xFFF, ctr := true })
  | .trap f => some (f, { d := .none, a := .v, b := .none, c := .none, mods := 0xFFF, latch := false })
  | .bkpt f => some (f, { d := .none, a := .none, b := .none, c := .none, mods := 0, latch := false })
  | .chke f => some (f, { d := .v, a := .v, b := .none, c := .none, mods := 0 })
  | .rds f => some (f, { d := if selectWide (f.field 5 0) then .pair else .v, a := .none, b := .none,
                         c := .none, mods := 0x3F, ctr := true, ok := selectReadable .core (f.field 5 0) })
  | .wrs f => some (f, { d := .none, a := if selectWide (f.field 5 0) then .pair else .v, b := .none,
                         c := .none, mods := 0x3F, ctr := true, ok := selectWritable (f.field 5 0),
                         latch := false })
  | _ => none

/-- 13 R324: the data register of `QRECV`: an even pair up to 0x7E, or one m register. -/
def dataRegOk (ag : Agent) (n : Nat) : Bool :=
  match ag with
  | .core => n % 2 == 0 && n ≤ 0x7E
  | .coachman => n ≤ 0x1F

/-- The format W row of each waiting form (10 R244, 12 R290, 13 R324, 14 R335, R347, R351, 15 R377,
18 R443, 20 R465). -/
def Instr.specW (ag : Agent) : Instr → Option (FormW × SpecW)
  | .fence f => some (f, { a := .none, spec := 0x3F8, ok := f.field 9 6 != 0 && f.field 5 3 ≤ 4 && f.dst != .suppress })
  | .cpw f => some (f, { a := .v, spec := 1 })
  | .mwait f => some (f, { a := .v, spec := 1 })
  | .rayw f => some (f, { a := if f.x.spec.getLsbD 0 then .pair else .v, spec := 1 })
  | .barw f => some (f, { a := .v, spec := 0x3F, ok := barrierIndexOk (f.field 5 4) (f.field 3 0) })
  | .bars f => some (f, { a := .none, spec := 0x3F, ok := barrierIndexOk (f.field 5 4) (f.field 3 0) })
  | .tbw f => some (f, { a := .v, spec := 0x3F })
  | .qrecv f => some (f, { a := .v, spec := 0x3FD, ok := dataRegOk ag (f.field 9 2) })
  | .cbget f => some (f, { a := .v, spec := 0xF })
  | .svcw f => some (f, { a := .v, spec := 0x3FC, ok := f.field 9 2 ≤ 0x7F })
  | _ => none

/-- 03 R73: the forms the Coachman executes. The copy forms run on it alone. -/
def Instr.onCoachman : Instr → Bool
  | .iadd _ | .iadd3 _ | .isub _ | .addc _ | .imul _ | .imulh _ | .imad _ | .imin _ | .imax _
  | .andL _ | .orL _ | .xorL _ | .notL _ | .shl _ | .shr _ | .sar _ | .bfx _ | .bfi _ | .popc _
  | .clz _ | .ctz _ | .iset _ | .mov _ | .movi _ | .movh _ | .lea _
  | .cpy _ | .cps _ | .cpx _ | .cpg _ | .cpc _ | .cpw _ | .fence _
  | .bra _ | .brx _ | .call _ | .ret | .exitThread | .nop
  | .tbi _ | .tba _ | .tbe _ | .tbw _ | .qsend _ | .qrecv _ | .rds _ => true
  | _ => false

/-- 03 R73: the copy forms are illegal on the cores. -/
def Instr.copyForm : Instr → Bool
  | .cpy _ | .cps _ | .cpx _ | .cpg _ | .cpc _ | .cpw _ => true
  | _ => false

/-- 03 R64: `g` = 0 with the negate bit is illegal. -/
def Guard.wf (g : Guard) : Bool := !(g.neg && g.g == 0)

/-- 03 R57, R59, R73: a source field legal in its use. -/
def Src.wf (ag : Agent) (k : SKind) : Src → Bool
  | .reg n =>
    (ag == .core || n.toNat < 32) &&
    (match k with
     | .none => n == 0
     | .v => true
     | .pair | .regPair => ag == .coachman || n.toNat % 2 == 0
     | .pred => n.toNat < 8
     | .block m a => n.toNat % a == 0 && (ag == .core || n.toNat + m ≤ 32))
  | .latch _ => k == .v || k == .pair
  | .const _ => k == .v || k == .pair

/-- 03 R56, R59, R73: a destination field legal in its use. -/
def Dst.wf (ag : Agent) (k : DKind) : Dst → Bool
  | .reg n =>
    (ag == .core || n.toNat < 32) &&
    (match k with
     | .none => n == 0
     | .v => true
     | .pair => ag == .coachman || n.toNat % 2 == 0
     | .quad => n.toNat % 4 == 0
     | .pred => n.toNat < 8)
  | .suppress => k == .v || k == .pair

/-- 03 R68: the register pair of an absolute deadline is even; on the Coachman it is one m register. -/
def Deadline.wf (ag : Agent) : Deadline → Bool
  | .rel _ => true
  | .abs r => match ag with
    | .core => r.toNat % 2 == 0
    | .coachman => r.toNat < 32

/-- 03 R65, R74 3b: a format A form against its row. -/
def FormA.wf (ag : Agent) (f : FormA) (p : SpecA) : Bool :=
  f.dst.wf ag p.d && f.a.wf ag p.a && f.b.wf ag p.b && f.x.srcC.wf ag p.c
  && f.x.guard.wf && (f.x.mods &&& ~~~p.mods == 0)
  && (p.rnd || f.x.rnd == .rn) && (p.sat || !f.x.sat)
  && (if p.ctr && ag == .core then f.x.ctr.toNat ≤ 6 else f.x.ctr == 0) && p.ok

/-- 03 R68, R74 3b: a format W form against its row. -/
def FormW.wf (ag : Agent) (f : FormW) (p : SpecW) : Bool :=
  f.dst.wf ag .v && f.a.wf ag p.a && f.x.guard.wf && (f.x.spec &&& ~~~p.spec == 0)
  && f.x.deadline.wf ag && p.ok

/-- 08 R173: the fields of a branch with an offset. Only `CALLX` uses `SRCC` and the modifiers. -/
def FormB.wf (ag : Agent) (f : FormB) (table : Bool) : Bool :=
  f.x.guard.wf && f.x.ctr == 0 && f.x.rnd == .rn && !f.x.sat
  && f.x.srcC.wf ag (if table then .v else .none) && (table || f.x.mods == 0)

/-- 08 R173: `REPEAT` has 2 to 248 body words and an even address register up to 0x7C, or none. -/
def RepeatForm.wf (f : RepeatForm) : Bool :=
  2 ≤ f.words.toNat && f.words.toNat ≤ 248 && f.count.wf .core .v && f.guard.wf
  && (match f.addr with
      | .reg n => n.toNat % 2 == 0 && n.toNat ≤ 0x7C
      | .latch _ => false
      | .const c => c == 0)

/-- The number of bytes of a size code. -/
def Size.bytes : Size → Nat
  | .b1 => 1
  | .b2 => 2
  | .b4 => 4
  | .b8 => 8
  | .b16 => 16

/-- 10 R223: how a data source of a size is used. -/
def Size.srcKind : Size → SKind
  | .b8 => .pair
  | .b16 => .block 4 4
  | _ => .v

/-- 10 R223: how a data destination of a size is used. -/
def Size.dstKind : Size → DKind
  | .b8 => .pair
  | .b16 => .quad
  | _ => .v

/-- 10 R222, R226: the address source of G and H space is a pair, every other is 32 bits. -/
def addrKind (wide : Bool) : SKind := if wide then .pair else .v

/-- 10 R224: the fields common to the non-blocking memory forms. -/
def ExtM.wf (x : ExtM) : Bool := x.guard.wf && x.ctr.toNat ≤ 6

/-- 10 R222, R224: a load; `acq` says whether the form takes `.acq`. -/
def LoadForm.wf (f : LoadForm) (wide acq : Bool) : Bool :=
  f.x.wf && !f.x.mask && (!f.x.sext || f.x.size.bytes ≤ 2)
  && (f.x.ordering == .plain || (acq && f.x.ordering == .acq))
  && f.a.wf .core (addrKind wide) && (Dst.reg f.dst).wf .core f.x.size.dstKind

/-- 10 R222, R224: a store; `DST` is a source with the byte-mask bit and 0 without. -/
def StoreForm.wf (f : StoreForm) (wide rel : Bool) : Bool :=
  f.x.wf && !f.x.sext && (f.x.ordering == .plain || (rel && f.x.ordering == .rel))
  && f.a.wf .core (addrKind wide) && f.data.wf .core f.x.size.srcKind
  && f.maskSrc.wf .core (if f.x.mask then .v else .none)

/-- The operation field of an atomic or reduction (10 R224). -/
def ExtM.op (x : ExtM) : Nat := x.off.toNat / 512

/-- 10 R239: the operations, their sizes and their forms. -/
def atomOpOk (op : Nat) (size : Size) (reduction host : Bool) : Bool :=
  match size with
  | .b4 => op ≤ 16 && !(reduction && (op == 10 || op == 11)) && !(host && 12 ≤ op)
  | .b8 => op ≤ 11 && !(reduction && (op == 10 || op == 11))
  | _ => false

/-- 10 R222, R239: an atomic. -/
def AtomForm.wf (f : AtomForm) (wide host : Bool) : Bool :=
  f.x.wf && !f.x.sext && !f.x.mask && atomOpOk f.x.op f.x.size false host
  && f.a.wf .core (addrKind wide) && f.operand.wf .core f.x.size.srcKind
  && (Dst.reg f.dst).wf .core f.x.size.dstKind

/-- 10 R222, R239: a reduction takes `plain` and `.rel` only. -/
def RedForm.wf (f : RedForm) (wide : Bool) : Bool :=
  f.x.wf && !f.x.sext && !f.x.mask && f.x.ordering != .acq && atomOpOk f.x.op f.x.size true false
  && f.a.wf .core (addrKind wide) && f.operand.wf .core f.x.size.srcKind

/-- 10 R222, R224: `PREF`. -/
def PrefForm.wf (f : PrefForm) : Bool :=
  f.x.guard.wf && f.x.ctr == 0 && f.x.scope == .dev && f.x.ordering == .plain && f.x.size == .b4
  && !f.x.sext && !f.x.mask && f.a.wf .core .pair

/-- 10 R222, R235: a blocking load of 1 to 8 bytes. -/
def BlockForm.wf (f : BlockForm) (wide : Bool) : Bool :=
  f.x.guard.wf && f.x.ordering != .rel && f.x.size != .b16 && (!f.x.sext || f.x.size.bytes ≤ 2)
  && f.x.deadline.wf .core && f.a.wf .core (addrKind wide) && f.cmp.wf .core f.x.size.srcKind
  && (Dst.reg f.dst).wf .core f.x.size.dstKind

/-- 03 R56, R59, 14 R334: `MOVI` and `MOVH`; `MOVH` names an even register on a core. -/
def FormI.wf (ag : Agent) (f : FormI) (high : Bool) : Bool := f.dst.wf ag (if high then .pair else .v)

/-- Check 3b on a core, and the part of it the Coachman shares. -/
def Instr.fieldsOk (ag : Agent) (i : Instr) : Bool :=
  match i.specA with
  | some (f, p) => f.wf ag p
  | none =>
    match i.specW ag with
    | some (f, p) => f.wf ag p
    | none =>
      match i with
      | .movi f => f.wf ag false
      | .movh f => f.wf ag true
      | .bra f => f.wf ag false
      | .call f => f.wf ag false
      | .callx f => f.wf ag true
      | .ret | .exitThread | .nop | .yieldThread => true
      | .repeatLoop f => f.wf
      | .ldl f => f.wf false false
      | .lds f => f.wf false true
      | .ldc f => f.wf false true
      | .ldk f => f.wf false false
      | .ldg f => f.wf true true
      | .ldh f => f.wf true true
      | .stl f => f.wf false false
      | .sts f => f.wf false true
      | .stc f => f.wf false true
      | .stg f => f.wf true true
      | .sth f => f.wf true true
      | .ldcBlock f => f.wf false
      | .ldgBlock f => f.wf true
      | .ldhBlock f => f.wf true
      | .ats f => f.wf false false
      | .atc f => f.wf false false
      | .atg f => f.wf true false
      | .ath f => f.wf true true
      | .reds f => f.wf false
      | .redg f => f.wf true
      | .pref f => f.wf
      | _ => false

/-- 14 R334: what the Coachman adds: `ISET` writes a register, and its selects exclude the bound
registers (20 R471). -/
def Instr.coachOk : Instr → Bool
  | .iset f => f.bit 4
  | .rds f => selectReadable .coachman (f.field 5 0)
  | _ => true

/-- 03 R73, check 3a: the agent executes this form. -/
def Instr.legalOn (ag : Agent) (i : Instr) : Bool :=
  match ag with
  | .core => !i.copyForm
  | .coachman => i.onCoachman

/-- A well-formed instruction of an agent: checks 3a and 3b of 03 R74. Device events are not words. -/
def Instr.wf (ag : Agent) (i : Instr) : Bool :=
  i.legalOn ag && i.fieldsOk ag && (ag == .core || i.coachOk)

/-! ### Latches and registers an instruction names (checks 3d and 3e) -/

/-- The latch a source names. -/
def Src.latches : Src → List Nat
  | .latch j => [j.toNat]
  | _ => []

/-- One past the highest lane register a source of a kind names, 0 for none. -/
def Src.top (k : SKind) : Src → Nat
  | .reg n => match k with
    | .none | .pred => 0
    | .v => n.toNat + 1
    | .pair | .regPair => n.toNat + 2
    | .block m _ => n.toNat + m
  | _ => 0

/-- One past the highest lane register a destination of a kind names, 0 for none. -/
def Dst.top (k : DKind) : Dst → Nat
  | .reg n => match k with
    | .none | .pred => 0
    | .v => n.toNat + 1
    | .pair => n.toNat + 2
    | .quad => n.toNat + 4
  | .suppress => 0

/-- One past the highest lane register an absolute deadline names. -/
def Deadline.top : Deadline → Nat
  | .rel _ => 0
  | .abs r => r.toNat + 2

/-- The latches an instruction reads. -/
def Instr.latchReads (i : Instr) : List Nat :=
  match i.specA with
  | some (f, _) => f.a.latches ++ f.b.latches ++ f.x.srcC.latches
  | none =>
    match i.specW .core with
    | some (f, _) => f.a.latches
    | none =>
      match i with
      | .callx f => f.x.srcC.latches
      | .repeatLoop f => f.count.latches
      | .ldl f | .lds f | .ldc f | .ldk f | .ldg f | .ldh f => f.a.latches
      | .stl f | .sts f | .stc f | .stg f | .sth f => f.maskSrc.latches ++ f.a.latches ++ f.data.latches
      | .ldcBlock f | .ldgBlock f | .ldhBlock f => f.a.latches ++ f.cmp.latches
      | .ats f | .atc f | .atg f | .ath f => f.a.latches ++ f.operand.latches
      | .reds f | .redg f => f.a.latches ++ f.operand.latches
      | .pref f => f.a.latches
      | _ => []

/-- Whether an instruction is a writer of its latch (03 R60, R56): a class-2 clause holds none (10 R225). Waiting forms write
at the end of their wait, which is past the clause. -/
def Instr.writesLatch (i : Instr) : Bool :=
  match i.specA with
  | some (_, p) => p.latch
  | none => match i with
    | .movi _ | .movh _ => true
    | _ => false

/-- One past the highest lane register an instruction names, for check 3e (05 R99). -/
def Instr.regTop (i : Instr) : Nat :=
  match i.specA with
  | some (f, p) => max (max (f.dst.top p.d) (f.a.top p.a)) (max (f.b.top p.b) (f.x.srcC.top p.c))
  | none =>
    match i.specW .core with
    | some (f, p) =>
      max (max (f.dst.top .v) (f.a.top p.a)) (max f.x.deadline.top
        (match i with
         | .qrecv g => g.field 9 2 + 2
         | .svcw g => g.field 9 2 + 1
         | _ => 0))
    | none =>
      match i with
      | .movi f => f.dst.top .v
      | .movh f => f.dst.top .pair
      | .callx f => f.x.srcC.top .v
      | .repeatLoop f => max (f.count.top .v) (f.addr.top .pair)
      | .ldl f | .lds f | .ldc f | .ldk f => max (f.a.top .v) ((Dst.reg f.dst).top f.x.size.dstKind)
      | .ldg f | .ldh f => max (f.a.top .pair) ((Dst.reg f.dst).top f.x.size.dstKind)
      | .stl f | .sts f | .stc f =>
        max (max (f.a.top .v) (f.data.top f.x.size.srcKind))
          (f.maskSrc.top (if f.x.mask then .v else .none))
      | .stg f | .sth f =>
        max (max (f.a.top .pair) (f.data.top f.x.size.srcKind))
          (f.maskSrc.top (if f.x.mask then .v else .none))
      | .ldcBlock f =>
        max (max (f.a.top .v) (f.cmp.top f.x.size.srcKind))
          (max ((Dst.reg f.dst).top f.x.size.dstKind) f.x.deadline.top)
      | .ldgBlock f | .ldhBlock f =>
        max (max (f.a.top .pair) (f.cmp.top f.x.size.srcKind))
          (max ((Dst.reg f.dst).top f.x.size.dstKind) f.x.deadline.top)
      | .ats f | .atc f =>
        max (max (f.a.top .v) (f.operand.top f.x.size.srcKind)) ((Dst.reg f.dst).top f.x.size.dstKind)
      | .atg f | .ath f =>
        max (max (f.a.top .pair) (f.operand.top f.x.size.srcKind)) ((Dst.reg f.dst).top f.x.size.dstKind)
      | .reds f => max (f.a.top .v) (f.operand.top f.x.size.srcKind)
      | .redg f => max (f.a.top .pair) (f.operand.top f.x.size.srcKind)
      | .pref f => f.a.top .pair
      | _ => 0

end Sys2Proof
end

