-- ==== Sys2Proof/Decode.lean ====
section
/-!
DEFINITION. Words to instructions and back: the clause header, the base word, the four extension
formats (03 R52-R72), the checks of 03 R74 over a whole clause, and the encoder. Total on any words;
every rejection has a name.
-/

namespace Sys2Proof

/-! ### The opcode map -/

/-- 03 R70: the forms with a format A word and three 8-bit fields. -/
def mkA (op : Nat) : Option (FormA → Instr) :=
  match op with
  | 0x00 => some .iadd
  | 0x01 => some .iadd3
  | 0x02 => some .isub
  | 0x03 => some .addc
  | 0x04 => some .imul
  | 0x05 => some .imulh
  | 0x06 => some .imad
  | 0x07 => some .imadw
  | 0x08 => some .imin
  | 0x09 => some .imax
  | 0x0A => some .iabs
  | 0x0B => some .ineg
  | 0x0C => some .andL
  | 0x0D => some .orL
  | 0x0E => some .xorL
  | 0x0F => some .notL
  | 0x10 => some .logt
  | 0x11 => some .shl
  | 0x12 => some .shr
  | 0x13 => some .sar
  | 0x14 => some .fsh
  | 0x15 => some .rotl
  | 0x16 => some .bfx
  | 0x17 => some .bfi
  | 0x18 => some .popc
  | 0x19 => some .clz
  | 0x1A => some .ctz
  | 0x1B => some .brev
  | 0x1C => some .bsel
  | 0x1D => some .iset
  | 0x1E => some .sel
  | 0x1F => some .mov
  | 0x22 => some .lea
  | 0x23 => some .leaw
  | 0x24 => some .plop
  | 0x25 => some .fadd
  | 0x26 => some .fsub
  | 0x27 => some .fmul
  | 0x28 => some .ffma
  | 0x29 => some .fmin
  | 0x2A => some .fmax
  | 0x2B => some .fset
  | 0x2C => some .frnd
  | 0x2D => some .fclass
  | 0x2E => some .f2i
  | 0x2F => some .i2f
  | 0x30 => some .f2f
  | 0x31 => some .hadd2
  | 0x32 => some .hmul2
  | 0x33 => some .hfma2
  | 0x34 => some .hmin2
  | 0x35 => some .hmax2
  | 0x36 => some .badd2
  | 0x37 => some .bmul2
  | 0x38 => some .bfma2
  | 0x39 => some .shfl
  | 0x3A => some .vote
  | 0x3B => some .redux
  | 0x3C => some .pscan
  | 0x3D => some .matchLanes
  | 0x40 => some .frcp
  | 0x41 => some .frsq
  | 0x42 => some .fsqrt
  | 0x43 => some .fex2
  | 0x44 => some .flg2
  | 0x45 => some .fsin
  | 0x46 => some .fcos
  | 0x47 => some .ftanh
  | 0x48 => some .cvt8
  | 0x49 => some .cvt4
  | 0x4A => some .cvtl
  | 0x4B => some .scv
  | 0x68 => some .cpy
  | 0x69 => some .cps
  | 0x6A => some .cpx
  | 0x6B => some .cpg
  | 0x6C => some .cpc
  | 0x70 => some .mmal6
  | 0x71 => some .mmae2
  | 0x72 => some .mmaf8a
  | 0x73 => some .mmaf8b
  | 0x74 => some .mmab16
  | 0x75 => some .mmai8
  | 0x76 => some .rsv
  | 0x77 => some .rls
  | 0x78 => some .accz
  | 0x79 => some .accld
  | 0x7A => some .accst
  | 0x7B => some .accrd
  | 0x7D => some .kdecl
  | 0x7E => some .sign
  | 0x81 => some .brx
  | 0x86 => some .reform
  | 0x90 => some .rayq
  | 0x92 => some .rayr
  | 0x93 => some .hitx
  | 0x94 => some .texs
  | 0x95 => some .texg
  | 0x96 => some .texq
  | 0x97 => some .atreq
  | 0x98 => some .atget
  | 0x99 => some .prim
  | 0xA0 => some .bara
  | 0xA3 => some .barx
  | 0xA4 => some .tbi
  | 0xA5 => some .tba
  | 0xA6 => some .tbe
  | 0xA8 => some .qsend
  | 0xAA => some .spawn
  | 0xAB => some .cancel
  | 0xAC => some .cmpl
  | 0xAE => some fun f => if f.bit 4 then .cbputInit f else .cbput f
  | 0xB0 => some .svc
  | 0xB2 => some .trap
  | 0xB3 => some .bkpt
  | 0xB4 => some .chke
  | 0xB5 => some .rds
  | 0xB6 => some .wrs
  | _ => none

/-- 03 R70: the branch forms with a 24-bit offset. -/
def mkB (op : Nat) : Option (FormB → Instr) :=
  match op with
  | 0x80 => some .bra
  | 0x82 => some .call
  | 0x83 => some .callx
  | _ => none

/-- 03 R70: the forms with an immediate. -/
def mkI (op : Nat) : Option (FormI → Instr) :=
  match op with
  | 0x20 => some .movi
  | 0x21 => some .movh
  | _ => none

/-- 03 R70: the waiting forms of format W. -/
def mkW (op : Nat) : Option (FormW → Instr) :=
  match op with
  | 0x61 => some .fence
  | 0x6D => some .cpw
  | 0x7C => some .mwait
  | 0x91 => some .rayw
  | 0xA1 => some .barw
  | 0xA2 => some .bars
  | 0xA7 => some .tbw
  | 0xA9 => some .qrecv
  | 0xAD => some .cbget
  | 0xB1 => some .svcw
  | _ => none

/-- 03 R70: the loads, without bit 27 of format M. -/
def mkLoad (op : Nat) : Option (LoadForm → Instr) :=
  match op with
  | 0x50 => some .ldl
  | 0x52 => some .lds
  | 0x54 => some .ldc
  | 0x56 => some .ldk
  | 0x57 => some .ldg
  | 0x59 => some .ldh
  | _ => none

/-- 03 R67, R72: the loads that accept bit 27 of format M. -/
def mkBlock (op : Nat) : Option (BlockForm → Instr) :=
  match op with
  | 0x54 => some .ldcBlock
  | 0x57 => some .ldgBlock
  | 0x59 => some .ldhBlock
  | _ => none

/-- 03 R70: the stores. -/
def mkStore (op : Nat) : Option (StoreForm → Instr) :=
  match op with
  | 0x51 => some .stl
  | 0x53 => some .sts
  | 0x55 => some .stc
  | 0x58 => some .stg
  | 0x5A => some .sth
  | _ => none

/-- 03 R70: the atomics. -/
def mkAtom (op : Nat) : Option (AtomForm → Instr) :=
  match op with
  | 0x5B => some .ats
  | 0x5C => some .atc
  | 0x5D => some .atg
  | 0x5E => some .ath
  | _ => none

/-- 03 R70: the reductions. -/
def mkRed (op : Nat) : Option (RedForm → Instr) :=
  match op with
  | 0x5F => some .reds
  | 0x60 => some .redg
  | _ => none

/-- 03 R70: the forms with no operand and no extension word (03 R72). -/
def mkPlain (op : Nat) : Option Instr :=
  match op with
  | 0x84 => some .ret
  | 0x85 => some .exitThread
  | 0x88 => some .nop
  | 0x89 => some .yieldThread
  | _ => none

/-- The operand form of an instruction term, for the encoder. -/
inductive Form where
  | a (f : FormA)
  | b (f : FormB)
  | i (f : FormI)
  | w (f : FormW)
  | load (f : LoadForm)
  | block (f : BlockForm)
  | store (f : StoreForm)
  | atom (f : AtomForm)
  | red (f : RedForm)
  | pref (f : PrefForm)
  | rep (f : RepeatForm)
  | plain
  deriving DecidableEq, Repr

/-- 03 R70: the opcode and operand form of each instruction; a device event has none. -/
def Instr.parts : Instr → Option (BitVec 8 × Form)
  | .iadd f => some (0x00, .a f)
  | .iadd3 f => some (0x01, .a f)
  | .isub f => some (0x02, .a f)
  | .addc f => some (0x03, .a f)
  | .imul f => some (0x04, .a f)
  | .imulh f => some (0x05, .a f)
  | .imad f => some (0x06, .a f)
  | .imadw f => some (0x07, .a f)
  | .imin f => some (0x08, .a f)
  | .imax f => some (0x09, .a f)
  | .iabs f => some (0x0A, .a f)
  | .ineg f => some (0x0B, .a f)
  | .andL f => some (0x0C, .a f)
  | .orL f => some (0x0D, .a f)
  | .xorL f => some (0x0E, .a f)
  | .notL f => some (0x0F, .a f)
  | .logt f => some (0x10, .a f)
  | .shl f => some (0x11, .a f)
  | .shr f => some (0x12, .a f)
  | .sar f => some (0x13, .a f)
  | .fsh f => some (0x14, .a f)
  | .rotl f => some (0x15, .a f)
  | .bfx f => some (0x16, .a f)
  | .bfi f => some (0x17, .a f)
  | .popc f => some (0x18, .a f)
  | .clz f => some (0x19, .a f)
  | .ctz f => some (0x1A, .a f)
  | .brev f => some (0x1B, .a f)
  | .bsel f => some (0x1C, .a f)
  | .iset f => some (0x1D, .a f)
  | .sel f => some (0x1E, .a f)
  | .mov f => some (0x1F, .a f)
  | .lea f => some (0x22, .a f)
  | .leaw f => some (0x23, .a f)
  | .plop f => some (0x24, .a f)
  | .fadd f => some (0x25, .a f)
  | .fsub f => some (0x26, .a f)
  | .fmul f => some (0x27, .a f)
  | .ffma f => some (0x28, .a f)
  | .fmin f => some (0x29, .a f)
  | .fmax f => some (0x2A, .a f)
  | .fset f => some (0x2B, .a f)
  | .frnd f => some (0x2C, .a f)
  | .fclass f => some (0x2D, .a f)
  | .f2i f => some (0x2E, .a f)
  | .i2f f => some (0x2F, .a f)
  | .f2f f => some (0x30, .a f)
  | .hadd2 f => some (0x31, .a f)
  | .hmul2 f => some (0x32, .a f)
  | .hfma2 f => some (0x33, .a f)
  | .hmin2 f => some (0x34, .a f)
  | .hmax2 f => some (0x35, .a f)
  | .badd2 f => some (0x36, .a f)
  | .bmul2 f => some (0x37, .a f)
  | .bfma2 f => some (0x38, .a f)
  | .shfl f => some (0x39, .a f)
  | .vote f => some (0x3A, .a f)
  | .redux f => some (0x3B, .a f)
  | .pscan f => some (0x3C, .a f)
  | .matchLanes f => some (0x3D, .a f)
  | .frcp f => some (0x40, .a f)
  | .frsq f => some (0x41, .a f)
  | .fsqrt f => some (0x42, .a f)
  | .fex2 f => some (0x43, .a f)
  | .flg2 f => some (0x44, .a f)
  | .fsin f => some (0x45, .a f)
  | .fcos f => some (0x46, .a f)
  | .ftanh f => some (0x47, .a f)
  | .cvt8 f => some (0x48, .a f)
  | .cvt4 f => some (0x49, .a f)
  | .cvtl f => some (0x4A, .a f)
  | .scv f => some (0x4B, .a f)
  | .cpy f => some (0x68, .a f)
  | .cps f => some (0x69, .a f)
  | .cpx f => some (0x6A, .a f)
  | .cpg f => some (0x6B, .a f)
  | .cpc f => some (0x6C, .a f)
  | .mmal6 f => some (0x70, .a f)
  | .mmae2 f => some (0x71, .a f)
  | .mmaf8a f => some (0x72, .a f)
  | .mmaf8b f => some (0x73, .a f)
  | .mmab16 f => some (0x74, .a f)
  | .mmai8 f => some (0x75, .a f)
  | .rsv f => some (0x76, .a f)
  | .rls f => some (0x77, .a f)
  | .accz f => some (0x78, .a f)
  | .accld f => some (0x79, .a f)
  | .accst f => some (0x7A, .a f)
  | .accrd f => some (0x7B, .a f)
  | .kdecl f => some (0x7D, .a f)
  | .sign f => some (0x7E, .a f)
  | .brx f => some (0x81, .a f)
  | .reform f => some (0x86, .a f)
  | .rayq f => some (0x90, .a f)
  | .rayr f => some (0x92, .a f)
  | .hitx f => some (0x93, .a f)
  | .texs f => some (0x94, .a f)
  | .texg f => some (0x95, .a f)
  | .texq f => some (0x96, .a f)
  | .atreq f => some (0x97, .a f)
  | .atget f => some (0x98, .a f)
  | .prim f => some (0x99, .a f)
  | .bara f => some (0xA0, .a f)
  | .barx f => some (0xA3, .a f)
  | .tbi f => some (0xA4, .a f)
  | .tba f => some (0xA5, .a f)
  | .tbe f => some (0xA6, .a f)
  | .qsend f => some (0xA8, .a f)
  | .spawn f => some (0xAA, .a f)
  | .cancel f => some (0xAB, .a f)
  | .cmpl f => some (0xAC, .a f)
  | .cbput f => some (0xAE, .a f)
  | .cbputInit f => some (0xAE, .a f)
  | .svc f => some (0xB0, .a f)
  | .trap f => some (0xB2, .a f)
  | .bkpt f => some (0xB3, .a f)
  | .chke f => some (0xB4, .a f)
  | .rds f => some (0xB5, .a f)
  | .wrs f => some (0xB6, .a f)
  | .movi f => some (0x20, .i f)
  | .movh f => some (0x21, .i f)
  | .ldl f => some (0x50, .load f)
  | .lds f => some (0x52, .load f)
  | .ldc f => some (0x54, .load f)
  | .ldk f => some (0x56, .load f)
  | .ldg f => some (0x57, .load f)
  | .ldh f => some (0x59, .load f)
  | .stl f => some (0x51, .store f)
  | .sts f => some (0x53, .store f)
  | .stc f => some (0x55, .store f)
  | .stg f => some (0x58, .store f)
  | .sth f => some (0x5A, .store f)
  | .ats f => some (0x5B, .atom f)
  | .atc f => some (0x5C, .atom f)
  | .atg f => some (0x5D, .atom f)
  | .ath f => some (0x5E, .atom f)
  | .reds f => some (0x5F, .red f)
  | .redg f => some (0x60, .red f)
  | .fence f => some (0x61, .w f)
  | .cpw f => some (0x6D, .w f)
  | .mwait f => some (0x7C, .w f)
  | .rayw f => some (0x91, .w f)
  | .barw f => some (0xA1, .w f)
  | .bars f => some (0xA2, .w f)
  | .tbw f => some (0xA7, .w f)
  | .qrecv f => some (0xA9, .w f)
  | .cbget f => some (0xAD, .w f)
  | .svcw f => some (0xB1, .w f)
  | .pref f => some (0x62, .pref f)
  | .bra f => some (0x80, .b f)
  | .call f => some (0x82, .b f)
  | .callx f => some (0x83, .b f)
  | .ret => some (0x84, .plain)
  | .exitThread => some (0x85, .plain)
  | .nop => some (0x88, .plain)
  | .yieldThread => some (0x89, .plain)
  | .repeatLoop f => some (0x87, .rep f)
  | .ldcBlock f => some (0x54, .block f)
  | .ldgBlock f => some (0x57, .block f)
  | .ldhBlock f => some (0x59, .block f)
  | _ => none

/-! ### Fields of a word -/

/-- Bits hi:lo of a word as a bit vector of width w (w = hi + 1 − lo at every use). -/
def bits (x : Word) (lo w : Nat) : BitVec w := x.extractLsb' lo w

/-- Why a word is not an instruction; every one is `ILLEGAL_ENCODING` (03 R74). -/
inductive DecodeError where
  | unassigned (op : BitVec 8)
  | extensionMissing
  | extensionForbidden
  | badDst
  | badSrcA
  | badSrcB
  | badSrcC
  | badRounding
  | badScope
  | badOrdering
  | badSize
  | badDeadline
  | badField
  deriving DecidableEq, Repr

/-- 03 R57: a source field; 0x84 to 0xBF are illegal. -/
def decSrc (b : BitVec 8) : Option Src :=
  if b.toNat < 0x80 then some (.reg (b.setWidth 7))
  else if b.toNat < 0x84 then some (.latch (b.setWidth 2))
  else if b.toNat < 0xC0 then none
  else some (.const (b.setWidth 6))

/-- 03 R57. -/
def encSrc : Src → BitVec 8
  | .reg n => n.setWidth 8
  | .latch j => 0x80#8 ||| j.setWidth 8
  | .const c => 0xC0#8 ||| c.setWidth 8

/-- 03 R56: a destination field; 0x81 to 0xFF are illegal. -/
def decDst (b : BitVec 8) : Option Dst :=
  if b.toNat < 0x80 then some (.reg (b.setWidth 7))
  else if b.toNat = 0x80 then some .suppress
  else none

/-- 03 R56. -/
def encDst : Dst → BitVec 8
  | .reg n => n.setWidth 8
  | .suppress => 0x80#8

/-- 03 R64. -/
def decGuard (x : Word) : Guard := { neg := x.getLsbD 31, g := bits x 28 3 }

/-- 03 R64: bits 31:28. -/
def encGuard (g : Guard) : Word := (if g.neg then 0x80000000#32 else 0) ||| (g.g.setWidth 32 <<< 28)

/-- 03 R65. -/
def decRnd (b : BitVec 3) : Option Rnd :=
  match b.toNat with
  | 0 => some .rn
  | 1 => some .rz
  | 2 => some .ru
  | 3 => some .rd
  | 4 => some .rna
  | _ => none

/-- 03 R65. -/
def encRnd : Rnd → BitVec 3
  | .rn => 0
  | .rz => 1
  | .ru => 2
  | .rd => 3
  | .rna => 4

/-- 03 R67. -/
def decScope (b : BitVec 3) : Option Scope :=
  match b.toNat with
  | 0 => some .dev
  | 1 => some .blk
  | 2 => some .cls
  | 3 => some .die
  | 4 => some .sys
  | _ => none

/-- 03 R67. -/
def encScope : Scope → BitVec 3
  | .dev => 0
  | .blk => 1
  | .cls => 2
  | .die => 3
  | .sys => 4

/-- 03 R67. -/
def decOrdering (b : BitVec 2) : Option Ordering3 :=
  match b.toNat with
  | 0 => some .plain
  | 1 => some .acq
  | 2 => some .rel
  | _ => none

/-- 03 R67. -/
def encOrdering : Ordering3 → BitVec 2
  | .plain => 0
  | .acq => 1
  | .rel => 2

/-- 03 R67. -/
def decSize (b : BitVec 3) : Option Size :=
  match b.toNat with
  | 0 => some .b1
  | 1 => some .b2
  | 2 => some .b4
  | 3 => some .b8
  | 4 => some .b16
  | _ => none

/-- 03 R67. -/
def encSize : Size → BitVec 3
  | .b1 => 0
  | .b2 => 1
  | .b4 => 2
  | .b8 => 3
  | .b16 => 4

/-- 03 R68: the deadline kind and its 16-bit field. -/
def decDeadline (kind : Bool) (b : BitVec 16) : Option Deadline :=
  if !kind then some (.rel b)
  else if b.toNat < 0x80 then some (.abs (b.setWidth 7))
  else none

/-- 03 R68: the deadline field; the kind bit is `Deadline.kind`. -/
def encDeadline : Deadline → BitVec 16
  | .rel u => u
  | .abs r => r.setWidth 16

/-- 03 R68: the deadline kind bit. -/
def Deadline.kind : Deadline → Bool
  | .rel _ => false
  | .abs _ => true

/-! ### Extension words -/

/-- 03 R65. -/
def decExtA (x : Word) : Except DecodeError ExtA :=
  match decSrc (bits x 17 8) with
  | none => .error .badSrcC
  | some c =>
    match decRnd (bits x 14 3) with
    | none => .error .badRounding
    | some r => .ok { guard := decGuard x, ctr := bits x 25 3, srcC := c, rnd := r,
                      sat := x.getLsbD 13, mods := bits x 0 13 }

/-- 03 R65. -/
def encExtA (e : ExtA) : Word :=
  encGuard e.guard ||| (e.ctr.setWidth 32 <<< 25) ||| ((encSrc e.srcC).setWidth 32 <<< 17)
    ||| ((encRnd e.rnd).setWidth 32 <<< 14) ||| (if e.sat then 0x2000#32 else 0) ||| e.mods.setWidth 32

/-- 03 R67, bit 27 = 0. -/
def decExtM (x : Word) : Except DecodeError ExtM :=
  match decScope (bits x 21 3) with
  | none => .error .badScope
  | some s =>
    match decOrdering (bits x 19 2) with
    | none => .error .badOrdering
    | some o =>
      match decSize (bits x 16 3) with
      | none => .error .badSize
      | some z => .ok { guard := decGuard x, ctr := bits x 24 3, scope := s, ordering := o, size := z,
                        sext := x.getLsbD 15, mask := x.getLsbD 14, off := bits x 0 14 }

/-- 03 R67, bit 27 = 0. -/
def encExtM (e : ExtM) : Word :=
  encGuard e.guard ||| (e.ctr.setWidth 32 <<< 24) ||| ((encScope e.scope).setWidth 32 <<< 21)
    ||| ((encOrdering e.ordering).setWidth 32 <<< 19) ||| ((encSize e.size).setWidth 32 <<< 16)
    ||| (if e.sext then 0x8000#32 else 0) ||| (if e.mask then 0x4000#32 else 0) ||| e.off.setWidth 32

/-- 03 R67, bit 27 = 1. -/
def decExtMB (x : Word) : Except DecodeError ExtMB :=
  match decScope (bits x 24 3) with
  | none => .error .badScope
  | some s =>
    match decOrdering (bits x 22 2) with
    | none => .error .badOrdering
    | some o =>
      match decSize (bits x 19 3) with
      | none => .error .badSize
      | some z =>
        match decDeadline (x.getLsbD 16) (bits x 0 16) with
        | none => .error .badDeadline
        | some d => .ok { guard := decGuard x, scope := s, ordering := o, size := z,
                          sext := x.getLsbD 18, esc := x.getLsbD 17, deadline := d }

/-- 03 R67, bit 27 = 1. -/
def encExtMB (e : ExtMB) : Word :=
  encGuard e.guard ||| 0x08000000#32 ||| ((encScope e.scope).setWidth 32 <<< 24)
    ||| ((encOrdering e.ordering).setWidth 32 <<< 22) ||| ((encSize e.size).setWidth 32 <<< 19)
    ||| (if e.sext then 0x40000#32 else 0) ||| (if e.esc then 0x20000#32 else 0)
    ||| (if e.deadline.kind then 0x10000#32 else 0) ||| (encDeadline e.deadline).setWidth 32

/-- 03 R68. -/
def decExtW (x : Word) : Except DecodeError ExtW :=
  match decDeadline (x.getLsbD 27) (bits x 0 16) with
  | none => .error .badDeadline
  | some d => .ok { guard := decGuard x, esc := x.getLsbD 26, spec := bits x 16 10, deadline := d }

/-- 03 R68. -/
def encExtW (e : ExtW) : Word :=
  encGuard e.guard ||| (if e.deadline.kind then 0x08000000#32 else 0)
    ||| (if e.esc then 0x04000000#32 else 0) ||| (e.spec.setWidth 32 <<< 16)
    ||| (encDeadline e.deadline).setWidth 32

/-- 03 R63: an absent format A word acts as the all-zero word. -/
def defaultA : Word := 0

/-- 03 R63: an absent format M word acts as the word of size code 2, zero elsewhere. -/
def defaultM : Word := 0x00020000#32

/-! ### One instruction -/

/-- 03 R72: whether a form's extension word must be absent, present, or is optional. -/
inductive ExtRule where
  | forbidden | required | optional
  deriving DecidableEq, Repr

/-- 03 R72. -/
def extRule (op : Nat) : ExtRule :=
  match op with
  | 0x84 | 0x85 | 0x88 | 0x89 => .forbidden
  | 0x20 | 0x21 => .required
  | 0x01 | 0x06 | 0x07 | 0x10 | 0x14 | 0x17 | 0x24 | 0x28 | 0x33 | 0x38 | 0x87 => .required
  | 0xA1 | 0xA2 | 0xA7 | 0xAD | 0x6D | 0x7C | 0xA9 | 0x91 | 0xB1 | 0x61 => .required
  | _ => .optional

/-- The base word's fields as destination and two sources. -/
def decFields (base : Word) : Except DecodeError (Dst × Src × Src) :=
  match decDst (bits base 16 8) with
  | none => .error .badDst
  | some d =>
    match decSrc (bits base 8 8) with
    | none => .error .badSrcA
    | some a =>
      match decSrc (bits base 0 8) with
      | none => .error .badSrcB
      | some b => .ok (d, a, b)

/-- The `DST` field of a memory form: bit 7 set is illegal (10 R225). -/
def decDst7 (base : Word) : Except DecodeError (BitVec 7) :=
  if base.getLsbD 23 then .error .badDst else .ok (bits base 16 7)

/-- The two source fields. -/
def decSrcs (base : Word) : Except DecodeError (Src × Src) :=
  match decSrc (bits base 8 8) with
  | none => .error .badSrcA
  | some a =>
    match decSrc (bits base 0 8) with
    | none => .error .badSrcB
    | some b => .ok (a, b)

/-- 08 R173: `REPEAT` reads its fields in its own way. -/
def decRepeat (base x : Word) : Except DecodeError RepeatForm :=
  match decSrcs base with
  | .error e => .error e
  | .ok (c, a) =>
    if bits x 25 3 != 0 || bits x 23 2 != 0 || bits x 12 5 != 0 then .error .badField
    else .ok { words := bits base 16 8, count := c, addr := a, guard := decGuard x,
               tileStep := bits x 17 3, clauses := bits x 20 3, dStep := bits x 0 3,
               aStep := bits x 3 3, bStep := bits x 6 3, cStep := bits x 9 3 }

/-- A base word and its extension word, if it has one, read field by field. The remaining checks of
03 R74 step 3b are `Instr.wf`. -/
def decodeWords (base : Word) (ext : Option Word) : Except DecodeError Instr :=
  let op := (bits base 24 8).toNat
  match extRule op, ext with
  | .forbidden, some _ => .error .extensionForbidden
  | .required, none => .error .extensionMissing
  | _, _ =>
    match mkA op with
    | some k =>
      match decFields base with
      | .error e => .error e
      | .ok (d, a, b) =>
        match decExtA (ext.getD defaultA) with
        | .error e => .error e
        | .ok x => .ok (k { dst := d, a := a, b := b, x := x })
    | none =>
    match mkB op with
    | some k =>
      match decExtA (ext.getD defaultA) with
      | .error e => .error e
      | .ok x => .ok (k { off := bits base 0 24, x := x })
    | none =>
    match mkI op with
    | some k =>
      if bits base 0 16 != 0 then .error .badField
      else
        match decDst (bits base 16 8) with
        | none => .error .badDst
        | some d => .ok (k { dst := d, imm := ext.getD 0 })
    | none =>
    match mkW op with
    | some k =>
      if bits base 0 8 != 0 then .error .badSrcB
      else
        match decFields base with
        | .error e => .error e
        | .ok (d, a, _) =>
          match decExtW (ext.getD 0) with
          | .error e => .error e
          | .ok x => .ok (k { dst := d, a := a, x := x })
    | none =>
    match mkLoad op with
    | some k =>
      let x := ext.getD defaultM
      match decDst7 base with
      | .error e => .error e
      | .ok d =>
        match decSrcs base with
        | .error e => .error e
        | .ok (a, b) =>
          if x.getLsbD 27 then
            match mkBlock op with
            | none => .error .badField
            | some kb =>
              match decExtMB x with
              | .error e => .error e
              | .ok m => .ok (kb { dst := d, a := a, cmp := b, x := m })
          else if bits base 0 8 != 0 then .error .badSrcB
          else
            match decExtM x with
            | .error e => .error e
            | .ok m => .ok (k { dst := d, a := a, x := m })
    | none =>
    match mkStore op with
    | some k =>
      let x := ext.getD defaultM
      if x.getLsbD 27 then .error .badField
      else
        match decSrc (bits base 16 8) with
        | none => .error .badDst
        | some ms =>
          match decSrcs base with
          | .error e => .error e
          | .ok (a, b) =>
            match decExtM x with
            | .error e => .error e
            | .ok m => .ok (k { maskSrc := ms, a := a, data := b, x := m })
    | none =>
    match mkAtom op with
    | some k =>
      let x := ext.getD defaultM
      if x.getLsbD 27 then .error .badField
      else
        match decDst7 base with
        | .error e => .error e
        | .ok d =>
          match decSrcs base with
          | .error e => .error e
          | .ok (a, b) =>
            match decExtM x with
            | .error e => .error e
            | .ok m => .ok (k { dst := d, a := a, operand := b, x := m })
    | none =>
    match mkRed op with
    | some k =>
      let x := ext.getD defaultM
      if x.getLsbD 27 || bits base 16 8 != 0 then .error .badField
      else
        match decSrcs base with
        | .error e => .error e
        | .ok (a, b) =>
          match decExtM x with
          | .error e => .error e
          | .ok m => .ok (k { a := a, operand := b, x := m })
    | none =>
    if op = 0x62 then
      let x := ext.getD defaultM
      if x.getLsbD 27 || bits base 16 8 != 0 || bits base 0 8 != 0 then .error .badField
      else
        match decSrcs base with
        | .error e => .error e
        | .ok (a, _) =>
          match decExtM x with
          | .error e => .error e
          | .ok m => .ok (.pref { a := a, x := m })
    else if op = 0x87 then
      match decRepeat base (ext.getD 0) with
      | .error e => .error e
      | .ok f => .ok (.repeatLoop f)
    else
      match mkPlain op with
      | some i => if bits base 0 24 != 0 then .error .badField else .ok i
      | none => .error (.unassigned (bits base 24 8))

/-- The base word of three 8-bit fields (03 R55). -/
def encBase (op d a b : BitVec 8) : Word :=
  (op.setWidth 32 <<< 24) ||| (d.setWidth 32 <<< 16) ||| (a.setWidth 32 <<< 8) ||| b.setWidth 32

/-- A register number as an 8-bit field. -/
def encReg (n : BitVec 7) : BitVec 8 := n.setWidth 8

/-- The words of an instruction; the extension word is always written where the form may take one.
A device event has no words. -/
def encodeWords (i : Instr) : Option (Word × Option Word) :=
  match i.parts with
  | none => none
  | some (op, .a f) => some (encBase op (encDst f.dst) (encSrc f.a) (encSrc f.b), some (encExtA f.x))
  | some (op, .b f) => some ((op.setWidth 32 <<< 24) ||| f.off.setWidth 32, some (encExtA f.x))
  | some (op, .i f) => some (encBase op (encDst f.dst) 0 0, some f.imm)
  | some (op, .w f) => some (encBase op (encDst f.dst) (encSrc f.a) 0, some (encExtW f.x))
  | some (op, .load f) => some (encBase op (encReg f.dst) (encSrc f.a) 0, some (encExtM f.x))
  | some (op, .block f) => some (encBase op (encReg f.dst) (encSrc f.a) (encSrc f.cmp), some (encExtMB f.x))
  | some (op, .store f) =>
    some (encBase op (encSrc f.maskSrc) (encSrc f.a) (encSrc f.data), some (encExtM f.x))
  | some (op, .atom f) => some (encBase op (encReg f.dst) (encSrc f.a) (encSrc f.operand), some (encExtM f.x))
  | some (op, .red f) => some (encBase op 0 (encSrc f.a) (encSrc f.operand), some (encExtM f.x))
  | some (op, .pref f) => some (encBase op 0 (encSrc f.a) 0, some (encExtM f.x))
  | some (op, .rep f) =>
    some (encBase op f.words (encSrc f.count) (encSrc f.addr),
      some (encGuard f.guard ||| (f.clauses.setWidth 32 <<< 20) ||| (f.tileStep.setWidth 32 <<< 17)
        ||| (f.cStep.setWidth 32 <<< 9) ||| (f.bStep.setWidth 32 <<< 6) ||| (f.aStep.setWidth 32 <<< 3)
        ||| f.dStep.setWidth 32))
  | some (op, .plain) => some (encBase op 0 0 0, none)

/-- The words of an instruction as a list, base word first; empty for a device event. -/
def encode (i : Instr) : List Word :=
  match encodeWords i with
  | none => []
  | some (b, none) => [b]
  | some (b, some x) => [b, x]

/-- An instruction from the words that hold it: one word, or two. -/
def decode : List Word → Except DecodeError Instr
  | [b] => decodeWords b none
  | [b, x] => decodeWords b (some x)
  | _ => .error .badField

/-! ### Clauses -/

/-- The clause header (03 R53). -/
structure Header where
  count : Nat
  cls : Nat
  waitMask : BitVec 6
  extMap : BitVec 15
  yieldBit : Bool
  deriving DecidableEq, Repr

/-- The fields of a header word, legal or not. -/
def headerOf (w : Word) : Header :=
  { count := (bits w 28 4).toNat, cls := (bits w 25 3).toNat, waitMask := bits w 19 6,
    extMap := bits w 4 15, yieldBit := w.getLsbD 3 }

/-- 03 R74 step 2: the header's own checks, with the Coachman's classes (03 R73). -/
def headerOk (ag : Agent) (w : Word) : Bool :=
  let h := headerOf w
  h.count != 0 && h.cls != 7 && bits w 0 3 == 0 && h.extMap.toNat / 2 ^ h.count == 0
    && (ag == .core || (h.cls != 1 && h.cls != 3 && h.cls != 5 && h.waitMask == 0))

/-- How many bits of `m` below position n are set. -/
def countBits (m : BitVec 15) : Nat → Nat
  | 0 => 0
  | n + 1 => countBits m n + (if m.getLsbD n then 1 else 0)

/-- 03 R52: the length of a clause in words: every set bit of the map counts. -/
def clauseWords (h : Header) : Nat := 1 + h.count + countBits h.extMap 15

/-- The decode faults of 03 R74 steps 2 to 3e. -/
inductive DecodeFault where
  | illegalEncoding | clauseClass | latchOrder | registerRange
  deriving DecidableEq, Repr

/-- 03 R54: the engine class of an opcode. -/
def classOf (op : Nat) : Nat :=
  if op < 0x40 then 0 else if op < 0x50 then 1 else if op < 0x70 then 2
  else if op < 0x80 then 3 else if op < 0x90 then 4 else if op < 0xA0 then 5 else 6

/-- 03 R54: the branch forms. -/
def isBranch : Instr → Bool
  | .bra _ | .brx _ | .call _ | .callx _ | .ret | .exitThread => true
  | _ => false

/-- 02 R38: the waiting instructions. -/
def isWaiting : Instr → Bool
  | .barw _ | .bars _ | .tbw _ | .cbget _ | .cpw _ | .mwait _ | .qrecv _ | .rayw _ | .svcw _
  | .fence _ | .ldcBlock _ | .ldgBlock _ | .ldhBlock _ => true
  | _ => false

/-- 08 R185. -/
def isRepeat : Instr → Bool
  | .repeatLoop _ => true
  | _ => false

/-- 20 R465: `TRAP` and `BKPT` stand alone in their clause. -/
def isTrapForm : Instr → Bool
  | .trap _ | .bkpt _ => true
  | _ => false

/-- What the checks have seen at earlier positions: which latches have a writer, whether a `REPEAT`
stands in the clause. -/
structure Seen where
  latches : List Nat
  repeatSeen : Bool
  deriving DecidableEq, Repr

/-- 03 R74 steps 3a to 3e at one position. -/
def checkAt (ag : Agent) (allot : Nat) (h : Header) (pos : Nat) (seen : Seen) (base : Word)
    (ext : Option Word) : Except DecodeFault (Instr × Seen) :=
  match decodeWords base ext with
  | .error _ => .error .illegalEncoding
  | .ok i =>
    if !i.wf ag then .error .illegalEncoding
    else if (if isBranch i then pos + 1 != h.count else classOf (bits base 24 8).toNat != h.cls)
        || (isWaiting i && pos + 1 != h.count)
        || (seen.repeatSeen && (isRepeat i || isBranch i))
        || (isTrapForm i && h.count != 1) then .error .clauseClass
    else if i.latchReads.any (fun j => !seen.latches.contains j) then .error .latchOrder
    else if ag == .core && allot < i.regTop then .error .registerRange
    else .ok (i, { latches := if i.writesLatch then (pos % 4) :: seen.latches else seen.latches,
                   repeatSeen := seen.repeatSeen || isRepeat i })

/-- 03 R74 step 3 over the instructions from position `pos` on; `fuel` counts them. -/
def checkFrom (ag : Agent) (allot : Nat) (h : Header) :
    Nat → Nat → Seen → List Word → Except (Nat × DecodeFault) (List Instr)
  | 0, _, _, _ => .ok []
  | fuel + 1, pos, seen, ws =>
    match ws with
    | [] => .error (15, .illegalEncoding)
    | base :: rest =>
      let (ext, rest') := if h.extMap.getLsbD pos then (rest.head?, rest.tail) else (none, rest)
      match checkAt ag allot h pos seen base ext with
      | .error e => .error (pos, e)
      | .ok (i, seen') =>
        match checkFrom ag allot h fuel (pos + 1) seen' rest' with
        | .error e => .error e
        | .ok is => .ok (i :: is)

/-- 03 R74 steps 2 and 3 on a fetched clause, header word first. A failure carries its position, 15
for the header (03 R75). -/
def checkClause (ag : Agent) (allot : Nat) : List Word → Except (Nat × DecodeFault) (Header × List Instr)
  | [] => .error (15, .illegalEncoding)
  | hw :: ws =>
    if !headerOk ag hw then .error (15, .illegalEncoding)
    else
      match checkFrom ag allot (headerOf hw) (headerOf hw).count 0 ⟨[], false⟩ ws with
      | .error e => .error e
      | .ok is => .ok (headerOf hw, is)

/-- The instruction whose bits are `w`, bit 0 the least significant of the base word; `nbits` counts
the bits given, every higher bit of the instruction being 0. Where the form takes an extension word
that the bits do not reach, it is absent if optional and zero if required. -/
def decodeTableWord (nbits w : Nat) : Option Instr :=
  let base := BitVec.ofNat 32 w
  let op := (bits base 24 8).toNat
  let r :=
    if 32 < nbits then decodeWords base (some (BitVec.ofNat 32 (w / 2 ^ 32)))
    else match extRule op with
      | .required => decodeWords base (some 0)
      | _ => decodeWords base none
  match r with
  | .ok i => some i
  | .error _ => none

end Sys2Proof
end

