-- ==== Sys2Proof/Machine/Flags.lean ====
section
/-!
DEFINITION. The computations of the integer forms, on exact integers, at any width: wrap, saturation,
carry, comparison, shifts, bit fields and counts (05 R106-R120). The cores use width 32 and the
Coachman 64 (14 R334). No flags word exists: carries and conditions go to predicates (05 R108, R116).
-/

namespace Sys2Proof.Machine

/-- 05 R106: an integer clamped to the signed range of w bits. -/
def satSigned (w : Nat) (x : Int) : Int := max (-(2 : Int) ^ (w - 1)) (min ((2 : Int) ^ (w - 1) - 1) x)

/-- 05 R106: an integer clamped to the unsigned range of w bits. -/
def satUnsigned (w : Nat) (x : Int) : Int := max 0 (min ((2 : Int) ^ w - 1) x)

/-- 05 R106 `Fin`: wraps without `sat`; `u` selects the saturation range and nothing else. -/
def fin (sat u : Bool) (w : Nat) (x : Int) : BitVec w :=
  BitVec.ofInt w (if sat then (if u then satUnsigned w x else satSigned w x) else x)

/-- 05 R106 `X`: a value read as unsigned with `u`, else as signed. -/
def readInt (u : Bool) {w : Nat} (x : BitVec w) : Int := if u then (x.toNat : Int) else x.toInt

/-- `Neg` of 05 R107. -/
def negIf (f : Bool) (x : Int) : Int := if f then -x else x

/-- 05 R107. -/
def iaddV (sat u : Bool) {w : Nat} (a b : BitVec w) : BitVec w := fin sat u w (readInt u a + readInt u b)

/-- 05 R107: only the exact three-term sum saturates. -/
def iadd3V (sat u na nb nc : Bool) {w : Nat} (a b c : BitVec w) : BitVec w :=
  fin sat u w (negIf na (readInt u a) + negIf nb (readInt u b) + negIf nc (readInt u c))

/-- 05 R107. -/
def isubV (sat u : Bool) {w : Nat} (a b : BitVec w) : BitVec w := fin sat u w (readInt u a - readInt u b)

/-- 05 R108: the sum with a carry in. -/
def addcV {w : Nat} (a b : BitVec w) (c : Bool) : BitVec w := BitVec.ofNat w (a.toNat + b.toNat + c.toNat)

/-- 05 R108: the carry out of the top bit. -/
def addcCarry {w : Nat} (a b : BitVec w) (c : Bool) : Bool := 2 ^ w ≤ a.toNat + b.toNat + c.toNat

/-- 05 R109. -/
def imulV (sat u : Bool) {w : Nat} (a b : BitVec w) : BitVec w := fin sat u w (readInt u a * readInt u b)

/-- 05 R109: the high word of the exact product. -/
def imulhV (u : Bool) {w : Nat} (a b : BitVec w) : BitVec w :=
  BitVec.ofInt w (readInt u a * readInt u b / (2 : Int) ^ w)

/-- 05 R109. -/
def imadV (sat u : Bool) {w : Nat} (a b c : BitVec w) : BitVec w :=
  fin sat u w (readInt u a * readInt u b + readInt u c)

/-- 05 R109: a 32-bit product added to a 64-bit value. -/
def imadwV (sat u : Bool) (a b : Word) (c : DWord) : DWord :=
  fin sat u 64 (readInt u a * readInt u b + readInt u c)

/-- 05 R110. -/
def iminV (u : Bool) {w : Nat} (a b : BitVec w) : BitVec w := if readInt u a ≤ readInt u b then a else b

/-- 05 R110. -/
def imaxV (u : Bool) {w : Nat} (a b : BitVec w) : BitVec w := if readInt u b ≤ readInt u a then a else b

/-- 05 R110: −2^31 stays, or saturates. -/
def iabsV (sat : Bool) {w : Nat} (a : BitVec w) : BitVec w := fin sat false w (a.toInt.natAbs : Int)

/-- 05 R110. -/
def inegV (sat : Bool) {w : Nat} (a : BitVec w) : BitVec w := fin sat false w (-a.toInt)

/-- A bit vector built bit by bit from the low end. -/
def buildBits (w : Nat) (f : Nat → Bool) : BitVec w :=
  (List.range w).foldl (fun acc i => if f i then acc ||| BitVec.ofNat w (2 ^ i) else acc) 0

/-- 05 R111: bit i of the result is the table bit a + 2b + 4c of the sources' bits i. -/
def logtV (table : Nat) (a b c : Word) : Word :=
  buildBits 32 fun i =>
    table.testBit ((a.getLsbD i).toNat + 2 * (b.getLsbD i).toNat + 4 * (c.getLsbD i).toNat)

/-- 05 R112: an amount of w or more acts as w, or is taken mod w with `.wrap`. -/
def shiftAmount (wrap : Bool) {w : Nat} (n : BitVec w) : Nat := if wrap then n.toNat % w else min n.toNat w

/-- 05 R112. -/
def shlV (wrap : Bool) {w : Nat} (a n : BitVec w) : BitVec w :=
  BitVec.ofNat w (a.toNat * 2 ^ shiftAmount wrap n)

/-- 05 R112. -/
def shrV (wrap : Bool) {w : Nat} (a n : BitVec w) : BitVec w :=
  BitVec.ofNat w (a.toNat / 2 ^ shiftAmount wrap n)

/-- 05 R112. -/
def sarV (wrap : Bool) {w : Nat} (a n : BitVec w) : BitVec w :=
  BitVec.ofInt w (a.toInt / (2 : Int) ^ shiftAmount wrap n)

/-- 05 R112: the signed amount of `FSH`, clamped to −32 to 32 or folded into −32 to 31. -/
def fshAmount (fold : Bool) (n : Word) : Int :=
  if fold then (n.toInt + 32) % 64 - 32 else max (-32) (min 32 n.toInt)

/-- 05 R112: a positive amount returns the high word of hi:lo shifted up, a negative one the low word
of hi:lo shifted down. -/
def fshV (fold : Bool) (lo hi n : Word) : Word :=
  let x := hi.toNat * 2 ^ 32 + lo.toNat
  let s := fshAmount fold n
  if 0 ≤ s then BitVec.ofNat 32 (x * 2 ^ s.toNat / 2 ^ 32) else BitVec.ofNat 32 (x / 2 ^ (-s).toNat)

/-- 05 R112. -/
def rotlV (a n : Word) : Word :=
  let k := n.toNat % 32
  BitVec.ofNat 32 (a.toNat * 2 ^ k + a.toNat / 2 ^ (32 - k))

/-- 05 R113, 14 R334: the position of a bit field, at most w. -/
def fieldPos {w : Nat} (poslen : BitVec w) : Nat := min (poslen.toNat % 256) w

/-- 05 R113, 14 R334: the length of a bit field, within the word. -/
def fieldLen {w : Nat} (poslen : BitVec w) : Nat := min (poslen.toNat / 256 % 256) (w - fieldPos poslen)

/-- 05 R113: extract, sign-extending with `.s`. -/
def bfxV (s : Bool) {w : Nat} (a poslen : BitVec w) : BitVec w :=
  let l := fieldLen poslen
  let f := a.toNat / 2 ^ fieldPos poslen % 2 ^ l
  if s && 0 < l && 2 ^ (l - 1) ≤ f then BitVec.ofInt w ((f : Int) - (2 : Int) ^ l) else BitVec.ofNat w f

/-- 05 R113: insert. -/
def bfiV {w : Nat} (insert base poslen : BitVec w) : BitVec w :=
  let m := BitVec.ofNat w ((2 ^ fieldLen poslen - 1) * 2 ^ fieldPos poslen)
  (base &&& ~~~m) ||| (BitVec.ofNat w (insert.toNat * 2 ^ fieldPos poslen) &&& m)

/-- 05 R114: the number of set bits. -/
def popCount {w : Nat} (a : BitVec w) : Nat := (List.range w).countP (fun i => a.getLsbD i)

/-- 05 R114: the zero bits above the highest set bit; w for 0. -/
def clzCount {w : Nat} (a : BitVec w) : Nat :=
  (List.range w).foldl (fun n i => if a.getLsbD i then w - 1 - i else n) w

/-- 05 R114: the zero bits below the lowest set bit; w for 0. -/
def ctzCount {w : Nat} (a : BitVec w) : Nat :=
  (List.range w).foldr (fun i n => if a.getLsbD i then i else n) w

/-- 05 R114. -/
def brevV (a : Word) : Word := buildBits 32 fun i => a.getLsbD (31 - i)

/-- Byte j of a value. -/
def byteOf {w : Nat} (x : BitVec w) (j : Nat) : Byte := BitVec.ofNat 8 (x.toNat / 2 ^ (8 * j))

/-- 05 R115: one result byte from its source byte and its fill. -/
def bselFill (fill : Nat) (b : Byte) : Byte :=
  match fill with
  | 0 => b
  | 1 => 0
  | 2 => if 0x80 ≤ b.toNat then 0xFF else 0
  | _ => 0xFF

/-- A word from its four bytes, least significant first. -/
def wordOfBytes (f : Nat → Byte) : Word :=
  BitVec.ofNat 32 ((f 0).toNat + 2 ^ 8 * (f 1).toNat + 2 ^ 16 * (f 2).toNat + 2 ^ 24 * (f 3).toNat)

/-- 05 R115: `byReg` takes source and fill of byte j from byte j of the selector register, else the
source from bits 3j + 2 : 3j of the modifier field. -/
def bselV (byReg : Bool) (mods : Nat) (a b sel : Word) : Word :=
  let src := a.toNat + 2 ^ 32 * b.toNat
  let pick := fun i : Nat => BitVec.ofNat 8 (src / 2 ^ (8 * i))
  wordOfBytes fun j =>
    if byReg then
      let c := (byteOf sel j).toNat
      bselFill (c / 8 % 4) (pick (c % 8))
    else pick (mods / 2 ^ (3 * j) % 8)

/-- 05 R116: the six comparisons, by code. -/
def compareV (u : Bool) (cond : Nat) {w : Nat} (a b : BitVec w) : Bool :=
  let x := readInt u a
  let y := readInt u b
  match cond with
  | 0 => x == y
  | 1 => x != y
  | 2 => x < y
  | 3 => x ≤ y
  | 4 => y < x
  | _ => y ≤ x

/-- 05 R118. -/
def plopV (table : Nat) (a b c : Bool) : Bool := table.testBit (a.toNat + 2 * b.toNat + 4 * c.toNat)

/-- 05 R120, 14 R334. -/
def leaV (shift : Nat) {w : Nat} (a b : BitVec w) : BitVec w := BitVec.ofNat w (a.toNat + b.toNat * 2 ^ shift)

/-- 05 R120. -/
def leawV (s : Bool) (shift : Nat) (a : DWord) (b : Word) : DWord :=
  BitVec.ofInt 64 ((a.toNat : Int) + readInt (!s) b * (2 : Int) ^ shift)

/-- 1 or 0 as a value. -/
def boolV (w : Nat) (b : Bool) : BitVec w := if b then 1 else 0

end Sys2Proof.Machine
end

