-- ==== Sys2Proof/Config.lean ====
section
/-!
DEFINITION. What the manual leaves to the implementation, as constants without a body: nothing in
Lean can evaluate them, so a claim about one holds for every value.
-/

namespace Sys2Proof.Config

/-- The value a special-function form proposes for an operand (07 R156: one fixed function of the
operand bits). The first argument is the opcode; the model keeps the value only where it meets the
accuracy of 07 R155 (log 12). -/
opaque specialFn : BitVec 8 → Word → Word

/-- The hit distance a ray traversal unit proposes for a ray and a record, kept only within the
bound of 15 R361 (log 13). Arguments: the exact t rounded to F32, and the ray identifier. -/
opaque hitT : Word → Nat → Word

/-- The depth or atlas coordinate the rasteriser proposes, kept only within the bound of 16 R386
(log 14). Argument: the exact value rounded to F32. -/
opaque rasterValue : Word → Word

/-- 16 R395: the fraction of a bilinear sample along an axis whose coordinate is infinite, of which the manual
gives only the integer part (log 23). Argument: the coordinate. -/
opaque texFraction : Word → Nat

/-- 16 R386: what a pixel of a primitive with a coordinate that is not a finite number gets, of which the manual
states nothing: nothing, or a depth and two atlas coordinates (log 24). Arguments: the record block, the view,
the pixel's x and y. -/
opaque openPixel : List Word → Nat → Nat → Nat → Option (Word × Word × Word)

/-- 13 R305, 16 R382: the bytes a primitive and a bin reference take in a spill ring, which the manual does not
give (log 25). -/
opaque primBytes : Nat

/-- 13 R305, 16 R382: the bytes of a bin reference in a spill ring (log 25). -/
opaque binRefBytes : Nat

/-- 09 R204: the L2 slice of a die that holds a line: a fixed hash of the line address that the manual does not give. -/
opaque sliceOf : Nat → Fin 384

/-- 09 R197: the set of its slice that a line takes, which the manual does not give (log 68). -/
opaque setOf : Nat → Fin 256

/-- 22 R518: the ciphertext of a sector under AES-XTS-256. Arguments: the key pair, the line's address, the sector of the line,
and its 32 bytes (log 69). -/
opaque xtsSector : BitVec 512 → Nat → Nat → BitVec 256 → BitVec 256

/-- 22 R518: the sector that deciphering gives. Arguments: the key pair, the line's address, the sector of the line, and its 32
ciphered bytes. Where the key is the one that ciphered them, the model takes the plain bytes itself (log 69). -/
opaque xtsOpen : BitVec 512 → Nat → Nat → BitVec 256 → BitVec 256

/-- 22 R518: the key pair that AES-KW unwraps. Arguments: the SPDM session and the 72 bytes of the wrapped pair (log 69). -/
opaque unwrapKey : Nat → BitVec 576 → BitVec 512

/-- 22 R516: the 256-bit unique device secret, in fuses. -/
opaque deviceSecret : BitVec 256

/-- 22 R516: HKDF-SHA-384 of an identifier and the next image's SHA-384 with the security state's code after it (log 69). -/
opaque hkdf : BitVec 384 → BitVec 384 → Nat → BitVec 384

/-- 22 R516: the Ed25519 secret and public key that an identifier derives (log 69). -/
opaque edKeys : BitVec 384 → Nat × Nat

/-- 22 R516: the ML-DSA-65 secret and public key that an identifier derives (log 69). -/
opaque mlKeys : BitVec 384 → Nat × Nat

/-- 22 R516: the signatures with an Ed25519 and an ML-DSA-65 secret key over two public keys (log 69). -/
opaque signCert : Nat → Nat → Nat → Nat → Nat × Nat

/-- 22 R518: key 0, derived from the layer-1 identifier (log 69). -/
opaque deviceKey : BitVec 384 → BitVec 512

/-- 22 R504: the Reed-Solomon parity, eight symbols of 16 bits, over a line's 64 symbols; the manual does not give the code's field
and generator (log 89). -/
opaque lineParity : BitVec 1024 → BitVec 128

/-- 21 R500: whether a peer device lends the page at an offset at a time: the peer's own extents say it (log 54). -/
opaque peerLends : Nat → Nat → Nat → Bool

/-- A value the manual leaves open, drawn fresh: the argument is the draw counter `State.draws`
(log 4). -/
opaque freeWord : Nat → Word

end Sys2Proof.Config
end

