-- ==== Sys2Proof/Machine/State.lean ====
section
/-!
DEFINITION. The state of the machine as plain data: everything the manual gives the device, one home
for each item, and the state after reset. Maps are sorted lists of number and value; their operations
are in Ops.lean.
-/

namespace Sys2Proof.Machine

/-- A sparse map: pairs with strictly rising keys. An absent key has the item's reset value. -/
abbrev SMap (α : Type) := List (Nat × α)

/-- Why the machine itself stops. -/
inductive Fault where
  /-- Raised by `step` when the package has shut down for heat (22 R524): issue has stopped and the
  device stays off until its power is cycled. Safe: the manual gives no later step. -/
  | thermalShutdown
  deriving DecidableEq, Repr

/-- Why a step has no meaning. -/
inductive Refusal where
  /-- Raised by an arm of `exec` whose instruction has no meaning yet. Safe: nothing is claimed. -/
  | notModelled (mnemonic : String)
  deriving DecidableEq, Repr

/-- 20 R462: the fault codes. -/
inductive FaultCode where
  | none | illegalEncoding | clauseClass | latchOrder | registerRange | alignment
  | pageAbsent | protection | extentGone | poolExhausted
  | scratchCapacity | layoutMismatch | boundTrap | quotaBreach | deadlineEscalation | reservation
  | poisonConsumed | rollbackExhausted | userTrap | breakpoint
  deriving DecidableEq, Repr

/-- 18 R438: the status codes 0 to 8 of waits and commands, in code order. -/
inductive Status where
  | done | timeout | withdrawn | cancelled | stalePhase | partialDone | faulted | poisoned | busy
  deriving DecidableEq, Repr

/-! ### Storage named by an access -/

/-- The memories an access reaches: device-physical bytes, a block's scratchpad window, a core's TOB,
host memory and the pool (09 R197, R207), and an accumulator tile (12 R274). -/
inductive Mem where
  | device
  | scratch (block : Nat)
  | tob (core : Nat)
  | host
  | pool
  | tile (cluster t : Nat)
  deriving DecidableEq, Repr

/-- 09 R207: the address spaces. -/
inductive Space where
  | laneL | scratchS | clusterC | constK | globalG | hostH
  deriving DecidableEq, Repr

/-- What an outstanding access does when it completes. `result` is the register result of a counted
form that reads no memory (07 R148). -/
inductive AccKind where
  | load | store | atomic | reduction | result
  deriving DecidableEq, Repr

/-- One lane's part of an access: its thread, the address its form computes (10 R226), the storage and the byte addresses it
names in ascending order, what it writes, the register it returns to, and the operands of an atomic. `old` is the value an
atomic read, or the register value a `result` replaced. -/
structure LaneReq where
  uid : Nat
  va : Nat := 0
  dst : Nat := 0
  mem : Mem := .device
  addrs : List Nat := []
  writes : List (Nat × Byte) := []
  operand : DWord := 0
  cmp : DWord := 0
  old : DWord := 0
  poison : Bool := false
  deriving DecidableEq, Repr

/-- 10 R232, R241: the part of one position that falls in one 32-byte sector, in flight. `served` is the device time at which
its home applied it (11 R257); `site` the address of its clause (20 R461). `away` is the virtual page of a request whose
page's frame went with a lost die: it waits until the page is present again (22 R510). -/
structure Access where
  id : Nat
  kind : AccKind
  space : Space
  core : Nat
  ctx : Nat := 0
  block : Nat := 0
  line : Nat := 0
  scope : Scope := .dev
  ordering : Ordering3 := .plain
  size : Size := .b4
  sext : Bool := false
  op : Nat := 0
  ctr : Nat := 0
  lanes : List LaneReq := []
  issued : Bool := true
  applied : Bool := false
  served : Nat := 0
  completion : Nat := 0
  refusals : Nat := 0
  persistent : Bool := false
  since : Nat := 0
  site : Nat := 0
  away : Option Nat := none
  deriving DecidableEq, Repr

/-! ### Waits -/

/-- 18 R429: the barriers. A gang barrier is named by its block and gang. -/
inductive BarrierId where
  | gang (block gang i : Nat)
  | block (block i : Nat)
  | group (group i : Nat)
  | launch (launch i : Nat)
  deriving DecidableEq, Repr

/-- What a blocked wait waits for (02 R38, R40). -/
inductive WaitKind where
  | barrier (b : BarrierId) (phase : Nat) (arrived : Bool)
  | tb (core i phase : Nat)
  | cbuf (core i seq : Nat)
  | copy (core ticket : Nat) (all : Bool)
  | matrix (block ticket : Nat) (all : Bool)
  | queue (ctx q : Nat) (acq : Bool) (data turn : Nat)
  | ray (ctx launch id : Nat)
  | rayCount (launch n : Nat)
  | svc (block tag reply : Nat)
  | fence (classes : Nat) (scope : Scope) (accesses engines pages : List Nat) (wh : Nat)
  | blockingLoad (space : Space) (va : Nat) (req : LaneReq) (size : Size) (sext acq : Bool) (dst : Nat) (last : DWord)
  deriving DecidableEq, Repr

/-- 02 R39, 18 R428: the wait record of a thread or a Coachman: condition, deadline in context time,
resume point, site, the destination of the status, whether a timeout escalates, and whether it is a poll; `since` is the
device time at which the wait began, from which 21 R491 counts, and `lead` the first thread of its bundle (26 R552). -/
structure Wait where
  kind : WaitKind
  deadline : Nat
  resume : Nat
  site : Nat
  dst : Dst
  esc : Bool
  poll : Bool
  lead : Nat := 0
  since : Nat := 0
  deriving DecidableEq, Repr

/-- 08 R171, R185: the loop state of a thread: the body, the count, the pass index and the steps.
`body` is the captured words of the loop buffer (08 R187). -/
structure LoopState where
  base : Nat
  words : Nat
  clauses : Nat
  count : Nat
  pass : Nat
  dStep : Nat
  aStep : Nat
  bStep : Nat
  cStep : Nat
  tileStep : Nat
  addr : Option Nat
  body : List Word := []
  deriving DecidableEq, Repr

/-- Where a thread stands in its life (02 R26-R40, 17 R415, 20 R463). A hit-shader thread is `exiting` from its `EXIT` until its
stores are performed at `.dev` (15 R375). -/
inductive RunState where
  | runnable
  | bundled
  | blocked
  | faultWait
  | trapped
  | exiting
  | exited
  deriving DecidableEq, Repr

/-- 18 R434: one entry of a thread's arrival record: 0 none, 1 arrived, 2 completed, with its phase. -/
structure Arrival where
  state : Nat := 0
  phase : Nat := 0
  deriving DecidableEq, Repr

/-- The registers of a thread (05 R95, R97). `bad` lists the lane registers that a double-bit error has poisoned (22 R507). -/
structure Regs where
  v : SMap Word := []
  p : BitVec 7 := 0
  latch : SMap DWord := []
  ctr : SMap Nat := []
  wh : Nat := 0
  chk : Word := 0
  status : Word := 0
  floor : Nat := 0
  bad : List Nat := []
  deriving DecidableEq, Repr

/-- The control state of a thread (08 R171, 18 R428, 19 R450). `npc`, `refile`, `leaving`
and `trapDue` (the status and count of an escalation) hold what the clause under way has decided for
its end. -/
structure Control where
  pc : Nat := 0
  npc : Option Nat := none
  depth : Nat := 0
  key : Nat := 0
  loop : Option LoopState := none
  lane : Nat := 0
  run : RunState := .runnable
  wait : Option Wait := none
  refile : Bool := false
  leaving : Bool := false
  escSite : Nat := 0
  escCount : Nat := 0
  trapDue : Option (Nat × Nat) := none
  deriving DecidableEq, Repr

/-- A thread: where it belongs, its registers and its control state. `frames` holds the page-cache frames its applied stores
have changed, each with the write-backs the frame had had by then (10 R245, class 2); `ahead` the accesses and texture
operations, by number, that the end of a `FENCE` has ordered before the thread's later accesses, and `aheadWh` the latest
completion time of those writes where that order is of die scope or wider (10 R245). -/
structure Thread where
  block : Nat
  tid : Nat
  slot : Nat
  regs : Regs := {}
  ctl : Control := {}
  arrivals : SMap Arrival := []
  chkSet : SMap Nat := []
  chkReported : BitVec 2 := 0
  hitRay : Option Nat := none
  frames : List (Nat × Nat) := []
  ahead : List Nat := []
  aheadWh : Option Nat := none
  filedAt : Nat := 0
  deriving DecidableEq, Repr

/-! ### Barriers, convergence registers, calls -/

/-- 18 R428, R433: a barrier: 4-bit phase, members, arrivals still pending, and the arrivals counted in
the current phase. -/
structure Barrier where
  phase : Nat := 0
  members : Nat := 0
  pending : Nat := 0
  arrivals : Nat := 0
  deriving DecidableEq, Repr

/-- 08 R191: the states of a convergence register. -/
inductive KState where
  | idle | declared | bound | signed | withdrawn
  deriving DecidableEq, Repr

/-- R191: the code of a state. -/
def KState.code : KState → Nat
  | .idle => 0
  | .declared => 1
  | .bound => 2
  | .signed => 3
  | .withdrawn => 4

/-- 05 R95, 08 R191: a convergence register: declared and signed masks of 1 024 bits, state, and the
command bound to it. -/
structure KReg where
  declared : BitVec 1024 := 0
  signed : BitVec 1024 := 0
  state : KState := .idle
  command : Option Nat := none
  deriving DecidableEq, Repr

/-- 20 R459: a call slot: 0 free, 1 outstanding, 2 replied. -/
structure CallSlot where
  tag : Nat := 0
  state : Nat := 0
  threads : List Nat := []
  waiting : List Nat := []
  reply : List Byte := []
  deriving DecidableEq, Repr

/-- 12 R276: an entry of a block's completion ring. -/
structure RingEntry where
  status : Status := .done
  fault : FaultCode := .none
  deriving DecidableEq, Repr

/-! ### Work: launches, groups, blocks -/

/-- 04 R92: the launch descriptor, the attributes of a kernel. -/
structure LaunchDesc where
  entry : Nat := 0
  allot : Nat := 8
  gangs : Nat := 1
  rows : Nat := 0
  l1Banks : Nat := 32
  spadBanks : Nat := 0
  tobBanks : Nat := 0
  fuse : Bool := false
  shadow : Bool := false
  group : Bool := false
  ageLimit : Nat := 64
  gangBars : Nat := 0
  blockBars : Nat := 0
  groupBars : Nat := 0
  launchBars : Nat := 0
  paramBytes : Nat := 0
  constBytes : Nat := 0
  constAddr : Nat := 0
  deriving DecidableEq, Repr

/-- A register bank, parked or checkpointed image of a block: the threads, rows and barriers it holds
(20 R476, R480, 09 R219). -/
structure Image where
  threads : SMap Thread := []
  rows : List Host.Cell := []
  gangBars : SMap Barrier := []
  blockBars : SMap Barrier := []
  deriving DecidableEq, Repr

/-- A block: membership, placement, scratchpad window, barriers, convergence registers, tickets, calls
and check summary. `gpos` is its position in its cluster group. Gang barrier i of gang g is key
4g + i of `gangBars`. An `ended` block of a group only holds its rows until the last block of the group ends
(09 R210). `regBase` is the first register-file word of its run (05 R100), `parkRow` the first row of its place in the
parked-row region (20 R476). -/
structure Block where
  launch : Nat
  index : Nat := 0
  group : Option Nat := none
  gpos : Nat := 0
  gangs : Nat := 1
  core : Option Nat := none
  slot : Nat := 0
  placedAt : Nat := 0
  evicted : Bool := false
  parked : Bool := false
  selected : Bool := false
  cancelled : Bool := false
  ended : Bool := false
  frame : Nat := 0
  regBase : Nat := 0
  parkRow : Option Nat := none
  entry : Nat := 0
  params : Nat := 0
  scratch : List Host.Cell := []
  rowPlace : SMap Nat := []
  gangBars : SMap Barrier := []
  blockBars : SMap Barrier := []
  deriving DecidableEq, Repr

/-- 12 R276: the stage of a matrix command. -/
inductive MatStage where
  | posted | running | parked
  deriving DecidableEq, Repr

/-- 12 R275-R287, R294, R295: a matrix command as its form made it: opcode, attaching thread, operands of
the lowest participating lane, captured scales (row or column number × 4 + pass) and bound register, and
its place in the block's post order. -/
structure MatCmd where
  op : Nat
  ctx : Nat
  block : Nat
  core : Nat
  cluster : Nat
  thread : Nat
  ticket : Nat
  seq : Nat
  tile : Nat
  desc : DWord := 0
  vr : Nat := 0
  vc : Nat := 0
  passes : Nat := 1
  overwrite : Bool := false
  rowScale : List Nat := []
  colScale : List Nat := []
  addr : Nat := 0
  stride : Nat := 0
  scratch : Bool := false
  pair : Bool := false
  lo : Word := 0
  hi : Word := 0
  act : Nat := 0
  deriving DecidableEq, Repr

/-- 12 R274, R276: a reservation-table entry: its command, stage, next pass, first element row not yet
moved, post time in context time, and whether the scheduler has released it (11 R264). `cancelled` marks a
running multiply that a cancel ends at its granted pass (12 R301); `begun` says that it has been granted and holds its tiles
(R288); `completion` is the latest completion time of the writes of an `ACCST` (11 R255, R265), and `ending` the status it
completes with once they are performed. `bound` says that its thread's `BND` is set when it completes (12 R295, 19 R455). -/
structure MatEntry where
  cmd : MatCmd
  stage : MatStage := .posted
  pass : Nat := 0
  row : Nat := 0
  postedAt : Nat := 0
  released : Bool := false
  begun : Bool := false
  poisoned : Bool := false
  cancelled : Bool := false
  completion : Nat := 0
  ending : Option (Status × FaultCode × Nat) := none
  bound : Bool := false
  deriving DecidableEq, Repr

/-- 20 R461: what a consumption of poison reports: the address of the consuming clause, or of its wait's, the address whose
bytes are poison, and the kind of the unit. -/
structure Consumed where
  clause : Nat := 0
  addr : Nat := 0
  unit : Nat := 1
  deriving DecidableEq, Repr

/-- The counted state of a block beside its placement (08 R191, 12 R276-R278, 18 R431, 19 R454, 20 R459, R480). `groupArr` and
`launchArr` are its block arrival counts; `ahead` the loads and texture operations, by number, that a `FENCE.eng` has ordered
before its later engine commands (11 R265); `checkBound` the commands bound at the checkpoint (R484), `consumed` what made a
rollback due (R481), `imageHeld` whether a checkpoint image waits to be written (R554); `imgRegs` the register banks, and
`imgRows` the rows with their places, whose checkpoint images stand in the save area (20 R480). -/
structure BlockSync where
  bound : SMap MatCmd := []
  posts : Nat := 0
  kregs : SMap KReg := []
  groupArr : SMap Nat := []
  launchArr : SMap Nat := []
  ticket : Nat := 0
  wrapped : Bool := false
  ring : SMap RingEntry := []
  entries : Nat := 0
  prio : Nat := 0
  calls : SMap CallSlot := []
  callCounter : Nat := 0
  chkBits : BitVec 2 := 0
  chkCount : Nat := 0
  checkpoint : Option Image := none
  checkKregs : SMap KReg := []
  checkBound : SMap MatCmd := []
  checkPosts : Nat := 0
  imgRegs : List Nat := []
  imgRows : SMap Nat := []
  checkpointDue : Bool := false
  imageHeld : Bool := false
  rollbackUsed : Bool := false
  rollbackDue : Bool := false
  consumed : Consumed := {}
  lastCheck : Nat := 0
  ahead : List Nat := []
  deriving DecidableEq, Repr

/-- The status of a level of work: running, ended, cancelled or faulted (02 R49, R50, 20 R464). -/
inductive LevelState where
  | running | done | cancelled | faulted (code : FaultCode)
  deriving DecidableEq, Repr

/-- 02 R24, 13 R553: a cluster group of one launch. -/
structure Group where
  launch : Nat
  cluster : Option Nat := none
  blocks : List Nat := []
  bars : SMap Barrier := []
  counter : Nat := 0
  state : LevelState := .running
  deriving DecidableEq, Repr

/-- An entry waiting to become blocks: the range of `SPAWN` it belongs to begins at `first`; `index` is its
next block, `count` those left; its entry address and parameter block (13 R314, R319); what must be performed
before (13 R315: accesses, texture operations by core and number, a write horizon) and the die whose on-die part
it takes (13 R305); or the rays of a hit block in thread order, each with its entry address and filing key,
and its die (15 R373, R374). -/
structure SpawnEntry where
  first : Nat
  index : Nat
  count : Nat
  entry : Nat := 0
  params : Nat := 0
  accs : List Nat := []
  texs : List (Nat × Nat) := []
  wh : Nat := 0
  home : Nat := 0
  rays : List (Nat × Nat × Nat) := []
  die : Option Nat := none
  deriving DecidableEq, Repr

/-- A launch: its descriptor, counters, barriers, constant banks and spawn queue (13 R314-R316,
19 R450). `bank` maps a constant bank to its address and size. `lastHeld` says that the counter's last step to
zero waits for the flush of 16 R388, and `cancelled` that the launch is being cancelled (02 R50), whatever status it ends with. -/
structure Launch where
  ctx : Nat
  handle : Nat := 0
  descAddr : Nat := 0
  desc : LaunchDesc := {}
  counter : Nat := 1
  nextIndex : Nat := 1
  rayCount : Nat := 0
  primSeq : Nat := 0
  bars : SMap Barrier := []
  bank : SMap (Nat × Nat) := []
  params : Nat := 0
  spawnQ : List SpawnEntry := []
  spawnRing : List SpawnEntry := []
  hitQ : List SpawnEntry := []
  state : LevelState := .running
  graph : Option Nat := none
  heldSince : Option Nat := none
  holdReported : Bool := false
  record : Option Nat := none
  priority : Nat := 0
  powerCap : Nat := 0
  lastHeld : Bool := false
  cancelled : Bool := false
  deriving DecidableEq, Repr

/-- 02 R28: a bin: its key (block, pc, user key) and its threads in ascending slot order. -/
structure Bin where
  block : Nat
  pc : Nat
  key : Nat
  threads : List Nat
  since : Nat
  deriving DecidableEq, Repr

/-- 02 R26: a bundle: its core, block and threads in lane order. -/
structure Bundle where
  core : Nat
  block : Nat
  lanes : List Nat
  deriving DecidableEq, Repr

/-- 11 R249: an L1 copy of a physical line of G or K space: context and space decide nothing but the hit check. -/
structure L1Copy where
  line : Nat
  data : List Byte
  fetch : Nat
  expiry : Nat
  version : BitVec 16
  poison : Nat := 0
  deriving DecidableEq, Repr

/-- 17 R405: a cached translation: context, 4 KiB virtual page, leaf entry and the level it stood at. -/
structure TlbEntry where
  ctx : Nat
  vpn : Nat
  leaf : DWord
  level : Nat
  deriving DecidableEq, Repr

/-- 14 R345: a transaction barrier. -/
structure TxBarrier where
  valid : Bool := false
  phase : Nat := 0
  init : Nat := 0
  arr : Nat := 0
  flag : Nat := 0
  sect : Int := 0
  deriving DecidableEq, Repr

/-- 14 R349: a circular buffer and the state of its slots. -/
structure CircBuf where
  valid : Bool := false
  base : Nat := 0
  srows : Nat := 0
  nslot : Nat := 0
  cons : Nat := 0
  takeSeq : Nat := 0
  fillSeq : Nat := 0
  freeSeq : Nat := 0
  count : SMap Nat := []
  status : SMap Status := []
  filled : SMap Bool := []
  deriving DecidableEq, Repr

/-- 14 R336-R353: a posted copy command: its form, captured command block, owner, place in the block's
post order, the circular-buffer slot taken, the destination sectors delivered so far in row-major order,
and `CPSEED` at the start of the row under way. -/
structure CopyCmd where
  ticket : Nat
  op : Nat
  ctx : Nat
  block : Nat
  core : Nat
  seq : Nat
  control : DWord
  shape : DWord
  src : DWord
  dst : DWord
  stride : DWord
  released : Bool := false
  started : Bool := false
  parked : Bool := false
  slot : Option Nat := none
  next : Nat := 0
  rowSeed : DWord := 1
  seed : DWord := 1
  completion : Nat := 0
  poisoned : Bool := false
  deriving DecidableEq, Repr

/-- 14 R331: a start of a movement program waiting at a core's Coachman. -/
structure CoachStart where
  block : Nat
  entry : Nat
  deriving DecidableEq, Repr

/-- 05 R95, 08 R171, 14 R330: the Coachman of a core. -/
structure Coach where
  m : SMap DWord := []
  latch : SMap DWord := []
  pc : Nat := 0
  npc : Option Nat := none
  stack : List Nat := []
  running : Bool := false
  held : Bool := false
  block : Nat := 0
  program : Nat := 0
  wait : Option Wait := none
  status : Nat := 0
  escSite : Nat := 0
  escCount : Nat := 0
  starts : List CoachStart := []
  deriving DecidableEq, Repr

/-- 16 R396: one lane of a texture operation: its lane number, thread, destination register, descriptor index
and coordinates. -/
structure TexLane where
  lane : Nat
  uid : Nat
  dst : Nat
  desc : Nat
  u : Word := 0
  v : Word := 0
  deriving DecidableEq, Repr

/-- 16 R396: a texture operation in the sampler's operand buffer: its entry, form, participating lanes,
completed quads, and its own number, of those of accesses, which it took when it issued. -/
structure TexOp where
  id : Nat
  op : Nat
  block : Nat
  channel : Nat
  ctr : Nat
  lanes : List TexLane
  done : Nat := 0
  parked : Bool := false
  after : Nat := 0
  deriving DecidableEq, Repr

/-- 19 R456: a performance counter and its control word. -/
structure PerfCounter where
  value : BitVec 48 := 0
  control : Word := 0
  deriving DecidableEq, Repr

/-- A core (01 R15, 09 R197). `lLines` are the lines of L space its L1 holds, newest first, each with whether it is dirty; their
bytes stand in the memory behind (09 R202, log 68). `badTbs` lists the transaction barriers that a double-bit error has
poisoned (22 R507). `roles` is the bank-role register; `regOwner` and `rowOwner` the context that owns each
register bank and each scratchpad bank (02 R42); `fileQ` the filing queue; `tobTags` the layout tags per 16-row group. An
emptied core may gate its clock from `gateFrom` on (02 R36). -/
structure Core where
  roles : BitVec 64 := 0
  regOwner : SMap Nat := []
  rowOwner : SMap Nat := []
  bins : SMap Bin := []
  fileQ : List Nat := []
  l1 : List L1Copy := []
  lLines : List (Nat × Bool) := []
  tlb : List TlbEntry := []
  tob : List Host.Cell := []
  tobTags : SMap Nat := []
  tobLaunch : Option Nat := none
  tobPlace : SMap Nat := []
  blocks : List Nat := []
  tbs : SMap TxBarrier := []
  badTbs : List Nat := []
  cbufs : SMap CircBuf := []
  copyQ : List CopyCmd := []
  copyTicket : Nat := 0
  copyWrapped : Bool := false
  copyRing : SMap RingEntry := []
  cpSeed : DWord := 1
  texQ : List TexOp := []
  perf : SMap PerfCounter := []
  gated : Bool := false
  halted : Bool := false
  idleSince : Nat := 0
  gateFrom : Nat := 0
  deriving DecidableEq, Repr

/-- 12 R274: who owns an accumulator tile. -/
inductive TileOwner where
  | group (id : Nat)
  | block (id : Nat)
  deriving DecidableEq, Repr

/-- 15 R364: a queued ray with its run stamp and filing time. -/
structure RayEntry where
  id : Nat
  stamp : Nat
  filed : Nat
  deriving DecidableEq, Repr

/-- 15 R364-R366: a run of a ray traversal unit: its launch, subtree, number, the rays not yet retired in
sorted order, how many were taken, how many were held out of it for a page of their slots (15 R370), whether the subtree is
loaded, its start in context time, the subtree buffer with the numbers of its poisoned sectors, and the slot of the unit program
table that the run uses, empty where it is not valid. -/
structure RayRun where
  launch : Nat
  subtree : Nat
  number : Nat
  rays : List RayEntry
  taken : Nat := 0
  out : Nat := 0
  loaded : Bool := false
  startedAt : Nat := 0
  buffer : List Byte := []
  bad : List Nat := []
  upt : List Byte := []
  deriving DecidableEq, Repr

/-- A cluster (01 R14, 12 R274). Tile t holds pairs keyed 128m + n; absent pairs are +0. `table` is the
reservation table, keyed by entry number. -/
structure Cluster where
  fused : Bool := false
  tiles : SMap (SMap (Word × Word)) := []
  owners : SMap TileOwner := []
  lastCtx : SMap Nat := []
  table : SMap MatEntry := []
  granted : Option Nat := none
  run : Option RayRun := none
  gated : Bool := false
  deriving DecidableEq, Repr

/-! ### Queues and records -/

/-- 13 R306: a hardware queue: entries on die, then entries in its spill ring, oldest first. `turns` counts
the waiters that have joined it (13 R325). -/
structure HwQueue where
  die : List (List Byte) := []
  ring : List (List Byte) := []
  turns : Nat := 0
  deriving DecidableEq, Repr

/-- 13 R308, R323: a command queue's descriptor and reader state. `seq` is the sequence number of the next
record, `phaseNo` the number of the phase that is open, `marks` the sequences ahead that a cancel has marked
(13 R327), `throttle` the issue rate in eighths (13 R322). -/
structure CmdQueue where
  base : Nat := 0
  size : Nat := 64
  tag : Nat := 0
  prio : Nat := 0
  powerCap : Nat := 0
  readIdx : Nat := 0
  writeIdx : Nat := 0
  seq : Nat := 0
  reset : Bool := false
  resetDone : Bool := false
  stopped : Bool := false
  phaseNo : Nat := 0
  marks : List Nat := []
  throttle : Nat := 8
  die : Nat := 0
  deriving DecidableEq, Repr

/-- 13 R309, R310: a record that has been read: its fields, whether it has begun, what it waits for (a page,
by virtual page number), its launch, and the status it has completed with. `due` is a status fixed before
its completion writes, `wrote` the signal writes it has made. -/
structure Record where
  handle : Nat
  queue : Nat
  addr : Nat
  kind : Nat
  serial : Bool := false
  signal : Bool := false
  addr1 : Nat := 0
  addr2 : Nat := 0
  addr3 : Nat := 0
  banks : Nat := 0
  deadline : Nat := 0
  sigAddr : Nat := 0
  value : Nat := 0
  phase : Nat := 0
  begun : Bool := false
  drop : Bool := false
  page : Option Nat := none
  launch : Option Nat := none
  due : Option (Status × FaultCode) := none
  wrote : Nat := 0
  ended : Option (Status × FaultCode) := none
  deriving DecidableEq, Repr

/-- 13 R317: a node of a graph replay: its launch descriptor and where it lies, its parameter block, constant
banks and predecessors. -/
structure GraphNode where
  desc : LaunchDesc := {}
  descAddr : Nat := 0
  params : Nat := 0
  banks : SMap (Nat × Nat) := []
  preds : BitVec 256 := 0
  begun : Bool := false
  ended : Bool := false
  launch : Option Nat := none
  deriving DecidableEq, Repr

/-- 13 R317, R318: a replay in a slot of a graph object, with the header's completion signal address. -/
structure Replay where
  graph : Nat
  slot : Nat
  handle : Nat
  nodes : List GraphNode := []
  counter : Nat := 0
  state : LevelState := .running
  signal : Nat := 0
  deriving DecidableEq, Repr

/-- 13 R310, 19 R450: a phase of a queue: its records not yet complete, whether it is being cancelled, and
the status its mark completed with. -/
structure Phase where
  counter : Nat := 0
  cancelled : Bool := false
  ended : Option Status := none
  deriving DecidableEq, Repr

/-! ### Faults and translation -/

/-- 20 R461: an event entry before it is written: bytes 0 to 63 in the fields the layout names. `unit`
is byte 50; the drop count of bytes 48 and 49 is set when the entry is written. -/
structure EventEntry where
  ctx : Nat
  kind : Nat
  code : FaultCode := .none
  status : Nat := 0
  pos : Nat := 0xFF
  location : Nat := 0
  slot : Nat := 0xFF
  threads : Nat := 0
  handle : Nat := 0
  trapCode : Nat := 0
  addr : Nat := 0
  detail : Nat := 0
  record : Nat := 0
  extra : Nat := 0
  unit : Nat := 0
  deriving DecidableEq, Repr

/-- 17 R411, R412: what unit a replay record belongs to and what it resumes. -/
inductive ReplayWork where
  | core (resume words : Nat) (threads : List Nat)
  | coachman (core addr : Nat)
  | copy (core ticket : Nat)
  | matrix (cluster entry row ticket : Nat)
  | ray (cluster launch kind subtree run retired taken ray : Nat)
  | texture (core op mask : Nat)
  | raster (binner view stage tile seq handle : Nat)
  deriving DecidableEq, Repr

/-- 17 R411-R416, 20 R463: a replay record: cause 1 page fault, 2 partition switch, 3 held for the
supervisor. `event` is the entry to append once the record is written, `pages` the absent
pages to enter, each with its access code, `kind`, `code`, `pos` and `addr` what a trap of it reports, `since` the context time of
the trap, `order` its place in the order of writing (17 R416). -/
structure ReplayRecord where
  cause : Nat
  location : Nat := 0
  waits : Nat := 0
  slot : Nat := 0xFF
  work : ReplayWork
  event : Option EventEntry := none
  pages : List (Nat × Nat) := []
  hint : Option Nat := none
  kind : Nat := 0
  code : FaultCode := .none
  pos : Nat := 0xFF
  addr : Nat := 0
  since : Nat := 0
  order : Nat := 0
  deriving DecidableEq, Repr

/-- 17 R409: a fault queue entry. `record` is the replay slot, none for a prefetch or the record
reader. -/
structure FaultEntry where
  ctx : Nat
  vpn : Nat
  access : Nat
  unit : Nat
  location : Nat := 0
  pageSize : Nat := 0
  record : Option Nat := none
  hint : Option Nat := none
  deriving DecidableEq, Repr

/-- 17 R400, R418: a page in the merge table: its waiting records and its progress. `entry` is the entry that first
placed it, with which it is passed to the pager (25 R545); a predicted page has none. -/
structure MergePage where
  ctx : Nat
  vpn : Nat
  waiters : List Nat := []
  reader : List Nat := []
  frame : Option Nat := none
  inBatch : Bool := true
  toPager : Bool := false
  pagerSince : Nat := 0
  entry : Option FaultEntry := none
  deriving DecidableEq, Repr

/-- 17 R407: a frame-table entry. `lastLease` is the latest lease expiry of any L1 copy of the frame,
for the eviction of 17 R421 and the hand-over of 11 R270; `wrote` counts the write-backs of the frame (10 R245); `wanted` says
that an engine waits for the page, which is surrendering or surrendered, so that Dray brings it back (11 R271); `scrubbed` is when
the patrol scrubber last read the frame (22 R508). -/
structure Frame where
  dirty : BitVec 128 := 0
  key : Nat := 0
  pool : Nat := 0
  hstate : Nat := 0
  shared : Bool := false
  mig : Bool := false
  ref : Bool := false
  lent : Bool := false
  pin : Bool := false
  valid : Bool := false
  ctx : Nat := 0
  vpn : Nat := 0
  lastLease : Nat := 0
  leaving : Bool := false
  wrote : Nat := 0
  wanted : Bool := false
  scrubbed : Nat := 0
  deriving DecidableEq, Repr

/-- 11 R249: MOESI states of a die in a directory entry. -/
inductive Moesi where
  | invalid | shared | owned | exclusive | modified
  deriving DecidableEq, Repr

/-- 11 R267: a directory transaction under way: the requesting die, whether it asks for ownership, and the
die a request has been forwarded to. -/
structure LineTxn where
  die : Nat
  own : Bool
  forward : Option Nat := none
  deriving DecidableEq, Repr

/-- 11 R249, R253, R258, R266: a line's home state: per-die MOESI states, version, the expiries of the
tokens out on each die, transient state, persistent requests in slot order, the transaction under way and
the dies still to acknowledge. `counts` are the writes that a die in M has applied and not yet passed on (R269); `probedAt`
is when the home last sent a probe for the line (R272); `held` names the dies whose L2 slice holds the line, each with
whether it is dirty against GDDR-7 and when it was last filled or written: its bytes stand in `Memories` (09 R197);
`homeWrites` the bytes that readers have written while the line was transient, oldest first, applied when it is free (R258). -/
structure LineDir where
  states : SMap Moesi := []
  version : Nat := 0
  counts : SMap Nat := []
  probedAt : Nat := 0
  held : SMap (Bool × Nat) := []
  holderVersion : SMap (BitVec 16) := []
  transient : Bool := false
  persistent : List Nat := []
  homeWrites : List (List (Nat × Byte)) := []
  tokens : SMap (List Nat) := []
  txn : Option LineTxn := none
  acks : List Nat := []
  deriving DecidableEq, Repr

/-! ### Dies -/

/-- 16 R387, R399: a primitive held by a binner: its sequence number, launch, record block v(n) to v(n + 13),
view mask, and the bins, view and tile, that still hold a reference to it: on die and in their spill rings. `unbinned` are the
views whose matrix could not be read when it was accepted. -/
structure BinPrim where
  seq : Nat
  launch : Nat
  regs : List Word
  mask : BitVec 128
  refs : List (Nat × Nat) := []
  ringRefs : List (Nat × Nat) := []
  unbinned : List Nat := []
  deriving DecidableEq, Repr

/-- 16 R382, R388: a rasteriser/binner: accepted primitives in sequence order, those of its on-die store and then those of its
spill rings, whether it flushes, the contexts for which it is parked with a record, and the latest completion time of the
flush's writes. -/
structure Binner where
  prims : List BinPrim := []
  ring : List BinPrim := []
  completion : Nat := 0
  flushing : Bool := false
  parked : List Nat := []
  deriving DecidableEq, Repr

/-- A die's fault path (17 R400, R418-R426) and its held events (20 R460). -/
structure DieFault where
  queue : List FaultEntry := []
  ring : List FaultEntry := []
  merge : List MergePage := []
  batchOpened : Option Nat := none
  batchBig : Bool := false
  hand : Nat := 0
  strides : SMap (List Nat) := []
  held : List EventEntry := []
  drops : Nat := 0
  deriving DecidableEq, Repr

/-- A die (01 R12): dispatcher, fields of its management window (22 R512), Omnibus, mailbox. `rampNet` is the change in
resident blocks since `rampStart`, with what earlier µs left above the rate, and `rampFall` how many blocks' current the
ramp has not yet shed (02 R36); `shadow` what partition switches have
put in the reserved ways: context, address in its save area, bytes (09 R204, 20 R474); `lastQueue` the command queue last
served by its record reader (13 R311). `timeouts` counts, by die, the
probes of its homes that a die has let time out in turn (11 R272); `invalidating` is the translation invalidate that its mailbox
holds: context, first page, count (17 R405). -/
structure Die where
  dispRamp : Nat := 64
  shadowWays : Nat := 4
  rampNet : Int := 0
  rampFall : Nat := 0
  rampStart : Nat := 0
  shadow : List (Nat × Nat × List Byte) := []
  lastQueue : Option (Nat × Nat) := none
  fault : DieFault := {}
  runCounter : Nat := 0
  binners : SMap Binner := []
  perf : SMap PerfCounter := []
  rowMap : SMap (BitVec 64) := []
  portMode : SMap Nat := []
  missed : Nat := 0
  missedAt : Nat := 0
  timeouts : SMap Nat := []
  census : Bool := false
  lost : Bool := false
  corrections : Nat := 0
  mailBusy : Bool := false
  mailStatus : Nat := 0
  mailReason : Nat := 0
  invalidating : Option (Nat × Nat × Nat) := none
  hottest : Nat := 0
  deriving DecidableEq, Repr

/-! ### Contexts -/

/-- 15 R364: a subtree queue: its on-die part, in the Omnibus store of die `home`, its spill ring, and whether its load or its
table entry waits for a page (15 R356, R369). -/
structure RayQueue where
  die : List RayEntry := []
  ring : List RayEntry := []
  waiting : Bool := false
  home : Nat := 0
  deriving DecidableEq, Repr

/-- 15 R370: what a ray does once the page of its slot is resolved. -/
inductive RayAct where
  | file (subtree : Nat)
  | back (subtree : Nat) (entry : RayEntry)
  | shade
  | complete (st : Status) (code : FaultCode) (report : Bool)
  deriving DecidableEq, Repr

/-- A bound that may be infinite: −∞, a number, +∞. -/
inductive Bound where
  | low
  | at (q : Rat)
  | high
  deriving DecidableEq, Repr

/-- 15 R372: a ray whose slot writes are performed at `.dev` at a time, and then completes: identifier, time, location of the
unit, status, fault code, and whether it is reported. -/
structure RayClose where
  id : Nat
  time : Nat
  loc : Nat
  status : Status
  code : FaultCode
  report : Bool
  deriving DecidableEq, Repr

/-- 15 R354: the ray state of a launch: subtree queues, hit lists per die with each ray's arrival in context
time, the rays held for a page of their slots, each ray's pending exits with the entry t of the child box (15 R555), the scene
descriptor as the Omnibus holds it from the launch's first claim on (log 76), and the rays whose completion waits for the slot's
writes (15 R372). -/
structure RayLaunch where
  queues : SMap RayQueue := []
  hits : SMap (List (Nat × Nat)) := []
  held : List (Nat × RayAct) := []
  exits : SMap (List (Nat × Bound)) := []
  scene : Option (List Byte) := none
  closing : List RayClose := []
  deriving DecidableEq, Repr

/-- 12 R274, 18 R428, 20 R459, 09 R208, 17 R400: the fields the supervisor sets for a context. -/
structure CtxFields where
  ptRoot : Nat := 0
  maxWait : Nat := 1000000000
  escLimit : Nat := 8
  lease : Nat := 8
  matAge : Nat := 32
  ovfQuota : Nat := 4096
  trapLimit : Nat := 1000000
  lpBase : Nat := 0
  lpLog : Nat := 9
  lpFrames : Nat := 1
  saveBase : Nat := 0
  evtBase : Nat := 0
  evtSize : Nat := 64
  svcrBase : Nat := 0
  svcrSize : Nat := 64
  rplBase : Nat := 0
  rplSlots : Nat := 256
  poolSize : Nat := 64
  xfrBase : Nat := 0
  xfrSize : Nat := 64
  movBase : Nat := 0
  deriving DecidableEq, Repr

/-- A context: its fields, clock, rings, queues and records. `cpSeed` is what its cores' `CPSEED` starts from. `bounds` maps
bound register n to (LO, HI, ACT); `upt` maps 8 × unit + slot to a table image. -/
structure Context where
  f : CtxFields := {}
  ctime : Nat := 0
  resident : Bool := true
  evtWrite : Nat := 0
  evtRead : Nat := 0
  svcrWrite : Nat := 0
  svcrRead : Nat := 0
  xfrWrite : Nat := 0
  xfrRead : Nat := 0
  cpSeed : DWord := 1
  bounds : SMap (Word × Word × BitVec 2) := []

  upt : SMap (List Byte) := []
  queues : SMap CmdQueue := []
  records : List Record := []
  phases : SMap Phase := []
  msgs : SMap HwQueue := []
  atlas : HwQueue := {}
  svcQ : HwQueue := {}
  deriving DecidableEq, Repr

/-- 02 R42, 20 R476: a bank of a core that a context has spilled, with the bytes that its image took. -/
structure SpilledBank where
  core : Nat
  bank : Nat
  img : List Byte
  deriving DecidableEq, Repr

/-- The rest of a context's state (13 R317, 17 R411, 20 R474, R554, 21 R488). `jobState` is the state of its job (02 R50);
`xfers` holds the transfer records
that have begun, by ring index: status, fault and the time their writes are performed, and `xferAsk` the virtual page that a
transfer has asked of Dray, with the fault if it could not be brought in (21 R500). `replayed` keeps with
each replay slot the work last replayed from it (17 R416). `spilledRegs` and
`spilledRows` are the banks whose contents lie in the save area (02 R42). `savedPoison` names the poisoned sectors of saved
TOB rows and tiles (10 R229). `failed` lists the addresses of structures whose write has failed and been reported (20 R554). -/
structure CtxMore where
  jobCounter : Nat := 0
  jobState : LevelState := .running
  replays : List Replay := []
  replay : SMap ReplayRecord := []
  replayWaiting : List ReplayRecord := []
  replayed : SMap ReplayWork := []
  poolFree : List Nat := []
  vector : Nat := 0
  notifyPending : Bool := false
  notified : Nat := 0
  retryAt : Option Nat := none
  failed : List Nat := []
  trace : Bool := false
  savedCores : SMap Core := []
  savedCoaches : SMap Coach := []
  savedClusters : SMap Cluster := []
  xfers : SMap (Status × FaultCode × Nat) := []
  xferAsk : Option (Nat × Option FaultCode) := none
  recordSeq : Nat := 0
  spilledRegs : List SpilledBank := []
  spilledRows : List SpilledBank := []
  savedPoison : List Nat := []
  deriving DecidableEq, Repr

/-! ### The package -/

/-- 17 R400, 22 R518: an entry of the key table; no instruction reads the key pair's bits (17 R406). -/
structure KeyEntry where
  valid : Bool := false
  ctx : Nat := 0
  bits : BitVec 512 := 0
  deriving DecidableEq, Repr

/-- 17 R400: a partition: cluster mask, resident context, and state 0 empty, 1 resident, 2 switched
out, 3 switching; `next` is the context a switch brings in and `step` the step of 02 R44. -/
structure Partition where
  mask : BitVec 192 := 0
  ctx : Option Nat := none
  state : Nat := 0
  next : Option Nat := none
  step : Nat := 0
  mail : Nat := 0
  deriving DecidableEq, Repr

/-- 21 R492: an entry of the extent table: base and length in bytes, `ESTATE` (0 free, 1 active,
2 releasing, 3 gone, 4 lent, 5 reclaiming), kind, tag, drain deadline, first frame; `forced` as in R494, and `told` the contexts
that have been told of a dirty sector lost by it. -/
structure Extent where
  base : Nat := 0
  len : Nat := 0
  state : Nat := 0
  kind : Nat := 0
  tag : Nat := 0
  deadline : Nat := 0
  firstFrame : Nat := 0
  forced : Bool := false
  told : List Nat := []
  deriving DecidableEq, Repr

/-- 22 R518, R517: the attestation session. -/
structure Spdm where
  version : Bool := false
  capabilities : Bool := false
  algorithms : Option Nat := none
  session : Option Nat := none
  finished : Bool := false
  responses : List (Nat × Nat) := []
  challenge : Option Nat := none
  deriving DecidableEq, Repr

/-- 22 R520: the security state. -/
inductive SecState where
  | productionLocked | debugAuthorised | returnMaterial
  deriving DecidableEq, Repr

/-- 22 R516: the identity of a boot layer: its public keys, its secret keys, and the two signatures of the layer below on its
certificate (none for layer 0). -/
structure LayerId where
  layer : Nat
  edPublic : Nat
  mlPublic : Nat
  edSecret : Nat
  mlSecret : Nat
  edCert : Option Nat := none
  mlCert : Option Nat := none
  deriving DecidableEq, Repr

/-- 22 R521: an entry of the debug trace: the event kind, 0 for a clause issued, with its context, address and time. `data`
says that data values go with it (log 51). -/
structure TraceEntry where
  time : Nat
  ctx : Nat
  kind : Nat
  addr : Nat
  data : Bool
  deriving DecidableEq, Repr

/-- 22 R515-R521: boot, identity, security and debug state. `trace` is the trace buffer, oldest first. `measurements` are the
hashes of the images that verified; `identifier` is the compound device identifier of the layer that runs, with its number,
and `layers` what each layer has derived (R516). -/
structure Security where
  booted : Nat := 0
  measurements : List (BitVec 384) := []
  identifier : Option (Nat × BitVec 384) := none
  layers : List LayerId := []
  state : SecState := .productionLocked
  debug : DebugMode := .none
  pendingToken : Bool := false
  fuseBurned : Bool := false
  haltedUnits : List UnitId := []
  trace : List TraceEntry := []
  spdm : Spdm := {}
  deviceId : Nat := 0
  deriving DecidableEq, Repr

/-- 01 R19, 09 R218, 22 R523-R526: operating point, step in progress, limits and power state. `queued` holds the step
orders that wait, each a point and whether it is urgent (09 R220). -/
structure Power where
  vs : Nat := 2
  target : Option Nat := none
  phase : Nat := 0
  orderedAt : Nat := 0
  urgent : Bool := false
  rail : Nat := 2
  evacLimit : Nat := 100
  holdLimit : Nat := 1000
  vsMin : Nat := 5
  vsMax : Nat := 0
  pkgLimit : Nat := 1800
  issueEighths : Nat := 8
  excessSince : Option Nat := none
  calmSince : Option Nat := none
  lastThermal : Nat := 0
  requested : Option Nat := none
  queued : List (Nat × Bool) := []
  gatedUnits : List UnitId := []
  asleep : Bool := false
  off : Bool := false
  deriving DecidableEq, Repr

/-- 21 R496, R497: what the device last answered to a request of a host or a peer to lent memory: the bytes read, or poison. -/
structure LentAnswer where
  extent : Nat
  offset : Nat
  data : List Byte := []
  poison : Bool := false
  deriving DecidableEq, Repr

/-- 21 R489-R500, 17 R400, R425: decoders, extents, pager, keys, partitions, transfers, links. `switches` holds the partition
switches that wait for a step of the operating point: die, partition, context (09 R220). `lentMaps` is what maps
each lent extent (21 R496), `functions` the contexts bound to the virtual functions' pages (21 R487), `links` the key of every
peer of every link port and `number` this device's own number (21 R498), `vectors` when each notification vector was last
signalled (21 R488), `pagerCore` the service core of the pager and `pagerSent` the entries written to its request ring
(17 R425), and `poolKeys` the key pair under which each pool sector was last written (22 R518). -/
structure Tables where
  hdm : SMap (Nat × Nat × Nat) := []
  extents : SMap Extent := []
  extDrain : Nat := 1000
  freeMin : Nat := 4096
  pagerLimit : Nat := 10000
  pagerReq : Option Nat := none
  pagerRep : Option Nat := none
  pagerCore : Nat := 0
  pagerSent : Nat := 0
  keys : SMap KeyEntry := [(0, { valid := true })]
  partitions : SMap Partition := []
  links : SMap (SMap Nat) := []
  number : Nat := 0
  lentMaps : SMap Nat := []
  lentAnswer : Option LentAnswer := none
  functions : SMap Nat := []
  vectors : SMap Nat := []
  poolKeys : SMap (BitVec 512) := []
  surrenders : List Nat := []
  switches : List (Nat × Nat × Nat) := []
  deriving DecidableEq, Repr

/-! ### The clause under way and the whole machine -/

/-- What a position or a clause reports: its code, position, faulting address, event kind and trap code
(03 R75, 10 R227, 20 R461), and for an absent page the pages and their access codes (10 R228). -/
structure FaultReport where
  code : FaultCode
  pos : Nat := 0xFF
  addr : Nat := 0
  kind : Nat := 1
  trapCode : Nat := 0
  status : Nat := 0
  extra : Nat := 0
  pages : List (Nat × Nat) := []
  deriving DecidableEq, Repr

/-- The clause an agent is executing: where it stands, its lanes, and the fault a position raised.
`addr` is the clause header's address, `word` that of the current instruction's base word, `stop` the
word after the clause. `posts` counts its posting positions so far, and `reserved` keeps the block's entries
and tiles as they stood before the clause's first `RSV` or `RLS` (12 R292). `hold` says that a form of the
clause must still wait before it issues (12 R292, 15 R378, 16 R391, R396, R399, 18 R436, 20 R466): the step then
discards the clause's effects. `sampled` names the operations that the clause has put into its core's sampler; `flush`
names the binners that must flush first, and `wraps` says that the launch's primitive sequence counter would pass its
end (16 R388). `code` holds the fetched and decoded clause (03 R77): each instruction with the address of its base word. -/
structure Cur where
  agent : Agent := .core
  core : Nat := 0
  block : Nat := 0
  lanes : List Nat := []
  pos : Nat := 0
  addr : Nat := 0
  word : Nat := 0
  stop : Nat := 0
  yieldBit : Bool := false
  fault : Option FaultReport := none
  created : List Nat := []
  posts : Nat := 0
  reserved : Option (Nat × List Nat) := none
  hold : Bool := false
  flush : List Nat := []
  wraps : Bool := false
  sampled : List Nat := []
  code : List (Nat × Instr) := []
  deriving DecidableEq, Repr

/-- 19 R457, R458: a black-box entry. -/
structure BlackBox where
  time : Nat
  seq : Nat
  kind : Nat
  die : Nat := 0
  ctx : Nat := 0
  code : Nat := 0
  status : Nat := 0
  detail : Nat := 0
  deriving DecidableEq, Repr

/-- The memories behind the caches: device-physical bytes (the page cache), host memory, the pool, and
the poisoned sectors of each (10 R229). -/
structure Memories where
  device : List Host.Cell := []
  host : List Host.Cell := []
  pool : List Host.Cell := []
  poisoned : List Nat := []
  deriving DecidableEq, Repr

/-- The work on the device: launches, groups, blocks and threads, by unique number. -/
structure Work where
  threads : SMap Thread := []
  blocks : SMap Block := []
  sync : SMap BlockSync := []
  groups : SMap Group := []
  launches : SMap Launch := []
  rays : SMap RayLaunch := []
  bundles : List Bundle := []
  nextBlock : Nat := 1
  nextLaunch : Nat := 1
  deriving DecidableEq, Repr

/-- The machine. `inputs` holds the device events still to happen, in order; `ticks` the nanoseconds
that pass at each step; `yields` the scheduler's answers to yield bits; `draws` counts the free values
taken. These four are the model's own (log 2, 4, 5, 6); everything else is the manual's. `engineTlb` holds the TLBs of the
engines, by `Engine.key` (17 R400). -/
structure State where
  inputs : List Instr := []
  ticks : List Nat := []
  yields : List Bool := []
  draws : Nat := 0
  dtime : Nat := 0
  cur : Cur := {}
  work : Work := {}
  cores : SMap Core := []
  coaches : SMap Coach := []
  clusters : SMap Cluster := []
  dies : SMap Die := []
  ctxs : SMap Context := []
  more : SMap CtxMore := []
  mem : Memories := {}
  pend : List Access := []
  nextAccess : Nat := 0
  lines : SMap LineDir := []
  engineTlb : SMap (List TlbEntry) := []
  frames : SMap Frame := []
  tables : Tables := {}
  security : Security := {}
  power : Power := {}
  blackBox : List BlackBox := []
  deriving DecidableEq, Repr

/-- The machine right after reset: nothing runs, nothing is cached, no context exists, device time 0,
and every field at the value INVENTORY.md lists. -/
def State.reset : State := {}

end Sys2Proof.Machine
end

