-- ==== Sys2Proof/Machine/Ops.lean ====
section
/-!
DEFINITION. The named operations over the state: maps, bytes, threads, lanes, registers, counters and
clocks. Everything above this file reads and writes the state through these.
-/

namespace Sys2Proof.Machine

/-- The outcome type of every meaning. -/
abbrev Result := Host.Outcome State Fault Refusal

/-! ### Sparse maps -/

/-- The value at a key. -/
def mget {α : Type} : SMap α → Nat → Option α
  | [], _ => none
  | (k, v) :: r, i => if i = k then some v else mget r i

/-- The value at a key, or the given one. -/
def mgetD {α : Type} (m : SMap α) (i : Nat) (d : α) : α := (mget m i).getD d

/-- The map with a key's value set, keys still rising. -/
def mset {α : Type} : SMap α → Nat → α → SMap α
  | [], i, x => [(i, x)]
  | (k, v) :: r, i, x =>
    if i < k then (i, x) :: (k, v) :: r else if i = k then (i, x) :: r else (k, v) :: mset r i x

/-- The map without a key. -/
def merase {α : Type} : SMap α → Nat → SMap α
  | [], _ => []
  | (k, v) :: r, i => if i = k then r else (k, v) :: merase r i

/-- The map with a present key's value changed. -/
def mmod {α : Type} : SMap α → Nat → (α → α) → SMap α
  | [], _, _ => []
  | (k, v) :: r, i, f => if i = k then (k, f v) :: r else (k, v) :: mmod r i f

/-- The keys of a map. -/
def mkeys {α : Type} (m : SMap α) : List Nat := m.map Prod.fst

/-- The canonical form: keys strictly rising. -/
def msorted {α : Type} : SMap α → Bool
  | [] => true
  | [_] => true
  | (a, _) :: (b, v) :: r => decide (a < b) && msorted ((b, v) :: r)

/-! ### Bytes -/

/-- What a byte of memory that nothing has written reads as (log 3). -/
def emptyByte : Byte := 0

/-- The byte at an address. -/
def cellAt (m : List Host.Cell) (a : Nat) : Byte := mgetD m a emptyByte

/-- The memory with one byte written; a byte equal to `emptyByte` is not listed. -/
def setCell (m : List Host.Cell) (a : Nat) (b : Byte) : List Host.Cell :=
  if b = emptyByte then merase m a else mset m a b

/-- Bytes written one after another. -/
def setCells (m : List Host.Cell) (ws : List (Nat × Byte)) : List Host.Cell :=
  ws.foldl (fun acc w => setCell acc w.1 w.2) m

/-- The canonical form of a memory: addresses strictly rising, nothing listed that reads as empty. -/
def Memory.wf (m : List Host.Cell) : Bool := msorted m && m.all (fun c => c.2 != emptyByte)

/-- A little-endian value from bytes (00 R4). -/
def leNat : List Byte → Nat
  | [] => 0
  | b :: r => b.toNat + 256 * leNat r

/-- The n little-endian bytes of a value (00 R4). -/
def leBytes : Nat → Nat → List Byte
  | 0, _ => []
  | n + 1, x => BitVec.ofNat 8 x :: leBytes n (x / 256)

/-- The n bytes from an address up. -/
def cellsFrom (m : List Host.Cell) (a : Nat) : Nat → List Byte
  | 0 => []
  | n + 1 => cellAt m a :: cellsFrom m (a + 1) n

/-- The little-endian value of n bytes at an address. -/
def cellNat (m : List Host.Cell) (a n : Nat) : Nat := leNat (cellsFrom m a n)

/-- Address and byte pairs for the n bytes of a value at an address. -/
def byteWrites (a n x : Nat) : List (Nat × Byte) :=
  (List.range n).map (fun i => (a + i, BitVec.ofNat 8 (x / 256 ^ i)))

/-! ### Parts of the state by number -/

/-- The core of a number, as after reset where nothing has changed it. -/
def coreOf (s : State) (g : Nat) : Core := mgetD s.cores g {}

/-- A core changed. -/
def modCore (s : State) (g : Nat) (f : Core → Core) : State :=
  { s with cores := mset s.cores g (f (coreOf s g)) }

/-- The Coachman of a core. -/
def coachOf (s : State) (g : Nat) : Coach := mgetD s.coaches g {}

/-- A Coachman changed. -/
def modCoach (s : State) (g : Nat) (f : Coach → Coach) : State :=
  { s with coaches := mset s.coaches g (f (coachOf s g)) }

/-- The cluster of a number, 48 × die + cluster index. -/
def clusterOf (s : State) (g : Nat) : Cluster := mgetD s.clusters g {}

/-- A cluster changed. -/
def modCluster (s : State) (g : Nat) (f : Cluster → Cluster) : State :=
  { s with clusters := mset s.clusters g (f (clusterOf s g)) }

/-- A die. -/
def dieOf (s : State) (d : Nat) : Die := mgetD s.dies d {}

/-- A die changed. -/
def modDie (s : State) (d : Nat) (f : Die → Die) : State :=
  { s with dies := mset s.dies d (f (dieOf s d)) }

/-- A context. -/
def ctxOf (s : State) (c : Nat) : Context := mgetD s.ctxs c {}

/-- 05 R95: a bound register of a context: `LO`, `HI` and `ACT`, at reset −∞, +∞ and 0. -/
def bdOf (c : Context) (n : Nat) : Word × Word × BitVec 2 := mgetD c.bounds n (0xFF800000, 0x7F800000, 0)

/-- A context changed. -/
def modCtx (s : State) (c : Nat) (f : Context → Context) : State :=
  { s with ctxs := mset s.ctxs c (f (ctxOf s c)) }

/-- The further state of a context. -/
def moreOf (s : State) (c : Nat) : CtxMore := mgetD s.more c {}

/-- The further state of a context changed. -/
def modMore (s : State) (c : Nat) (f : CtxMore → CtxMore) : State :=
  { s with more := mset s.more c (f (moreOf s c)) }

/-- The work of the device changed. -/
def modWork (s : State) (f : Work → Work) : State := { s with work := f s.work }

/-- A block. -/
def blockOf (s : State) (b : Nat) : Block := mgetD s.work.blocks b { launch := 0 }

/-- A block changed, if it exists. -/
def modBlock (s : State) (b : Nat) (f : Block → Block) : State :=
  modWork s fun w => { w with blocks := mmod w.blocks b f }

/-- The counted state of a block. -/
def syncOf (s : State) (b : Nat) : BlockSync := mgetD s.work.sync b {}

/-- The counted state of a block changed. -/
def modSync (s : State) (b : Nat) (f : BlockSync → BlockSync) : State :=
  modWork s fun w => { w with sync := mset w.sync b (f (mgetD w.sync b {})) }

/-- A launch. -/
def launchOf (s : State) (l : Nat) : Launch := mgetD s.work.launches l { ctx := 0 }

/-- A launch changed, if it exists. -/
def modLaunch (s : State) (l : Nat) (f : Launch → Launch) : State :=
  modWork s fun w => { w with launches := mmod w.launches l f }

/-- A group. -/
def groupOf (s : State) (g : Nat) : Group := mgetD s.work.groups g { launch := 0 }

/-- A group changed, if it exists. -/
def modGroup (s : State) (g : Nat) (f : Group → Group) : State :=
  modWork s fun w => { w with groups := mmod w.groups g f }

/-- A thread, if it lives. -/
def threadOf (s : State) (u : Nat) : Option Thread := mget s.work.threads u

/-- A thread changed, if it lives. -/
def modThread (s : State) (u : Nat) (f : Thread → Thread) : State :=
  modWork s fun w => { w with threads := mmod w.threads u f }

/-- 05 R97: the die of a core. -/
def dieOfCore (g : Nat) : Nat := g / 192

/-- 05 R97: `%core` of a core. -/
def coreIndex (g : Nat) : Nat := g % 192

/-- The cluster number of a core: 48 × die + cluster index. -/
def clusterOfCore (g : Nat) : Nat := g / 4

/-- The launch of a block. -/
def launchOfBlock (s : State) (b : Nat) : Launch := launchOf s (blockOf s b).launch

/-- The context of a block. -/
def ctxOfBlock (s : State) (b : Nat) : Nat := (launchOfBlock s b).ctx

/-- The threads of a block, by number. -/
def threadsOfBlock (s : State) (b : Nat) : List (Nat × Thread) :=
  s.work.threads.filter (fun p => p.2.block == b)

/-- The unique number of thread `tid` of a block. -/
def threadUid (block tid : Nat) : Nat := block * 1024 + tid

/-! ### Threads, registers and latches -/

/-- A lane register; one nothing has written reads 0 (05 R95). -/
def Regs.get (r : Regs) (n : Nat) : Word := mgetD r.v n 0

/-- A lane register written; what poisoned it is gone (22 R507). -/
def Regs.set (r : Regs) (n : Nat) (x : Word) : Regs := { r with v := mset r.v n x, bad := r.bad.filter (· != n) }

/-- A pair vn:vn+1, low word first (03 R59). -/
def Regs.pair (r : Regs) (n : Nat) : DWord := (r.get (n + 1)).append (r.get n)

/-- A pair written, low word to vn (03 R59). -/
def Regs.setPair (r : Regs) (n : Nat) (x : DWord) : Regs :=
  (r.set n (x.setWidth 32)).set (n + 1) (x.extractLsb' 32 32)

/-- A latch: 64 bits (03 R60). -/
def Regs.getLatch (r : Regs) (j : Nat) : DWord := mgetD r.latch j 0

/-- A latch written. -/
def Regs.setLatch (r : Regs) (j : Nat) (x : DWord) : Regs := { r with latch := mset r.latch j x }

/-- Predicate pn: p7 reads 1 (05 R95). -/
def Regs.pred (r : Regs) (n : Nat) : Bool := if n = 7 then true else r.p.getLsbD n

/-- Predicate pn written; a write to p7 is discarded (03 R56). -/
def Regs.setPred (r : Regs) (n : Nat) (b : Bool) : Regs :=
  if n < 7 then
    { r with p := if b then r.p ||| BitVec.ofNat 7 (2 ^ n) else r.p &&& ~~~(BitVec.ofNat 7 (2 ^ n)) }
  else r

/-- A dependency counter (03 R62). -/
def Regs.getCtr (r : Regs) (j : Nat) : Nat := mgetD r.ctr j 0

/-- A dependency counter written. -/
def Regs.setCtr (r : Regs) (j : Nat) (n : Nat) : Regs := { r with ctr := mset r.ctr j n }

/-- 03 R62, R65: `CTR` code c names counter c − 1; 0 names none. -/
def Regs.ctrUp (r : Regs) (c : Nat) : Regs := if c = 0 then r else r.setCtr (c - 1) (r.getCtr (c - 1) + 1)

/-- 03 R62: a counter falls by one. -/
def Regs.ctrDown (r : Regs) (c : Nat) : Regs := if c = 0 then r else r.setCtr (c - 1) (r.getCtr (c - 1) - 1)

/-- The registers of a thread changed. -/
def Thread.modRegs (t : Thread) (f : Regs → Regs) : Thread := { t with regs := f t.regs }

/-- The control state of a thread changed. -/
def Thread.modCtl (t : Thread) (f : Control → Control) : Thread := { t with ctl := f t.ctl }

/-- 03 R64: a guard tested on a thread's predicates. -/
def guardOn (g : Guard) (r : Regs) : Bool :=
  if g.g = 0 then true else if g.neg then !r.pred (g.g.toNat - 1) else r.pred (g.g.toNat - 1)

/-- 03 R73: a guard tested on the Coachman's m registers. -/
def guardCoach (g : Guard) (c : Coach) : Bool :=
  if g.g = 0 then true
  else
    let b := mgetD c.m (g.g.toNat - 1) 0 != 0
    if g.neg then !b else b

/-- 08 R185: the fields a loop pass steps. -/
inductive Role where
  | dst | a | b | c
  deriving DecidableEq, Repr

/-- The step of a field. -/
def LoopState.step (l : LoopState) : Role → Nat
  | .dst => l.dStep
  | .a => l.aStep
  | .b => l.bStep
  | .c => l.cStep

/-- 08 R185, R186: whether a thread's clause is a body clause of its active loop. -/
def inBody (c : Control) : Option LoopState :=
  match c.loop with
  | none => none
  | some l => if l.base ≤ c.pc ∧ c.pc < l.base + 4 * l.words then some l else none

/-- 08 R185: the register a field names in the thread's pass: v(n + p × step). -/
def stepReg (c : Control) (r : Role) (n : Nat) : Nat :=
  match inBody c with
  | none => n
  | some l => n + l.pass * l.step r

/-- 08 R185: the tile a matrix form names in the thread's pass. -/
def stepTile (c : Control) (t : Nat) : Nat :=
  match inBody c with
  | none => t
  | some l => (t + l.pass * l.tileStep) % 8

/-! ### Lanes -/

/-- The threads of the clause's bundle, in lane order, with their numbers. -/
def lanes (s : State) : List (Nat × Thread) :=
  s.cur.lanes.filterMap (fun u => (threadOf s u).map (fun t => (u, t)))

/-- 03 R61, 07 R163: the participating lanes under a guard. -/
def activeLanes (s : State) (g : Guard) : List (Nat × Thread) :=
  (lanes s).filter (fun p => guardOn g p.2.regs)

/-- Every thread of the clause's bundle changed. -/
def forLanes (s : State) (f : Nat → Thread → Thread) : State :=
  modWork s fun w =>
    { w with threads := s.cur.lanes.foldl (fun m u => mmod m u (f u)) w.threads }

/-- The latch a position writes (03 R60). -/
def latchIndex (s : State) : Nat := s.cur.pos % 4

/-- A 32-bit result: to its register and, zero-extended, to the latch (03 R56, 05 R102). -/
def putWord (j : Nat) (d : Dst) (x : Word) (t : Thread) : Thread :=
  t.modRegs fun r => match d with
    | .reg n => (r.set (stepReg t.ctl .dst n.toNat) x).setLatch j (x.setWidth 64)
    | .suppress => r.setLatch j (x.setWidth 64)

/-- A 64-bit result: to its pair and to the latch (03 R59, R60). -/
def putPair (j : Nat) (d : Dst) (x : DWord) (t : Thread) : Thread :=
  t.modRegs fun r => match d with
    | .reg n => (r.setPair (stepReg t.ctl .dst n.toNat) x).setLatch j x
    | .suppress => r.setLatch j x

/-- 03 R61: a thread whose guard is false latches the destination register's present value, or 0. -/
def skipWord (j : Nat) (d : Dst) (t : Thread) : Thread :=
  t.modRegs fun r => match d with
    | .reg n => r.setLatch j ((r.get (stepReg t.ctl .dst n.toNat)).setWidth 64)
    | .suppress => r.setLatch j 0

/-- 03 R61, for a pair destination. -/
def skipPair (j : Nat) (d : Dst) (t : Thread) : Thread :=
  t.modRegs fun r => match d with
    | .reg n => r.setLatch j (r.pair (stepReg t.ctl .dst n.toNat))
    | .suppress => r.setLatch j 0

/-- A 32-bit result in every participating lane. -/
def writeWord (s : State) (g : Guard) (d : Dst) (f : Nat → Thread → Word) : State :=
  forLanes s fun u t =>
    if guardOn g t.regs then putWord (latchIndex s) d (f u t) t else skipWord (latchIndex s) d t

/-- A 64-bit result in every participating lane. -/
def writePair (s : State) (g : Guard) (d : Dst) (f : Nat → Thread → DWord) : State :=
  forLanes s fun u t =>
    if guardOn g t.regs then putPair (latchIndex s) d (f u t) t else skipPair (latchIndex s) d t

/-- A predicate result in every participating lane; no latch (03 R56). Predicate fields never step. -/
def writePred (s : State) (g : Guard) (d : Dst) (f : Nat → Thread → Bool) : State :=
  forLanes s fun u t =>
    if guardOn g t.regs then
      t.modRegs fun r => match d with
        | .reg n => r.setPred n.toNat (f u t)
        | .suppress => r
    else t

/-- A Coachman register (05 R95). -/
def Coach.get (c : Coach) (n : Nat) : DWord := mgetD c.m n 0

/-- A Coachman register written. -/
def Coach.set (c : Coach) (n : Nat) (x : DWord) : Coach := { c with m := mset c.m n x }

/-- A Coachman latch written. -/
def Coach.setLatch (c : Coach) (j : Nat) (x : DWord) : Coach := { c with latch := mset c.latch j x }

/-- 03 R73: a Coachman result, to its register and the latch. -/
def Coach.put (j : Nat) (d : Dst) (x : DWord) (c : Coach) : Coach :=
  match d with
  | .reg n => (c.set n.toNat x).setLatch j x
  | .suppress => c.setLatch j x

/-- 03 R61 on the Coachman. -/
def Coach.skip (j : Nat) (d : Dst) (c : Coach) : Coach :=
  match d with
  | .reg n => c.setLatch j (c.get n.toNat)
  | .suppress => c.setLatch j 0

/-- A result of the Coachman's clause. -/
def writeCoach (s : State) (g : Guard) (d : Dst) (f : Coach → DWord) : State :=
  modCoach s s.cur.core fun c =>
    if guardCoach g c then c.put (latchIndex s) d (f c) else c.skip (latchIndex s) d

/-! ### Clocks -/

/-- The context time of a block's context. -/
def ctimeOf (s : State) (b : Nat) : Nat := (ctxOf s (ctxOfBlock s b)).ctime

/-- 02 R46, R47: n nanoseconds pass: device time, and the time of every resident context. -/
def advance (s : State) (n : Nat) : State :=
  { s with dtime := s.dtime + n,
           ctxs := s.ctxs.map fun p => (p.1, if p.2.resident then { p.2 with ctime := p.2.ctime + n } else p.2) }

/-- 18 R438: the code of a status. -/
def Status.code : Status → Nat
  | .done => 0
  | .timeout => 1
  | .withdrawn => 2
  | .cancelled => 3
  | .stalePhase => 4
  | .partialDone => 5
  | .faulted => 6
  | .poisoned => 7
  | .busy => 8

/-- A status as a register value: code in bits 7:0. -/
def Status.word (x : Status) : Word := BitVec.ofNat 32 x.code

/-- 20 R462: the byte of a fault code. -/
def FaultCode.byte : FaultCode → Nat
  | .none => 0x00
  | .illegalEncoding => 0x01
  | .clauseClass => 0x02
  | .latchOrder => 0x03
  | .registerRange => 0x04
  | .alignment => 0x05
  | .pageAbsent => 0x10
  | .protection => 0x11
  | .extentGone => 0x12
  | .poolExhausted => 0x13
  | .scratchCapacity => 0x20
  | .layoutMismatch => 0x21
  | .boundTrap => 0x22
  | .quotaBreach => 0x23
  | .deadlineEscalation => 0x24
  | .reservation => 0x25
  | .poisonConsumed => 0x30
  | .rollbackExhausted => 0x31
  | .userTrap => 0x40
  | .breakpoint => 0x41

end Sys2Proof.Machine
end

