-- ==== Sys2Proof/Machine/Place.lean ====
section
/-!
DEFINITION. A one-thread program put where the next step fetches it: a context, its page tables, a launch, a
block and a bundle, or a movement program (log 1).
-/

namespace Sys2Proof.Machine

/-- The address of the placed clause. -/
def placeAddr : Nat := 0x1000

/-- A page-table entry of a table (17 R402). -/
def tableEntry64 (frame : Nat) : Nat := 1 + 4096 * frame

/-- The leaf of the placed page: valid, leaf, readable, executable (17 R402). -/
def leafEntry64 (frame : Nat) : Nat := 1 + 2 + 4 + 16 + 4096 * frame

/-- The header of a clause of one instruction (03 R53). -/
def placeHeader (op : Nat) (ext : Bool) : Nat :=
  2 ^ 28 + classOf op * 2 ^ 25 + (if ext then 16 else 0)

/-- Whether the placed instruction carries an extension word. -/
def placeExt (nbits op : Nat) : Bool :=
  decide (32 < nbits) || extRule op == .required

/-- The bytes of the placed clause and of its page tables. -/
def placeBytes (nbits w : Nat) : List (Nat × Byte) :=
  let op := w / 2 ^ 24 % 256
  let ext := placeExt nbits op
  byteWrites 0x100000 8 (tableEntry64 0x200) ++ byteWrites 0x200000 8 (tableEntry64 0x201)
  ++ byteWrites 0x201000 8 (tableEntry64 0x202) ++ byteWrites 0x202008 8 (leafEntry64 0x203)
  ++ byteWrites 0x203000 4 (placeHeader op ext) ++ byteWrites 0x203004 4 (w % 2 ^ 32)
  ++ (if ext then byteWrites 0x203008 4 (w / 2 ^ 32) else [])

/-- Whether a word is a form of the Coachman alone (03 R73). -/
def placeCoach (w : Nat) : Bool :=
  let op := w / 2 ^ 24 % 256
  decide (0x68 ≤ op ∧ op ≤ 0x6D)

/-- The launch, block and thread of the placed program. -/
def placeWork (coach : Bool) (w : Work) : Work :=
  let t : Thread := { block := 1, tid := 0, slot := 0, ctl := { pc := placeAddr, run := if coach then .blocked else .bundled } }
  { w with
    launches := mset w.launches 1 { ctx := 1, desc := { allot := 128 } }
    blocks := mset w.blocks 1 { launch := 1, core := some 0 }
    sync := mset w.sync 1 {}
    threads := mset w.threads (threadUid 1 0) t
    bundles := if coach then [] else [{ core := 0, block := 1, lanes := [threadUid 1 0] }]
    nextBlock := max 2 w.nextBlock, nextLaunch := max 2 w.nextLaunch }

/-- The pinned frames of the page tables and the frame of the code page (09 R205, 17 R407). -/
def placeFrames (m : SMap Frame) : SMap Frame :=
  [0x200, 0x201, 0x202].foldl (fun acc f => mset acc f { pin := true, valid := true })
    (mset m 0x203 { valid := true, ctx := 1, vpn := 1 })

/-- The instruction put where the next step fetches it. -/
def placeWord (s : State) (nbits w : Nat) : State :=
  let coach := placeCoach w
  { s with
    inputs := [], cur := {}
    ctxs := mset s.ctxs 1 { f := { ptRoot := 0x100000 } }
    frames := placeFrames s.frames
    mem := { s.mem with device := setCells s.mem.device (placeBytes nbits w) }
    cores := mset s.cores 0 { blocks := [1] }
    coaches := if coach then [(0, { running := true, block := 1, pc := placeAddr, program := placeAddr })] else []
    work := placeWork coach s.work
    dies := merase s.dies 0
    power := { s.power with off := false, asleep := false } }

end Sys2Proof.Machine
end

