-- ==== Sys2Proof/Machine/Directory.lean ====
section
/-!
DEFINITION. Physical lines at their homes: home dies (09 R204), frame-table entries (17 R407, R408), the
directory's states and versions (11 R266-R269), the lines of the L2 slices (09 R197, R204) and the snoop filter (11 R268).
-/

namespace Sys2Proof.Machine

/-! ### Homes and frames -/

/-- 09 R204: the home die of a physical line. -/
def homeDie (line : Nat) : Nat := line / 32 % 32 / 8

/-- The live token expiries of a line on a die. -/
def liveTokens (s : State) (d : LineDir) (die : Nat) : List Nat :=
  (mgetD d.tokens die []).filter fun e => s.dtime < e

/-- R255, 02 R46: what a device time of one die must exceed to count at another: 2 ns of skew. -/
def skew (a b : Nat) : Nat := if a = b then 0 else 2

/-- The frame of a physical line. -/
def frameOfLine (line : Nat) : Nat := line / 32

/-- A line's home state. -/
def lineOf (s : State) (line : Nat) : LineDir := mgetD s.lines line {}

/-- R255: the completion time of a write that a die applies now: the latest live expiry on any die, or now. The times of other
dies count with the 2 ns of skew (02 R46). -/
def completionTime (s : State) (die line : Nat) : Nat :=
  ([0, 1, 2, 3].flatMap fun d => (liveTokens s (lineOf s line) d).map fun e => e + skew d die).foldl max s.dtime

/-- A line's home state changed. -/
def modLine (s : State) (line : Nat) (f : LineDir → LineDir) : State :=
  { s with lines := mset s.lines line (f (lineOf s line)) }

/-- 01 R16: the frames of 4 KiB in 256 GB of GDDR-7, where a GB is 10^9 bytes (00 R3). -/
def totalFrames : Nat := 62500000

/-- 22 R504: the frames that the correction-parity region leaves, seven eighths: the region is the highest eighth (DESIGN CHOICE,
log 89). -/
def cacheFrames : Nat := 54687500

/-- 22 R504, 09 R205: an entry that nothing has changed; the parity region's are pinned from the boot on. -/
def emptyFrame (f : Nat) : Frame := { pin := decide (cacheFrames ≤ f) && decide (f < totalFrames) }

/-- A frame-table entry. -/
def frameOf (s : State) (f : Nat) : Frame := mgetD s.frames f (emptyFrame f)

/-- A frame-table entry changed, if it is listed. -/
def modFrame (s : State) (f : Nat) (g : Frame → Frame) : State := { s with frames := mmod s.frames f g }

/-- 17 R408: a fill of an L2 slice from a frame sets `REF`. -/
def markRef (s : State) (line : Nat) : State := modFrame s (frameOfLine line) fun f => { f with ref := true }

/-- 17 R408: the dirty bits of the sectors a write changes. -/
def markDirty (s : State) (ws : List (Nat × Byte)) : State :=
  ((ws.map fun w => w.1 / 32).dedup).foldl (fun acc k =>
    modFrame acc (k / 128) fun f => { f with dirty := f.dirty ||| BitVec.ofNat 128 (2 ^ (k % 128)) }) s

/-! ### The directory (R266, R267) -/

/-- A die's state for a line. -/
def moesiOf (d : LineDir) (die : Nat) : Moesi := mgetD d.states die .invalid

/-- R267: the die that holds the line's latest data in M, E or O, if one does. -/
def ownerOf (d : LineDir) : Option Nat :=
  [0, 1, 2, 3].find? fun x => moesiOf d x == .modified || moesiOf d x == .exclusive || moesiOf d x == .owned

/-- Whether a die can serve a line: it holds a copy, or it is the home and no die owns the line. -/
def dieHolds (d : LineDir) (line die : Nat) : Bool :=
  moesiOf d die != .invalid || (die == homeDie line && (ownerOf d).isNone)

/-- R269: the version of a line: what its home has counted, and the counts that dies in M have not passed on. -/
def lineVersion (d : LineDir) : Nat := (d.version + (d.counts.map Prod.snd).sum) % 2 ^ 64

/-- R269: a die passes the count of its writes with its data, and the home adds it. -/
def passCount (d : LineDir) (die : Nat) : LineDir :=
  { d with version := (d.version + mgetD d.counts die 0) % 2 ^ 64, counts := merase d.counts die }

/-- R269: every die but one passes its count. -/
def passOthers (d : LineDir) (die : Nat) : LineDir := ((mkeys d.counts).filter (· != die)).foldl passCount d

/-- A die's state set; invalid is not listed. -/
def setMoesi (d : LineDir) (die : Nat) (m : Moesi) : LineDir :=
  { d with states := if m = .invalid then merase d.states die else mset d.states die m }

/-- R267, forwarding: D becomes O, or S where it held E. -/
def forwardedState : Moesi → Moesi
  | .exclusive => .shared
  | .modified => .owned
  | m => m

/-- R267: a read by die R: from the home where no die owns the line, else forwarded. -/
def readStates (d : LineDir) (line r : Nat) : LineDir :=
  if dieHolds d line r then d
  else
    match ownerOf d with
    | some o => setMoesi (setMoesi (passCount d o) o (forwardedState (moesiOf d o))) r .shared
    | none => setMoesi d r (if d.states.isEmpty then .exclusive else .shared)

/-- R267: ownership or an upgrade: R holds M, every other die I. The home die that owns its line keeps no
entry. -/
def ownStates (d : LineDir) (line r : Nat) : LineDir :=
  { passOthers d r with
    states := if r = homeDie line then [] else [(r, .modified)]
    held := d.held.filter fun p => p.1 == r }

/-- R267: an atomic or reduction recalls the data and invalidates every other copy. -/
def atomicStates (d : LineDir) : LineDir := { passOthers d 4 with states := [], held := [] }

/-- R269: n write transactions: a die in M counts them itself, otherwise the home's version rises; the applying die's version
copy follows. -/
def bumpVersion (die n : Nat) (d : LineDir) : LineDir :=
  let d1 := if moesiOf d die = .modified then { d with counts := mset d.counts die (mgetD d.counts die 0 + n) }
    else { d with version := (d.version + n) % 2 ^ 64 }
  { d1 with holderVersion := mset d.holderVersion die (BitVec.ofNat 16 (lineVersion d1)) }

/-- R269: the sectors of a line that a write changes. -/
def sectorsIn (ws : List (Nat × Byte)) (line : Nat) : Nat :=
  (((ws.map fun w => w.1 / 32).filter fun k => k / 4 == line).dedup).length

/-! ### L2 slices (09 R197, R204; log 68) -/

/-- Whether two lines take the same set of the same slice. -/
def sameSet (a b : Nat) : Bool := Config.sliceOf a == Config.sliceOf b && Config.setOf a == Config.setOf b

/-- R204: the ways of a slice that hold lines: the shadow ways hold none. -/
def l2Ways (s : State) (die : Nat) : Nat := 16 - (dieOf s die).shadowWays

/-- The lines a die's slices hold, each with when it was last filled or written. -/
def l2Lines (s : State) (die : Nat) : List (Nat × Nat) :=
  s.lines.filterMap fun l => (mget l.2.held die).map fun h => (l.1, h.2)

/-- Whether a die's slice holds a line. -/
def l2Holds (s : State) (die line : Nat) : Bool := (mget (lineOf s line).held die).isSome

/-- 11 R267: a slice lets a line go: what it holds dirty goes to the home. -/
def l2Drop (s : State) (die line : Nat) : State :=
  modLine s line fun d => { setMoesi (passCount d die) die .invalid with held := merase d.held die }

/-- The line of a list that was used longest ago. -/
def oldestLine : List (Nat × Nat) → Option (Nat × Nat)
  | [] => none
  | x :: r => match oldestLine r with
    | none => some x
    | some y => if y.2 < x.2 then some y else some x

/-- The line that must leave a die's slice so that a line fits in its set. -/
def l2Victim (s : State) (die line : Nat) : Option Nat :=
  let ls := (l2Lines s die).filter fun x => x.1 != line
  if ls.length < l2Ways s die then none
  else
    let same := ls.filter fun x => sameSet x.1 line
    if same.length < l2Ways s die then none else (oldestLine same).map Prod.fst

/-- A line held by a die's slice, and whether it is written: where its set is full the line used longest ago leaves. A line
that the slice did not hold is filled from its frame (17 R408). -/
def l2Fill (s : State) (die line : Nat) (dirty : Bool) : State :=
  let s0 := if l2Holds s die line then s else markRef s line
  let s1 := match l2Victim s0 die line with
    | some v => l2Drop s0 die v
    | none => s0
  if l2Ways s die = 0 then s1
  else modLine s1 line fun d =>
    { d with held := mset d.held die (dirty || ((mget d.held die).map Prod.fst).getD false, s.dtime) }

/-- R204: the lines of a die's slices after a change of its shadow ways. -/
def l2Trim (s : State) (die : Nat) : State :=
  ((l2Lines s die).map Prod.fst).foldl (fun acc l => match l2Victim acc die l with
    | some v => l2Drop acc die v
    | none => if l2Ways acc die = 0 then l2Drop acc die l else acc) s

/-! ### The snoop filter (11 R268) -/

/-- The entries of a die's snoop filter: its lines that other dies hold. -/
def filterLines (s : State) (die : Nat) : List Nat :=
  (s.lines.filter fun l => homeDie l.1 == die && !l.2.states.isEmpty).map Prod.fst

/-- R268: whether a die's snoop filter holds all the 786 432 entries it has room for. -/
def filterFull (s : State) (die : Nat) : Bool := decide (786432 ≤ (filterLines s die).length)

/-- R268: whether a die must wait for an entry of the filter before it can hold a line. -/
def filterBlocks (s : State) (die line : Nat) : Bool :=
  die != homeDie line && (lineOf s line).states.isEmpty && filterFull s (homeDie line)

/-! ### Requests of engines (R258, R267, R268, R271) -/

/-- R258: whether a line is transient at the slice of a die. A transaction makes it so at the home and at the requester alone:
another die that holds a copy still serves reads of it. -/
def transientAt (s : State) (die line : Nat) : Bool :=
  let d := lineOf s line
  d.transient && match d.txn with
    | none => true
    | some t => die == homeDie line || die == t.die || moesiOf d die == .invalid
        || (frameOf s (frameOfLine line)).hstate != 0 || (frameOf s (frameOfLine line)).mig

/-- R258, R268: whether an engine's request of a die must wait for a line: it is in transition, as the lines of a surrendering
or surrendered page are (R271), or the snoop filter has no entry for it. -/
def engineWaits (s : State) (die : Nat) (write : Bool) (lines : List Nat) : Bool :=
  lines.any fun l => (if write then (lineOf s l).transient else transientAt s die l) || filterBlocks s die l

/-- R271: the page of a line at which an engine waits is asked back, where it is surrendering or surrendered. -/
def askBack (s : State) (lines : List Nat) : State :=
  lines.foldl (fun acc l =>
    if (frameOf acc (frameOfLine l)).hstate ≠ 0 then modFrame acc (frameOfLine l) fun x => { x with wanted := true } else acc) s

/-- R267: an engine's read by a die of some lines. -/
def engineReads (s : State) (die : Nat) (lines : List Nat) : State :=
  lines.dedup.foldl (fun acc l => l2Fill (modLine acc l fun d =>
    let d1 := readStates d l die
    { d1 with holderVersion := mset d1.holderVersion die (BitVec.ofNat 16 (lineVersion d1)) }) die l false) s

end Sys2Proof.Machine
end

