-- ==== Sys2Proof/Machine/Translate.lean ====
section
/-!
DEFINITION. Address translation (17 R401-R405) and the places bytes live: device-physical memory,
scratchpad windows, TOB windows, host memory and the pool.
-/

namespace Sys2Proof.Machine

/-! ### Page-table entries (R402) -/

/-- Bits hi:lo of a 64-bit word, as a number. -/
def dbits (x : DWord) (hi lo : Nat) : Nat := x.toNat / 2 ^ lo % 2 ^ (hi + 1 - lo)

/-- One bit of a 64-bit word. -/
def dbit (x : DWord) (i : Nat) : Bool := x.getLsbD i

/-- The 64-bit word at a device-physical address. -/
def physWord (s : State) (pa : Nat) : DWord := BitVec.ofNat 64 (cellNat s.mem.device pa 8)



/-- R403: a non-leaf entry that is well formed: bits 63:52 and 11:2 are 0 and its frame is pinned. -/
def tableEntryOk (s : State) (e : DWord) : Bool :=
  dbits e 63 52 == 0 && dbits e 11 2 == 0 && (mgetD s.frames (dbits e 51 12) {}).pin

/-- The index of a virtual address at a level (R401). -/
def levelIndex (va level : Nat) : Nat :=
  match level with
  | 0 => va / 2 ^ 39 % 2 ^ 17
  | 1 => va / 2 ^ 30 % 512
  | 2 => va / 2 ^ 21 % 512
  | _ => va / 2 ^ 12 % 512

/-- The bytes a leaf at a level maps (R401). -/
def levelSpan (level : Nat) : Nat :=
  match level with
  | 1 => 2 ^ 30
  | 2 => 2 ^ 21
  | _ => 2 ^ 12

/-- R401, R403: the walk from a table down; `fuel` counts the levels left. The leaf, its level and its
own address, or `none` where the walk fails check 2. -/
def walkFrom (s : State) (va : Nat) : Nat → Nat → Nat → Option (DWord × Nat × Nat)
  | 0, _, _ => none
  | fuel + 1, level, base =>
    let at_ := base + 8 * levelIndex va level
    let e := physWord s at_
    if !dbit e 0 then none
    else if dbit e 1 then
      if level = 0 || dbits e 11 10 != 0 || (level != 3 && dbit e 8) then none else some (e, level, at_)
    else if level = 3 || !tableEntryOk s e then none
    else walkFrom s va fuel (level + 1) (4096 * dbits e 51 12)

/-- The leaf of a virtual page of a context, from its page tables. -/
def walk (s : State) (ctx va : Nat) : Option (DWord × Nat × Nat) :=
  if 2 ^ 56 ≤ va then none else walkFrom s va 4 0 (ctxOf s ctx).f.ptRoot

/-- R403, R406: whether a context may use a key: entry 0, the device key, has no owner (log 20). -/
def keyOk (s : State) (ctx key : Nat) : Bool :=
  let k := mgetD s.tables.keys key {}
  k.valid && (key == 0 || k.ctx == ctx)

/-- R403, R406: what a walk gives: the leaf and its level, where the context may use the leaf's key. A leaf that a
TLB holds was walked before and is not checked again. -/
def keyedLeaf (s : State) (ctx va : Nat) : Option (DWord × Nat) :=
  match walk s ctx va with
  | some (e, level, _) => if keyOk s ctx (dbits e 63 52) then some (e, level) else none
  | none => none

/-- The leaf a core uses: the one its TLB holds, else the page tables' (R405). -/
def coreLeaf (s : State) (core ctx va : Nat) : Option (DWord × Nat) :=
  match (coreOf s core).tlb.find? (fun e => e.ctx == ctx && e.vpn == va / 4096) with
  | some e => some (e.leaf, e.level)
  | none => keyedLeaf s ctx va

/-- What an access needs of its page: permissions, and the markings it must meet (R403, R207). -/
structure Need where
  read : Bool := false
  write : Bool := false
  exec : Bool := false
  lp : Bool := false
  hc : Bool := false
  cached : Bool := false
  deriving DecidableEq, Repr

/-- R403: whether a pool address lies in a released extent. -/
def poolGone (s : State) (a : Nat) : Bool :=
  s.tables.extents.any fun p => p.2.state == 3 && p.2.base ≤ a && a < p.2.base + p.2.len

/-- R403: check 2 on a leaf whose key stands, whatever its `LOC`. `cached` asks for a page not mapped uncached. -/
def leafOk (n : Need) (e : DWord) : Bool :=
  let hc := dbit e 6
  let uc := dbit e 7
  (!n.read || dbit e 2) && (!n.write || dbit e 3) && (!n.exec || dbit e 4)
    && (dbit e 5 == n.lp) && (hc == n.hc)
    && !(uc && !hc) && !(hc && (dbit e 9 || dbits e 63 52 != 0)) && !(n.cached && uc)

/-- Where a translated byte lies. -/
inductive Place where
  | device (pa : Nat)
  | host (pa : Nat)
  deriving DecidableEq, Repr

/-- R403: the device-physical or host address a present leaf gives a virtual address. A 64 KiB group
translates through the group of 16 frames the entry's own frame lies in. -/
def leafPlace (e : DWord) (level va : Nat) : Place :=
  let span := levelSpan level
  let base := 4096 * dbits e 51 12
  if dbit e 6 then .host (base + va % span)
  else if level = 3 ∧ dbit e 8 then .device (base / 65536 * 65536 + va % 65536)
  else .device (base + va % span)

/-- R402, R403: the pool address of the 4 KiB page that an absent leaf gives a virtual address. -/
def leafPool (e : DWord) (level va : Nat) : Nat :=
  4096 * dbits e 51 12 + (if level = 3 then 0 else va % levelSpan level / 4096 * 4096)

/-- 11 R271: whether a place lies in a frame that has been surrendered or is being surrendered. -/
def surrendered (s : State) : Place → Bool
  | .device pa => (frameOf s (pa / 4096)).hstate != 0
  | .host _ => false

/-- R403: checks 2 to 4 on a leaf, in order. -/
def leafHeld (s : State) (n : Need) (va : Nat) : Option (DWord × Nat) → Except FaultCode Place
  | none => .error .protection
  | some (e, level) =>
    if !leafOk n e then .error .protection
    else if dbit e 9 then
      if dbits e 51 12 != 0 && poolGone s (leafPool e level va) then .error .extentGone else .error .pageAbsent
    else .ok (leafPlace e level va)

/-- R403, 11 R271: the checks as a clause meets them: a surrendered page is absent. -/
def leafResult (s : State) (n : Need) (va : Nat) (x : Option (DWord × Nat)) : Except FaultCode Place :=
  match leafHeld s n va x with
  | .ok p => if surrendered s p then .error .pageAbsent else .ok p
  | .error c => .error c

/-- A core's translation of a virtual address (R403). -/
def translate (s : State) (core ctx va : Nat) (n : Need) : Except FaultCode Place :=
  if 2 ^ 56 ≤ va then .error .protection else leafResult s n va (coreLeaf s core ctx va)

/-- A translation for the supervisor's structures and their readers, from the page tables (R403). -/
def translateWalk (s : State) (ctx va : Nat) (n : Need) : Except FaultCode Place :=
  leafResult s n va (keyedLeaf s ctx va)

/-! ### Engines (R400, R405) -/

/-- R400: the engines that hold a TLB. -/
inductive Engine where
  | copy (core : Nat)
  | sampler (core : Nat)
  | matrix (cluster : Nat)
  | ray (cluster : Nat)
  | raster (binner : Nat)
  | dray (die : Nat)
  deriving DecidableEq, Repr

/-- The number of an engine's TLB in `State.engineTlb`. -/
def Engine.key : Engine → Nat
  | .copy g => g
  | .sampler g => 768 + g
  | .matrix c => 1536 + c
  | .ray c => 1728 + c
  | .raster b => 1920 + b
  | .dray d => 1928 + d

/-- R405: the leaf an engine uses: the one its TLB holds, else the page tables'. -/
def engineLeaf (s : State) (x : Engine) (ctx va : Nat) : Option (DWord × Nat) :=
  match (mgetD s.engineTlb x.key []).find? (fun e => e.ctx == ctx && e.vpn == va / 4096) with
  | some e => some (e.leaf, e.level)
  | none => keyedLeaf s ctx va

/-- An engine's translation of a virtual address (R403). Its request for a page that is surrendering waits at the page's lines
(11 R271). -/
def translateEngine (s : State) (x : Engine) (ctx va : Nat) (n : Need) : Except FaultCode Place :=
  if 2 ^ 56 ≤ va then .error .protection else leafHeld s n va (engineLeaf s x ctx va)

/-- R400, R405: the walk of a page that an engine has used enters its TLB of 64 entries, where it is a present leaf. -/
def engineFill (s : State) (x : Engine) (ctx vpn : Nat) : State :=
  let es := mgetD s.engineTlb x.key []
  if es.any fun e => e.ctx == ctx && e.vpn == vpn then s
  else match keyedLeaf s ctx (4096 * vpn) with
    | some (leaf, level) =>
      if dbit leaf 9 then s
      else
        let held : List TlbEntry := ({ ctx := ctx, vpn := vpn, leaf := leaf, level := level } :: es).take 64
        { s with engineTlb := mset s.engineTlb x.key held }
    | none => s

/-- `engineFill` of every page of some virtual ranges, each an address and a length. -/
def engineUsed (s : State) (x : Engine) (ctx : Nat) (rs : List (Nat × Nat)) : State :=
  ((rs.flatMap fun r => if r.2 = 0 then [] else
    (List.range ((r.1 + r.2 - 1) / 4096 + 1 - r.1 / 4096)).map (r.1 / 4096 + ·)).dedup).foldl (fun acc v =>
      engineFill acc x ctx v) s

/-! ### Bytes by storage -/

/-- The bytes of a storage. -/
def memCells (s : State) : Mem → List Host.Cell
  | .device => s.mem.device
  | .host => s.mem.host
  | .pool => s.mem.pool
  | .scratch b => (blockOf s b).scratch
  | .tob c => (coreOf s c).tob
  | .tile _ _ => []

/-- Bytes written to a storage. -/
def writeCells (s : State) (m : Mem) (ws : List (Nat × Byte)) : State :=
  match m with
  | .device => { s with mem := { s.mem with device := setCells s.mem.device ws } }
  | .host => { s with mem := { s.mem with host := setCells s.mem.host ws } }
  | .pool => { s with mem := { s.mem with pool := setCells s.mem.pool ws } }
  | .scratch b => modBlock s b fun x => { x with scratch := setCells x.scratch ws }
  | .tob c => modCore s c fun x => { x with tob := setCells x.tob ws }
  | .tile _ _ => s

/-- A number for the storage of a sector, so that poison of every memory is one list (10 R229). -/
def memTag : Mem → Nat
  | .device => 0
  | .host => 1
  | .pool => 2
  | .scratch b => 4 + 2 * b
  | .tob c => 5 + 2 * c
  | .tile _ _ => 3

/-- The key of a sector of a storage in the poison list. -/
def sectorKey (m : Mem) (sector : Nat) : Nat := memTag m * 2 ^ 60 + sector

/-- Whether a sector is poisoned (10 R229). -/
def isPoisoned (s : State) (m : Mem) (sector : Nat) : Bool := s.mem.poisoned.contains (sectorKey m sector)

/-- A sector poisoned, once. -/
def addPoison (s : State) (m : Mem) (sector : Nat) : State :=
  if isPoisoned s m sector then s
  else { s with mem := { s.mem with poisoned := sectorKey m sector :: s.mem.poisoned } }

/-- A sector's poison cleared. -/
def clearPoison (s : State) (m : Mem) (sector : Nat) : State :=
  { s with mem := { s.mem with poisoned := s.mem.poisoned.filter (fun k => k != sectorKey m sector) } }

/-- The poison of a whole storage cleared: its rows are taken anew. -/
def clearStorage (s : State) (m : Mem) : State :=
  { s with mem := { s.mem with poisoned := s.mem.poisoned.filter fun k => k / 2 ^ 60 != memTag m } }

/-- One byte of a storage; a byte of a poisoned sector reads 0 (10 R229). -/
def readByte (s : State) (m : Mem) (a : Nat) : Byte :=
  if isPoisoned s m (a / 32) then 0 else cellAt (memCells s m) a

/-- The little-endian value of bytes of a storage. -/
def readBytes (s : State) (m : Mem) (as : List Nat) : Nat := leNat (as.map (readByte s m))

/-- 10 R229: the writes of one performed write to a storage: a poisoned sector takes them only when all
its 32 bytes are written, which clears its poison. -/
def writeBytes (s : State) (m : Mem) (ws : List (Nat × Byte)) : State :=
  let sectors := (ws.map (fun w => w.1 / 32)).dedup
  let whole := sectors.filter fun k => (List.range 32).all fun i => ws.any fun w => w.1 == 32 * k + i
  let keep := ws.filter fun w => !isPoisoned s m (w.1 / 32) || whole.contains (w.1 / 32)
  writeCells (whole.foldl (fun acc k => clearPoison acc m k) s) m keep

/-! ### Supervisor structures (20 R554) -/

/-- The storage a place names. -/
def Place.mem : Place → Mem × Nat
  | .device a => (.device, a)
  | .host a => (.host, a)

/-- The pieces of a virtual range page by page: where each lies and its length. `fuel` counts pages. -/
def spans (tr : Nat → Except FaultCode Place) : Nat → Nat → Nat → Except (FaultCode × Nat) (List (Place × Nat))
  | 0, _, _ => .ok []
  | fuel + 1, va, n =>
    if n = 0 then .ok []
    else
      let k := min n (4096 - va % 4096)
      match tr va with
      | .error c => .error (c, va)
      | .ok p =>
        match spans tr fuel (va + k) (n - k) with
        | .error e => .error e
        | .ok r => .ok ((p, k) :: r)

/-- The storage and address of each byte of a virtual range. -/
def byteSpots (tr : Nat → Except FaultCode Place) (va n : Nat) : Except (FaultCode × Nat) (List (Mem × Nat)) :=
  match spans tr (n / 4096 + 2) va n with
  | .error e => .error e
  | .ok ps => .ok (ps.flatMap fun p => (List.range p.2).map fun i => (p.1.mem.1, p.1.mem.2 + i))

/-- The bytes of a virtual range of a context as an engine or a supervisor structure's reader sees them,
or the fault of the first page that cannot be read. -/
def readVirtual (s : State) (ctx va n : Nat) : Except (FaultCode × Nat) (List Byte) :=
  match byteSpots (fun a => translateWalk s ctx a { read := true }) va n with
  | .error e => .error e
  | .ok ms => .ok (ms.map fun x => readByte s x.1 x.2)

/-- The little-endian value of a virtual range, where it can be read. -/
def readVirtualNat (s : State) (ctx va n : Nat) : Option Nat :=
  match readVirtual s ctx va n with
  | .error _ => none
  | .ok bs => some (leNat bs)

/-- The bytes of a virtual range of a context as an engine sees them through its TLB, or the fault of the first page that cannot
be read. -/
def readEngine (s : State) (x : Engine) (ctx va n : Nat) : Except (FaultCode × Nat) (List Byte) :=
  match byteSpots (fun a => translateEngine s x ctx a { read := true }) va n with
  | .error e => .error e
  | .ok ms => .ok (ms.map fun y => readByte s y.1 y.2)

/-- Bytes of physical memory written at their homes now: the home die owns each line (11 R267, R269) and the frames' dirty bits
are set (17 R408). -/
def homeWriteNow (s : State) (ws : List (Nat × Byte)) : State :=
  let s1 := ((ws.map fun w => w.1 / 128).dedup).foldl (fun acc l =>
    l2Fill (modLine acc l fun d => bumpVersion (homeDie l) (sectorsIn ws l) (ownStates d l (homeDie l))) (homeDie l) l true) s
  markDirty (writeBytes s1 .device ws) ws

/-- Bytes of physical memory written by a reader at their homes. What falls on a line in transition waits at its slice until the
line is free (11 R258); every later access to the line waits behind it. -/
def homeWrite (s : State) (ws : List (Nat × Byte)) : State :=
  let busy := ((ws.map fun w => w.1 / 128).dedup).filter fun l => (lineOf s l).transient
  if busy.isEmpty then homeWriteNow s ws
  else
    homeWriteNow (busy.foldl (fun acc l => modLine acc l fun d =>
      { d with homeWrites := d.homeWrites ++ [ws.filter fun w => w.1 / 128 == l] }) s)
      (ws.filter fun w => !busy.contains (w.1 / 128))

/-- The bytes written at a virtual address, if every page can be written (20 R554: otherwise the write is
not performed). -/
def writeVirtual (s : State) (ctx va : Nat) (bs : List Byte) : Option State :=
  match byteSpots (fun a => translateWalk s ctx a { write := true }) va bs.length with
  | .error _ => none
  | .ok ms =>
    let ws := (ms.zip bs).map fun x => (x.1.2, x.2)
    some (homeWrite s ws)

end Sys2Proof.Machine
end

