-- ==== Sys2Proof/Machine/Perf.lean ====
section
/-!
DEFINITION. The clock of the operating point (01 R19) and the performance counters (19 R456).
-/

namespace Sys2Proof.Machine

/-- 01 R19: clk in 100 ns at an operating point. -/
def clkPer100 (vs : Nat) : Nat :=
  match vs with
  | 0 => 240
  | 1 => 220
  | 2 => 200
  | 3 => 170
  | 4 => 145
  | _ => 120

/-- Nanoseconds in clk of the current operating point (02 R30). -/
def clkOf (s : State) (ns : Nat) : Nat := ns * clkPer100 s.power.vs / 100

/-- 19 R456: whether a control word counts an event while its filter context, if any, is resident. -/
def counts (s : State) (w : Word) (code : Nat) : Bool :=
  w.getLsbD 31 && (w.toNat % 256 == code)
    && (!w.getLsbD 30 || ((mget s.ctxs (w.toNat / 65536 % 4096)).map (·.resident)).getD false)

/-- 19 R456: a counter that reaches 2^48 − 1 stays there. -/
def PerfCounter.bump (n : Nat) (p : PerfCounter) : PerfCounter :=
  { p with value := BitVec.ofNat 48 (min (2 ^ 48 - 1) (p.value.toNat + n)) }

/-- 19 R456: n events of a code at a die, counted by the die's counters. -/
def countDieEvent (s : State) (die code n : Nat) : State :=
  if (dieOf s die).perf.isEmpty then s
  else modDie s die fun d => { d with perf := d.perf.map fun p =>
    (p.1, if counts s p.2.control code then p.2.bump n else p.2) }

/-- 19 R456: n events of a code on a core, counted by its counters and its die's. -/
def countEvent (s : State) (core code n : Nat) : State :=
  let s1 :=
    if (coreOf s core).perf.isEmpty || code = 10 then s
    else modCore s core fun c => { c with perf := c.perf.map fun p =>
      (p.1, if counts s p.2.control code then p.2.bump n else p.2) }
  countDieEvent s1 (dieOfCore core) code n

end Sys2Proof.Machine
end

