-- ==== Sys2Proof/Machine/Trap.lean ====
section
/-!
DEFINITION. Faults, traps and events: the black-box ring (19 R457, R556), event entries (20 R460, R461),
replay records (17 R411-R415) and the one operation by which a core or a Coachman takes an exception
(20 R463, 03 R75-R77, 14 R333).
-/

namespace Sys2Proof.Machine

/-! ### The black-box ring -/

/-- R457, R458: an entry recorded with the next sequence number; the oldest of 4 096 is overwritten. -/
def blackBoxAdd (s : State) (e : BlackBox) : State :=
  let seq := match s.blackBox.getLast? with
    | none => 0
    | some l => (l.seq + 1) % 2 ^ 32
  let r := s.blackBox ++ [{ e with time := s.dtime, seq := seq }]
  { s with blackBox := if 4096 < r.length then r.tail else r }

/-- R556: the black-box kind of an event kind. -/
def boxKind (kind : Nat) : Nat := if kind = 6 then 2 else if kind = 7 then 3 else 1

/-! ### Event entries -/

/-- R458: the detail of a black-box entry: the clause address, an engine fault's faulting address, or, where the event has neither,
the launch handle. -/
def boxDetail (e : EventEntry) : Nat :=
  let x := if e.kind = 3 then (if e.unit = 5 ∨ e.code = .scratchCapacity then 0 else e.detail) else e.addr
  if x = 0 then e.handle else x

/-- R556: the fault code a black-box entry records is its event entry's, 0 for a check report; the worked example of
19 shows another (log 26). -/
def boxCode (e : EventEntry) : Nat := e.code.byte

/-- 17 R412: the location of a core: die, cluster, core within the cluster. -/
def coreLocation (g : Nat) : Nat := dieOfCore g + 4 * (coreIndex g / 4) + 256 * (g % 4)

/-- 17 R412: the location of a cluster. -/
def clusterLocation (c : Nat) : Nat := c / 48 + 4 * (c % 48)

/-- R461: the 64 bytes of an entry, with the die's drop count. -/
def EventEntry.bytes (e : EventEntry) (drops : Nat) : List Byte :=
  leBytes 1 e.kind ++ leBytes 1 e.code.byte ++ leBytes 1 e.status ++ leBytes 1 e.pos
  ++ leBytes 2 e.location ++ leBytes 1 e.slot ++ leBytes 1 e.threads
  ++ leBytes 4 e.handle ++ leBytes 2 e.ctx ++ leBytes 2 e.trapCode
  ++ leBytes 8 e.addr ++ leBytes 8 e.detail ++ leBytes 8 e.record ++ leBytes 8 e.extra
  ++ leBytes 2 drops ++ leBytes 1 e.unit ++ leBytes 13 0

/-- R461: the kinds that trap threads. -/
def EventEntry.trapping (e : EventEntry) : Bool :=
  e.kind == 1 || e.kind == 4 || e.kind == 5 || e.kind == 9 || (e.kind == 6 && e.unit != 2)

/-- 21 R488: the context's notification vector is signalled. -/
def notify (s : State) (ctx : Nat) : State := modMore s ctx fun m => { m with notifyPending := true }

/-- R554: a die's write to a structure of the context failed: recorded and notified, each failing address once until the retry,
and retried 1 ms after the first. -/
def structureFailedOn (s : State) (die ctx addr : Nat) : State :=
  if (moreOf s ctx).retryAt.isSome && (moreOf s ctx).failed.contains addr then s
  else
    let s1 := blackBoxAdd s { time := 0, seq := 0, kind := 1, die := die, ctx := ctx, code := 0x11, detail := addr }
    notify (modMore s1 ctx fun m =>
      { m with retryAt := some (m.retryAt.getD (s.dtime + 1000000)), failed := addr :: m.failed }) ctx

/-- The die whose unit writes to a context's save area: of the cluster whose region it is, else of the context's partition. -/
def structureDie (s : State) (ctx addr : Nat) : Nat :=
  let base := (ctxOf s ctx).f.saveBase + 0x1000000
  if base ≤ addr ∧ addr < base + 192 * 0x2000000 then (addr - base) / 0x2000000 / 48
  else ((s.tables.partitions.find? fun p => p.2.ctx == some ctx).bind fun p =>
    (List.range 192).find? fun c => p.2.mask.getLsbD c).getD 0 / 48

/-- R554: a failed write of the microcode of a context's clusters. -/
def structureFailed (s : State) (ctx addr : Nat) : State := structureFailedOn s (structureDie s ctx addr) ctx addr

/-- R460: whether the event ring has room. -/
def eventRoom (s : State) (ctx : Nat) : Bool :=
  (ctxOf s ctx).evtWrite - (ctxOf s ctx).evtRead < (ctxOf s ctx).f.evtSize

/-- R460: the address of the next entry of the event ring. -/
def eventSlot (s : State) (ctx : Nat) : Nat :=
  (ctxOf s ctx).f.evtBase + 64 * ((ctxOf s ctx).evtWrite % (ctxOf s ctx).f.evtSize)

/-- R411: the address of a replay slot. -/
def replayAddr (s : State) (ctx slot : Nat) : Nat := (ctxOf s ctx).f.rplBase + 64 * slot

/-- R464: `TRAPLIMIT` counts from the writing of a trap's entry: the time its record keeps (log 11). -/
def startTrapLimit (s : State) (e : EventEntry) : State :=
  if e.record = 0 then s
  else modMore s e.ctx fun m =>
    { m with replay := m.replay.map fun p =>
        if replayAddr s e.ctx p.1 = e.record then (p.1, { p.2 with since := (ctxOf s e.ctx).ctime }) else p }

/-- R460: an entry written from a die, if the ring has room and its page can be written: the entry is
performed before the write index moves, the notification is signalled, the black box records it. -/
def writeEvent (s : State) (die : Nat) (e : EventEntry) : Option State :=
  if !eventRoom s e.ctx then none
  else
    match writeVirtual s e.ctx (eventSlot s e.ctx) (e.bytes (dieOf s die).fault.drops) with
    | none => none
    | some s1 =>
      let s2 := modCtx s1 e.ctx fun c => { c with evtWrite := c.evtWrite + 1 }
      let s3 := modDie s2 die fun d => { d with fault := { d.fault with drops := 0 } }
      let s4 := startTrapLimit (notify s3 e.ctx) e
      some (blackBoxAdd s4
        { time := 0, seq := 0, kind := boxKind e.kind, die := die, ctx := e.ctx, code := boxCode e,
          status := e.status, detail := boxDetail e })

/-- R460: the die holds the entry; an informational one that finds 256 places full is dropped. -/
def holdEvent (s : State) (die : Nat) (e : EventEntry) : State :=
  modDie s die fun d =>
    if !e.trapping && 256 ≤ d.fault.held.length then
      { d with fault := { d.fault with drops := min 65535 (d.fault.drops + 1) } }
    else { d with fault := { d.fault with held := d.fault.held ++ [e] } }

/-- 22 R521: the trace of a clause (kind 0) or an event: in the debug state trace, of the contexts whose creation enabled it
where the device is production-locked, with data values and of every context where it is not. -/
def addTrace (s : State) (ctx kind addr : Nat) : State :=
  let x := s.security
  let locked := x.state == .productionLocked
  if x.debug = .trace ∧ (locked = false ∨ (moreOf s ctx).trace = true) then
    { s with security := { x with
      trace := x.trace ++ [{ time := s.dtime, ctx := ctx, kind := kind, addr := addr, data := !locked }] } }
  else s

/-- R460: the device appends an entry: entries of one die keep their order. -/
def appendEvent (s : State) (die : Nat) (e : EventEntry) : State :=
  let s := addTrace s e.ctx e.kind e.addr
  if (dieOf s die).fault.held.any (fun h => h.ctx == e.ctx) then holdEvent s die e
  else
    match writeEvent s die e with
    | some s1 => s1
    | none =>
      if eventRoom s e.ctx then structureFailedOn (holdEvent s die e) die e.ctx (eventSlot s e.ctx)
      else holdEvent s die e

/-! ### Replay records -/

/-- R413, R412: the unit kind of a record. -/
def ReplayWork.unitKind : ReplayWork → Nat
  | .core _ _ _ => 1
  | .coachman _ _ => 2
  | .copy _ _ => 3
  | .matrix _ _ _ _ => 4
  | .ray _ _ _ _ _ _ _ _ => 5
  | .texture _ _ _ => 6
  | .raster _ _ _ _ _ _ => 7

/-- R413: 32 thread fields of 10 bits, the rest 0x3FF. -/
def threadFields (uids : List Nat) : Nat :=
  (List.range 32).foldl (fun acc k => acc + ((uids[k]?).map (· % 1024)).getD 0x3FF * 2 ^ (10 * k)) 0

/-- 14 R337: the destination sectors of a row, after conversion. -/
def copyRowSectors (control shape : DWord) : Nat :=
  let n := dbits shape 11 0
  match dbits control 3 1 with
  | 1 | 2 => n / 2
  | 3 | 4 => 2 * n
  | _ => n

/-- R353, R414: bits 511:64 of a copy engine's record, from the posted command. -/
def copyRecordBits (s : State) (core ticket : Nat) : Nat :=
  match (coreOf s core).copyQ.find? (fun c => c.ticket == ticket) with
  | none => 0
  | some c =>
    let row := max 1 (copyRowSectors c.control c.shape)
    let i := c.next / row
    let j := c.next % row
    ticket + i * 2 ^ 32 + j * 2 ^ 44 + c.rowSeed.toNat * 2 ^ 128
      + dbits c.control 21 0 * 2 ^ 192 + dbits c.control 63 36 * 2 ^ 214 + dbits c.shape 36 0 * 2 ^ 242
      + dbits c.src 55 5 * 2 ^ 279 + dbits c.dst 55 5 * 2 ^ 330 + dbits c.stride 31 5 * 2 ^ 381
      + dbits c.stride 63 37 * 2 ^ 408

/-- R413, R414: bytes 8 to 63 of a record. -/
def ReplayWork.body (s : State) : ReplayWork → Nat
  | .core resume words threads =>
    resume + threads.length * 2 ^ 64 + words * 2 ^ 72 + threadFields threads * 2 ^ 96
  | .coachman _ addr => addr
  | .copy g ticket => copyRecordBits s g ticket
  | .matrix _ entry row ticket => entry + row * 2 ^ 16 + ticket * 2 ^ 32
  | .ray _ _ kind subtree run retired taken id =>
    kind + subtree * 2 ^ 32 + run % 2 ^ 32 * 2 ^ 64 + retired * 2 ^ 96 + taken * 2 ^ 112 + id * 2 ^ 128
  | .texture _ op mask => mask + op % 16 * 2 ^ 8
  | .raster binner view stage tile seq handle =>
    binner % 8 + view * 2 ^ 8 + stage * 2 ^ 16 + tile * 2 ^ 32 + seq * 2 ^ 64 + handle * 2 ^ 96

/-- R413: the clause length stands only in a record held for the supervisor. -/
def ReplayRecord.shown (r : ReplayRecord) : ReplayWork :=
  match r.work with
  | .core resume words threads => .core resume (if r.cause = 3 then words else 0) threads
  | w => w

/-- R412: the 64 bytes of a record. -/
def ReplayRecord.bytes (s : State) (r : ReplayRecord) : List Byte :=
  leBytes 1 r.work.unitKind ++ leBytes 1 r.cause ++ leBytes 2 r.location ++ leBytes 2 r.waits
  ++ leBytes 1 r.slot ++ leBytes 1 0 ++ leBytes 56 (r.shown.body s)

/-- R416: whether two records' works are the same unit's same work. -/
def ReplayWork.same : ReplayWork → ReplayWork → Bool
  | .core _ _ us, .core _ _ vs => us.any vs.contains
  | .coachman g _, .coachman h _ => g == h
  | .copy g t, .copy h u => g == h && t == u
  | .matrix c e _ t, .matrix d f _ u => c == d && e == f && t == u
  | .ray c l k t _ _ _ u, .ray d m j r _ _ _ v => c == d && l == m && k == j && t == r && u == v
  | .texture g o _, .texture h p _ => g == h && o == p
  | .raster b _ _ _ _ l, .raster c _ _ _ _ m => b == c && l == m
  | _, _ => false

/-- R411: whether a slot of a context's replay area is free. -/
def replaySlotOpen (s : State) (ctx n : Nat) : Bool :=
  decide (n < (ctxOf s ctx).f.rplSlots) && (mget (moreOf s ctx).replay n).isNone

/-- R411, R416: whether the replay of a record's work is under way: its unit has not yet gone on past where the record was
written, so that a fault of the replay would rewrite the record's slot. -/
def replayUnderWay (s : State) : ReplayWork → Bool
  | .core resume _ us => us.any fun u => (threadOf s u).any fun t =>
      (t.ctl.run == .runnable || t.ctl.run == .bundled) && t.ctl.pc / 2 == resume / 2
  | .coachman g a => (coachOf s g).running && !(coachOf s g).held && (coachOf s g).pc == a
  | .copy g t => (coreOf s g).copyQ.any fun c => c.ticket == t && !c.parked
  | .matrix c e row t => (mget (clusterOf s c).table e).any fun x =>
      x.cmd.ticket == t && x.row == row && x.stage != .parked
  | .ray c l kind subtree _ _ _ _ => kind == 1 && (clusterOf s c).run.any fun r => r.launch == l && r.subtree == subtree
  | .texture g op mask => (coreOf s g).texQ.any fun o => o.id == op && !o.parked && o.done == mask
  | .raster b _ _ _ _ _ => (mgetD (dieOf s (b / 2)).binners (b % 2) {}).flushing

/-- R416: the slot from which a work was last replayed, if it is still free. -/
def replayedSlot (s : State) (ctx : Nat) (w : ReplayWork) : Option Nat :=
  ((moreOf s ctx).replayed.find? fun p => p.2.same w && replaySlotOpen s ctx p.1).map Prod.fst

/-- R411, R416: the slot a record takes: the one from which its work was last replayed; else the lowest free slot from which no
replay is under way (DESIGN CHOICE, log 81). -/
def freeReplaySlot (s : State) (ctx : Nat) (w : ReplayWork) : Option Nat :=
  match replayedSlot s ctx w with
  | some n => some n
  | none => (List.range (ctxOf s ctx).f.rplSlots).find? fun n =>
      replaySlotOpen s ctx n && !(mget (moreOf s ctx).replayed n).any (replayUnderWay s)

/-- R409, 13 R306: an entry enters a die's fault queue: 256 on die, the rest in the ring. -/
def enterFault (s : State) (die : Nat) (e : FaultEntry) : State :=
  modDie s die fun d =>
    if d.fault.ring.isEmpty && d.fault.queue.length < 256 then
      { d with fault := { d.fault with queue := d.fault.queue ++ [e] } }
    else { d with fault := { d.fault with ring := d.fault.ring ++ [e] } }

/-- R403: the page-size code of the leaf of a page: 4 KiB, 64 KiB, 2 MiB, 1 GiB. -/
def pageSizeCode (s : State) (ctx vpn : Nat) : Nat :=
  match walk s ctx (4096 * vpn) with
  | none => 0
  | some (e, level, _) => if level = 1 then 3 else if level = 2 then 2 else if dbit e 8 then 1 else 0

/-- R409, 19 R456: an absent page that a core's lane meets without a record is entered at its die, and counted: a prefetch, or
the re-read of a wait. -/
def enterAbsent (s : State) (core ctx va access : Nat) : State :=
  enterFault (countEvent s core 7 1) (dieOfCore core)
    { ctx := ctx, vpn := va / 4096, access := access, unit := 1, location := coreLocation core,
      pageSize := pageSizeCode s ctx (va / 4096) }

/-- 19 R456 code 7: an absent page entered, counted at the core or the die of its unit. -/
def countAbsent (s : State) : ReplayWork → State
  | .core _ _ us => countEvent s ((us.head?.bind fun u => (blockOf s (u / 1024)).core).getD s.cur.core) 7 1
  | .coachman g _ => countEvent s g 7 1
  | .copy g _ => countEvent s g 7 1
  | .texture g _ _ => countEvent s g 7 1
  | .matrix c _ _ _ => countDieEvent s (c / 48) 7 1
  | .ray c _ _ _ _ _ _ _ => countDieEvent s (c / 48) 7 1
  | .raster b _ _ _ _ _ => countDieEvent s (b / 2) 7 1

/-- R415 steps 2 and 3: the record performed in its slot; only then its pages enter the fault queue, or
its event is appended with the record's address (20 R463). -/
def placeRecord (s : State) (ctx slot : Nat) (r : ReplayRecord) : Option State :=
  match writeVirtual s ctx (replayAddr s ctx slot) (r.bytes s) with
  | none => none
  | some s1 =>
    let die := r.location % 4
    let s2 := modMore s1 ctx fun m =>
      { m with replay := mset m.replay slot { r with event := none, order := m.recordSeq }, recordSeq := m.recordSeq + 1
               replayed := merase m.replayed slot }
    let s3 := r.pages.foldl (fun acc v => enterFault (countAbsent acc r.work) die
      { ctx := ctx, vpn := v.1, access := v.2, unit := r.work.unitKind, location := r.location,
        pageSize := pageSizeCode acc ctx v.1, record := some slot, hint := r.hint }) s2
    match r.event with
    | none => some s3
    | some e => some (appendEvent s3 die { e with record := replayAddr s ctx slot })

/-- R411: a unit's record takes a free slot; where none is free, or the write fails (20 R554), it waits. The record of a replay
that faults again takes its slot before the records that wait (R416). -/
def takeRecord (s : State) (ctx : Nat) (r : ReplayRecord) : State :=
  let wait := modMore s ctx fun m => { m with replayWaiting := m.replayWaiting ++ [r] }
  if !(moreOf s ctx).replayWaiting.isEmpty && (replayedSlot s ctx r.work).isNone then wait
  else
    match freeReplaySlot s ctx r.work with
    | none => wait
    | some n =>
      match placeRecord s ctx n r with
      | some s1 => s1
      | none => structureFailedOn wait (r.location % 4) ctx (replayAddr s ctx n)

/-- R409: the 32 bytes of a fault entry: the page, the hint flag, the unit kind and the access; the location and the
context; the page size; the replay record's address; the node hint. -/
def FaultEntry.bytes (s : State) (e : FaultEntry) : List Byte :=
  leBytes 8 (e.vpn * 2 ^ 12 + (if e.hint.isSome then 2 ^ 7 else 0) + e.unit % 16 * 2 ^ 3 + e.access % 8)
  ++ leBytes 4 (e.location * 2 ^ 12 + e.ctx % 4096) ++ leBytes 4 e.pageSize
  ++ leBytes 8 ((e.record.map (replayAddr s e.ctx)).getD 0) ++ leBytes 8 (e.hint.getD 0)

/-- A fault entry that no longer names a replay slot of a context. -/
def FaultEntry.forget (ctx slot : Nat) (e : FaultEntry) : FaultEntry :=
  if e.ctx = ctx ∧ e.record = some slot then { e with record := none } else e

/-- A merge-table page that no longer names a replay slot of a context. -/
def MergePage.forget (ctx slot : Nat) (m : MergePage) : MergePage :=
  if m.ctx = ctx then { m with waiters := m.waiters.filter (· != slot) } else m

/-- R417: a die's fault path without a slot's entries: they are discarded as they resolve. -/
def DieFault.forget (ctx slot : Nat) (f : DieFault) : DieFault :=
  { f with queue := f.queue.map (FaultEntry.forget ctx slot), ring := f.ring.map (FaultEntry.forget ctx slot),
           merge := f.merge.map (MergePage.forget ctx slot) }

/-- R411, R417: a slot freed. -/
def freeRecord (s : State) (ctx slot : Nat) : State :=
  let s1 := modMore s ctx fun m => { m with replay := merase m.replay slot }
  { s1 with dies := s1.dies.map fun p => (p.1, { p.2 with fault := p.2.fault.forget ctx slot }) }

/-! ### Taking an exception -/

/-- The handle of a block's launch (13 R320). -/
def handleOfBlock (s : State) (b : Nat) : Nat := (launchOfBlock s b).handle

/-- The event entry of a fault of threads of a block at a clause. -/
def faultEvent (s : State) (block n addr : Nat) (r : FaultReport) : EventEntry :=
  let core := (blockOf s block).core.getD s.cur.core
  { ctx := ctxOfBlock s block, kind := r.kind, code := r.code, status := r.status, pos := r.pos,
    location := coreLocation core, slot := (blockOf s block).slot, threads := n,
    handle := handleOfBlock s block, trapCode := r.trapCode, addr := addr, detail := r.addr,
    extra := r.extra, unit := 1 }

/-- 20 R463: threads of one block trap: each becomes trapped with its program counter at `resume`, a core
replay record held for the supervisor lists them, and the event follows it. `words` is the length of the
clause at the resume address, 0 for an escalation. -/
def trapThreads (s : State) (block : Nat) (uids : List Nat) (resume words addr : Nat) (r : FaultReport) : State :=
  if uids.isEmpty then s
  else
    let s1 := uids.foldl (fun acc u => modThread acc u fun t =>
      t.modCtl fun c => { c with run := .trapped, wait := none, pc := resume, npc := none,
                                 refile := false, leaving := false }) s
    let core := (blockOf s block).core.getD s.cur.core
    takeRecord s1 (ctxOfBlock s block)
      { cause := 3, location := coreLocation core, slot := (blockOf s block).slot,
        work := .core resume words uids, event := some (faultEvent s block uids.length addr r),
        kind := r.kind, code := r.code, pos := r.pos, addr := addr,
        since := ctimeOf s block }

/-- The bundle of the clause under way leaves the issue list. -/
def dropBundle (s : State) : State :=
  modWork s fun w => { w with bundles := w.bundles.filter fun b =>
    !(b.core == s.cur.core && b.block == s.cur.block && b.lanes == s.cur.lanes) }

/-- 03 R76, 08 R189: where a thread restarts after a restartable fault of its clause. -/
def restartPc (t : Thread) (header : Nat) : Nat :=
  match inBody { t.ctl with pc := header } with
  | some l => l.base
  | none => header

/-- 17 R415: a restartable fault of the clause under way: a record with one entry per absent page; the
bundle's threads block until it is replayed. DESIGN CHOICE (log 80): the record's resume address carries the pass bit where
every thread of the bundle is in a pass. -/
def restartableFault (s : State) (r : FaultReport) : State :=
  let uids := s.cur.lanes
  let inPass := !uids.isEmpty && (lanes s).all fun p => (inBody { p.2.ctl with pc := s.cur.addr }).isSome
  let resume := match (lanes s).head? with
    | none => s.cur.addr
    | some p => restartPc p.2 s.cur.addr
  let s1 := dropBundle (uids.foldl (fun acc u => modThread acc u fun t =>
    t.modCtl fun c => { c with run := .faultWait, wait := none, pc := restartPc t s.cur.addr, npc := none,
                               refile := false, leaving := false }) s)
  takeRecord s1 (ctxOfBlock s s.cur.block)
    { cause := 1, location := coreLocation s.cur.core, slot := (blockOf s s.cur.block).slot,
      waits := r.pages.length, work := .core (if inPass then resume + 1 else s.cur.addr) ((s.cur.stop - s.cur.addr) / 4) uids,
      pages := r.pages, code := r.code, pos := r.pos, addr := s.cur.addr, kind := 1 }

/-- 14 R333: a Coachman fault that is not restartable ends the movement program and is reported as kind 2;
a restartable one waits for its page with a record (17 R413). -/
def coachFault (s : State) (r : FaultReport) : State :=
  let core := s.cur.core
  let block := s.cur.block
  if r.code = .pageAbsent then
    takeRecord (modCoach s core fun c => { c with pc := s.cur.addr, npc := none, held := true })
      (ctxOfBlock s block)
      { cause := 1, location := coreLocation core, slot := (blockOf s block).slot,
        waits := r.pages.length, work := .coachman core s.cur.addr, pages := r.pages,
        code := r.code, pos := r.pos, addr := s.cur.addr, kind := 2 }
  else
    appendEvent (modCoach s core fun c => { c with running := false, stack := [], npc := none, wait := none })
      (dieOfCore core)
      { faultEvent s block 0 s.cur.addr { r with kind := 2 } with location := coreLocation core, unit := 2 }

/-- TAKING AN EXCEPTION at the clause under way (03 R75-R77, 20 R463): the state must be the one the
clause started in; no effect of the clause stands. A restartable fault blocks the bundle on its pages;
any other traps every thread of the bundle, or ends the Coachman's program. `cur.fault` tells the step
that the clause is over. -/
def deliver (s : State) (r : FaultReport) : State :=
  let s1 : State := match s.cur.agent with
    | .coachman => coachFault s r
    | .core =>
      if r.code = .pageAbsent then restartableFault s r
      else
        trapThreads (dropBundle s) s.cur.block s.cur.lanes s.cur.addr ((s.cur.stop - s.cur.addr) / 4)
          s.cur.addr r
  { s1 with cur := { s1.cur with fault := some r } }

/-- The exception of the position under way. -/
def faultAt (s : State) (code : FaultCode) (addr : Nat) : State :=
  deliver s { code := code, pos := s.cur.pos, addr := addr }

end Sys2Proof.Machine
end

