-- ==== Sys2Proof/Machine/Sched.lean ====
section
/-!
DEFINITION. Scheduling: filing and bins (02 R27-R32), the ends of waits and
escalation (02 R39, R40, 18 R438-R442).
-/

namespace Sys2Proof.Machine

/-! ### Filing (R27, R28) -/

/-- 09 R218 step 3, 22 R524: how long selected blocks may run on, in ns. -/
def evacNs (s : State) : Nat := 1000 * if s.power.urgent then min 1000 s.power.evacLimit else s.power.evacLimit

/-- 09 R218 step 3: whether selected blocks are to be parked now. -/
def parkTime (s : State) : Bool := s.power.phase == 1 && decide (s.power.orderedAt + evacNs s ≤ s.dtime)

/-- 09 R219 step 1: whether a block is parked, or is to be parked as soon as it has drained: its issue has stopped. -/
def parkDue (s : State) (b : Nat) : Bool := (blockOf s b).parked || (blockOf s b).selected && parkTime s

/-- Whether a block can issue: placed, not ended, neither evicted nor parked nor about to be, its context resident. -/
def blockRuns (s : State) (b : Nat) : Bool :=
  let k := blockOf s b
  k.core.isSome && !k.ended && !k.evicted && !parkDue s b && (ctxOf s (ctxOfBlock s b)).resident

/-- The thread slot of a thread. -/
def slotOf (s : State) (u : Nat) : Nat := ((threadOf s u).map (·.slot)).getD 0

/-- R28: a thread entered in a list in ascending slot order. -/
def insertSlot (s : State) (u : Nat) : List Nat → List Nat
  | [] => [u]
  | x :: r => if slotOf s u < slotOf s x then u :: x :: r else x :: insertSlot s u r

/-- R28: the occupied bin of a key. -/
def binOfKey (c : Core) (block pc key : Nat) : Option Nat :=
  (c.bins.find? (fun p => p.2.block == block && p.2.pc == pc && p.2.key == key)).map Prod.fst

/-- R28: the lowest-numbered free bin. -/
def freeBin (c : Core) : Option Nat := (List.range 64).find? fun i => (mget c.bins i).isNone

/-- R28: a thread put in the bin of its key, in the lowest free bin, or in the filing queue. -/
def enterBin (s : State) (core u : Nat) (t : Thread) : State :=
  modCore s core fun c =>
    match binOfKey c t.block t.ctl.pc t.ctl.key with
    | some i => { c with bins := mmod c.bins i fun b => { b with threads := insertSlot s u b.threads } }
    | none =>
      match freeBin c with
      | some i =>
        let b : Bin := { block := t.block, pc := t.ctl.pc, key := t.ctl.key, threads := [u], since := s.dtime }
        { c with bins := mset c.bins i b }
      | none => { c with fileQ := insertSlot s u c.fileQ }

/-- R27: a runnable thread is filed under its key at its program counter; a thread of a block that is off
its core is filed when the block is placed again (R41). -/
def fileThread (s : State) (u : Nat) : State :=
  match threadOf s u with
  | none => s
  | some t =>
    let s1 := modThread s u fun x =>
      { x with ctl := { x.ctl with run := .runnable, refile := false }, filedAt := s.dtime }
    if blockRuns s t.block then enterBin s1 ((blockOf s t.block).core.getD 0) u t else s1

/-- Threads filed in turn. -/
def fileThreads (s : State) (us : List Nat) : State := us.foldl fileThread s

/-- The filing time of a bin's oldest thread. -/
def binOldest (s : State) (b : Bin) : Nat :=
  match b.threads.filterMap fun u => (threadOf s u).map (·.filedAt) with
  | [] => b.since
  | t :: r => r.foldl min t

/-- 02 R30: the bin age limit of a block's launch, clamped to 16 to 1 024 clk. -/
def ageLimit (s : State) (b : Nat) : Nat := max 16 (min 1024 (launchOfBlock s b).desc.ageLimit)

/-- R29: a bin whose oldest thread has waited longer than the limit. With threads in the filing queue the
bin of the oldest thread counts as aged (R28). -/
def binAged (s : State) (c : Core) (b : Bin) : Bool :=
  decide (ageLimit s b.block < clkOf s (s.dtime - binOldest s b))
    || (!c.fileQ.isEmpty && c.bins.all fun p => binOldest s b ≤ binOldest s p.2)

/-- R29: the better of two bins: the older first, then the lower number. -/
def olderBin (s : State) (a b : Nat × Bin) : Nat × Bin := if binOldest s b.2 < binOldest s a.2 then b else a

/-- R29: the first source that applies: aged bins, then bins of at least 32 threads. -/
def drawChoice (s : State) (core : Nat) : Option (Nat × Bin) :=
  let c := coreOf s core
  let pick (xs : List (Nat × Bin)) : Option (Nat × Bin) :=
    match xs with
    | [] => none
    | x :: r => some (r.foldl (olderBin s) x)
  match pick (c.bins.filter fun p => binAged s c p.2) with
  | some x => some x
  | none => pick (c.bins.filter fun p => 32 ≤ p.2.threads.length)

/-- R29: the lane numbers of a drawn bundle: positions in ascending slot order. -/
def setLanes (s : State) (us : List Nat) : State :=
  (us.zip (List.range us.length)).foldl (fun acc p => modThread acc p.1 fun t =>
    t.modCtl fun c => { c with lane := p.2, run := .bundled }) s

/-- R29: a bundle of a bin's lowest thread slots, up to 32. -/
def drawBin (s : State) (core bin : Nat) (b : Bin) : State :=
  let us := b.threads.take 32
  let rest := b.threads.drop 32
  let s1 := modCore s core fun c =>
    { c with bins := if rest.isEmpty then merase c.bins bin else mset c.bins bin { b with threads := rest } }
  let s2 := setLanes s1 us
  let s3 := if binAged s (coreOf s core) b then countEvent s2 core 5 1 else s2
  modWork s3 fun w => { w with bundles := w.bundles ++ [{ core := core, block := b.block, lanes := us }] }

/-- R28: the filing queue's threads are filed in ascending slot order while bins are free. -/
def drainQueue (s : State) (core : Nat) : State :=
  match (coreOf s core).fileQ with
  | [] => s
  | u :: r =>
    match threadOf s u with
    | none => modCore s core fun c => { c with fileQ := r }
    | some t =>
      let c := coreOf s core
      if (binOfKey c t.block t.ctl.pc t.ctl.key).isSome || (freeBin c).isSome then
        enterBin (modCore s core fun c => { c with fileQ := r }) core u t
      else s

/-- Every thread of a set taken out of the bins, the filing queue and the bundles of its core. -/
def unfile (s : State) (core : Nat) (us : List Nat) : State :=
  let s1 := modCore s core fun c =>
    let bs := c.bins.map fun p => (p.1, { p.2 with threads := p.2.threads.filter (!us.contains ·) })
    { c with bins := bs.filter (!·.2.threads.isEmpty), fileQ := c.fileQ.filter (!us.contains ·) }
  modWork s1 fun w =>
    let bs := w.bundles.map fun b =>
      if b.core = core then { b with lanes := b.lanes.filter (!us.contains ·) } else b
    { w with bundles := bs.filter (!·.lanes.isEmpty) }

/-! ### Positions whose lanes act one after another -/

/-- 03 R61: a position of which no lane performs any part. -/
def skipLanes (s : State) (g : Guard) (d : Dst) : State :=
  s.cur.lanes.foldl (fun acc u =>
    match threadOf acc u with
    | none => acc
    | some t => if guardOn g t.regs then acc else modThread acc u (skipWord (latchIndex s) d)) s

/-- One position's lanes in ascending lane order: each participating lane acts on the state its
predecessors left and writes a status word and its latch; the others latch their old value (03 R61). -/
def eachLane (s : State) (g : Guard) (d : Dst) (f : State → Nat → Thread → State × Word) : State :=
  s.cur.lanes.foldl (fun acc u =>
    match threadOf acc u with
    | none => acc
    | some t =>
      if guardOn g t.regs then
        let q := f acc u t
        modThread q.1 u (putWord (latchIndex s) d q.2)
      else modThread acc u (skipWord (latchIndex s) d)) s

/-! ### Waits -/

/-- 18 R437, 02 R48: the bound on a deadline. -/
def maxWait (s : State) (ctx : Nat) : Nat := max 64 (min (2 ^ 40) (ctxOf s ctx).f.maxWait)

/-- 02 R48: the effective deadline of a wait, given what an absolute one reads. -/
def effective (s : State) (ctx : Nat) (d : Deadline) (abs : Nat) : Nat :=
  let now := (ctxOf s ctx).ctime
  min (match d with
    | .rel n => now + n.toNat * 64
    | .abs _ => abs) (now + maxWait s ctx)

/-- The absolute time a core's deadline names: an even pair, low word first (18 R437). -/
def threadAbs (t : Thread) : Deadline → Nat
  | .rel _ => 0
  | .abs r => (t.regs.pair r.toNat).toNat

/-- The absolute time a Coachman's deadline names: one m register (18 R437). -/
def coachAbs (c : Coach) : Deadline → Nat
  | .rel _ => 0
  | .abs r => (c.get r.toNat).toNat

/-- 18 R441: a relative deadline of 0 polls. -/
def isPoll : Deadline → Bool
  | .rel n => n == 0
  | .abs _ => false

/-- 18 R441: the site, the count, and the count reported where the wait escalates. -/
def escalation (site count : Nat) (here : Nat) (st : Status) (poll esc : Bool) (limit : Nat) :
    Nat × Nat × Option Nat :=
  let timed := st == .timeout || st == .partialDone
  let counted := timed && !poll
  let site1 := if counted && !(decide (0 < count) && here == site) then here else site
  let count1 :=
    if counted then (if 0 < count ∧ here = site then min (count + 1) 15 else 1)
    else if timed then count else 0
  if timed && (esc || (counted && limit != 0 && decide (limit ≤ count1))) then (site1, 0, some count1)
  else (site1, count1, none)

/-- A status word with a value above it. -/
def statusWord (st : Status) (above : Nat) : Word := BitVec.ofNat 32 (st.code + 256 * above)

/-- 18 R439: what the end of a wait writes in its thread: the destination, `%status`, the escalation state
(R441), and the read floor where it acquires (11 R257). -/
def endRegs (now limit : Nat) (d : Dst) (val : Word) (acquire : Bool) (st : Status) (site : Nat)
    (poll esc : Bool) (t : Thread) : Thread :=
  let e := escalation t.ctl.escSite t.ctl.escCount site st poll esc limit
  { t with
    regs := { (match d with
        | .reg n => t.regs.set n.toNat val
        | .suppress => t.regs) with
      status := BitVec.ofNat 32 st.code
      floor := if acquire then max t.regs.floor now else t.regs.floor }
    ctl := { t.ctl with
      wait := none, escSite := e.1, escCount := e.2.1, trapDue := e.2.2.map fun n => (st.code, n) } }

/-- 19 R456 code 8: a wait that ended `TIMEOUT`. -/
def countTimeout (s : State) (core : Nat) (st : Status) : State :=
  if st = .timeout then countEvent s core 8 1 else s

/-- 18 R442, 26 R552: the threads of an escalation trap at their resume point, with one record and one event
(log 10); `q` is the status and the count that it reports. -/
def escalate (s : State) (block : Nat) (us : List Nat) (resume site : Nat) (q : Nat × Nat) : State :=
  trapThreads (us.foldl (fun acc u => modThread acc u fun x => x.modCtl fun c => { c with trapDue := none }) s)
    block us resume 0 site { code := .deadlineEscalation, kind := 6, status := q.1, extra := q.2 }

/-- The status and count of the escalation that is due for a thread. -/
def trapDueOf (s : State) (u : Nat) : Option (Nat × Nat) := (threadOf s u).bind fun t => t.ctl.trapDue

/-- 02 R39, R40: what the end of a blocked thread's wait writes: destination, `%status`, further registers, the
escalation state; the thread stands at its resume point. -/
def endWaitRegs (s : State) (u : Nat) (w : Wait) (st : Status) (val : Word) (acquire : Bool)
    (more : Regs → Regs) : State :=
  match threadOf s u with
  | none => s
  | some t =>
    let limit := (ctxOf s (ctxOfBlock s t.block)).f.escLimit
    let t1 := (endRegs s.dtime limit w.dst val acquire st w.site w.poll w.esc t).modRegs more
    let t2 := t1.modCtl fun c => { c with pc := w.resume, run := .runnable }
    countTimeout (modThread s u fun _ => t2) ((blockOf s t.block).core.getD 0) st

/-- 02 R39, R40: a blocked thread's wait ends with a status; then the thread is filed at its resume point, or traps
there (18 R442). -/
def endWait (s : State) (u : Nat) (w : Wait) (st : Status) (val : Word) (acquire : Bool)
    (more : Regs → Regs) : State :=
  match threadOf s u with
  | none => s
  | some t =>
    let s1 := endWaitRegs s u w st val acquire more
    match trapDueOf s1 u with
    | some q => escalate s1 t.block [u] w.resume w.site q
    | none => fileThread s1 u

/-- 02 R39: a wait that ends at issue: the thread stays in its bundle; an escalation is taken at the end of
the clause. -/
def endAtIssue (s : State) (u : Nat) (d : Dst) (x : Deadline) (esc : Bool) (st : Status) (val : Word)
    (acquire : Bool) (more : Regs → Regs) : State :=
  match threadOf s u with
  | none => s
  | some t =>
    let limit := (ctxOf s (ctxOfBlock s t.block)).f.escLimit
    let d1 := match d with
      | .reg n => Dst.reg (BitVec.ofNat 7 (stepReg t.ctl .dst n.toNat))
      | .suppress => .suppress
    countTimeout (modThread s u fun t0 =>
      (endRegs s.dtime limit d1 val acquire st s.cur.addr (isPoll x) esc t0).modRegs more) s.cur.core st

/-- 08 R185: the address pair of a loop advanced by its stride register at the end of a pass. -/
def stepAddress (l : LoopState) (r : Regs) : Regs :=
  match l.addr with
  | none => r
  | some a => r.setPair a (r.pair a + (r.get (a + 2)).signExtend 64)

/-- 08 R172, R185: where a thread stands after a clause that ends at `stop`: the target of a taken branch,
the next pass or the exit of its loop, or the word after the clause. -/
def passEnd (stop : Nat) (t : Thread) : Thread :=
  match t.ctl.npc with
  | some p => t.modCtl fun c => { c with pc := p, npc := none }
  | none =>
    match inBody t.ctl with
    | none => t.modCtl fun c => { c with pc := stop }
    | some l =>
      if stop ≠ l.base + 4 * l.words then t.modCtl fun c => { c with pc := stop }
      else
        (t.modRegs (stepAddress l)).modCtl fun c =>
          if l.pass + 1 = l.count then { c with pc := stop, loop := none }
          else { c with pc := l.base, loop := some { l with pass := l.pass + 1 } }

/-- 02 R39: a thread blocks at the end of its clause, which its waiting instruction closes (02 R38). -/
def blockThread (s : State) (u : Nat) (d : Dst) (x : Deadline) (esc : Bool) (k : WaitKind) : State :=
  match threadOf s u with
  | none => s
  | some t =>
    let d1 := match d with
      | .reg n => Dst.reg (BitVec.ofNat 7 (stepReg t.ctl .dst n.toNat))
      | .suppress => .suppress
    let t1 := passEnd s.cur.stop t
    let w : Wait := { kind := k, deadline := effective s (ctxOfBlock s t.block) x (threadAbs t x),
                      resume := t1.ctl.pc, site := s.cur.addr, dst := d1, esc := esc, poll := isPoll x, since := s.dtime
                      lead := s.cur.lanes.headD 0 }
    modThread s u fun _ => t1.modCtl fun c => { c with wait := some w, run := .blocked }

/-- 02 R48, 18 R437: whether a wait that does not hold at issue has already met its deadline: it tests the
condition once. -/
def tooLate (s : State) (t : Thread) (x : Deadline) : Bool :=
  effective s (ctxOfBlock s t.block) x (threadAbs t x) ≤ (ctxOf s (ctxOfBlock s t.block)).ctime

/-- 02 R39: a thread whose condition does not hold: a poll ends `TIMEOUT`, any other wait blocks. -/
def blockOrExpire (s : State) (u : Nat) (t : Thread) (d : Dst) (x : Deadline) (esc : Bool) (k : WaitKind)
    (late : Status) (val : Word) : State :=
  if tooLate s t x then endAtIssue s u d x esc late val (late == .partialDone) id
  else blockThread s u d x esc k

/-- 18 R442: an escalation on the Coachman ends its program and is reported as kind 6 with unit 2. -/
def coachEscalate (s : State) (core : Nat) (site st n : Nat) : State :=
  let block := (coachOf s core).block
  appendEvent (modCoach s core fun c => { c with running := false, stack := [], npc := none, wait := none })
    (dieOfCore core)
    { ctx := ctxOfBlock s block, kind := 6, code := .deadlineEscalation, status := st,
      location := coreLocation core, slot := (blockOf s block).slot, handle := handleOfBlock s block,
      addr := site, extra := n, unit := 2 }

/-- 02 R39, 14 R332: the end of a Coachman's wait: status in its m register and last status, escalation, and
the program goes on at the resume point. -/
def endCoachWait (s : State) (core : Nat) (w : Wait) (st : Status) (val : DWord) (more : Coach → Coach) : State :=
  let c := coachOf s core
  let e := escalation c.escSite c.escCount w.site st w.poll w.esc (ctxOf s (ctxOfBlock s c.block)).f.escLimit
  let s1 := modCoach s core fun c0 =>
    let c1 := match w.dst with
      | .reg n => c0.set n.toNat val
      | .suppress => c0
    more { c1 with wait := none, pc := w.resume, status := st.code, escSite := e.1, escCount := e.2.1 }
  match e.2.2 with
  | none => countTimeout s1 core st
  | some n => coachEscalate (countTimeout s1 core st) core w.site st.code n

/-- The Coachman's wait record for a condition that does not hold at issue. -/
def coachWait (s : State) (d : Dst) (x : Deadline) (esc : Bool) (k : WaitKind) : Wait :=
  { kind := k
    deadline := effective s (ctxOfBlock s s.cur.block) x (coachAbs (coachOf s s.cur.core) x)
    resume := s.cur.stop, site := s.cur.addr, dst := d, esc := esc, poll := isPoll x }

/-- A Coachman's wait that holds, or has expired, at issue. -/
def endCoachAtIssue (s : State) (d : Dst) (x : Deadline) (esc : Bool) (st : Status) (val : DWord)
    (more : Coach → Coach) : State :=
  let pc := (coachOf s s.cur.core).pc
  let w := coachWait s d x esc (.fence 0 .dev [] [] [] 0)
  modCoach (endCoachWait s s.cur.core w st val more) s.cur.core fun c => if c.running then { c with pc := pc } else c

/-- A Coachman's wait whose condition does not hold at issue: a poll ends with `late`, any other blocks. -/
def blockCoach (s : State) (d : Dst) (x : Deadline) (esc : Bool) (k : WaitKind) (late : Status) (val : DWord) : State :=
  let w := coachWait s d x esc k
  if w.deadline ≤ (ctxOf s (ctxOfBlock s s.cur.block)).ctime then endCoachAtIssue s d x esc late val id
  else modCoach s s.cur.core fun c => { c with wait := some w }

end Sys2Proof.Machine
end

