-- ==== Sys2Proof/Machine/Complete.lean ====
section
/-!
DEFINITION. What the end of a piece of work does: level counters (02 R49), completion rings (12 R277),
matrix commands (12 R299), rays (15 R372), the sticky check bits (19 R452).
-/

namespace Sys2Proof.Machine

/-! ### Engine faults -/

/-- 20 R461 kind 3: an engine fault of a context, reported from a die. -/
def engineFault (s : State) (ctx die unit location slot handle : Nat) (code : FaultCode) (detail : Nat) : State :=
  appendEvent s die
    { ctx := ctx, kind := 3, code := code, location := location, slot := slot, handle := handle,
      detail := detail, unit := unit }

/-! ### Sticky bits (19 R452) -/

/-- R452: a sticky bit of a thread set: 0 `PSN`, 1 `BND`. A bit that goes from 0 to 1 records the time and
clears its reported flag. -/
def setSticky (s : State) (u bit : Nat) : State :=
  match threadOf s u with
  | none => s
  | some t =>
    if t.ctl.run = .exited || t.regs.chk.getLsbD bit then s
    else modThread s u fun x =>
      { x with
        regs := { x.regs with chk := x.regs.chk ||| BitVec.ofNat 32 (2 ^ bit) }
        chkSet := mset x.chkSet bit (ctimeOf s x.block)
        chkReported := x.chkReported &&& ~~~(BitVec.ofNat 2 (2 ^ bit)) }

/-- R463: the length in words of the clause that a thread stands at: of its loop's captured words inside a pass, else of the
header in memory; 0 where that cannot be read. -/
def clauseLength (s : State) (t : Thread) : Nat :=
  let held := match inBody t.ctl with
    | some l => l.body[(t.ctl.pc - l.base) / 4]?
    | none => none
  match held with
  | some w => clauseWords (headerOf w)
  | none => match readVirtual s (ctxOfBlock s t.block) t.ctl.pc 4 with
    | .ok bs => clauseWords (headerOf (BitVec.ofNat 32 (leNat bs)))
    | .error _ => 0

/-- R461: an event of a block that has consumed poison: where, and the unit and its place. -/
def consumedEvent (s : State) (b n : Nat) (kind : Nat) (code : FaultCode) (w : Consumed) : EventEntry :=
  let core := (blockOf s b).core.getD 0
  { faultEvent s b n w.clause { code := code, kind := kind, addr := w.addr } with
    unit := w.unit, location := if w.unit = 4 then clusterLocation (clusterOfCore core) else coreLocation core }

/-- 20 R482: a second consumption traps every live thread of the block with `ROLLBACK_EXHAUSTED`; one event
of kind 9, whose record lists the first 32 (log 90). Threads leave the bins and bundles. -/
def rollbackExhausted (s : State) (b : Nat) (w : Consumed) : State :=
  let us := (threadsOfBlock s b).filterMap fun p => if p.2.ctl.run = .exited then none else some p.1
  let core := (blockOf s b).core.getD 0
  let s1 := unfile s core us
  us.foldl (fun acc u =>
    match threadOf acc u with
    | none => acc
    | some t =>
      let pc := match t.ctl.wait with
        | some w => w.resume
        | none => t.ctl.pc
      modThread acc u fun x => x.modCtl fun c => { c with pc := pc }) s1
  |> fun s2 =>
    let traps := us.foldl (fun acc u => modThread acc u fun x =>
      x.modCtl fun c => { c with run := .trapped, wait := none, npc := none }) s2
    let head := us.head?.bind (threadOf traps)
    takeRecord traps (ctxOfBlock s b)
      { cause := 3, location := coreLocation core, slot := (blockOf s b).slot,
        work := .core ((head.map (·.ctl.pc)).getD 0) ((head.map (clauseLength s)).getD 0) (us.take 32),
        event := some (consumedEvent traps b (min 32 us.length) 9 .rollbackExhausted w),
        kind := 9, code := .rollbackExhausted, since := ctimeOf s b }

/-- R482: whether a block's threads are held by a trap of kind 9. -/
def exhaustedTrap (s : State) (b : Nat) : Bool :=
  let m := moreOf s (ctxOfBlock s b)
  (m.replay.map Prod.snd ++ m.replayWaiting).any fun r =>
    r.kind == 9 && r.slot == (blockOf s b).slot && r.location == coreLocation ((blockOf s b).core.getD 0)

/-- 10 R229, 20 R481, R482: a thread consumes poison: `PSN`; in a shadowed block instead the block is due a
rollback, or its second one traps it, once. -/
def consumePoison (s : State) (u block : Nat) (w : Consumed) : State :=
  if (launchOfBlock s block).desc.shadow then
    if (syncOf s block).rollbackDue then s
    else if (syncOf s block).rollbackUsed then (if exhaustedTrap s block then s else rollbackExhausted s block w)
    else modSync s block fun k => { k with rollbackDue := true, consumed := w }
  else setSticky s u 0

/-! ### Levels -/

/-- The launch's final status set, unless one stands (02 R50, R51, 20 R464). -/
def markLaunch (s : State) (l : Nat) (st : LevelState) : State :=
  modLaunch s l fun k => if k.state = .running ∧ k.counter ≠ 0 then { k with state := st } else k

/-- 16 R382: binner b of the device: binner b mod 2 of die b div 2. -/
def binnerOf (s : State) (b : Nat) : Binner := mgetD (dieOf s (b / 2)).binners (b % 2) {}

/-- A binner changed. -/
def modBinner (s : State) (b : Nat) (f : Binner → Binner) : State :=
  modDie s (b / 2) fun d => { d with binners := mset d.binners (b % 2) (f (mgetD d.binners (b % 2) {})) }

/-- 16 R382: a binner's primitives in the order in which it accepted them. -/
def Binner.all (x : Binner) : List BinPrim := x.prims ++ x.ring

/-- A binner's primitives changed, one by one. -/
def Binner.mapPrims (x : Binner) (f : BinPrim → BinPrim) : Binner := { x with prims := x.prims.map f, ring := x.ring.map f }

/-- A binner with only some of its primitives. -/
def Binner.keep (x : Binner) (f : BinPrim → Bool) : Binner := { x with prims := x.prims.filter f, ring := x.ring.filter f }

/-- 16 R388: the binners that hold primitives of a launch. -/
def binnersOf (s : State) (l : Nat) : List Nat :=
  (List.range 8).filter fun b => (binnerOf s b).all.any fun p => p.launch == l

/-- 16 R388: a binner that holds primitives stops accepting and flushes. -/
def startFlush (s : State) (b : Nat) : State :=
  modBinner s b fun x => if x.flushing || x.all.isEmpty then x else { x with flushing := true, completion := 0 }

/-- 19 R450: a graph node whose launch has ended no longer counts. -/
def endNode (l : Nat) (r : Replay) : Replay :=
  if r.nodes.any fun n => n.launch == some l && !n.ended then
    { r with counter := r.counter - 1
             nodes := r.nodes.map fun n => if n.launch = some l then { n with ended := true } else n }
  else r

/-- 02 R49: what follows where a launch's counter stands at zero: its node of a replay has ended. -/
def launchSettled (s : State) (l : Nat) : State :=
  let k := launchOf s l
  if k.counter = 0 ∧ k.graph.isSome then
    modMore s k.ctx fun m => { m with replays := m.replays.map (endNode l) }
  else s

/-- 02 R49, 16 R388: one member of a launch has ended. The step to zero of a launch with binned primitives
waits for their flush. -/
def launchDown (s : State) (l : Nat) : State :=
  if (launchOf s l).counter = 1 ∧ !(binnersOf s l).isEmpty then
    (binnersOf s l).foldl startFlush (modLaunch s l fun k => { k with lastHeld := true })
  else launchSettled (modLaunch s l fun k => { k with counter := k.counter - 1 }) l

/-! ### Matrix commands -/

/-- 12 R277: a command's status and fault code go to ring entry (ticket mod 64) of its block. -/
def ringPut (s : State) (block ticket : Nat) (st : Status) (code : FaultCode) : State :=
  modSync s block fun k => { k with ring := mset k.ring (ticket % 64) { status := st, fault := code } }

/-- 12 R276, R192: a bound command completes unposted. -/
def dropBound (s : State) (block ticket : Nat) (st : Status) : State :=
  modSync (ringPut s block ticket st .none) block fun k => { k with bound := merase k.bound ticket }

/-- 12 R276: the lowest free entry of a reservation table. -/
def freeEntry (c : Cluster) : Nat := ((List.range 16).find? fun i => (mget c.table i).isNone).getD 16

/-! ### Footprints and the task scheduler (11 R263, R264) -/

/-- 11 R263: a region: kind 0 G of a context, 1 S and TOB offsets of a core, 2 tiles of a cluster; half open. -/
structure Region where
  kind : Nat
  unit : Nat
  lo : Nat
  hi : Nat
  deriving DecidableEq, Repr

/-- 11 R263: two regions share a byte or a tile. -/
def Region.meets (a b : Region) : Bool :=
  a.kind == b.kind && a.unit == b.unit && decide (max a.lo b.lo < min a.hi b.hi)

/-- 12 R280: K per pass, rows of A and of B per pass, and N, by opcode. -/
def passShape (op : Nat) : Nat × Nat × Nat × Nat :=
  match op with
  | 0x70 => (64, 48, 96, 256)
  | 0x71 => (32, 16, 32, 256)
  | 0x74 => (16, 32, 32, 128)
  | _ => (32, 32, 32, 128)

/-- Whether an opcode is a multiply form. -/
def isMultiply (op : Nat) : Bool := 0x70 ≤ op && op ≤ 0x75

/-- The core a command names by its number in the cluster. -/
def MatCmd.coreNamed (m : MatCmd) (k : Nat) : Nat := 4 * m.cluster + k

/-- 12 R279: the descriptor's fields. -/
def MatCmd.arow (m : MatCmd) : Nat := dbits m.desc 10 0
/-- 12 R279. -/
def MatCmd.acore (m : MatCmd) : Nat := m.coreNamed (dbits m.desc 12 11)
/-- 12 R279. -/
def MatCmd.alay (m : MatCmd) : Nat := dbits m.desc 15 13
/-- 12 R279. -/
def MatCmd.brow (m : MatCmd) : Nat := dbits m.desc 26 16
/-- 12 R279. -/
def MatCmd.bcore (m : MatCmd) : Nat := m.coreNamed (dbits m.desc 28 27)
/-- 12 R279. -/
def MatCmd.blay (m : MatCmd) : Nat := dbits m.desc 31 29

/-- The tiles a command names. -/
def MatCmd.tiles (m : MatCmd) : List Nat :=
  if isMultiply m.op && (passShape m.op).2.2.2 == 256 then [m.tile, m.tile + 1] else [m.tile]

/-- The tiles a command names, as a region. -/
def MatCmd.tileRegion (m : MatCmd) : Region :=
  { kind := 2, unit := m.cluster, lo := m.tile, hi := m.tile + m.tiles.length }

/-- 12 R294: the bytes of one element in memory. -/
def MatCmd.width (m : MatCmd) : Nat := if m.pair then 8 else 4

/-- 12 R294: the memory from the first to the last element byte. -/
def MatCmd.memRegion (m : MatCmd) : Region :=
  { kind := if m.scratch then 1 else 0, unit := if m.scratch then m.core else m.ctx, lo := m.addr,
    hi := if m.vr = 0 ∨ m.vc = 0 then m.addr else m.addr + (m.vr - 1) * m.stride + m.vc * m.width }

/-- TOB rows of a core as a region of its S offsets. -/
def tobRegion (core row rows : Nat) : Region :=
  { kind := 1, unit := core, lo := 0x800000 + 128 * row, hi := 0x800000 + 128 * (row + rows) }

/-- 12 R293, R294: the read regions of a matrix command. -/
def MatCmd.reads (m : MatCmd) : List Region :=
  if isMultiply m.op then
    let k := passShape m.op
    [tobRegion m.acore m.arow (m.passes * k.2.1), tobRegion m.bcore m.brow (m.passes * k.2.2.1)]
  else if m.op = 0x79 then [m.memRegion]
  else if m.op = 0x7A then [m.tileRegion]
  else []

/-- 12 R293, R294: its write region. -/
def MatCmd.writes (m : MatCmd) : List Region := if m.op = 0x7A then [m.memRegion] else [m.tileRegion]

/-- 14 R337: the fields of a copy's command block. -/
def CopyCmd.rows (c : CopyCmd) : Nat := dbits c.shape 23 12 + 1
/-- 14 R337: valid rows. -/
def CopyCmd.validRows (c : CopyCmd) : Nat := min (dbits c.shape 36 24) c.rows
/-- 14 R337: the bytes of a source row. -/
def CopyCmd.srcBytes (c : CopyCmd) : Nat := 32 * dbits c.shape 11 0
/-- 14 R337: the bytes of a destination row. -/
def CopyCmd.dstBytes (c : CopyCmd) : Nat := 32 * copyRowSectors c.control c.shape
/-- 14 R336. -/
def CopyCmd.sstr (c : CopyCmd) : Nat := dbits c.stride 31 0
/-- 14 R336. -/
def CopyCmd.dstr (c : CopyCmd) : Nat := dbits c.stride 63 32
/-- 14 R339: whether the source is S and the destination G. -/
def CopyCmd.outward (c : CopyCmd) : Bool := c.op == 0x69 || (c.op == 0x6C && dbit c.control 0)
/-- 14 R337: the peers of a `CPX`. -/
def CopyCmd.peers (c : CopyCmd) : List Nat := (List.range 4).filter fun p => dbit c.control (36 + p)

/-- 14 R339: the index of row i of a gathering copy. -/
def copyIndex (s : State) (c : CopyCmd) (i : Nat) : Nat :=
  let o := dbits c.control 63 40 + 4 * i
  if o < 0x800000 then leNat ((List.range 4).map fun k => readByte s (.scratch c.block) (o + k))
  else leNat ((List.range 4).map fun k => readByte s (.tob c.core) (o - 0x800000 + k))

/-- 14 R339: the source address of row i. -/
def copySrc (s : State) (c : CopyCmd) (i : Nat) : Nat :=
  c.src.toNat + (if c.op = 0x6B then copyIndex s c i else i) * c.sstr

/-- 14 R349: the S offset of slot sequence q of a circular buffer. -/
def CircBuf.slotAt (b : CircBuf) (q : Nat) : Nat := b.base + q % max 1 b.nslot * 128 * b.srows

/-- 14 R339, R350: the S or G address a copy's row 0 goes to. -/
def copyBase (s : State) (c : CopyCmd) : Nat :=
  if dbit c.control 21 then
    (mgetD (coreOf s c.core).cbufs (dbits c.control 20 17) {}).slotAt (c.slot.getD 0) + c.dst.toNat
  else c.dst.toNat

/-- The span of `rows` rows of `bytes` bytes at a stride. -/
def spanEnd (lo rows stride bytes : Nat) : Nat := if rows = 0 then lo else lo + (rows - 1) * stride + bytes

/-- 14 R339: the source span of a copy. -/
def copySrcSpan (s : State) (c : CopyCmd) : Region :=
  let vr := c.validRows
  let top := if c.op = 0x6B then (List.range vr).foldl (fun m i => max m (copySrc s c i + c.srcBytes)) c.src.toNat
    else spanEnd c.src.toNat vr c.sstr c.srcBytes
  { kind := if c.outward then 1 else 0, unit := if c.outward then c.core else c.ctx, lo := c.src.toNat, hi := top }

/-- 14 R339: the read regions of a copy. -/
def copyReads (s : State) (c : CopyCmd) : List Region :=
  let o := dbits c.control 63 40
  copySrcSpan s c ::
    (if c.op = 0x6B then [{ kind := 1, unit := c.core, lo := o, hi := o + 4 * c.validRows }] else [])

/-- 14 R339: the write region of a copy: the destination span, in `CB` mode the whole slot. -/
def copyWrites (s : State) (c : CopyCmd) : List Region :=
  let lo := copyBase s c
  let hi := spanEnd lo c.validRows c.dstr c.dstBytes
  if c.outward then [{ kind := 0, unit := c.ctx, lo := lo, hi := hi }]
  else if dbit c.control 21 then
    let b := mgetD (coreOf s c.core).cbufs (dbits c.control 20 17) {}
    match c.slot with
    | none => []
    | some q => [{ kind := 1, unit := c.core, lo := b.slotAt q, hi := b.slotAt q + 128 * b.srows }]
  else
    (if c.op = 0x6A then c.peers.map fun p => 4 * clusterOfCore c.core + p else [c.core]).map fun g =>
      { kind := 1, unit := g, lo := lo, hi := hi }

/-- R264: RAW, WAR and WAW edges of a new footprint on an earlier one. -/
def conflicts (reads writes earlierReads earlierWrites : List Region) : Bool :=
  (reads.any fun r => earlierWrites.any r.meets)
    || (writes.any fun w => earlierReads.any w.meets || earlierWrites.any w.meets)

/-- 12 R277: ticket order, over the wrap. -/
def ticketBefore (a b : Nat) : Bool := decide ((b + 2 ^ 32 - a) % 2 ^ 32 < 2 ^ 31 ∧ a ≠ b)

/-- The matrix commands of a block in the reservation table of its cluster. -/
def tableOf (s : State) (cluster block : Nat) : List MatCmd :=
  ((clusterOf s cluster).table.filter fun e => e.2.cmd.block == block).map fun e => e.2.cmd

/-- Whether the load or the texture operation of a number has not returned. -/
def readPending (s : State) (i : Nat) : Bool :=
  (s.pend.any fun a => a.id == i) || s.cores.any fun c => c.2.texQ.any fun o => o.after == i

/-- 11 R265: whether the reads that a `FENCE.eng` of a block has put ahead of its later commands have returned. -/
def fencedLoads (s : State) (b : Nat) : Bool := (syncOf s b).ahead.all fun i => !readPending s i

/-- R264, 12 R277: whether every edge ahead of a matrix command is cleared. -/
def matEdgesClear (s : State) (m : MatCmd) : Bool :=
  let hit (e : MatCmd) : Bool := ticketBefore e.ticket m.ticket && conflicts m.reads m.writes e.reads e.writes
  fencedLoads s m.block && !((tableOf s m.cluster m.block).any hit) && !(((syncOf s m.block).bound.map Prod.snd).any hit)
    && !((coreOf s m.core).copyQ.any fun c => c.block == m.block && decide (c.seq < m.seq)
        && conflicts m.reads m.writes (copyReads s c) (copyWrites s c))

/-- R264: whether every edge ahead of a copy is cleared. -/
def copyEdgesClear (s : State) (c : CopyCmd) : Bool :=
  fencedLoads s c.block && !((tableOf s (clusterOfCore c.core) c.block).any fun m => decide (m.seq < c.seq)
      && conflicts (copyReads s c) (copyWrites s c) m.reads m.writes)
    && !((coreOf s c.core).copyQ.any fun e => e.block == c.block && decide (e.seq < c.seq)
        && conflicts (copyReads s c) (copyWrites s c) (copyReads s e) (copyWrites s e))

/-- 12 R276: a command is placed in the reservation table of its cluster; the task scheduler holds it back
where an edge stands ahead of it. -/
def postMatrix (s : State) (m : MatCmd) : State :=
  let n := (syncOf s m.block).posts
  let m1 := { m with seq := n }
  let free := matEdgesClear s m1
  modCluster (modSync s m.block fun k => { k with posts := n + 1 }) m.cluster fun c =>
    { c with table := mset c.table (freeEntry c) { cmd := m1, postedAt := ctimeOf s m.block, released := free } }

/-- 08 R192: the command bound to a register is posted. -/
def postBound (s : State) (block ticket : Nat) : State :=
  match mget (syncOf s block).bound ticket with
  | none => s
  | some m => postMatrix (modSync s block fun k => { k with bound := merase k.bound ticket }) m

/-- 10 R229, 20 R481: an engine consumes poison for a block: a shadowed one is due a rollback at once. -/
def engineConsumes (s : State) (block : Nat) (w : Consumed) : State :=
  if (launchOfBlock s block).desc.shadow then consumePoison s 0 block w else s

/-- 12 R295, R300, 19 R455: what a command that completes sets in its thread's `%chk`. -/
def commandSticky (s : State) (e : MatEntry) : State :=
  let s1 := if e.poisoned && !(launchOfBlock s e.cmd.block).desc.shadow then setSticky s e.cmd.thread 0 else s
  if e.bound then setSticky s1 e.cmd.thread 1 else s1

/-- 12 R276, R299: an entry's command completes, and with it what it sets in its thread's `%chk` (19 R455); a fault is reported
as an engine fault. -/
def completeMatrix (s : State) (cluster entry : Nat) (st : Status) (code : FaultCode) (detail : Nat) : State :=
  match mget (clusterOf s cluster).table entry with
  | none => s
  | some e =>
    let s1 := modCluster (commandSticky s e) cluster fun c => { c with table := merase c.table entry }
    let s2 := ringPut s1 e.cmd.block e.cmd.ticket st code
    if st = .faulted then
      engineFault s2 e.cmd.ctx (cluster / 48) 4 (clusterLocation cluster) (blockOf s e.cmd.block).slot
        (handleOfBlock s e.cmd.block) code detail
    else s2

/-! ### Rays -/

/-- 15 R354: the bytes of K bank 15 of a launch, where they can be read now. -/
def readScene (s : State) (l : Nat) : Option (List Byte) :=
  match mget (launchOf s l).bank 15 with
  | none => none
  | some (a, size) =>
    if size < 64 then none
    else match readVirtual s (launchOf s l).ctx a 64 with
      | .error _ => none
      | .ok bs => some bs

/-- 15 R354: the scene descriptor of a launch: as the Omnibus holds it, else as memory does (log 76). -/
def sceneBytes (s : State) (l : Nat) : Option (List Byte) :=
  match (mgetD s.work.rays l {}).scene with
  | some b => some b
  | none => readScene s l

/-- Bytes lo to lo + n − 1 of a list, as a value. -/
def fieldOf (bs : List Byte) (lo n : Nat) : Nat := leNat ((bs.drop lo).take n)

/-- 15 R355: the address of a ray's slot. -/
def raySlot (s : State) (l id : Nat) : Nat :=
  match sceneBytes s l with
  | none => 0
  | some bs => fieldOf bs 0 8 + 128 * id

/-- 15 R372: the completion writes of a slot: `RSTATUS`, `RFAULT` and `STATE` 4. -/
def rayStateBytes (st : Status) (code : FaultCode) : List Byte :=
  leBytes 1 4 ++ leBytes 1 st.code ++ leBytes 1 code.byte

/-- 15 R370: why a ray's slot bytes cannot be written now, if they cannot. -/
def rayFault (s : State) (l id : Nat) : Option FaultCode :=
  match translateWalk s (launchOf s l).ctx (raySlot s l id + 64) { read := true, write := true } with
  | .error c => some c
  | .ok _ => none

/-- The ray state of a launch changed. -/
def modRays (s : State) (l : Nat) (f : RayLaunch → RayLaunch) : State :=
  modWork s fun w => { w with rays := mset w.rays l (f (mgetD w.rays l {})) }

/-- 15 R370: a ray held for the page of its slot, with a ray record of kind 2 (17 R413). -/
def holdRay (s : State) (l id loc : Nat) (act : RayAct) : State :=
  let ctx := (launchOf s l).ctx
  takeRecord (modRays s l fun r => { r with held := r.held ++ [(id, act)] }) ctx
    { cause := 1, location := loc, waits := 1, work := .ray (loc / 4 % 64 + 48 * (loc % 4)) l 2 0 0 0 0 id,
      pages := [(raySlot s l id / 4096, 1)], since := (ctxOf s ctx).ctime }

/-- 15 R555: a ray that completes has no exit pending. -/
def clearExits (s : State) (l id : Nat) : State :=
  if (mget (mgetD s.work.rays l {}).exits id).isSome then modRays s l fun r => { r with exits := merase r.exits id } else s

/-- 15 R370, R372: a ray whose slot's writes are performed completes: its slot is written where it can be (an absent page holds the
completion), the launch's ray completion counter rises, its spawn-tree counter falls; a fault or poison is reported, and so is a
slot that cannot be written. `loc` is the location of the unit (17 R412). -/
def closeRay (s : State) (l id loc : Nat) (st : Status) (code : FaultCode) (report : Bool) : State :=
  let ctx := (launchOf s l).ctx
  let fault := rayFault s l id
  if fault = some .pageAbsent then holdRay s l id loc (.complete st code report)
  else
    let s1 := clearExits ((writeVirtual s ctx (raySlot s l id + 64) (rayStateBytes st code)).getD s) l id
    let s2 := launchDown (modLaunch s1 l fun k => { k with rayCount := k.rayCount + 1 }) l
    if report || fault.isSome then
      engineFault s2 ctx (loc % 4) 5 loc 0xFF (launchOf s l).handle
        (if st = .poisoned then .poisonConsumed else if report then code else fault.getD code) id
    else s2

/-- 15 R372, 11 R251: when what has been written to a ray's slot is performed at `.dev`: once no copy of its line is older. -/
def slotPerformed (s : State) (l id : Nat) : Nat :=
  match translateWalk s (launchOf s l).ctx (raySlot s l id) { write := true } with
  | .ok (.device pa) => completionTime s (homeDie (pa / 128)) (pa / 128)
  | _ => s.dtime

/-- 15 R372: a ray completes, once its slot's writes are performed at `.dev`. -/
def completeRay (s : State) (l id loc : Nat) (st : Status) (code : FaultCode) (report : Bool) : State :=
  let t := slotPerformed s l id
  if t ≤ s.dtime then closeRay s l id loc st code report
  else modRays s l fun r => { r with closing := r.closing ++
    [{ id := id, time := t, loc := loc, status := st, code := code, report := report }] }

/-- 15 R372: the rays of a launch whose slots' writes are performed by now complete. -/
def closeRays (s : State) (l : Nat) : State :=
  let due := (mgetD s.work.rays l {}).closing.filter fun x => decide (x.time ≤ s.dtime)
  if due.isEmpty then s
  else due.foldl (fun acc x => closeRay acc l x.id x.loc x.status x.code x.report)
    (modRays s l fun r => { r with closing := r.closing.filter fun x => !decide (x.time ≤ s.dtime) })

end Sys2Proof.Machine
end

