-- ==== Sys2Proof/Machine/BarrierOps.lean ====
section
/-!
DEFINITION. Hardware barriers as the barrier units keep them (18 R429-R436), convergence registers' checks
(08 R192, R193), checkpoints (20 R479) and the exit of a thread (08 R181).
-/

namespace Sys2Proof.Machine

/-! ### Barrier storage -/

/-- A barrier's counters. -/
def barrierOf (s : State) : BarrierId → Barrier
  | .gang b g i => mgetD (blockOf s b).gangBars (4 * g + i) {}
  | .block b i => mgetD (blockOf s b).blockBars i {}
  | .group g i => mgetD (groupOf s g).bars i {}
  | .launch l i => mgetD (launchOf s l).bars i {}

/-- A barrier's counters written. -/
def setBarrier (s : State) (id : BarrierId) (x : Barrier) : State :=
  match id with
  | .gang b g i => modBlock s b fun k => { k with gangBars := mset k.gangBars (4 * g + i) x }
  | .block b i => modBlock s b fun k => { k with blockBars := mset k.blockBars i x }
  | .group g i => modGroup s g fun k => { k with bars := mset k.bars i x }
  | .launch l i => modLaunch s l fun k => { k with bars := mset k.bars i x }

/-- R434: the arrival-record entry of a barrier. -/
def arrivalIndex : BarrierId → Nat
  | .gang _ _ i => i
  | .block _ i => 4 + i
  | .group _ i => 20 + i
  | .launch _ i => 28 + i

/-- R434: a thread's entry. -/
def arrivalOf (t : Thread) (id : BarrierId) : Arrival := mgetD t.arrivals (arrivalIndex id) {}

/-- A thread's entry written. -/
def setArrival (s : State) (u : Nat) (id : BarrierId) (a : Arrival) : State :=
  modThread s u fun t => { t with arrivals := mset t.arrivals (arrivalIndex id) a }

/-- R443: the barrier a scope and index name for a thread of a block. -/
def barrierId (s : State) (t : Thread) (scope i : Nat) : BarrierId :=
  match scope with
  | 0 => .gang t.block (t.tid / 32) i
  | 1 => .block t.block i
  | 2 => .group ((blockOf s t.block).group.getD 0) i
  | _ => .launch (blockOf s t.block).launch i

/-- R430: whether a thread is one the barrier counts, itself or through its block. -/
def inBarrier (s : State) (id : BarrierId) (t : Thread) : Bool :=
  match id with
  | .gang b g _ => t.block == b && t.tid / 32 == g
  | .block b _ => t.block == b
  | .group g _ => (blockOf s t.block).group == some g
  | .launch l _ => (blockOf s t.block).launch == l

/-- The live threads of a block. -/
def liveCount (s : State) (b : Nat) : Nat :=
  ((threadsOfBlock s b).filter fun p => p.2.ctl.run != .exited).length

/-- R431: a block's arrival count for a cluster-group or launch barrier; a block that has left has none. -/
def blockArrivals (s : State) (b : Nat) : BarrierId → Option Nat
  | .group _ i => mget (syncOf s b).groupArr i
  | .launch _ i => mget (syncOf s b).launchArr i
  | _ => none

/-- R431: that count written. -/
def setBlockArrivals (s : State) (b : Nat) (id : BarrierId) (n : Nat) : State :=
  match id with
  | .group _ i => modSync s b fun k => { k with groupArr := mset k.groupArr i n }
  | .launch _ i => modSync s b fun k => { k with launchArr := mset k.launchArr i n }
  | _ => s

/-- R431: the block has left the barrier. -/
def eraseBlockArrivals (s : State) (b : Nat) (id : BarrierId) : State :=
  match id with
  | .group _ i => modSync s b fun k => { k with groupArr := merase k.groupArr i }
  | .launch _ i => modSync s b fun k => { k with launchArr := merase k.launchArr i }
  | _ => s

/-- R431: whether one of a block's threads has an arrival counted in the current phase. -/
def blockHasArrival (s : State) (b : Nat) (id : BarrierId) : Bool :=
  (threadsOfBlock s b).any fun p => (arrivalOf p.2 id).state == 1

/-! ### Convergence registers (08 R191-R193) -/

/-- R191: a convergence register of a block. -/
def kregOf (s : State) (b k : Nat) : KReg := mgetD (syncOf s b).kregs k {}

/-- R191: a convergence register written. -/
def setKreg (s : State) (b k : Nat) (x : KReg) : State :=
  modSync s b fun y => { y with kregs := mset y.kregs k x }

/-- R193: whether a declared thread without a signature has exited. -/
def unsignedExit (s : State) (b : Nat) (r : KReg) : Bool :=
  (threadsOfBlock s b).any fun p =>
    p.2.ctl.run == .exited && r.declared.getLsbD p.2.tid && !r.signed.getLsbD p.2.tid

/-- R192, R193: the block-level check of one register. -/
def checkKreg (s : State) (b k : Nat) : State :=
  let r := kregOf s b k
  if !unsignedExit s b r then s
  else
    match r.state, r.command with
    | .declared, _ => setKreg s b k { r with state := .withdrawn }
    | .bound, some t => setKreg (dropBound s b t .withdrawn) b k {}
    | _, _ => s

/-- R193: the block-level check. -/
def blockCheck (s : State) (b : Nat) : State :=
  let s1 := (List.range 16).foldl (fun acc k => checkKreg acc b k) s
  modSync s1 b fun y => { y with lastCheck := s.dtime }

/-! ### Checkpoints (20 R479) -/

/-- R479: the image of a shadowed block: its threads, scratchpad rows, gang and block barriers and
convergence registers. -/
def imageOf (s : State) (b : Nat) : Image :=
  { threads := threadsOfBlock s b, rows := (blockOf s b).scratch, gangBars := (blockOf s b).gangBars,
    blockBars := (blockOf s b).blockBars }

/-- R479: a checkpoint taken; the used bit is cleared. -/
def takeCheckpoint (s : State) (b : Nat) : State :=
  let img := imageOf s b
  modSync s b fun y =>
    { y with checkpoint := some img, checkKregs := y.kregs, checkBound := y.bound, checkPosts := y.posts, rollbackUsed := false
             imgRegs := [], imgRows := [] }

/-- R479: whether every live thread of the block waits on this block barrier, so that its completion is a
checkpoint. `self` names the threads of the `BARS` position whose arrivals complete the phase. -/
def checkpointHere (s : State) (b i phase : Nat) (self : List Nat) : Bool :=
  (launchOfBlock s b).desc.shadow && (threadsOfBlock s b).all fun p =>
    p.2.ctl.run == .exited || self.contains p.1 ||
      (match p.2.ctl.wait with
       | some w => (match w.kind with
         | .barrier id ph _ => id == .block b i && ph == phase
         | _ => false)
       | none => false)

/-! ### Completion, arrival, withdrawal, exit (R433) -/

/-- R433: the threads blocked on a phase of a barrier. -/
def phaseWaiters (s : State) (id : BarrierId) (phase : Nat) : List (Nat × Wait) :=
  s.work.threads.filterMap fun p =>
    match p.2.ctl.wait with
    | some w => (match w.kind with
      | .barrier j ph _ => if j == id && ph == phase && p.2.ctl.run == .blocked then some (p.1, w) else none
      | _ => none)
    | none => none

/-- R446, R447: the phase field of a wait on a barrier: the arrival's for `BARS`, the present one for
`BARW`. -/
def barrierField (w : Wait) (now : Nat) : Nat :=
  match w.kind with
  | .barrier _ ph true => ph
  | _ => now

/-- R434: a member's arrival in the completed phase becomes state 2. -/
def completeEntry (s : State) (id : BarrierId) (p : Nat × Thread) : Nat × Thread :=
  if inBarrier s id p.2 && (arrivalOf p.2 id).state == 1 then
    (p.1, { p.2 with arrivals := mset p.2.arrivals (arrivalIndex id) { arrivalOf p.2 id with state := 2 } })
  else p

/-- R431: at a completion every block that has not left counts its live threads again. -/
def returnCounts (s : State) (id : BarrierId) (p : Nat × BlockSync) : Nat × BlockSync :=
  match id with
  | .group g i =>
    if (blockOf s p.1).group == some g && (mget p.2.groupArr i).isSome then
      (p.1, { p.2 with groupArr := mset p.2.groupArr i (liveCount s p.1) })
    else p
  | .launch l i =>
    if (blockOf s p.1).launch == l && (mget p.2.launchArr i).isSome then
      (p.1, { p.2 with launchArr := mset p.2.launchArr i (liveCount s p.1) })
    else p
  | _ => p

/-- R433: the phase completes when nothing is pending and an arrival of it is counted: records move to
state 2, block counts return to the live threads, waiters end `DONE`; a block barrier also runs the
block-level check (08 R193) and may be a checkpoint (20 R479). -/
def completeBarrier (s : State) (id : BarrierId) : State :=
  let x := barrierOf s id
  if x.pending ≠ 0 ∨ x.arrivals = 0 then s
  else
    let phase := (x.phase + 1) % 16
    let s1 := setBarrier s id { x with phase := phase, pending := x.members, arrivals := 0 }
    let s2 := modWork s1 fun w => { w with threads := w.threads.map (completeEntry s id) }
    let s3 := modWork s2 fun w => { w with sync := w.sync.map (returnCounts s id) }
    let point := match id with
      | .block b i => checkpointHere s b i x.phase []
      | _ => false
    let s4 := (phaseWaiters s id x.phase).foldl (fun acc p =>
      endWait acc p.1 p.2 .done (statusWord .done (barrierField p.2 phase)) true fun r => r) s3
    match id with
    | .block b _ =>
      let s5 := blockCheck s4 b
      if point then modSync s5 b fun y => { y with checkpointDue := true } else s5
    | _ => s4

/-- R433: an arrival at a barrier's own counters. -/
def arriveCount (s : State) (id : BarrierId) : State :=
  let x := barrierOf s id
  setBarrier s id { x with pending := x.pending - 1, arrivals := x.arrivals + 1 }

/-- R433: a withdrawal. -/
def withdrawCount (s : State) (id : BarrierId) : State :=
  let x := barrierOf s id
  setBarrier s id { x with pending := x.pending + 1, arrivals := x.arrivals - 1 }

/-- R433: the exit of a member, which had arrived in the current phase or not. -/
def exitCount (s : State) (id : BarrierId) (arrived : Bool) : State :=
  let x := barrierOf s id
  setBarrier s id { x with members := x.members - 1, pending := if arrived then x.pending else x.pending - 1 }

/-- R430: whether the barrier counts threads itself. -/
def countsThreads : BarrierId → Bool
  | .gang .. => true
  | .block .. => true
  | _ => false

/-- R433, R445: a thread arrives: its entry becomes 1 in the present phase; at a barrier of blocks its
block's count falls and the block arrives at 0 (R431). Then the phase may complete. -/
def arrive (s : State) (u : Nat) (t : Thread) (id : BarrierId) : State :=
  let s1 := setArrival s u id { state := 1, phase := (barrierOf s id).phase }
  if countsThreads id then completeBarrier (arriveCount s1 id) id
  else
    let n := (blockArrivals s t.block id).getD 0 - 1
    let s2 := setBlockArrivals s1 t.block id n
    if n = 0 then completeBarrier (arriveCount s2 id) id else s2

/-- R433, R440: a thread's arrival is withdrawn; at a barrier of blocks the block's own arrival with it, if
it had been counted (R431). -/
def withdraw (s : State) (u : Nat) (t : Thread) (id : BarrierId) : State :=
  let s1 := setArrival s u id {}
  if countsThreads id then withdrawCount s1 id
  else
    let n := (blockArrivals s t.block id).getD 0
    let s2 := setBlockArrivals s1 t.block id (n + 1)
    if n = 0 then withdrawCount s2 id else s2

/-- R431, R433: the exit of a thread at one barrier. -/
def exitBarrier (s : State) (t : Thread) (id : BarrierId) : State :=
  let arrived := (arrivalOf t id).state == 1
  if countsThreads id then completeBarrier (exitCount s id arrived) id
  else
    match blockArrivals s t.block id with
    | none => s
    | some k =>
      if arrived then s
      else if k ≠ 1 then setBlockArrivals s t.block id (k - 1)
      else if blockHasArrival s t.block id then
        completeBarrier (arriveCount (setBlockArrivals s t.block id 0) id) id
      else completeBarrier (exitCount (eraseBlockArrivals s t.block id) id false) id

/-- The barriers a block's threads can name, as its launch declares them (04 R92, R428). -/
def declaredBarriers (s : State) (b gang : Nat) : List BarrierId :=
  let d := (launchOfBlock s b).desc
  (List.range d.gangBars).map (BarrierId.gang b gang) ++ (List.range d.blockBars).map (BarrierId.block b)
  ++ (match (blockOf s b).group with
      | some g => if d.group then (List.range d.groupBars).map (BarrierId.group g) else []
      | none => [])
  ++ (List.range d.launchBars).map (BarrierId.launch (blockOf s b).launch)

/-- R431, R433: the end of a block at the barriers of blocks it has not left. A count of 0 is a counted arrival
only while an arrival of the phase stands; after a completion with no live thread it is none. -/
def blockLeaves (s : State) (b : Nat) : State :=
  ((declaredBarriers s b 0).filter fun id => !countsThreads id).foldl (fun acc id =>
    match blockArrivals acc b id with
    | none => acc
    | some k =>
      completeBarrier (exitCount (eraseBlockArrivals acc b id) id (k == 0 && blockHasArrival acc b id)) id) s

/-! ### Exit of a thread -/

/-- 19 R454: an exiting thread's unreported sticky bits join its block's check summary. -/
def exitSummary (s : State) (t : Thread) : State :=
  let bits := t.regs.chk.setWidth 2 &&& ~~~t.chkReported
  if bits = 0 then s
  else modSync s t.block fun k => { k with chkBits := k.chkBits ||| bits, chkCount := k.chkCount + 1 }

/-- 20 R468: a thread leaves the list of a call slot, which is free when the list is empty. -/
def collectCall (s : State) (b slot u : Nat) : State :=
  modSync s b fun k =>
    match mget k.calls slot with
    | none => k
    | some c =>
      if c.waiting.filter (· != u) = [] then { k with calls := merase k.calls slot }
      else { k with calls := mset k.calls slot { c with waiting := c.waiting.filter (· != u) } }

/-- 15 R375: the ray of a hit-shader thread completes at its exit with a status. -/
def hitExit (s : State) (t : Thread) (st : Status) (code : FaultCode) : State :=
  match t.hitRay with
  | none => s
  | some id => completeRay s (blockOf s t.block).launch id
      (clusterLocation (clusterOfCore ((blockOf s t.block).core.getD 0))) st code false

/-- 08 R181, 18 R433, 19 R454, 20 R468, 15 R375: a thread ends; `st` and `code` are what its ray, if it has
one, completes with. -/
def exitThreadWith (s : State) (u : Nat) (st : Status) (code : FaultCode) : State :=
  match threadOf s u with
  | none => s
  | some t =>
    if t.ctl.run = .exited then s
    else
      let s1 := exitSummary s t
      let s2 := modThread s1 u fun x =>
        { x with ctl := { x.ctl with run := .exited, wait := none, loop := none, npc := none, leaving := false }
                 hitRay := none }
      let s3 := (declaredBarriers s t.block (t.tid / 32)).foldl (fun acc id => exitBarrier acc t id) s2
      let s4 := (List.range 4).foldl (fun acc k => collectCall acc t.block k u) s3
      hitExit s4 t st code

/-- 08 R181: `EXIT`. -/
def exitThreadNow (s : State) (u : Nat) : State := exitThreadWith s u .done .none

/-- 20 R479: a checkpoint due at a block barrier is taken once every thread that its completion released
stands past its wait. -/
def settleCheckpoint (s : State) (b : Nat) : State :=
  if (syncOf s b).checkpointDue then
    takeCheckpoint (modSync s b fun y => { y with checkpointDue := false }) b
  else s

end Sys2Proof.Machine
end

