-- ==== Sys2Proof/Machine/Lines.lean ====
section
/-!
DEFINITION. Lines: where they are homed, tokens and leases (11 R253-R256), the directory (11 R266-R269),
L1 copies (09 R202, R203) and the dirty and referenced marks of frames (17 R408).
-/

namespace Sys2Proof.Machine

/-! ### Row maps and capacity (09 R213-R215) -/

/-- 09 R214: whether entry j of a row-map word is used at point `vs`. -/
def rowEntryLost (w : BitVec 64) (vs j : Nat) : Bool :=
  let pt := w.toNat / 2 ^ (8 * j + 6) % 4
  decide (pt ≠ 0 ∧ pt ≤ vs - 2)

/-- 09 R214: the usable rows of a bank of a core at a point. -/
def usableRows (s : State) (core bank vs : Nat) : Nat :=
  if vs ≤ 2 then 64
  else
    let w := mgetD (dieOf s (dieOfCore core)).rowMap (32 * coreIndex core + bank) 0
    64 - ((List.range 8).filter (rowEntryLost w vs)).length

/-- 09 R198: the role of a bank: 0 L1, 1 scratchpad, 2 TOB. -/
def bankRole (c : Core) (bank : Nat) : Nat := c.roles.toNat / 4 ^ bank % 4

/-- The banks of a core in a role. -/
def roleBanks (c : Core) (role : Nat) : List Nat := (List.range 32).filter fun b => bankRole c b == role

/-- The usable rows of the banks of a core in a role. -/
def roleRows (s : State) (core role vs : Nat) : Nat :=
  (roleBanks (coreOf s core) role).foldl (fun n b => n + usableRows s core b vs) 0

/-- 09 R214: `%scap` of a core at a point. -/
def scapOf (s : State) (core vs : Nat) : Nat :=
  (List.range 32).foldl (fun n b => n + usableRows s core b vs) 0

/-! ### Tokens (R253, R255) -/

/-- R253: the tokens a die home has left for a line. -/
def tokenCount (s : State) (line die : Nat) : Nat := 256 - (liveTokens s (lineOf s line) die).length

/-- R255: the completion time of a write that the home die of a line applies for a core of a die. -/
def homeCompletion (s : State) (die line : Nat) : Nat := completionTime s (homeDie line) line + skew (homeDie line) die

/-! ### L1 copies (R254, 09 R202, R203) -/

/-- 09 R203: the core whose L1 holds a line: its own, or the line's core of a fused cluster. -/
def l1Core (s : State) (core line : Nat) : Nat :=
  if (clusterOf s (clusterOfCore core)).fused then 4 * clusterOfCore core + line % 4 else core

/-- The L1 copy of a line in a core's L1, if it holds one. -/
def l1Copy (s : State) (core line : Nat) : Option L1Copy :=
  (coreOf s core).l1.find? fun c => c.line == line

/-- R254: a copy that a plain load of threads with these read floors hits. -/
def l1Hit (s : State) (core line : Nat) (floors : List Nat) : Option L1Copy :=
  match l1Copy s (l1Core s core line) line with
  | none => none
  | some c => if s.dtime < c.expiry && floors.all (· ≤ c.fetch) then some c else none

/-- R251: a core's L1 copy of a line dropped. Its token stays out until its expiry (R253). -/
def dropCopy (s : State) (core line : Nat) : State :=
  if (l1Copy s core line).isNone then s
  else modCore s core fun c => { c with l1 := c.l1.filter fun x => x.line != line }

/-- R251 at `.cls`: every copy of a line in a cluster dropped. -/
def dropClusterCopies (s : State) (cluster line : Nat) : State :=
  [0, 1, 2, 3].foldl (fun acc i => dropCopy acc (4 * cluster + i) line) s

/-- R256: the lease of a context, in ns. -/
def leaseNs (s : State) (ctx : Nat) : Nat := 64 * max 1 (min 250 (ctxOf s ctx).f.lease)

/-- 10 R229: which sectors of a line are poisoned, as a mask. -/
def linePoison (s : State) (line : Nat) : Nat :=
  (List.range 4).foldl (fun m k => m + if isPoisoned s .device (4 * line + k) then 2 ^ k else 0) 0

/-- 09 R197: the lines a core's L1 can hold. -/
def l1Capacity (s : State) (core : Nat) : Nat := roleRows s core 0 s.power.vs

/-- 09 R202: what an L1 of n lines keeps after a fill of a G or K line: lines of L space give way first, then the oldest copies
(log 68). -/
def keepCopies (n : Nat) (c : Core) : Core :=
  let l1 := c.l1.take n
  { c with l1 := l1, lLines := c.lLines.take (n - l1.length) }

/-- 09 R202: what an L1 of n lines keeps after a fill of an L line: G and K copies give way first (log 68). -/
def keepPrivate (n : Nat) (c : Core) : Core :=
  let ls := c.lLines.take n
  { c with lLines := ls, l1 := c.l1.take (n - ls.length) }

/-- 09 R202: what a core's L1 holds changes; the dirty L lines that leave it are written back to the L2. -/
def changeL1 (s : State) (g : Nat) (f : Core → Core) : State :=
  let s1 := modCore s g f
  ((coreOf s g).lLines.filter fun x => x.2 && !((coreOf s1 g).lLines.any fun y => y.1 == x.1)).foldl (fun acc x =>
    l2Fill acc (dieOfCore g) x.1 true) s1

/-- 09 R202: an access of L space brings its line into the L1 of its core, through the L2 where the L1 misses it; a store makes
it dirty. -/
def privateLine (s : State) (core line : Nat) (dirty : Bool) : State :=
  let g := l1Core s core line
  let s0 := if (coreOf s g).lLines.any fun x => x.1 == line then s
    else countEvent (l2Fill s (dieOfCore core) line false) core 4 1
  changeL1 s0 g fun c =>
    let was := c.lLines.any fun x => x.1 == line && x.2
    keepPrivate (l1Capacity s g) { c with lLines := (line, dirty || was) :: c.lLines.filter (fun x => x.1 != line) }

/-- 09 R202, 11 R272: an L1 that holds nothing. -/
def clearL1 (c : Core) : Core := { c with l1 := [], lLines := [] }

/-- 09 R202, R203, 11 R272: an L1 written back and invalidated. -/
def flushL1 (s : State) (g : Nat) : State := changeL1 s g clearL1

/-- R253: the fill of a line into a core's L1 from its die home: a token and a lease are taken; the new copy
replaces the old, and the oldest line leaves where the L1 is full. The fill counts as a miss (19 R456 code 4). -/
def fillCopy (s : State) (core ctx line : Nat) : State :=
  let die := dieOfCore core
  let expiry := s.dtime + leaseNs s ctx
  let s1 := modLine (l2Fill s die line false) line fun d =>
    let d1 := readStates d line die
    { d1 with tokens := mset d1.tokens die (expiry :: liveTokens s d die)
              holderVersion := mset d1.holderVersion die (BitVec.ofNat 16 (lineVersion d)) }
  let s2 := modFrame (countEvent s1 core 4 1) (frameOfLine line) fun f =>
    { f with lastLease := max f.lastLease (expiry + skew die (homeDie line)) }
  let copy : L1Copy := { line := line, data := cellsFrom s.mem.device (128 * line) 128, fetch := s.dtime,
                         expiry := expiry, version := BitVec.ofNat 16 (lineVersion (lineOf s line)),
                         poison := linePoison s line }
  let g := l1Core s core line
  changeL1 s2 g fun c =>
    keepCopies (l1Capacity s g) { c with l1 := copy :: c.l1.filter (fun x => x.line != line) }

/-- R253: whether a fill can be served now: the line is not transient, a token is left (log 70) and the snoop filter has an
entry for it (R268). -/
def fillReady (s : State) (core line : Nat) : Bool :=
  !transientAt s (dieOfCore core) line && decide (0 < tokenCount s line (dieOfCore core))
    && !filterBlocks s (dieOfCore core) line

/-! ### Writes applied at a die home (R251, R255) -/

/-- The physical lines a write touches. -/
def writeLines (ws : List (Nat × Byte)) : List Nat := (ws.map fun w => w.1 / 128).dedup

/-- A write applied by an agent of a die, a transaction for each sector: the die takes ownership (R267), the bytes
change, versions rise (R269) and dirty bits are set. -/
def applyWrite (s : State) (die : Nat) (ws : List (Nat × Byte)) : State :=
  let s1 := (writeLines ws).foldl (fun acc l =>
    l2Fill (modLine acc l fun d => bumpVersion die (sectorsIn ws l) (ownStates d l die)) die l true) s
  markDirty (writeBytes s1 .device ws) ws

/-- R267, R243: an atomic's new bytes applied at the home slice. -/
def applyAtomic (s : State) (line : Nat) (ws : List (Nat × Byte)) : State :=
  let s1 := modLine s line fun d => bumpVersion (homeDie line) 1 (atomicStates d)
  markDirty (writeBytes (l2Fill s1 (homeDie line) line true) .device ws) ws

/-- R255: the latest completion time of the lines of a write by a die. -/
def writeCompletion (s : State) (die : Nat) (ws : List (Nat × Byte)) : Nat :=
  (writeLines ws).foldl (fun m l => max m (completionTime s die l)) s.dtime

/-- R250, R251: an engine's write is one of its core: the L1 copies of its lines in the core's cluster are invalidated. -/
def dropWritten (s : State) (core : Nat) (ws : List (Nat × Byte)) : State :=
  (writeLines ws).foldl (fun acc l => dropClusterCopies acc (clusterOfCore core) l) s



/-- The device lines that some bytes lie on. -/
def deviceLines (spots : List (Mem × Nat)) : List Nat :=
  ((spots.filter fun x => x.1 == .device).map fun x => x.2 / 128).dedup

/-- R255: a completion time raises a thread's `%wh`. -/
def raiseWh (s : State) (u t : Nat) : State :=
  modThread s u fun x => x.modRegs fun r => { r with wh := max r.wh t }

/-- R257: the read floor of a thread rises to a device time. -/
def raiseFloorTo (s : State) (u t : Nat) : State :=
  modThread s u fun x => x.modRegs fun r => { r with floor := max r.floor t }

/-- R257: the read floor of a thread rises to now. -/
def raiseFloor (s : State) (u : Nat) : State := raiseFloorTo s u s.dtime

end Sys2Proof.Machine
end

