-- ==== Sys2Proof/Machine/Float.lean ====
section
/-!
DEFINITION. The number formats and every rounding (06 R121-R141): values are exact dyadic numbers
until one rounding at the end. No exception flags exist (06 R124) and no subnormal is flushed (06 R125).
-/

namespace Sys2Proof.Machine

/-- The binary floating formats (06 R122). -/
inductive Fmt where
  | f32 | h16 | bf16 | e4m3 | e5m2 | e2m1
  deriving DecidableEq, Repr

/-- 06 R122: mantissa bits. -/
def Fmt.mant : Fmt → Nat
  | .f32 => 23
  | .h16 => 10
  | .bf16 => 7
  | .e4m3 => 3
  | .e5m2 => 2
  | .e2m1 => 1

/-- 06 R122: the bias. -/
def Fmt.bias : Fmt → Nat
  | .f32 => 127
  | .h16 => 15
  | .bf16 => 127
  | .e4m3 => 7
  | .e5m2 => 15
  | .e2m1 => 1

/-- 06 R122: the number of bits of a code. -/
def Fmt.width : Fmt → Nat
  | .f32 => 32
  | .h16 => 16
  | .bf16 => 16
  | .e4m3 => 8
  | .e5m2 => 8
  | .e2m1 => 4

/-- 06 R122: the code of the largest finite value. -/
def Fmt.maxCode : Fmt → Nat
  | .f32 => 0x7F7FFFFF
  | .h16 => 0x7BFF
  | .bf16 => 0x7F7F
  | .e4m3 => 0x7E
  | .e5m2 => 0x7B
  | .e2m1 => 0x7

/-- 06 R123: the code of +infinity, or what stands in its place (06 R134: E4M3 0x7F, E2M1 its
largest). -/
def Fmt.infCode : Fmt → Nat
  | .f32 => 0x7F800000
  | .h16 => 0x7C00
  | .bf16 => 0x7F80
  | .e4m3 => 0x7F
  | .e5m2 => 0x7C
  | .e2m1 => 0x7

/-- 06 R123, R134: the canonical NaN; E2M1 has none and takes +0. -/
def Fmt.nanCode : Fmt → Nat
  | .f32 => 0x7FC00000
  | .h16 => 0x7E00
  | .bf16 => 0x7FC0
  | .e4m3 => 0x7F
  | .e5m2 => 0x7E
  | .e2m1 => 0

/-- A value read from a code: NaN, an infinity, or ±m × 2^e. A zero keeps its sign. -/
inductive FVal where
  | nan
  | inf (neg : Bool)
  | num (neg : Bool) (m : Nat) (e : Int)
  deriving DecidableEq, Repr

/-- The sign-magnitude code of a format: `c` holds the bits below the sign. -/
def Fmt.withSign (f : Fmt) (neg : Bool) (c : Nat) : Nat := if neg then c + 2 ^ (f.width - 1) else c

/-- 06 R123: whether the code below the sign is a NaN. -/
def Fmt.isNanCode (f : Fmt) (c : Nat) : Bool :=
  match f with
  | .e4m3 => c == 0x7F
  | .e2m1 => false
  | _ => f.infCode < c

/-- 06 R123: whether the code below the sign is an infinity. -/
def Fmt.isInfCode (f : Fmt) (c : Nat) : Bool :=
  match f with
  | .e4m3 | .e2m1 => false
  | _ => c == f.infCode

/-- 06 R122, R123: the value of a code. -/
def readFmt (f : Fmt) (code : Nat) : FVal :=
  let neg := decide (2 ^ (f.width - 1) ≤ code % 2 ^ f.width)
  let c := code % 2 ^ (f.width - 1)
  if f.isNanCode c then .nan
  else if f.isInfCode c then .inf neg
  else
    let e := c / 2 ^ f.mant
    let m := c % 2 ^ f.mant
    if e = 0 then .num neg m (1 - (f.bias : Int) - f.mant)
    else .num neg (m + 2 ^ f.mant) ((e : Int) - f.bias - f.mant)

/-- 06 R132: whether a truncated magnitude n with remainder rem of 2^k rounds up, for a result of
the given sign. -/
def roundsUp (r : Rnd) (neg : Bool) (n rem half : Nat) : Bool :=
  match r with
  | .rn => half < rem || (rem == half && n % 2 == 1)
  | .rna => half ≤ rem
  | .rz => false
  | .ru => !neg && rem != 0
  | .rd => neg && rem != 0

/-- 06 R132: a magnitude m × 2^e on the grid of spacing 2^q. -/
def roundMag (r : Rnd) (neg : Bool) (m : Nat) (e q : Int) : Nat :=
  if q ≤ e then m * 2 ^ (e - q).toNat
  else
    let k := (q - e).toNat
    let n := m / 2 ^ k
    let rem := m % 2 ^ k
    if roundsUp r neg n rem (2 ^ (k - 1)) then n + 1 else n

/-- 06 R134: what stands for an infinite result: E4M3 writes 0x7F in place of either infinity. -/
def Fmt.infResult (f : Fmt) (neg : Bool) : Nat := if f = .e4m3 then f.nanCode else f.withSign neg f.infCode

/-- 06 R134: the code of an overflowed result. -/
def overflowCode (f : Fmt) (r : Rnd) (sat neg : Bool) : Nat :=
  if f = .e2m1 || sat then f.withSign neg f.maxCode
  else
    match r with
    | .rn | .rna => f.infResult neg
    | .rz => f.withSign neg f.maxCode
    | .ru => if neg then f.withSign neg f.maxCode else f.infResult neg
    | .rd => if neg then f.infResult neg else f.withSign neg f.maxCode

/-- 06 R132, R134: an exact nonzero value ±m × 2^e rounded once into a format. The grid spacing is
that of the value's binade, and the subnormal spacing below the smallest normal. -/
def roundNum (f : Fmt) (r : Rnd) (sat neg : Bool) (m : Nat) (e : Int) : Nat :=
  if m = 0 then f.withSign neg 0
  else
    let emin : Int := 1 - (f.bias : Int)
    let q : Int := max ((Nat.log2 m : Int) + e) emin - f.mant
    let n := roundMag r neg m e q
    let code : Int := (q + f.mant - emin) * (2 : Int) ^ f.mant + n
    if (f.maxCode : Int) < code then overflowCode f r sat neg else f.withSign neg code.toNat

/-- 06 R134: a value rounded into a format: NaN canonical, infinities kept or saturated. -/
def roundVal (f : Fmt) (r : Rnd) (sat : Bool) (v : FVal) : Nat :=
  match v with
  | .nan => f.nanCode
  | .inf neg =>
    if sat || f = .e2m1 then f.withSign neg f.maxCode else f.infResult neg
  | .num neg m e => roundNum f r sat neg m e

/-- Negation of a value. -/
def FVal.negV : FVal → FVal
  | .nan => .nan
  | .inf s => .inf (!s)
  | .num s m e => .num (!s) m e

/-- The signed mantissa of a number. -/
def signedMant (neg : Bool) (m : Nat) : Int := if neg then -(m : Int) else m

/-- An exact sum, with the sign of an exact zero under 06 R132. -/
def addNum (r : Rnd) (s1 : Bool) (m1 : Nat) (e1 : Int) (s2 : Bool) (m2 : Nat) (e2 : Int) : FVal :=
  if m1 = 0 && m2 = 0 then .num (if s1 == s2 then s1 else r == .rd) 0 0
  else
    let e := min e1 e2
    let x := signedMant s1 m1 * (2 : Int) ^ (e1 - e).toNat + signedMant s2 m2 * (2 : Int) ^ (e2 - e).toNat
    if x = 0 then .num (r == .rd) 0 0 else .num (x < 0) x.natAbs e

/-- 07 R149: the exact sum of two values. -/
def addVal (r : Rnd) : FVal → FVal → FVal
  | .nan, _ => .nan
  | _, .nan => .nan
  | .inf a, .inf b => if a == b then .inf a else .nan
  | .inf a, .num _ _ _ => .inf a
  | .num _ _ _, .inf b => .inf b
  | .num s1 m1 e1, .num s2 m2 e2 => addNum r s1 m1 e1 s2 m2 e2

/-- 07 R149: the exact product of two values; ∞ × 0 is NaN. -/
def mulVal : FVal → FVal → FVal
  | .nan, _ => .nan
  | _, .nan => .nan
  | .inf a, .inf b => .inf (a != b)
  | .inf a, .num b m _ => if m = 0 then .nan else .inf (a != b)
  | .num a m _, .inf b => if m = 0 then .nan else .inf (a != b)
  | .num s1 m1 e1, .num s2 m2 e2 => .num (s1 != s2) (m1 * m2) (e1 + e2)

/-- 07 R149: a sum rounded into a format. -/
def faddFmt (f : Fmt) (r : Rnd) (sat : Bool) (a b : Nat) : Nat :=
  roundVal f r sat (addVal r (readFmt f a) (readFmt f b))

/-- 07 R149: a difference rounded into a format. -/
def fsubFmt (f : Fmt) (r : Rnd) (sat : Bool) (a b : Nat) : Nat :=
  roundVal f r sat (addVal r (readFmt f a) (readFmt f b).negV)

/-- 07 R149: a product rounded into a format. -/
def fmulFmt (f : Fmt) (r : Rnd) (sat : Bool) (a b : Nat) : Nat :=
  roundVal f r sat (mulVal (readFmt f a) (readFmt f b))

/-- 07 R149: the exact A × B + C rounded once. -/
def ffmaFmt (f : Fmt) (r : Rnd) (sat : Bool) (a b c : Nat) : Nat :=
  roundVal f r sat (addVal r (mulVal (readFmt f a) (readFmt f b)) (readFmt f c))

/-- Exact order of two numbers. -/
def numLt (s1 : Bool) (m1 : Nat) (e1 : Int) (s2 : Bool) (m2 : Nat) (e2 : Int) : Bool :=
  let e := min e1 e2
  signedMant s1 m1 * (2 : Int) ^ (e1 - e).toNat < signedMant s2 m2 * (2 : Int) ^ (e2 - e).toNat

/-- 07 R151: strict order; false with a NaN. Zeros compare equal. -/
def ltVal : FVal → FVal → Bool
  | .nan, _ => false
  | _, .nan => false
  | .inf a, .inf b => a && !b
  | .inf a, .num _ _ _ => a
  | .num _ _ _, .inf b => !b
  | .num s1 m1 e1, .num s2 m2 e2 => numLt s1 m1 e1 s2 m2 e2

/-- Whether a value is NaN. -/
def FVal.isNan : FVal → Bool
  | .nan => true
  | _ => false

/-- Equality of values; false with a NaN. -/
def eqVal (a b : FVal) : Bool := !a.isNan && !b.isNan && !ltVal a b && !ltVal b a

/-- The sign bit of a code. -/
def Fmt.signOf (f : Fmt) (code : Nat) : Bool := code.testBit (f.width - 1)

/-- 07 R150: the smaller operand, unchanged; −0 is below +0. -/
def fminFmt (f : Fmt) (a b : Nat) : Nat :=
  let x := readFmt f a
  let y := readFmt f b
  if x.isNan && y.isNan then f.nanCode
  else if x.isNan then b
  else if y.isNan then a
  else if ltVal x y || (eqVal x y && f.signOf a) then a else b

/-- 07 R150: the larger operand, unchanged. -/
def fmaxFmt (f : Fmt) (a b : Nat) : Nat :=
  let x := readFmt f a
  let y := readFmt f b
  if x.isNan && y.isNan then f.nanCode
  else if x.isNan then b
  else if y.isNan then a
  else if ltVal y x || (eqVal x y && !f.signOf a) then a else b

/-- 07 R151: the eight conditions, by code. -/
def fcompare (cond : Nat) (a b : FVal) : Bool :=
  match cond with
  | 0 => eqVal a b
  | 1 => !eqVal a b
  | 2 => ltVal a b
  | 3 => ltVal a b || eqVal a b
  | 4 => ltVal b a
  | 5 => ltVal b a || eqVal a b
  | 6 => !a.isNan && !b.isNan
  | _ => a.isNan || b.isNan

/-- 06 R132 on the integers: a number rounded to an integer. -/
def roundInt (r : Rnd) (neg : Bool) (m : Nat) (e : Int) : Int := signedMant neg (roundMag r neg m e 0)

/-- 07 R152: an F32 value rounded to an integral value, sign kept. -/
def roundIntegral (r : Rnd) (code : Nat) : Nat :=
  match readFmt .f32 code with
  | .nan => Fmt.f32.nanCode
  | .inf neg => Fmt.f32.withSign neg Fmt.f32.infCode
  | .num neg m e => roundNum .f32 .rn false neg (roundMag r neg m e 0) 0

/-- 07 R153: the class word of a code. -/
def classBit (f : Fmt) (code : Nat) : Nat :=
  let neg := f.signOf code
  let c := code % 2 ^ (f.width - 1)
  if f.isNanCode c then (if c.testBit (f.mant - 1) then 9 else 8)
  else if f.isInfCode c then (if neg then 0 else 7)
  else if c = 0 then (if neg then 3 else 4)
  else if c / 2 ^ f.mant = 0 then (if neg then 2 else 5)
  else (if neg then 1 else 6)

/-- 06 R134, 07 R157: a value into an integer range. -/
def valToInt (r : Rnd) (lo hi : Int) (v : FVal) : Int :=
  match v with
  | .nan => 0
  | .inf neg => if neg then lo else hi
  | .num neg m e => max lo (min hi (roundInt r neg m e))

/-- 07 R158: an exact integer as a value; zero is +0. -/
def intToVal (x : Int) : FVal := .num (x < 0) x.natAbs 0

/-! ### L6 (06 R128-R130, R135) -/

/-- 06 R129: T[f]. -/
def l6T (f : Nat) : Nat :=
  match f with
  | 0 => 0x800000
  | 1 => 0x9837F0
  | 2 => 0xB504F3
  | _ => 0xD744FD

/-- 06 R129: the magnitude T[q mod 4] × 2^(⌊q/4⌋ − 23). -/
def l6Mag (q : Int) : Nat × Int := (l6T (q % 4).toNat, q / 4 - 23)

/-- 06 R128: the log index of a code, none for the two zeros. -/
def l6Index (c : Nat) : Option Int :=
  let i : Int := if 4 ≤ c / 4 % 8 then (c / 4 % 8 : Nat) - 8 else (c / 4 % 8 : Nat)
  let q := 4 * i + (c % 4 : Nat)
  if q = -16 then none else some q

/-- 06 R128: the sign of a code. -/
def l6Neg (c : Nat) : Bool := c.testBit 5

/-- 06 R129: the value of an L6 code. -/
def readL6 (c : Nat) : FVal :=
  match l6Index c with
  | none => .num (l6Neg c) 0 0
  | some q => .num (l6Neg c) (l6Mag q).1 (l6Mag q).2

/-- The L6 code of a sign and a log index −15 to 15, or of a zero. -/
def l6Code (neg : Bool) (q : Option Int) : Nat :=
  (if neg then 0x20 else 0) + (match q with
    | none => 0x10
    | some q => ((q / 4) % 8).toNat * 4 + (q % 4).toNat)

/-- A magnitude scaled to the grid 2^-200 relative to 2^e0, so that the ladder values compare as
naturals: m × 2^(e + 40); every ladder value has e ≥ −27. -/
def l6Scaled (m : Nat) (e : Int) (k : Nat) : Nat := m * 2 ^ (e + k).toNat

/-- 06 R135: the ladder indexes in ascending order: zero, then −15 to 15. -/
def l6Ladder : List (Option Int) :=
  none :: (List.range 31).map (fun i => some ((i : Int) - 15))

/-- 06 R135: the magnitude of a ladder step. -/
def l6StepMag : Option Int → Nat × Int
  | none => (0, 0)
  | some q => l6Mag q

/-- 06 R135: whether a step is the even one in a tie: `F` even, and zero counts as even. -/
def l6Even : Option Int → Bool
  | none => true
  | some q => q % 2 == 0

/-- 06 R135: a nonzero magnitude rounded on the ladder. All magnitudes are brought to the exponent
min(e, −30), so the comparisons are exact. -/
def roundL6Mag (r : Rnd) (neg : Bool) (m : Nat) (e : Int) : Option Int :=
  let e0 := min e (-30)
  let x := m * 2 ^ (e - e0).toNat
  let val := fun s : Option Int => (l6StepMag s).1 * 2 ^ ((l6StepMag s).2 - e0).toNat
  let below := l6Ladder.filter (fun s => val s ≤ x)
  let above := l6Ladder.filter (fun s => x < val s)
  match below.getLast?, above with
  | some a, b :: _ =>
    if val a = x then a
    else
      let up := match r with
        | .rz => false
        | .ru => !neg
        | .rd => neg
        | .rn => val a + val b < 2 * x || (val a + val b == 2 * x && l6Even b && !l6Even a)
        | .rna => val a + val b ≤ 2 * x
      if up then b else a
  | some a, [] => a
  | none, _ => none

/-- 06 R134, R135: a value rounded into L6. -/
def roundL6 (r : Rnd) (v : FVal) : Nat :=
  match v with
  | .nan => 0x10
  | .inf neg => l6Code neg (some 15)
  | .num neg m e => if m = 0 then l6Code neg none else l6Code neg (roundL6Mag r neg m e)

/-! ### S8 scales (06 R127) -/

/-- 06 R127: the scale 2^(e − 127), NaN for 0xFF. -/
def readS8 (e : Nat) : FVal := if e % 256 = 255 then .nan else .num false 1 ((e % 256 : Nat) - 127)

/-- 07 R162: a scale byte for the largest magnitude of a block; `emax` is that of the element format. -/
def buildScale (emax : Int) (code : Nat) : Nat :=
  match readFmt .f32 code with
  | .num _ m e =>
    if m = 0 then 127 else (max 0 (min 254 ((Nat.log2 m : Int) + e - emax + 127))).toNat
  | _ => 0xFF

/-- 07 R162: the largest exponent of an element format, by its code. -/
def scaleEmax (fmt : Nat) : Int :=
  match fmt with
  | 0 => 8
  | 1 => 15
  | 2 => 2
  | _ => 3

/-! ### The sum inside a matrix pass and the accumulator pair (06 R136-R141) -/

/-- What the special operands of a pass override the sum with (06 R138), over its products. -/
def passSpecial (ps : List FVal) : Option FVal :=
  if ps.any FVal.isNan then some .nan
  else
    let pos := ps.any (fun p => p == .inf false)
    let neg := ps.any (fun p => p == .inf true)
    if pos && neg then some .nan else if pos then some (.inf false) else if neg then some (.inf true) else none

/-- 06 R136: the exact sum of finite products as a multiple of 2^-40, which every product is. -/
def exactSum40 (ps : List FVal) : Int :=
  ps.foldl (fun acc p => match p with
    | .num s m e => acc + signedMant s m * (2 : Int) ^ (e + 40).toNat / (2 : Int) ^ (-(e + 40)).toNat
    | _ => acc) 0

/-- 06 R136, R138: the pass result of the exact formats. -/
def passExact (ps : List FVal) : Nat :=
  match passSpecial ps with
  | some v => roundVal .f32 .rn false v
  | none =>
    let s := exactSum40 ps
    if s = 0 then 0 else roundNum .f32 .rn false (s < 0) s.natAbs (-40)

/-- The exponent of the leading bit of a nonzero number. -/
def topExp : FVal → Option Int
  | .num _ m e => if m = 0 then none else some ((Nat.log2 m : Int) + e)
  | _ => none

/-- 06 R137: the largest leading exponent of the products. -/
def maxTop (ps : List FVal) : Option Int :=
  ps.foldl (fun acc p => match acc, topExp p with
    | none, t => t
    | a, none => a
    | some a, some t => some (max a t)) none

/-- 06 R137: a BF16 product truncated toward zero to a multiple of 2^(E − 56). -/
def truncProduct (top : Int) : FVal → Int
  | .num s m e =>
    let k := e + 56 - top
    signedMant s (if 0 ≤ k then m * 2 ^ k.toNat else m / 2 ^ (-k).toNat)
  | _ => 0

/-- 06 R137, R138: the pass result of BF16. -/
def passBf16 (ps : List FVal) : Nat :=
  match passSpecial ps with
  | some v => roundVal .f32 .rn false v
  | none =>
    match maxTop ps with
    | none => 0
    | some top =>
      let s := (ps.map (truncProduct top)).sum
      if s = 0 then 0 else roundNum .f32 .rn false (s < 0) s.natAbs (top - 56)

/-- 06 R139: a pass result scaled by its row and column scales, rounded once. -/
def scalePass (p sr sc : Nat) : Nat :=
  roundVal .f32 .rn false (mulVal (mulVal (readFmt .f32 p) (readS8 sr)) (readS8 sc))

/-- F32 addition in RN. -/
def addRN (a b : Nat) : Nat := faddFmt .f32 .rn false a b

/-- F32 subtraction in RN. -/
def subRN (a b : Nat) : Nat := fsubFmt .f32 .rn false a b

/-- Whether an F32 code is finite. -/
def isFiniteF32 (a : Nat) : Bool := a % 2 ^ 31 < 0x7F800000

/-- 06 R140: one pass result added into an accumulator pair (hi, lo). -/
def pairAdd (p : Nat × Nat) (x : Nat) : Nat × Nat :=
  let (hi, lo) := p
  let s := addRN hi x
  if isFiniteF32 s then
    let bb := subRN s hi
    let e := addRN (subRN hi (subRN s bb)) (subRN x bb)
    (s, addRN lo e)
  else (s, 0)

/-- 06 R141: a pair read as one F32 word. -/
def pairWord (p : Nat × Nat) : Nat := if isFiniteF32 p.1 then addRN p.1 p.2 else p.1

/-! ### Correctly rounded reciprocal and square root (07 R155) -/

/-- 2^k / d as an odd numerator on a finer grid: the quotient, with a sticky bit below it, rounds as
the exact value does. -/
def stickyDiv (n d : Nat) : Nat := if n % d = 0 then 2 * (n / d) else 2 * (n / d) + 1

/-- 07 R155: 1/A. The quotient of 2^80 by the mantissa has more than 50 significant bits. -/
def frcpV (r : Rnd) (sat : Bool) (a : FVal) : Nat :=
  match a with
  | .nan => Fmt.f32.nanCode
  | .inf neg => Fmt.f32.withSign neg 0
  | .num neg m e =>
    if m = 0 then Fmt.f32.withSign neg (if sat then Fmt.f32.maxCode else Fmt.f32.infCode)
    else roundNum .f32 r sat neg (stickyDiv (2 ^ 80) m) (-81 - e)

/-- 07 R155: √A; the exponent is made even and the mantissa widened to over 100 bits first. -/
def fsqrtV (r : Rnd) (a : FVal) : Nat :=
  match a with
  | .nan => Fmt.f32.nanCode
  | .inf neg => if neg then Fmt.f32.nanCode else Fmt.f32.infCode
  | .num neg m e =>
    if m = 0 then Fmt.f32.withSign neg 0
    else if neg then Fmt.f32.nanCode
    else
      let m2 := if e % 2 = 0 then m * 2 ^ 100 else m * 2 ^ 101
      let e2 := (if e % 2 = 0 then e - 100 else e - 101) / 2
      let q := Nat.sqrt m2
      roundNum .f32 r false false (if q * q = m2 then 2 * q else 2 * q + 1) (e2 - 1)

end Sys2Proof.Machine
end

