-- ==== Sys2Proof/Machine/Operands.lean ====
section
/-!
DEFINITION. How a source field supplies its value (03 R57-R59, 05 R102, 07 R146): registers stepped by
an active loop, latches, and the inline constants in each kind of instruction.
-/

namespace Sys2Proof.Machine

/-- 03 R58: the F32 bits of the floating constants 0xF0 to 0xFF. -/
def floatConst (c : Nat) : Word :=
  match c with
  | 0xF0 => 0x3F000000
  | 0xF1 => 0x3E800000
  | 0xF2 => 0x3E000000
  | 0xF3 => 0x3D800000
  | 0xF4 => 0xBF000000
  | 0xF5 => 0x42800000
  | 0xF6 => 0x43000000
  | 0xF7 => 0x43800000
  | 0xF8 => 0x7F800000
  | 0xF9 => 0xFF800000
  | 0xFA => 0x7FC00000
  | 0xFB => 0x7F7FFFFF
  | 0xFC => 0x00800000
  | 0xFD => 0x40490FDB
  | 0xFE => 0x3F317218
  | _ => 0x3E22F983

/-- 03 R57: the integer of a constant below 0xF0: 0 to 31 from 0xC0, −1 to −16 from 0xE0. -/
def intConst (c : Nat) : Int := if c < 0xE0 then (c : Int) - 0xC0 else -((c : Int) - 0xDF)

/-- 03 R57, R58, 05 R102: a constant in an integer instruction of width w: sign-extended, or the F32
bits of a floating constant as an unsigned 32-bit value. -/
def constInt (w : Nat) (c : BitVec 6) : BitVec w :=
  let f := 0xC0 + c.toNat
  if f < 0xF0 then BitVec.ofInt w (intConst f) else BitVec.ofNat w (floatConst f).toNat

/-- The smallest normal code of a format. -/
def Fmt.minNormal (f : Fmt) : Nat := 2 ^ f.mant

/-- 03 R58: a floating constant in a format: its own largest, smallest normal and NaN; every other
rounded to nearest. -/
def constFmt (f : Fmt) (c : BitVec 6) : Nat :=
  let k := 0xC0 + c.toNat
  if k < 0xF0 then roundVal f .rn false (intToVal (intConst k))
  else
    match k with
    | 0xFA => f.nanCode
    | 0xFB => f.maxCode
    | 0xFC => f.minNormal
    | _ => roundVal f .rn false (readFmt .f32 (floatConst k).toNat)

/-- A 32-bit source of an integer form (03 R57, 05 R102). -/
def srcWord (t : Thread) (r : Role) : Src → Word
  | .reg n => t.regs.get (stepReg t.ctl r n.toNat)
  | .latch j => (t.regs.getLatch j.toNat).setWidth 32
  | .const c => constInt 32 c

/-- A 64-bit source: a pair, a latch or a constant whole (03 R59, 05 R102). -/
def srcPair (t : Thread) (r : Role) : Src → DWord
  | .reg n => t.regs.pair (stepReg t.ctl r n.toNat)
  | .latch j => t.regs.getLatch j.toNat
  | .const c => constInt 64 c

/-- An F32 source: integer constants are converted (03 R57). -/
def srcF32 (t : Thread) (r : Role) : Src → Word
  | .const c => BitVec.ofNat 32 (constFmt .f32 c)
  | x => srcWord t r x

/-- A packed source of a 16-bit format: a constant stands in both halves (03 R57, R58). -/
def srcPacked (f : Fmt) (t : Thread) (r : Role) : Src → Word
  | .const c => BitVec.ofNat 32 (constFmt f c * 65537)
  | x => srcWord t r x

/-- A predicate source (03 R57); predicate fields never step. -/
def srcPred (t : Thread) : Src → Bool
  | .reg n => t.regs.pred n.toNat
  | _ => true

/-- A source of the Coachman: an m register, a latch or a constant, 64 bits (03 R73, 14 R334). -/
def srcCoach (c : Coach) : Src → DWord
  | .reg n => c.get n.toNat
  | .latch j => mgetD c.latch j.toNat 0
  | .const k => constInt 64 k

/-- Half j of a packed word. -/
def half (x : Word) (j : Nat) : Nat := x.toNat / 65536 ^ j % 65536

/-- Two halves packed. -/
def packHalves (h0 h1 : Nat) : Word := BitVec.ofNat 32 (h0 % 65536 + 65536 * (h1 % 65536))

/-- 07 R146: absolute value, then negation, on the sign bit of an F32 pattern. -/
def modF32 (abs neg : Bool) (x : Word) : Word :=
  let y := if abs then x &&& 0x7FFFFFFF else x
  if neg then y ^^^ 0x80000000 else y

/-- 07 R146: the same on both halves of a packed pattern. -/
def modPacked (abs neg : Bool) (x : Word) : Word :=
  let y := if abs then x &&& 0x7FFF7FFF else x
  if neg then y ^^^ 0x80008000 else y

/-- An F32 operand after its modifiers: `.na` and `.aa` are bits 7 and 10 (07 R146). -/
def operandA (f : FormA) (t : Thread) : Word := modF32 (f.bit 10) (f.bit 7) (srcF32 t .a f.a)

/-- 07 R146: operand B, bits 8 and 11. -/
def operandB (f : FormA) (t : Thread) : Word := modF32 (f.bit 11) (f.bit 8) (srcF32 t .b f.b)

/-- 07 R146: operand C, bits 9 and 12. -/
def operandC (f : FormA) (t : Thread) : Word := modF32 (f.bit 12) (f.bit 9) (srcF32 t .c f.x.srcC)

/-- 07 R146: packed operand A. -/
def packedA (k : Fmt) (f : FormA) (t : Thread) : Word := modPacked (f.bit 10) (f.bit 7) (srcPacked k t .a f.a)

/-- 07 R146: packed operand B. -/
def packedB (k : Fmt) (f : FormA) (t : Thread) : Word := modPacked (f.bit 11) (f.bit 8) (srcPacked k t .b f.b)

/-- 07 R146: packed operand C. -/
def packedC (k : Fmt) (f : FormA) (t : Thread) : Word :=
  modPacked (f.bit 12) (f.bit 9) (srcPacked k t .c f.x.srcC)

end Sys2Proof.Machine
end

