-- ==== Sys2Proof/Machine/Access.lean ====
section
/-!
DEFINITION. Thread accesses to memory: addresses and checks (10 R226, R227), requests in flight (10 R232,
R241) and the ways a request is performed (10 R230-R234, R240, 11 R251-R258).
-/

namespace Sys2Proof.Machine

/-! ### Address formation and checks (10 R226, R227) -/

/-- 03 R67: the bytes of an access size. -/
def sizeBytes : Size → Nat
  | .b1 => 1
  | .b2 => 2
  | .b4 => 4
  | .b8 => 8
  | .b16 => 16

/-- 10 R227: what a lane's address comes to: the check it fails, with its code, address and absent pages, or
the storage and the byte addresses it names. -/
inductive Plan where
  | fails (check : Nat) (code : FaultCode) (addr : Nat) (pages : List (Nat × Nat))
  | names (mem : Mem) (addrs : List Nat)
  deriving DecidableEq, Repr

/-- 17 R409: the access code of a fault entry: 0 read, 1 write, 2 atomic. -/
def accessCode (n : Need) : Nat := if n.write then (if n.read then 2 else 1) else 0

/-- 10 R228: a page entered once; its first access code stands. -/
def addPage (p : Nat × Nat) (ps : List (Nat × Nat)) : List (Nat × Nat) :=
  p :: ps.filter (fun q => q.1 != p.1)

/-- 10 R227: the check a fault code belongs to. -/
def checkOf : FaultCode → Nat
  | .alignment => 1
  | .protection => 2
  | .extentGone => 3
  | _ => 4

/-- A 64-bit pattern of an exact address, for a report. -/
def reportAddr (x : Int) : Nat := (BitVec.ofInt 64 x).toNat

/-- 10 R227: the parts of an access, each a virtual address and a length inside one page, translated in
order: the earliest failing check stands, and every absent page is listed. -/
def planParts (s : State) (core ctx : Nat) (n : Need) (addr : Nat) : List (Nat × Nat) → Plan
  | [] => .names .device []
  | (va, len) :: r =>
    match translate s core ctx va n, planParts s core ctx n addr r with
    | .error .pageAbsent, .fails 4 _ _ ps => .fails 4 .pageAbsent addr (addPage (va / 4096, accessCode n) ps)
    | .error c, .fails k e a ps => if checkOf c ≤ k then .fails (checkOf c) c addr [] else .fails k e a ps
    | .error c, .names _ _ =>
      .fails (checkOf c) c addr (if c = .pageAbsent then [(va / 4096, accessCode n)] else [])
    | .ok _, .fails k e a ps => .fails k e a ps
    | .ok p, .names _ as => .names p.mem.1 ((List.range len).map (p.mem.2 + ·) ++ as)

/-- 09 R208: the bytes of lane-private memory of one thread. A `LPLOG` outside 9 to 20, or `LPFRAMES` outside 1 to 64, acts as
the nearest value of its range (log 66). -/
def lpSize (s : State) (ctx : Nat) : Nat := 2 ^ max 9 (min 20 (ctxOf s ctx).f.lpLog)

/-- 09 R208: the virtual address of byte o of a thread's lane-private memory. -/
def lpAddr (s : State) (ctx core frame tid o : Nat) : Nat :=
  let f := (ctxOf s ctx).f
  let size := lpSize s ctx
  f.lpBase + (core * f.lpFrames + frame) * 1024 * size + tid / 32 * 32 * size
    + 128 * (o / 4) + 4 * (tid % 32) + o % 4

/-- 09 R208: the parts of a lane-private access: 4 bytes each, or the whole of a smaller one. -/
def lpParts (s : State) (ctx core frame tid o size : Nat) : List (Nat × Nat) :=
  if size ≤ 4 then [(lpAddr s ctx core frame tid o, size)]
  else (List.range (size / 4)).map fun k => (lpAddr s ctx core frame tid (o + 4 * k), 4)

/-- 10 R226, R227, 09 R208: an L access. -/
def planL (s : State) (t : Thread) (n : Need) (o : Int) (size : Nat) : Plan :=
  let ctx := ctxOfBlock s t.block
  if o % size ≠ 0 then .fails 1 .alignment (reportAddr o) []
  else if o < 0 ∨ (lpSize s ctx : Int) < o + size then .fails 2 .protection (reportAddr o) []
  else
    planParts s s.cur.core ctx { n with lp := true } (reportAddr o)
      (lpParts s ctx s.cur.core (blockOf s t.block).frame t.tid o.toNat size)

/-- 09 R209: whether every byte of a range of S offsets of a block on a core is valid, in one window. -/
def windowOk (s : State) (block core o size : Nat) : Bool :=
  if o < 0x800000 then decide (o + size ≤ 128 * (launchOfBlock s block).desc.rows)
  else decide (o - 0x800000 + size ≤ 8192 * (roleBanks (coreOf s core) 2).length)

/-- 09 R209: the storage of an S offset of a block on a core, and the offset in it. -/
def windowPlace (block core o : Nat) : Mem × Nat :=
  if o < 0x800000 then (.scratch block, o) else (.tob core, o - 0x800000)

/-- 10 R226, R227, 09 R209: an S access of a block, or of the peer a C access names. -/
def planWindow (s : State) (block core : Nat) (o : Int) (size : Nat) : Plan :=
  if o % size ≠ 0 then .fails 1 .alignment (reportAddr o) []
  else if o < 0 ∨ (2 : Int) ^ 24 ≤ o then .fails 2 .protection (reportAddr o) []
  else
    if windowOk s block core o.toNat size then
      let p := windowPlace block core o.toNat
      .names p.1 ((List.range size).map (p.2 + ·))
    else .fails 2 .protection (reportAddr o) []

/-- 09 R210, 13 R553: the block of group position p in a block's cluster group. -/
def peerBlock (s : State) (block p : Nat) : Option Nat :=
  match (blockOf s block).group with
  | none => none
  | some g => (groupOf s g).blocks.find? fun b => (blockOf s b).gpos == p

/-- 10 R226, R227, 09 R210: a C access. The report of one that fails holds the offset alone, without the peer (DESIGN CHOICE,
log 87: no rule lays a C address out in the report's 64 bits). -/
def planC (s : State) (t : Thread) (a : Word) (off : Int) (size : Nat) : Plan :=
  let p := a.toNat / 2 ^ 24 % 4
  let o : Int := (a.toNat % 2 ^ 24 : Nat) + off
  if o % size ≠ 0 then .fails 1 .alignment (reportAddr o) []
  else if a.toNat / 2 ^ 26 ≠ 0 ∨ !(launchOfBlock s t.block).desc.group then
    .fails 2 .protection (reportAddr o) []
  else
    match peerBlock s t.block p with
    | none => .fails 2 .protection (reportAddr o) []
    | some b => planWindow s b (4 * clusterOfCore s.cur.core + p) o size

/-- 10 R226, R227, 09 R211: a K access. -/
def planK (s : State) (t : Thread) (n : Need) (k : Int) (size : Nat) : Plan :=
  if k % size ≠ 0 then .fails 1 .alignment (reportAddr k) []
  else if k < 0 ∨ (2 : Int) ^ 20 ≤ k then .fails 2 .protection (reportAddr k) []
  else
    match mget (launchOfBlock s t.block).bank (k.toNat / 65536) with
    | none => .fails 2 .protection (reportAddr k) []
    | some (base, bytes) =>
      let o := k.toNat % 65536
      if bytes < o + size then .fails 2 .protection (reportAddr k) []
      else planParts s s.cur.core (ctxOfBlock s t.block) n (reportAddr k) [(base + o, size)]

/-- 10 R226, R227, 09 R212: a G or H access. -/
def planG (s : State) (t : Thread) (n : Need) (va : Int) (size : Nat) : Plan :=
  if va % size ≠ 0 then .fails 1 .alignment (reportAddr va) []
  else if va < 0 ∨ (2 : Int) ^ 56 ≤ va then .fails 2 .protection (reportAddr va) []
  else planParts s s.cur.core (ctxOfBlock s t.block) n (reportAddr va) [(va.toNat, size)]

/-- 10 R226: the plan of a lane in a space, from its address source and offset. -/
def planLane (s : State) (t : Thread) (sp : Space) (n : Need) (a : Src) (off : Int) (size : Nat) : Plan :=
  let word := srcWord t .a a
  match sp with
  | .laneL => planL s t n ((word.toNat : Int) + off) size
  | .scratchS => planWindow s t.block s.cur.core ((word.toNat : Int) + off) size
  | .clusterC => planC s t word off size
  | .constK => planK s t n ((word.toNat : Int) + off) size
  | .globalG => planG s t n (((srcPair t .a a).toNat : Int) + off) size
  | .hostH => planG s t { n with hc := true } (((srcPair t .a a).toNat : Int) + off) size

/-- 10 R227: the failing plan the position reports: the earliest check, then the lowest lane; and the
absent pages of every lane (R228). -/
def worstPlan : List Plan → Option (Nat × FaultCode × Nat × List (Nat × Nat))
  | [] => none
  | .names _ _ :: r => worstPlan r
  | .fails k c a ps :: r =>
    match worstPlan r with
    | none => some (k, c, a, ps)
    | some (k2, c2, a2, ps2) =>
      if k ≤ k2 then some (k, c, a, ps.foldr addPage ps2) else some (k2, c2, a2, ps.foldr addPage ps2)

/-- The exception of a position's plans, if one fails (10 R227, R228). -/
def planFault (s : State) (plans : List Plan) : Option State :=
  match worstPlan plans with
  | none => none
  | some (_, c, a, ps) =>
    some (deliver s { code := c, pos := s.cur.pos, addr := a, pages := ps })

/-! ### Requests (10 R232, R241) -/

/-- 10 R224: the scope an access acts at in its space. -/
def effectiveScope (sp : Space) (x : Scope) : Scope :=
  match sp with
  | .laneL | .constK => .blk
  | .scratchS | .clusterC => if x = .blk then .blk else .cls
  | .globalG => x
  | .hostH => .sys

/-- Whether a scope is `.die` or wider. -/
def atLeastDie : Scope → Bool
  | .blk => false
  | .cls => false
  | _ => true

/-- The sector a lane's part of a request falls in, as a key: its storage and the sector number. -/
def laneSector (r : LaneReq) : Nat := sectorKey r.mem (r.addrs.headD 0 / 32)

/-- 10 R232: a position's lanes grouped by sector, groups in the order of their first lane. -/
def groupBySector : List LaneReq → List (List LaneReq)
  | [] => []
  | r :: rest =>
    let gs := groupBySector rest
    match gs.find? (fun g => (g.head?.map laneSector) == some (laneSector r)) with
    | none => [r] :: gs
    | some g => (r :: g) :: gs.filter (fun h => (h.head?.map laneSector) != some (laneSector r))

/-- The requests of a position, numbered from `id` up. -/
def numberAccesses (proto : Access) : List (List LaneReq) → Nat → List Access
  | [], _ => []
  | g :: r, id =>
    { proto with id := id, lanes := g, line := ((g.head?.bind (·.addrs.head?)).getD 0) / 128 }
      :: numberAccesses proto r (id + 1)

/-- A position's requests enter flight: each participating thread's counter rises (03 R62). A G release at
`.die` or wider has not issued until its wait for `%wh` ends (10 R234). -/
def issueRequests (s : State) (proto : Access) (reqs : List LaneReq) : State :=
  let wait := proto.ordering == .rel && ((proto.space == .globalG && atLeastDie proto.scope) || proto.space == .hostH)
  let new := numberAccesses { proto with issued := !wait, since := s.dtime, site := s.cur.addr } (groupBySector reqs) s.nextAccess
  let s1 := reqs.foldl (fun acc r => modThread acc r.uid fun t => t.modRegs fun x => x.ctrUp proto.ctr) s
  { s1 with pend := s1.pend ++ new, nextAccess := s1.nextAccess + new.length
            cur := { s1.cur with created := s1.cur.created ++ new.map Access.id } }

/-- 10 R245, class 2: the page-cache frames in which a thread's applied write changes bytes join its list, each with the
write-backs it has had. -/
def noteFrames (s : State) (u : Nat) (ws : List (Nat × Byte)) : State :=
  let fs := ((ws.map fun w => w.1 / 4096).dedup).filter fun f => !(frameOf s f).pin
  modThread s u fun t => { t with frames := (t.frames ++ fs.map fun f => (f, (frameOf s f).wrote)).dedup }

/-! ### Order (10 R233, R234) -/

/-- 10 R233: two requests of one thread that touch a common byte of one space. -/
def overlaps (a b : Access) : Bool :=
  a.space == b.space && a.lanes.any fun x => b.lanes.any fun y =>
    x.uid == y.uid && x.mem == y.mem && x.addrs.any fun k => y.addrs.contains k

/-- Whether two requests share a thread. -/
def sharesThread (a b : Access) : Bool := a.lanes.any fun x => b.lanes.any fun y => x.uid == y.uid

/-- 10 R233: the requests that must be performed before one: earlier ones of a thread on common bytes, the
S requests of its core, and a thread's own L accesses (09 R208). -/
def precedes (b a : Access) : Bool :=
  overlaps a b
    || (a.space == .scratchS && b.space == .scratchS && a.core == b.core)
    || (a.space == .laneL && b.space == .laneL && sharesThread a b)

/-- 10 R245: whether what a thread's `FENCE` has put ahead of its request of a number, or of its texture operation, is over:
loads and texture operations have returned, writes are applied and, from die scope on, performed. -/
def aheadOver (s : State) (t : Thread) (n : Nat) : Bool :=
  t.ahead.all (fun i => !(decide (i < n)) || (s.pend.all fun b => b.id != i || b.applied)
      && s.cores.all fun c => c.2.texQ.all fun o => o.after != i)
    && ((t.aheadWh.getD 0) ≤ s.dtime || t.ahead.all fun i => !(decide (i < n)))

/-- 10 R245: `aheadOver` for every thread of a request. -/
def aheadDone (s : State) (a : Access) : Bool :=
  a.lanes.all fun r => ((threadOf s r.uid).map fun t => t.ahead.isEmpty || aheadOver s t a.id).getD true

/-- 21 R486: a port's mode: 0 disabled, 1 upstream, 2 memory. Port 0 of D0 is always upstream. -/
def portModeOf (s : State) (die port : Nat) : Nat :=
  if die = 0 ∧ port = 0 then 1 else mgetD (dieOf s die).portMode port 0

/-- 21 R491, 22 R511: the port by which an H access of a die leaves: an upstream port of the die, else the primary port, else,
where D0 is lost, an upstream port of another die. -/
def hostPort (s : State) (die : Nat) : Option (Nat × Nat) :=
  ([die, 0, 1, 2, 3].flatMap fun d => [0, 1, 2].map fun p => (d, p)).find? fun q =>
    !(dieOf s q.1).lost && portModeOf s q.1 q.2 == 1 && (q.1 == die || q == (0, 0) || (dieOf s 0).lost)

/-- 10 R233: whether a thread has accesses in flight, not yet performed, to bytes that its blocking load names. -/
def ownPending (s : State) (u : Nat) (sp : Space) (q : LaneReq) : Bool :=
  s.pend.any fun a => a.kind != .result && !a.applied && a.space == sp
    && a.lanes.any fun r => r.uid == u && r.mem == q.mem && r.addrs.any fun k => q.addrs.contains k

/-- 16 R396: whether a request comes after its thread's earlier texel reads, which are plain G loads: a write, and a load that an
L1 copy may serve (11 R260). -/
def afterTexels (a : Access) : Bool := a.kind != .load || a.space == .globalG || a.space == .constK

/-- 10 R233: whether every request that precedes one has been applied, and its thread's earlier texel reads are over
(16 R396). -/
def inOrder (s : State) (a : Access) : Bool :=
  (!afterTexels a || s.cores.all fun c => c.2.texQ.all fun o =>
    !(decide (o.after < a.id)) || !(o.lanes.any fun l => a.lanes.any fun r => r.uid == l.uid))
  && (s.pend.all fun b => !(decide (b.id < a.id)) || b.applied || b.kind == .result || !precedes b a)
  && aheadDone s a

/-- 11 R251: whether an applied G write is performed at a scope: its application has invalidated the copies of its cluster
(log 21). -/
def performedAt (s : State) (b : Access) (x : Scope) : Bool :=
  b.applied && (!atLeastDie x || decide (b.completion ≤ s.dtime))

/-- 10 R234: whether a release may be performed: every earlier access of its threads is performed at its
scope. -/
def releaseReady (s : State) (a : Access) : Bool :=
  if a.ordering == .rel then
    (s.pend.all fun b => !(decide (b.id < a.id)) || !sharesThread a b || b.kind == .result
        || performedAt s b a.scope)
      && (!atLeastDie a.scope || a.lanes.all fun r => ((threadOf s r.uid).map (·.regs.wh)).getD 0 ≤ s.dtime)
  else true

/-- Whether a request reaches a device line. -/
def onLine (a : Access) : Bool := a.lanes.any fun r => r.mem == .device

/-- 11 R258: whether a request finds its line in transition, or the snoop filter without an entry for it (R268). A read meets
the line at its die home, an acquire and a write at the home (R260). -/
def lineBusy (s : State) (a : Access) : Bool :=
  onLine a && ((if a.kind == .load && a.ordering != .acq then transientAt s (dieOfCore a.core) a.line
      else (lineOf s a.line).transient)
    || (a.space == .globalG && a.kind != .atomic && a.kind != .reduction && filterBlocks s (dieOfCore a.core) a.line))

/-- 10 R234, 18 R436: whether everything a thread issued before is performed at a scope: its requests but some, its
texel reads but those of some operations of its core's sampler, and from `.die` on its write horizon. -/
def settledBut (s : State) (out sampled : List Nat) (x : Scope) (u : Nat) : Bool :=
  (s.pend.all fun a => out.contains a.id || a.kind == .result || !(a.lanes.any fun r => r.uid == u)
      || performedAt s a x)
    && (s.cores.all fun c => c.2.texQ.all fun o =>
      (c.1 == s.cur.core && sampled.contains o.id) || !(o.lanes.any fun l => l.uid == u))
    && (!atLeastDie x || decide (((threadOf s u).map (·.regs.wh)).getD 0 ≤ s.dtime))

/-- R234: `settledBut` at a form that makes requests itself: those of the clause under way do not count, nor do the texel reads
of the clause, which may then be performed after the form (DESIGN CHOICE, log 75). -/
def settledAt (s : State) (x : Scope) (u : Nat) : Bool := settledBut s s.cur.created s.cur.sampled x u

/-- The clause under way must still wait before it issues. -/
def holdClause (s : State) (wait : Bool) : State := { s with cur := { s.cur with hold := s.cur.hold || wait } }

/-- A form whose participating lanes must be settled at a scope first (10 R234, 15 R378, 16 R391, 18 R436). -/
def holdUntilSettled (s : State) (g : Guard) (x : Scope) : State :=
  holdClause s ((activeLanes s g).any fun p => !settledAt s x p.1)

/-- 11 R273: whether a request of a context whose issue has stopped is, or comes after, a release of its thread that still waits
for `%wh`: it is issued again when the context resumes. -/
def behindRelease (s : State) (a : Access) : Bool :=
  a.kind != .result && !(ctxOf s a.ctx).resident && s.pend.any fun b => !b.issued && decide (b.id ≤ a.id) && sharesThread a b

/-- Whether a request may be performed now. -/
def canPerform (s : State) (a : Access) : Bool :=
  a.issued && !a.applied && a.away.isNone && inOrder s a && releaseReady s a && !behindRelease s a

/-! ### Parts of performing -/

/-- A request in flight, by number. -/
def accessOf (s : State) (i : Nat) : Option Access := s.pend.find? fun a => a.id == i

/-- A request changed. -/
def modAccess (s : State) (i : Nat) (f : Access → Access) : State :=
  { s with pend := s.pend.map fun a => if a.id = i then f a else a }

/-- 13 R315: a spawned block waits for the completion time of a write of its parent that leaves flight before it. -/
def SpawnEntry.after (a : Access) (e : SpawnEntry) : SpawnEntry :=
  if e.accs.contains a.id then { e with wh := max e.wh a.completion } else e

/-- R315: the pending ranges that wait for a write. -/
def noteSpawn (s : State) (a : Access) : State :=
  modWork s fun w => { w with launches := w.launches.map fun l =>
    (l.1, { l.2 with spawnQ := l.2.spawnQ.map (SpawnEntry.after a), spawnRing := l.2.spawnRing.map (SpawnEntry.after a) }) }

/-- A request leaves flight. -/
def dropAccess (s : State) (i : Nat) : State := { s with pend := s.pend.filter fun a => a.id != i }

/-- 03 R62: the counter of every thread of a request falls. -/
def countDown (s : State) (a : Access) : State :=
  a.lanes.foldl (fun acc r => modThread acc r.uid fun t => t.modRegs fun x => x.ctrDown a.ctr) s

/-- 10 R230: a value of `size` bytes extended to 32 bits. -/
def extendTo32 (size : Nat) (sx : Bool) (x : Nat) : Word :=
  if sx then ((BitVec.ofNat (8 * size) x).signExtend 32) else BitVec.ofNat 32 x

/-- 10 R223: a loaded value written to a register, a pair or a quad. -/
def putLoaded (size : Size) (sx : Bool) (n x : Nat) (r : Regs) : Regs :=
  match size with
  | .b8 => r.setPair n (BitVec.ofNat 64 x)
  | .b16 => (List.range 4).foldl (fun acc k => acc.set (n + k) (BitVec.ofNat 32 (x / 2 ^ (32 * k)))) r
  | z => r.set n (extendTo32 (sizeBytes z) sx x)

/-- A byte of an L1 copy; a byte of a poisoned sector reads 0. -/
def copyByte (c : L1Copy) (a : Nat) : Byte :=
  if c.poison.testBit (a % 128 / 32) then 0 else c.data.getD (a % 128) emptyByte

/-- The value a lane reads, from an L1 copy or from the storage. -/
def laneValue (s : State) (src : Option L1Copy) (r : LaneReq) : Nat :=
  match src with
  | some c => leNat (r.addrs.map (copyByte c))
  | none => readBytes s r.mem r.addrs

/-- Whether a lane's bytes meet poison. -/
def lanePoison (s : State) (src : Option L1Copy) (r : LaneReq) : Bool :=
  match src with
  | some c => r.addrs.any fun a => c.poison.testBit (a % 128 / 32)
  | none => r.addrs.any fun a => isPoisoned s r.mem (a / 32)

/-- 10 R229: a thread of the clause under way that read poison. -/
def consumeLane (s : State) (block : Nat) (bad : Bool) (u : Nat) : State :=
  if bad then consumePoison s u block { clause := s.cur.addr } else s

/-- 10 R229: a lane of a request that read poison. -/
def consumeRequest (s : State) (a : Access) (bad : Bool) (r : LaneReq) : State :=
  if bad then consumePoison s r.uid a.block { clause := a.site, addr := r.va } else s

/-- 10 R230: the data of a load comes back: registers, poison, the read floor of an acquire (11 R257), with the skew of another
die (R255), counters; the request is over. -/
def finishLoad (s : State) (a : Access) (src : Option L1Copy) : State :=
  let s1 := a.lanes.foldl (fun acc r =>
    let s2 := modThread acc r.uid fun t =>
      t.modRegs fun x => putLoaded a.size a.sext r.dst (laneValue s src r) x
    let s3 := consumeRequest s2 a (lanePoison s src r) r
    if a.ordering = .acq then
      raiseFloorTo s3 r.uid (s.dtime + if onLine a then skew (homeDie a.line) (dieOfCore a.core) else 0)
    else s3) s
  dropAccess (countDown s1 a) a.id

/-- 11 R249: the persistent requests of some lines. -/
def persistentIn (ls : SMap LineDir) : Nat := (ls.map fun l => l.2.persistent.length).sum

/-- 11 R258: whether one of the eight persistent slots of a line's home slice is free. -/
def slotFree (s : State) (line : Nat) : Bool :=
  let home := s.lines.filter fun l => homeDie l.1 == homeDie line && !l.2.persistent.isEmpty
  decide (persistentIn home < 8)
    || decide (persistentIn (home.filter fun l => Config.sliceOf l.1 == Config.sliceOf line) < 8)

/-- 11 R258: a refused request: the fourth refusal takes a persistent slot of the slice, if one of its eight
is free; at a page that is surrendering or surrendered the first does (R271). -/
def refuse (s : State) (a : Access) : State :=
  let n := a.refusals + 1
  let s1 := modAccess s a.id fun x => { x with refusals := n }
  if (4 ≤ n || (frameOf s (frameOfLine a.line)).hstate != 0) && !a.persistent && slotFree s a.line then
    modLine (modAccess s1 a.id fun x => { x with persistent := true }) a.line fun d =>
      { d with persistent := d.persistent ++ [a.id] }
  else s1

/-- Whether a load may use L1 copies: plain G and K loads (11 R254). -/
def usesL1 (a : Access) : Bool :=
  (a.space == .globalG || a.space == .constK) && a.ordering != .acq && onLine a

/-- The read floors of a request's threads. -/
def floorsOf (s : State) (a : Access) : List Nat :=
  a.lanes.map fun r => ((threadOf s r.uid).map (·.regs.floor)).getD 0

/-- 06 R141: an accumulator pair as one F32 word. -/
def singleWord (p : Word × Word) : Word := BitVec.ofNat 32 (pairWord (p.1.toNat, p.2.toNat))

/-- 12 R274: pair (m, n) of a tile; an absent pair is +0. -/
def tilePair (s : State) (cluster tile m n : Nat) : Word × Word :=
  mgetD (mgetD (clusterOf s cluster).tiles tile []) (128 * m + n) (0, 0)

/-- 12 R296: the four registers a lane's `ACCRD` returns. `addrs` holds the row, the column and whether the
pairs are returned whole. -/
def tileWords (s : State) (cluster tile : Nat) (addrs : List Nat) : List Word :=
  let m := addrs.getD 0 0
  let n := addrs.getD 1 0
  if addrs.getD 2 0 = 1 then
    let a := tilePair s cluster tile m n
    let b := tilePair s cluster tile m (n + 1)
    [a.1, a.2, b.1, b.2]
  else (List.range 4).map fun i => singleWord (tilePair s cluster tile m (n + i))

/-- 22 R507: the sector of a tile that holds pair (m, n), in the poison list: four pairs each. -/
def tileSector (cluster tile m n : Nat) : Nat := (8 * cluster + tile) * 4096 + (128 * m + n) / 4

/-- 22 R507: whether a pair of a tile is poisoned. -/
def pairPoisoned (s : State) (cluster tile m n : Nat) : Bool :=
  isPoisoned s (.tile cluster tile) (tileSector cluster tile m n)

/-- 12 R296: the data of an `ACCRD` comes back; a poisoned sector of the tile reads as a load's does (10 R229, 22 R507). -/
def finishTile (s : State) (a : Access) : State :=
  let s1 := a.lanes.foldl (fun acc r =>
    match r.mem with
    | .tile c t =>
      let bad := pairPoisoned s c t (r.addrs.getD 0 0) (r.addrs.getD 1 0)
      let ws := if bad then [0, 0, 0, 0] else tileWords s c t r.addrs
      consumeRequest (modThread acc r.uid fun x => x.modRegs fun g =>
        ((ws.zip (List.range 4)).foldl (fun h p => h.set (r.dst + p.2) p.1) g)) a bad r
    | _ => acc) s
  dropAccess (countDown s1 a) a.id

/-- Whether a request reads accumulator tiles. -/
def onTile (a : Access) : Bool := a.lanes.any fun r => match r.mem with
  | .tile _ _ => true
  | _ => false

/-- 09 R202: an access of L space brings its lines into the L1 of its core. -/
def privateLines (s : State) (a : Access) (dirty : Bool) : State :=
  ((a.lanes.flatMap fun r => r.addrs.map (· / 128)).dedup).foldl (fun acc l => privateLine acc a.core l dirty) s

/-- 10 R230, 11 R254: a load served: from a live L1 copy, else filled from its die home; an acquire, and a
load of another space, from the home; a line of L space is held by the L1 (09 R202). -/
def serveLoad (s : State) (a : Access) : State :=
  if onTile a then finishTile s a
  else if usesL1 a then
    match l1Hit s a.core a.line (floorsOf s a) with
    | some c => finishLoad s a (some c)
    | none =>
      if fillReady s a.core a.line then
        let s1 := fillCopy s a.core a.ctx a.line
        finishLoad s1 a (l1Copy s1 (l1Core s1 a.core a.line) a.line)
      else refuse s a
  else if a.space == .globalG && onLine a then
    finishLoad (engineReads s (dieOfCore a.core) [a.line]) a none
  else if a.space == .laneL then finishLoad (privateLines s a false) a none
  else finishLoad s a none

/-- 10 R245: the completion time of a write that a `FENCE` of die scope or wider has put ahead of its thread's later accesses. -/
def noteAhead (s : State) (a : Access) (c : Nat) : State :=
  a.lanes.foldl (fun acc r =>
    if ((threadOf acc r.uid).map fun t => t.aheadWh.isSome && t.ahead.contains a.id).getD false then
      modThread acc r.uid fun t => { t with aheadWh := t.aheadWh.map (max c) }
    else acc) s

/-- 10 R231, 11 R255: a G store applied at its die home: one write of the sector, its completion time, the copies of the
issuing cluster invalidated (R251, log 21), `%wh` raised for every lane that writes a byte. -/
def serveStore (s : State) (a : Access) : State :=
  let ws := a.lanes.flatMap (·.writes)
  if ws.isEmpty then modAccess s a.id fun x => { x with applied := true, completion := s.dtime, served := s.dtime }
  else
    let c := completionTime s (dieOfCore a.core) a.line
    let s1 := dropClusterCopies (applyWrite s (dieOfCore a.core) ws) (clusterOfCore a.core) a.line
    let s2 := a.lanes.foldl (fun acc r =>
      if r.writes.isEmpty then acc else noteFrames (raiseWh acc r.uid c) r.uid r.writes) (noteAhead s1 a c)
    modAccess s2 a.id fun x => { x with applied := true, completion := c, served := s.dtime }

/-- 12 R282: a write to the TOB window sets every tag group it touches untagged. -/
def untag (s : State) (m : Mem) (ws : List (Nat × Byte)) : State :=
  match m with
  | .tob g => modCore s g fun c =>
    { c with tobTags := (ws.map fun w => w.1 / 2048).foldl (fun ts k => merase ts k) c.tobTags }
  | _ => s

/-- Bytes written by a thread's access to a storage other than through a die home. -/
def portWrite (s : State) (m : Mem) (ws : List (Nat × Byte)) : State := untag (writeBytes s m ws) m ws

/-- 10 R231: an S, C, L or H store performed: the bytes change and the request is over. A page that holds bytes of an L store
joins its thread's frames (10 R245). -/
def finishStore (s : State) (a : Access) : State :=
  let ws := a.lanes.flatMap (·.writes)
  let m := ((a.lanes.head?).map (·.mem)).getD .device
  let s1 := portWrite s m ws
  let s2 := if m = .device then a.lanes.foldl (fun acc r => noteFrames acc r.uid r.writes) (markDirty s1 ws) else s1
  let s3 := if a.space = .laneL then privateLines s2 a true else s2
  dropAccess (countDown s3 a) a.id

/-! ### Atomics (10 R239-R243) -/

/-- 10 R239: the new value for the operations on integers of width w. -/
def atomInt {w : Nat} (op : Nat) (o b c : BitVec w) : BitVec w :=
  match op with
  | 0 => o + b
  | 1 => iminV false o b
  | 2 => imaxV false o b
  | 3 => iminV true o b
  | 4 => imaxV true o b
  | 5 => o &&& b
  | 6 => o ||| b
  | 7 => o ^^^ b
  | 8 => if b.toNat ≤ o.toNat then 0 else o + 1
  | 9 => if o = 0 ∨ b.toNat < o.toNat then b else o - 1
  | 10 => b
  | _ => if o = c then b else o

/-- 10 R239: the floating operations, at 4 bytes. -/
def atomFloat (op : Nat) (o b : Word) : Word :=
  match op with
  | 12 => BitVec.ofNat 32 (faddFmt .f32 .rn false o.toNat b.toNat)
  | 13 => BitVec.ofNat 32 (fminFmt .f32 o.toNat b.toNat)
  | 14 => BitVec.ofNat 32 (fmaxFmt .f32 o.toNat b.toNat)
  | 15 => packHalves (faddFmt .h16 .rn false (half o 0) (half b 0)) (faddFmt .h16 .rn false (half o 1) (half b 1))
  | _ => packHalves (faddFmt .bf16 .rn false (half o 0) (half b 0)) (faddFmt .bf16 .rn false (half o 1) (half b 1))

/-- 10 R239: the new value of an operation at a size. -/
def atomNew (op : Nat) (size : Size) (o b c : DWord) : DWord :=
  match size with
  | .b8 => atomInt op o b c
  | _ =>
    let ow := o.setWidth 32
    let bw := b.setWidth 32
    (if op < 12 then atomInt op ow bw (c.setWidth 32) else atomFloat op ow bw).setWidth 64

/-- 10 R240: the lanes of a request applied one at a time to the bytes of their sector: the lanes with their
old values, and the bytes to write. -/
def applyLanes (s : State) (op : Nat) (size : Size) :
    List LaneReq → List (Nat × Byte) → List LaneReq × List (Nat × Byte)
  | [], ws => ([], ws)
  | r :: rest, ws =>
    let n := sizeBytes size
    let cell (a : Nat) : Byte := match ws.reverse.find? (fun w => w.1 == a) with
      | some w => w.2
      | none => readByte s r.mem a
    let old := BitVec.ofNat 64 (leNat (r.addrs.map cell))
    let new := atomNew op size old r.operand r.cmp
    let q := applyLanes s op size rest (ws ++ byteWrites (r.addrs.headD 0) n new.toNat)
    ({ r with old := old } :: q.1, q.2)

/-- 10 R229, R240: a combined request at its home: on a poisoned sector every lane reads 0 and nothing
changes. -/
def applyRequest (s : State) (a : Access) : List LaneReq × List (Nat × Byte) :=
  let r := applyLanes s a.op a.size a.lanes []
  if a.lanes.any fun x => x.addrs.any fun k => isPoisoned s x.mem (k / 32) then
    (a.lanes.map fun x => { x with old := 0, poison := true }, [])
  else r

/-- 10 R241-R243: a combined atomic or reduction applied at its home. -/
def serveAtomic (s : State) (a : Access) : State :=
  let r := applyRequest s a
  if a.space = .globalG then
    let c := homeCompletion s (dieOfCore a.core) a.line
    let s1 := if r.2.isEmpty then s else applyAtomic s a.line r.2
    let s2 := a.lanes.foldl (fun acc x =>
      noteFrames (raiseWh acc x.uid c) x.uid (r.2.filter fun w => x.addrs.contains w.1))
      (noteAhead (dropClusterCopies s1 (clusterOfCore a.core) a.line) a c)
    modAccess s2 a.id fun x => { x with applied := true, completion := c, served := s.dtime, lanes := r.1 }
  else
    let m := ((a.lanes.head?).map (·.mem)).getD .device
    modAccess (portWrite s m r.2) a.id fun x =>
      { x with applied := true, completion := s.dtime, served := s.dtime, lanes := r.1 }

/-- 10 R238, 11 R257: the old values of an atomic come back; an acquire raises the read floor to the time its home served it, with
the skew of another die (R255). -/
def finishAtomic (s : State) (a : Access) : State :=
  let s1 := a.lanes.foldl (fun acc r =>
    let s2 := modThread acc r.uid fun t => t.modRegs fun x => putLoaded a.size false r.dst r.old.toNat x
    let s3 := consumeRequest s2 a r.poison r
    if a.ordering = .acq then raiseFloorTo s3 r.uid (a.served + skew (homeDie a.line) (dieOfCore a.core)) else s3) s
  dropAccess (countDown s1 a) a.id

/-- A register result of a class-1 form lands (03 R62, 07 R148); with a suppressed destination only its counter
falls. -/
def finishResult (s : State) (a : Access) : State :=
  let s1 := a.lanes.foldl (fun acc r => modThread acc r.uid fun t =>
    if r.dst < 128 then t.modRegs fun x => x.set r.dst (r.operand.setWidth 32) else t) s
  dropAccess (countDown s1 a) a.id

/-- 11 R258: a request that may be performed, or is refused by its line. A persistent request is served. -/
def atLine (s : State) (a : Access) (serve : State → Access → State) : State :=
  if lineBusy s a && !a.persistent then refuse s a
  else if lineBusy s a then s
  else serve s a

/-- What a request that may be performed does at its storage. -/
def serveAccess (s : State) (a : Access) : State :=
  match a.kind with
  | .load => serveLoad s a
  | .store => if a.space = .globalG then serveStore s a else finishStore s a
  | .atomic => serveAtomic s a
  | .reduction => serveAtomic s a
  | .result => finishResult s a

/-- Requests that the participating lanes have made earlier in the clause are performed now, or the clause waits. -/
def performCreated (s : State) (g : Guard) (which : Access → Bool) : State :=
  s.cur.created.foldl (fun acc i =>
    match accessOf acc i with
    | none => acc
    | some a =>
      if !which a || !(a.lanes.any fun r => (activeLanes s g).any fun p => p.1 == r.uid) then acc
      else if canPerform acc a && !lineBusy acc a then serveAccess acc a
      else holdClause acc true) s

/-- 10 R234: a form of class 5 that acts as a release: the loads of its own clause before it come first (15 R378, 16 R391). -/
def holdForRelease (s : State) (g : Guard) (x : Scope) : State :=
  holdUntilSettled (performCreated s g fun a => a.kind == .load) g x

/-- 08 R180: a thread's own lane-private accesses of the clause come before a return slot is written or read. -/
def settleOwn (s : State) (g : Guard) : State := performCreated s g fun a => a.space == .laneL && a.kind != .result

end Sys2Proof.Machine
end

