-- ==== Sys2Proof/Machine/Fetch.lean ====
section
/-!
DEFINITION. Instruction fetch (03 R77) and the capture checks of the loop buffer (08 R187).
-/

namespace Sys2Proof.Machine

/-- 03 R77: the storage of one fetched byte, through the core's TLB with the fetch permission. -/
def fetchPlace (s : State) (core ctx va : Nat) : Except FaultCode Place :=
  translate s core ctx va { exec := true }

/-- The report of a fetch that failed at an address (03 R75, R77, 17 R409 access 3). -/
def fetchReport (code : FaultCode) (va pos : Nat) : FaultReport :=
  { code := code, pos := pos, addr := va, pages := if code = .pageAbsent then [(va / 4096, 3)] else [] }

/-- The word at an address of the code stream. A word never crosses a page. Where the running launch stores to it, the fetch
sees the bytes that memory holds now: 03 R78 leaves open which mix of old and new words it sees (DESIGN CHOICE, log 74). -/
def fetchWord (s : State) (core ctx va : Nat) : Except FaultCode Word :=
  match fetchPlace s core ctx va with
  | .error c => .error c
  | .ok p =>
    let m := p.mem
    .ok (BitVec.ofNat 32 (readBytes s m.1 ((List.range 4).map (m.2 + ·))))

/-- n words from an address, or the fault of the first that cannot be fetched. -/
def fetchWords (s : State) (core ctx : Nat) : Nat → Nat → Except (FaultCode × Nat) (List Word)
  | 0, _ => .ok []
  | n + 1, va =>
    match fetchWord s core ctx va with
    | .error c => .error (c, va)
    | .ok w =>
      match fetchWords s core ctx n (va + 4) with
      | .error e => .error e
      | .ok ws => .ok (w :: ws)

/-- A decode fault's code (03 R74). -/
def decodeCode : DecodeFault → FaultCode
  | .illegalEncoding => .illegalEncoding
  | .clauseClass => .clauseClass
  | .latchOrder => .latchOrder
  | .registerRange => .registerRange

/-! ### The loop buffer (08 R187) -/

/-- A lane-register field of an instruction: the step that applies to it, if it steps, its number, how many
registers it names, and whether it is a pair field. -/
structure RegField where
  role : Option Role
  n : Nat
  span : Nat
  pair : Bool
  deriving DecidableEq, Repr

/-- The field of a source of a kind. -/
def srcField (r : Option Role) (k : SKind) : Src → List RegField
  | .reg n => match k with
    | .none | .pred => []
    | .v => [⟨r, n.toNat, 1, false⟩]
    | .pair | .regPair => [⟨r, n.toNat, 2, true⟩]
    | .block m _ => [⟨r, n.toNat, m, false⟩]
  | _ => []

/-- The field of a destination of a kind. -/
def dstField (r : Option Role) (k : DKind) : Dst → List RegField
  | .reg n => match k with
    | .none | .pred => []
    | .v => [⟨r, n.toNat, 1, false⟩]
    | .pair => [⟨r, n.toNat, 2, true⟩]
    | .quad => [⟨r, n.toNat, 4, false⟩]
  | .suppress => []

/-- The register pair of an absolute deadline, which never steps. -/
def deadlineField : Deadline → List RegField
  | .rel _ => []
  | .abs r => [⟨none, r.toNat, 2, true⟩]

/-- The lane-register fields an instruction writes. -/
def destFields (i : Instr) : List RegField :=
  match i.specA with
  | some (f, p) => dstField (some .dst) p.d f.dst
  | none =>
    match i.specW .core with
    | some (f, _) =>
      dstField (some .dst) .v f.dst ++ (match i with
        | .qrecv g => [⟨none, g.field 9 2, 2, true⟩]
        | .svcw g => [⟨none, g.field 9 2, 1, false⟩]
        | _ => [])
    | none =>
      match i with
      | .movi f => dstField (some .dst) .v f.dst
      | .movh f => dstField (some .dst) .pair f.dst
      | .ldl f | .lds f | .ldc f | .ldk f | .ldg f | .ldh f => dstField (some .dst) f.x.size.dstKind (.reg f.dst)
      | .ldcBlock f | .ldgBlock f | .ldhBlock f => dstField (some .dst) f.x.size.dstKind (.reg f.dst)
      | .ats f | .atc f | .atg f | .ath f => dstField (some .dst) f.x.size.dstKind (.reg f.dst)
      | _ => []

/-- The lane-register fields an instruction reads. -/
def sourceFields (i : Instr) : List RegField :=
  match i.specA with
  | some (f, p) => srcField (some .a) p.a f.a ++ srcField (some .b) p.b f.b ++ srcField (some .c) p.c f.x.srcC
  | none =>
    match i.specW .core with
    | some (f, p) => srcField (some .a) p.a f.a ++ deadlineField f.x.deadline
    | none =>
      match i with
      | .ldl f | .lds f | .ldc f | .ldk f => srcField (some .a) .v f.a
      | .ldg f | .ldh f => srcField (some .a) .pair f.a
      | .stl f | .sts f | .stc f =>
        srcField (some .dst) (if f.x.mask then .v else .none) f.maskSrc ++ srcField (some .a) .v f.a
          ++ srcField (some .b) f.x.size.srcKind f.data
      | .stg f | .sth f =>
        srcField (some .dst) (if f.x.mask then .v else .none) f.maskSrc ++ srcField (some .a) .pair f.a
          ++ srcField (some .b) f.x.size.srcKind f.data
      | .ldcBlock f =>
        srcField (some .a) .v f.a ++ srcField (some .b) f.x.size.srcKind f.cmp ++ deadlineField f.x.deadline
      | .ldgBlock f | .ldhBlock f =>
        srcField (some .a) .pair f.a ++ srcField (some .b) f.x.size.srcKind f.cmp ++ deadlineField f.x.deadline
      | .ats f | .atc f => srcField (some .a) .v f.a ++ srcField (some .b) f.x.size.srcKind f.operand
      | .atg f | .ath f => srcField (some .a) .pair f.a ++ srcField (some .b) f.x.size.srcKind f.operand
      | .reds f => srcField (some .a) .v f.a ++ srcField (some .b) f.x.size.srcKind f.operand
      | .redg f => srcField (some .a) .pair f.a ++ srcField (some .b) f.x.size.srcKind f.operand
      | .pref f => srcField (some .a) .pair f.a
      | .repeatLoop f => srcField none .v f.count ++ srcField none .pair f.addr
      | .callx f => srcField none .v f.x.srcC
      | _ => []

/-- The lane-register fields of an instruction (08 R185). -/
def regFields (i : Instr) : List RegField := destFields i ++ sourceFields i

/-- The guard and the counter, 0 for none, of an instruction's extension word (03 R62, R64). -/
def extOf (i : Instr) : Guard × Nat :=
  match i.specA with
  | some (f, _) => (f.x.guard, f.x.ctr.toNat)
  | none =>
    match i.specW .core with
    | some (f, _) => (f.x.guard, 0)
    | none =>
      match i with
      | .ldl f | .lds f | .ldc f | .ldk f | .ldg f | .ldh f => (f.x.guard, f.x.ctr.toNat)
      | .stl f | .sts f | .stc f | .stg f | .sth f => (f.x.guard, f.x.ctr.toNat)
      | .ats f | .atc f | .atg f | .ath f => (f.x.guard, f.x.ctr.toNat)
      | .reds f | .redg f => (f.x.guard, f.x.ctr.toNat)
      | .ldcBlock f | .ldgBlock f | .ldhBlock f => (f.x.guard, 0)
      | .repeatLoop f => (f.guard, 0)
      | .bra f | .call f | .callx f => (f.x.guard, 0)
      | .pref f => (f.x.guard, 0)
      | _ => ({ neg := false, g := 0 }, 0)

/-- 03 R62: whether an instruction names a counter that a participating thread has at 63: its issue waits. -/
def counterFull (s : State) (i : Instr) : Bool :=
  let x := extOf i
  x.2 != 0 && (activeLanes s x.1).any fun p => decide (63 ≤ p.2.regs.getCtr (x.2 - 1))

/-- 22 R507: whether a thread reads a poisoned register as a source of an instruction. -/
def readsBad (t : Thread) (i : Instr) : Bool :=
  !t.regs.bad.isEmpty && (sourceFields i).any fun x =>
    let n := match x.role with
      | some r => stepReg t.ctl r x.n
      | none => x.n
    t.regs.bad.any fun k => decide (n ≤ k ∧ k < n + x.span)

/-- 22 R507: the participating threads that read a poisoned register consume poison (10 R229). -/
def consumeBad (s : State) (i : Instr) : State :=
  (activeLanes s (extOf i).1).foldl (fun acc p => consumeLane acc p.2.block (readsBad p.2 i) p.1) s

/-- The step of a field under a `REPEAT`. -/
def stepOf (f : RepeatForm) : Option Role → Nat
  | none => 0
  | some .dst => f.dStep.toNat
  | some .a => f.aStep.toNat
  | some .b => f.bStep.toNat
  | some .c => f.cStep.toNat

/-- R187 steps 2 and 3: the body cut into clauses and each checked; `fuel` bounds the clauses. A clause that counts more words
than the body has left is reported by step 2, before its instructions are checked by step 3 (DESIGN CHOICE, log 86). -/
def bodyClauses : Nat → List Word → Except FaultCode (List (List Instr))
  | 0, _ => .ok []
  | _ + 1, [] => .ok []
  | fuel + 1, hw :: ws =>
    if !headerOk .core hw then .error .illegalEncoding
    else
      let n := clauseWords (headerOf hw)
      if ws.length + 1 < n then .error .illegalEncoding
      else
        match checkClause .core 1024 (hw :: ws.take (n - 1)) with
        | .error e => .error (decodeCode e.2)
        | .ok (_, is) =>
          match bodyClauses fuel (ws.drop (n - 1)) with
          | .error e => .error e
          | .ok r => .ok (is :: r)

/-- R187 check 6 at one field. -/
def fieldInRange (f : RepeatForm) (count allot : Nat) (x : RegField) : Bool :=
  x.n + stepOf f x.role * (count - 1) + x.span ≤ allot

/-- R187 step 5 at one field. -/
def pairStepOk (f : RepeatForm) (count : Nat) (x : RegField) : Bool :=
  !(decide (2 ≤ count) && x.pair && stepOf f x.role % 2 == 1)

/-- R187 step 5 at the tile field of the wide forms (12 R304). -/
def tileStepOk (f : RepeatForm) (count : Nat) (i : Instr) : Bool :=
  match i with
  | .mmal6 _ | .mmae2 _ => !(decide (2 ≤ count) && f.tileStep.toNat % 2 == 1)
  | _ => true

/-- R187 steps 2 to 6 on a fetched body. -/
def captureFault (f : RepeatForm) (count allot : Nat) (ws : List Word) : Option FaultCode :=
  match bodyClauses 256 ws with
  | .error c => some c
  | .ok cs =>
    let is := cs.flatten
    let addr : List RegField := match f.addr with
      | .reg n => [⟨none, n.toNat, 3, false⟩]
      | _ => []
    if cs.length ≠ f.clauses.toNat + 1 then some .illegalEncoding
    else if is.any fun i => isBranch i || isRepeat i then some .clauseClass
    else if !(is.flatMap regFields).all (pairStepOk f count) || !is.all (tileStepOk f count) then
      some .illegalEncoding
    else if !((is.flatMap regFields) ++ addr).all (fieldInRange f count allot) then some .registerRange
    else none

/-- R187: the capture of a body: its words, or the fault of the `REPEAT`. -/
def capture (s : State) (f : RepeatForm) (count : Nat) : Except FaultReport (List Word) :=
  match fetchWords s s.cur.core (ctxOfBlock s s.cur.block) f.words.toNat s.cur.stop with
  | .error (c, va) => .error (fetchReport c va s.cur.pos)
  | .ok ws =>
    match captureFault f count (launchOfBlock s s.cur.block).desc.allot ws with
    | some c => .error { code := c, pos := s.cur.pos, addr := s.cur.addr }
    | none => .ok ws

end Sys2Proof.Machine
end

