-- ==== Sys2Proof/Machine/Control.lean ====
section
/-!
DEFINITION. The control forms, opcodes 0x80 to 0x89, and `KDECL` and `SIGN` (08 R171-R195), on the cores
and, for the forms of 03 R73, on the Coachman (08 R184).
-/

namespace Sys2Proof.Machine

/-! ### Branches (R175, R176) -/

/-- A thread's next program counter, 56 bits (R171). -/
def setNpc (s : State) (u target : Nat) : State :=
  modThread s u fun t => t.modCtl fun c => { c with npc := some (target % 2 ^ 56) }

/-- R176, R178: the target of a relative branch: the address of its base word plus 4 × offset. A sum outside the 56-bit space
wraps modulo 2^56 (DESIGN CHOICE, log 87: no rule gives it a fault or a value). -/
def relTarget (s : State) (off : BitVec 24) : Nat :=
  (BitVec.ofInt 56 ((s.cur.word : Int) + 4 * off.toInt)).toNat

/-- R175: the checks of a computed target, as a plan that names nothing where they pass. -/
def targetPlan (t : Nat) : Plan :=
  if t % 4 ≠ 0 then .fails 1 .alignment t []
  else if t / 2 ^ 56 ≠ 0 then .fails 2 .protection t []
  else .names .device []

/-- R176, R184. -/
def execBra (f : FormB) (s : State) : Result :=
  match s.cur.agent with
  | .core => .next ((activeLanes s f.x.guard).foldl (fun acc p => setNpc acc p.1 (relTarget s f.off)) s)
  | .coachman =>
    .next (modCoach s s.cur.core fun c =>
      if guardCoach f.x.guard c then { c with npc := some (relTarget s f.off) } else c)

/-- A Coachman fault or next state from a target plan (R175, R184). -/
def coachTarget (s : State) (t : Nat) (go : State) : State :=
  match targetPlan t with
  | .fails _ c a _ => faultAt s c a
  | .names _ _ => go

/-- R176, R184. -/
def execBrx (f : FormA) (s : State) : Result :=
  match s.cur.agent with
  | .core =>
    let ps := activeLanes s f.x.guard
    match planFault s (ps.map fun p => targetPlan (srcPair p.2 .a f.a).toNat) with
    | some s1 => .next s1
    | none => .next (ps.foldl (fun acc p => setNpc acc p.1 (srcPair p.2 .a f.a).toNat) s)
  | .coachman =>
    let c := coachOf s s.cur.core
    if guardCoach f.x.guard c then
      .next (coachTarget s (srcCoach c f.a).toNat
        (modCoach s s.cur.core fun x => { x with npc := some (srcCoach c f.a).toNat }))
    else .next s

/-! ### Calls and the return slots (R177-R180) -/

/-- R177: the bytes of a lane-private 64-bit slot at an offset, or why it cannot be reached. -/
def slotPlan (s : State) (t : Thread) (n : Need) (o : Nat) : Plan := planL s t n o 8

/-- R178: a return slot written; a poisoned sector takes nothing (10 R229). -/
def storeSlot (s : State) (as : List Nat) (x : Nat) : State :=
  let ws := ((as.zip (List.range 8)).map fun p => (p.1, (BitVec.ofNat 8 (x / 256 ^ p.2) : Byte))).filter
    fun w => !isPoisoned s .device (w.1 / 32)
  markDirty (writeBytes s .device ws) ws

/-- R178: a lane takes a call: the return address is stored, the depth rises, the program counter goes to
the target. -/
def takeCall (s : State) (u : Nat) (t : Thread) (target : Nat) : State :=
  match slotPlan s t { write := true } (8 * t.ctl.depth) with
  | .fails _ _ _ _ => s
  | .names _ as =>
    setNpc (modThread (storeSlot s as s.cur.stop) u fun x => x.modCtl fun c => { c with depth := c.depth + 1 })
      u target

/-- R178: the checks of a call's store: the depth, then the slot's page. -/
def callPlan (s : State) (t : Thread) : Plan :=
  if t.ctl.depth = 64 then .fails 2 .protection (8 * t.ctl.depth) []
  else slotPlan s t { write := true } (8 * t.ctl.depth)

/-- R178, R184: on the Coachman the return address is pushed on the core's return stack. -/
def execCall (f : FormB) (s : State) : Result :=
  match s.cur.agent with
  | .core =>
    let ps := activeLanes s f.x.guard
    match planFault s (ps.map fun p => callPlan s p.2) with
    | some s1 => .next s1
    | none => .next (ps.foldl (fun acc p => takeCall acc p.1 p.2 (relTarget s f.off)) (settleOwn s f.x.guard))
  | .coachman =>
    let c := coachOf s s.cur.core
    if !guardCoach f.x.guard c then .next s
    else if 8 ≤ c.stack.length then .next (faultAt s .protection s.cur.word)
    else
      .next (modCoach s s.cur.core fun x =>
        { x with stack := s.cur.stop :: x.stack, npc := some (relTarget s f.off) })

/-- R178: the address of a `CALLX` entry for a thread. -/
def tableEntry (s : State) (f : FormB) (t : Thread) : Nat :=
  relTarget s f.off + 4 * min (srcWord t .c f.x.srcC).toNat f.x.mods.toNat

/-- R178: the target of a thread's `CALLX`, or the fault of its entry's fetch. -/
def tableTarget (s : State) (f : FormB) (t : Thread) : Except FaultCode Nat :=
  match fetchWord s s.cur.core (ctxOfBlock s t.block) (tableEntry s f t) with
  | .error c => .error c
  | .ok w => .ok ((BitVec.ofInt 64 ((relTarget s f.off : Int) + 4 * w.toInt)).toNat)

/-- R178: the checks of a thread's `CALLX`, in order. -/
def callxPlan (s : State) (f : FormB) (t : Thread) : Plan :=
  if t.ctl.depth = 64 then callPlan s t
  else
    match tableTarget s f t with
    | .error c =>
      let va := tableEntry s f t
      .fails (checkOf c) c va (if c = .pageAbsent then [(va / 4096, 3)] else [])
    | .ok target =>
      match targetPlan target with
      | .fails k c a ps => .fails k c a ps
      | .names _ _ => callPlan s t

/-- R178. -/
def execCallx (f : FormB) (s : State) : Result :=
  let ps := activeLanes s f.x.guard
  match planFault s (ps.map fun p => callxPlan s f p.2) with
  | some s1 => .next s1
  | none =>
    .next (ps.foldl (fun acc p =>
      match tableTarget s f p.2 with
      | .error _ => acc
      | .ok target => takeCall acc p.1 p.2 target) (settleOwn s f.x.guard))

/-- R180: the address in a thread's top return slot. -/
def slotTarget (s : State) (t : Thread) : Nat :=
  match slotPlan s t { read := true } (8 * (t.ctl.depth - 1)) with
  | .names m as => readBytes s m as
  | .fails _ _ _ _ => 0

/-- R180: the checks of a return. -/
def retPlan (s : State) (t : Thread) : Plan :=
  if t.ctl.depth = 0 then .names .device []
  else
    match slotPlan s t { read := true } (8 * (t.ctl.depth - 1)) with
    | .fails k c a ps => .fails k c a ps
    | .names _ _ => targetPlan (slotTarget s t)

/-- R181: a thread ends at the end of its clause. -/
def leaveThread (s : State) (u : Nat) : State :=
  modThread s u fun t => t.modCtl fun c => { c with leaving := true }

/-- R180, 10 R229: whether a thread's top return slot meets poison. -/
def slotPoison (s : State) (t : Thread) : Bool :=
  match slotPlan s t { read := true } (8 * (t.ctl.depth - 1)) with
  | .names m as => as.any fun a => isPoisoned s m (a / 32)
  | .fails _ _ _ _ => false

/-- R180: one thread returns, or exits at depth 0; a poisoned slot is consumed as a load's sector is. -/
def takeRet (s : State) (u : Nat) (t : Thread) : State :=
  if t.ctl.depth = 0 then leaveThread s u
  else
    consumeLane (setNpc (modThread s u fun x => x.modCtl fun c => { c with depth := c.depth - 1 }) u (slotTarget s t))
      t.block (slotPoison s t) u

/-- R181, R184: the movement program ends. -/
def endProgram (s : State) : State :=
  modCoach s s.cur.core fun c => { c with running := false, stack := [], npc := none, wait := none }

/-- R180, R184. -/
def execRet (s : State) : Result :=
  match s.cur.agent with
  | .core =>
    let s0 := settleOwn s { neg := false, g := 0 }
    match planFault s ((lanes s).map fun p => retPlan s0 p.2) with
    | some s1 => .next s1
    | none => .next ((lanes s).foldl (fun acc p => takeRet acc p.1 p.2) s0)
  | .coachman =>
    match (coachOf s s.cur.core).stack with
    | [] => .next (endProgram s)
    | t :: r => .next (coachTarget s t (modCoach s s.cur.core fun c => { c with stack := r, npc := some t }))

/-- R181, R184. -/
def execExitThread (s : State) : Result :=
  match s.cur.agent with
  | .core => .next ((lanes s).foldl (fun acc p => leaveThread acc p.1) s)
  | .coachman => .next (endProgram s)

/-! ### Regrouping (R182, R183), NOP -/

/-- R183. -/
def execReform (f : FormA) (s : State) : Result :=
  .next ((activeLanes s f.x.guard).foldl (fun acc p => modThread acc p.1 fun t => t.modCtl fun c =>
    { c with key := (srcWord p.2 .a f.a).toNat % 65536, refile := true }) s)

/-- R174. -/
def execNop (s : State) : Result := .next s

/-- R182. -/
def execYieldThread (s : State) : Result :=
  .next ((lanes s).foldl (fun acc p => modThread acc p.1 fun t => t.modCtl fun c =>
    { c with refile := true }) s)

/-! ### The loop buffer (R185-R187) -/

/-- R185: the loop state a thread starts with. -/
def startLoop (s : State) (f : RepeatForm) (count : Nat) (body : List Word) : LoopState :=
  { base := s.cur.stop, words := f.words.toNat, clauses := f.clauses.toNat + 1, count := count, pass := 0,
    dStep := f.dStep.toNat, aStep := f.aStep.toNat, bStep := f.bStep.toNat, cStep := f.cStep.toNat,
    tileStep := f.tileStep.toNat,
    addr := match f.addr with
      | .reg n => some n.toNat
      | _ => none
    body := body }

/-- R185: one thread executes `REPEAT`: a count of 0 skips the body. -/
def takeRepeat (s : State) (f : RepeatForm) (body : List Word) (u : Nat) (t : Thread) : State :=
  let c := (srcWord t .a f.count).toNat
  if c = 0 then setNpc s u (s.cur.stop + 4 * f.words.toNat)
  else modThread s u fun x => x.modCtl fun k => { k with loop := some (startLoop s f c body), npc := some s.cur.stop }

/-- R185, R187: the largest count of the bundle decides the checks. -/
def execRepeatLoop (f : RepeatForm) (s : State) : Result :=
  let ps := activeLanes s f.guard
  let most := ps.foldl (fun m p => max m (srcWord p.2 .a f.count).toNat) 0
  if most = 0 then .next (ps.foldl (fun acc p => takeRepeat acc f [] p.1 p.2) s)
  else
    match capture s f most with
    | .error r => .next (deliver s r)
    | .ok ws => .next (ps.foldl (fun acc p => takeRepeat acc f ws p.1 p.2) s)

/-! ### Convergence registers (R191-R195) -/

/-- R194: the declared set: gang and thread masks, less gangs the block lacks and exited threads. -/
def declaredSet (s : State) (b : Nat) (gangs threads : Word) : BitVec 1024 :=
  ((threadsOfBlock s b).filter fun p => p.2.ctl.run != .exited && gangs.getLsbD (p.2.tid / 32)
    && threads.getLsbD (p.2.tid % 32)).foldl (fun m p => m ||| BitVec.ofNat 1024 (2 ^ p.2.tid)) 0

/-- R192: a `KDECL` by one thread: the new register and the status. -/
def declareK (r : KReg) (declared : BitVec 1024) : KReg × Status :=
  match r.state with
  | .idle | .withdrawn =>
    ({ declared := declared, signed := 0, state := if declared = 0 then .signed else .declared }, .done)
  | _ => (r, .busy)

/-- R194. -/
def execKdecl (f : FormA) (s : State) : Result :=
  .next (eachLane s f.x.guard f.dst fun acc _ t =>
    let q := declareK (kregOf acc t.block (f.field 3 0))
      (declaredSet acc t.block (srcWord t .a f.a) (srcWord t .b f.b))
    (setKreg acc t.block (f.field 3 0) q.1, q.2.word))

/-- R192: a `SIGN` by one thread; the last signature of a bound register posts its command. -/
def signK (s : State) (b k tid : Nat) : State × Status :=
  let r := kregOf s b k
  let mask := r.signed ||| BitVec.ofNat 1024 (2 ^ tid)
  let all := decide (mask &&& r.declared = r.declared)
  if !r.declared.getLsbD tid then (s, .withdrawn)
  else
    match r.state with
    | .declared => (setKreg s b k { r with signed := mask, state := if all then .signed else .declared }, .done)
    | .bound =>
      if all then
        ((match r.command with
          | some t => postBound (setKreg s b k {}) b t
          | none => setKreg s b k {}), .done)
      else (setKreg s b k { r with signed := mask }, .done)
    | .signed => (s, .done)
    | _ => (s, .withdrawn)

/-- R195. -/
def execSign (f : FormA) (s : State) : Result :=
  .next (eachLane s f.x.guard f.dst fun acc _ t =>
    let q := signK acc t.block (f.field 3 0) t.tid
    (q.1, q.2.word))

end Sys2Proof.Machine
end

