-- ==== Sys2Proof/Machine/Barrier.lean ====
section
/-!
DEFINITION. The barrier forms, opcodes 0xA0 to 0xA3 (18 R443-R448): their checks, and one lane's part of
each over the barrier units' operations.
-/

namespace Sys2Proof.Machine

/-- R444: whether a lane may name barrier i of a scope: declared by its launch, and a cluster group only
with the group flag. -/
def barrierAllowed (s : State) (t : Thread) (scope i : Nat) : Bool :=
  let d := (launchOfBlock s t.block).desc
  match scope with
  | 0 => decide (i < d.gangBars)
  | 1 => decide (i < d.blockBars)
  | 2 => d.group && decide (i < d.groupBars)
  | _ => decide (i < d.launchBars)

/-- R436: the scope an arrival releases at. -/
def barrierScope (scope : Nat) : Scope :=
  match scope with
  | 0 | 1 => .blk
  | 2 => .cls
  | _ => .dev

/-- R443, R444: a barrier form: every participating lane is checked before any acts. -/
def barrierForm (s : State) (g : Guard) (scope i : Nat) (act : State) : State :=
  if (activeLanes s g).all fun p => barrierAllowed s p.2 scope i then act
  else faultAt s .protection s.cur.word

/-- R445: `BARA` by one lane: the state and the status word. -/
def baraLane (scope i : Nat) (s : State) (u : Nat) (t : Thread) : State × Word :=
  let id := barrierId s t scope i
  let phase := (barrierOf s id).phase
  if (arrivalOf t id).state = 1 then (s, statusWord .busy phase) else (arrive s u t id, statusWord .done phase)

/-- R445, R436: the arrivals wait for their threads' earlier accesses. -/
def execBara (f : FormA) (s : State) : Result :=
  .next (barrierForm s f.x.guard (f.field 5 4) (f.field 3 0)
    (eachLane (holdUntilSettled s f.x.guard (barrierScope (f.field 5 4))) f.x.guard f.dst
      (baraLane (f.field 5 4) (f.field 3 0))))

/-- R435: what a wait on phase p comes to at issue. -/
def phaseResult (now p : Nat) : Option Status :=
  let d := (now + 16 - p % 16) % 16
  if d = 0 then none else if d ≤ 7 then some .done else some .stalePhase

/-- R446: `BARW` by one lane at issue. -/
def barwLane (f : FormW) (scope i : Nat) (s : State) (u : Nat) : State :=
  match threadOf s u with
  | none => s
  | some t =>
    let id := barrierId s t scope i
    let now := (barrierOf s id).phase
    let p := (srcWord t .a f.a).toNat % 16
    match phaseResult now p with
    | some st => endAtIssue s u f.dst f.x.deadline f.x.esc st (statusWord st now) (st == .done) fun r => r
    | none =>
      blockOrExpire s u t f.dst f.x.deadline f.x.esc (.barrier id p false) .timeout (statusWord .timeout now)

/-- R446. -/
def execBarw (f : FormW) (s : State) : Result :=
  .next (barrierForm s f.x.guard (f.field 5 4) (f.field 3 0)
    ((activeLanes s f.x.guard).foldl (fun acc p => barwLane f (f.field 5 4) (f.field 3 0) acc p.1) s))

/-- R447: the arrival of one lane of `BARS`: the state, and with the lane the phase it arrived in, or that its
arrival was rejected. -/
def barsArrive (scope i : Nat) (acc : State × List (Nat × Bool × Nat)) (u : Nat) :
    State × List (Nat × Bool × Nat) :=
  match threadOf acc.1 u with
  | none => acc
  | some t =>
    let id := barrierId acc.1 t scope i
    let phase := (barrierOf acc.1 id).phase
    if (arrivalOf t id).state = 1 then (acc.1, acc.2 ++ [(u, true, phase)])
    else (arrive acc.1 u t id, acc.2 ++ [(u, false, phase)])

/-- 20 R479: a `BARS` position whose arrivals ended the phase of a block barrier may be a checkpoint: its lanes that
arrived in that phase stand with the threads that already waited. `start` is the state before the arrivals, `q` what
`barsArrive` gives. -/
def barsPoint (start : State) (scope i : Nat) (q : State × List (Nat × Bool × Nat)) : State :=
  let b := start.cur.block
  let id : BarrierId := .block b i
  let phase := (barrierOf start id).phase
  let here := q.2.filterMap fun p => if !p.2.1 && p.2.2 == phase then some p.1 else none
  if scope = 1 ∧ (barrierOf q.1 id).phase ≠ phase ∧ checkpointHere start b i phase here = true then
    modSync q.1 b fun y => { y with checkpointDue := true }
  else q.1

/-- R447: the wait of one lane of `BARS` after every lane of its position has arrived: a rejected arrival ends at
once `BUSY`, one whose phase is over `DONE`. -/
def barsWait (f : FormW) (scope i : Nat) (s : State) (u : Nat) (rejected : Bool) (phase : Nat) : State :=
  match threadOf s u with
  | none => s
  | some t =>
    let id := barrierId s t scope i
    let finish (st : Status) : State :=
      endAtIssue s u f.dst f.x.deadline f.x.esc st (statusWord st phase) (st == .done) fun r => r
    if rejected then finish .busy
    else if (arrivalOf t id).state = 2 then finish .done
    else
      blockOrExpire s u t f.dst f.x.deadline f.x.esc (.barrier id phase true) .timeout (statusWord .timeout phase)

/-- R447: `BARS` over its lanes: the position arrives as `BARA` does, then each lane waits as `BARW` does on the
phase its arrival counted for. -/
def barsLanes (f : FormW) (s : State) : State :=
  let scope := f.field 5 4
  let i := f.field 3 0
  let arrived := (activeLanes s f.x.guard).foldl (fun acc p => barsArrive scope i acc p.1) (s, [])
  arrived.2.foldl (fun acc p => barsWait f scope i acc p.1 p.2.1 p.2.2) (barsPoint s scope i arrived)

/-- R447. -/
def execBars (f : FormW) (s : State) : Result :=
  .next (barrierForm s f.x.guard (f.field 5 4) (f.field 3 0)
    (barsLanes f (holdUntilSettled s f.x.guard (barrierScope (f.field 5 4)))))

/-- R440: `BARX` by one lane: the state and the status word. -/
def barxLane (scope i : Nat) (s : State) (u : Nat) (t : Thread) : State × Word :=
  let id := barrierId s t scope i
  match (arrivalOf t id).state with
  | 1 => (withdraw s u t id, Status.withdrawn.word)
  | 2 =>
    (modThread (setArrival s u id {}) u fun x =>
      x.modRegs fun r => { r with floor := max r.floor s.dtime }, Status.done.word)
  | _ => (s, Status.busy.word)

/-- R448. -/
def execBarx (f : FormA) (s : State) : Result :=
  .next (barrierForm s f.x.guard (f.field 5 4) (f.field 3 0)
    (eachLane s f.x.guard f.dst (barxLane (f.field 5 4) (f.field 3 0))))

end Sys2Proof.Machine
end

