-- ==== Sys2Proof/Machine/Integer.lean ====
section
/-!
DEFINITION. The integer forms, opcodes 0x00 to 0x24 (05 R104-R120), on the cores and, for the forms of
03 R73, on the Coachman at width 64 (14 R334). Integer forms raise no fault (05 R104).
-/

namespace Sys2Proof.Machine

/-- A form that computes one value of the agent's width from its three sources: 32 bits in every
participating lane, 64 bits on the Coachman. -/
def aluForm (s : State) (f : FormA) (op : (w : Nat) → BitVec w → BitVec w → BitVec w → BitVec w) : State :=
  match s.cur.agent with
  | .core => writeWord s f.x.guard f.dst fun _ t =>
      op 32 (srcWord t .a f.a) (srcWord t .b f.b) (srcWord t .c f.x.srcC)
  | .coachman => writeCoach s f.x.guard f.dst fun c =>
      op 64 (srcCoach c f.a) (srcCoach c f.b) (srcCoach c f.x.srcC)

/-- A form of the cores alone with a 32-bit result. -/
def wordForm (s : State) (f : FormA) (op : Thread → Word) : State :=
  writeWord s f.x.guard f.dst fun _ t => op t

/-- R107. -/
def execIadd (f : FormA) (s : State) : Result :=
  .next (aluForm s f fun _ a b _ => iaddV f.x.sat (f.bit 0) a b)

/-- R107. -/
def execIadd3 (f : FormA) (s : State) : Result :=
  .next (aluForm s f fun _ a b c => iadd3V f.x.sat (f.bit 0) (f.bit 1) (f.bit 2) (f.bit 3) a b c)

/-- R107. -/
def execIsub (f : FormA) (s : State) : Result :=
  .next (aluForm s f fun _ a b _ => isubV f.x.sat (f.bit 0) a b)

/-- R108: the carry in of a thread: bit 3, or the predicate that bits 2:0 name less one. -/
def carryIn (f : FormA) (p : Nat → Bool) : Bool :=
  if f.bit 3 then true else if f.field 2 0 = 0 then false else p (f.field 2 0 - 1)

/-- R108: one lane: the sum to `DST` and the latch, then the carry to the predicate selected. -/
def addcLane (j : Nat) (f : FormA) (t : Thread) : Thread :=
  let a := srcWord t .a f.a
  let b := srcWord t .b f.b
  let c := carryIn f t.regs.pred
  let t1 := putWord j f.dst (addcV a b c) t
  if f.field 6 4 = 0 then t1 else t1.modRegs fun r => r.setPred (f.field 6 4 - 1) (addcCarry a b c)

/-- 14 R334: on the Coachman the carry selects name m registers. -/
def addcCoach (j : Nat) (f : FormA) (c : Coach) : Coach :=
  let a := srcCoach c f.a
  let b := srcCoach c f.b
  let k := carryIn f fun n => c.get n != 0
  let c1 := c.put j f.dst (addcV a b k)
  if f.field 6 4 = 0 then c1 else c1.set (f.field 6 4 - 1) (boolV 64 (addcCarry a b k))

/-- R108, 14 R334. -/
def execAddc (f : FormA) (s : State) : Result :=
  match s.cur.agent with
  | .core => .next (forLanes s fun _ t =>
      if guardOn f.x.guard t.regs then addcLane (latchIndex s) f t else skipWord (latchIndex s) f.dst t)
  | .coachman => .next (modCoach s s.cur.core fun c =>
      if guardCoach f.x.guard c then addcCoach (latchIndex s) f c else c.skip (latchIndex s) f.dst)

/-- R109. -/
def execImul (f : FormA) (s : State) : Result :=
  .next (aluForm s f fun _ a b _ => imulV f.x.sat (f.bit 0) a b)

/-- R109, 14 R334. -/
def execImulh (f : FormA) (s : State) : Result :=
  .next (aluForm s f fun _ a b _ => imulhV (f.bit 0) a b)

/-- R109. -/
def execImad (f : FormA) (s : State) : Result :=
  .next (aluForm s f fun _ a b c => imadV f.x.sat (f.bit 0) a b c)

/-- R109: the result is a pair and fills the latch. -/
def execImadw (f : FormA) (s : State) : Result :=
  .next (writePair s f.x.guard f.dst fun _ t =>
    imadwV f.x.sat (f.bit 0) (srcWord t .a f.a) (srcWord t .b f.b) (srcPair t .c f.x.srcC))

/-- R110. -/
def execImin (f : FormA) (s : State) : Result := .next (aluForm s f fun _ a b _ => iminV (f.bit 0) a b)

/-- R110. -/
def execImax (f : FormA) (s : State) : Result := .next (aluForm s f fun _ a b _ => imaxV (f.bit 0) a b)

/-- R110. -/
def execIabs (f : FormA) (s : State) : Result :=
  .next (wordForm s f fun t => iabsV f.x.sat (srcWord t .a f.a))

/-- R110. -/
def execIneg (f : FormA) (s : State) : Result :=
  .next (wordForm s f fun t => inegV f.x.sat (srcWord t .a f.a))

/-- R111. -/
def execAnd (f : FormA) (s : State) : Result := .next (aluForm s f fun _ a b _ => a &&& b)

/-- R111. -/
def execOr (f : FormA) (s : State) : Result := .next (aluForm s f fun _ a b _ => a ||| b)

/-- R111. -/
def execXor (f : FormA) (s : State) : Result := .next (aluForm s f fun _ a b _ => a ^^^ b)

/-- R111. -/
def execNot (f : FormA) (s : State) : Result := .next (aluForm s f fun _ a _ _ => ~~~a)

/-- R111. -/
def execLogt (f : FormA) (s : State) : Result :=
  .next (wordForm s f fun t =>
    logtV (f.field 7 0) (srcWord t .a f.a) (srcWord t .b f.b) (srcWord t .c f.x.srcC))

/-- R112. -/
def execShl (f : FormA) (s : State) : Result := .next (aluForm s f fun _ a b _ => shlV (f.bit 0) a b)

/-- R112. -/
def execShr (f : FormA) (s : State) : Result := .next (aluForm s f fun _ a b _ => shrV (f.bit 0) a b)

/-- R112. -/
def execSar (f : FormA) (s : State) : Result := .next (aluForm s f fun _ a b _ => sarV (f.bit 0) a b)

/-- R112: `SRCA` is the low word, `SRCB` the high word. -/
def execFsh (f : FormA) (s : State) : Result :=
  .next (wordForm s f fun t =>
    fshV (f.bit 0) (srcWord t .a f.a) (srcWord t .b f.b) (srcWord t .c f.x.srcC))

/-- R112. -/
def execRotl (f : FormA) (s : State) : Result :=
  .next (wordForm s f fun t => rotlV (srcWord t .a f.a) (srcWord t .b f.b))

/-- R113. -/
def execBfx (f : FormA) (s : State) : Result := .next (aluForm s f fun _ a b _ => bfxV (f.bit 0) a b)

/-- R113: `SRCA` is inserted into `SRCB`. -/
def execBfi (f : FormA) (s : State) : Result := .next (aluForm s f fun _ a b c => bfiV a b c)

/-- R114. -/
def execPopc (f : FormA) (s : State) : Result :=
  .next (aluForm s f fun w a _ _ => BitVec.ofNat w (popCount a))

/-- R114. -/
def execClz (f : FormA) (s : State) : Result :=
  .next (aluForm s f fun w a _ _ => BitVec.ofNat w (clzCount a))

/-- R114. -/
def execCtz (f : FormA) (s : State) : Result :=
  .next (aluForm s f fun w a _ _ => BitVec.ofNat w (ctzCount a))

/-- R114. -/
def execBrev (f : FormA) (s : State) : Result := .next (wordForm s f fun t => brevV (srcWord t .a f.a))

/-- R115. -/
def execBsel (f : FormA) (s : State) : Result :=
  .next (wordForm s f fun t =>
    bselV (f.bit 12) (f.field 11 0) (srcWord t .a f.a) (srcWord t .b f.b) (srcWord t .c f.x.srcC))

/-- R116, 14 R334: to a predicate, or as 1 or 0 to a register with `.r`. -/
def execIset (f : FormA) (s : State) : Result :=
  match s.cur.agent with
  | .core =>
    if f.bit 4 then
      .next (wordForm s f fun t =>
        boolV 32 (compareV (f.bit 0) (f.field 3 1) (srcWord t .a f.a) (srcWord t .b f.b)))
    else
      .next (writePred s f.x.guard f.dst fun _ t =>
        compareV (f.bit 0) (f.field 3 1) (srcWord t .a f.a) (srcWord t .b f.b))
  | .coachman =>
    .next (writeCoach s f.x.guard f.dst fun c =>
      boolV 64 (compareV (f.bit 0) (f.field 3 1) (srcCoach c f.a) (srcCoach c f.b)))

/-- R117. -/
def execSel (f : FormA) (s : State) : Result :=
  .next (wordForm s f fun t => if srcPred t f.x.srcC then srcWord t .a f.a else srcWord t .b f.b)

/-- R119. -/
def execMov (f : FormA) (s : State) : Result := .next (aluForm s f fun _ a _ _ => a)

/-- R119, 14 R334. Format I carries no guard (03 R66). -/
def execMovi (f : FormI) (s : State) : Result :=
  match s.cur.agent with
  | .core => .next (writeWord s ⟨false, 0⟩ f.dst fun _ _ => f.imm)
  | .coachman => .next (writeCoach s ⟨false, 0⟩ f.dst fun _ => f.imm.setWidth 64)

/-- R119: v(n + 1) := imm, vn unchanged; the latch takes imm. -/
def movhLane (j : Nat) (f : FormI) (t : Thread) : Thread :=
  t.modRegs fun r => match f.dst with
    | .reg n => (r.set (stepReg t.ctl .dst n.toNat + 1) f.imm).setLatch j (f.imm.setWidth 64)
    | .suppress => r.setLatch j (f.imm.setWidth 64)

/-- 14 R334: bits 63:32 := imm, bits 31:0 unchanged, or 0 when write-back is suppressed. -/
def movhCoach (f : FormI) (c : Coach) : DWord :=
  match f.dst with
  | .reg n => f.imm.append ((c.get n.toNat).setWidth 32)
  | .suppress => f.imm.append (0 : Word)

/-- R119, 14 R334. -/
def execMovh (f : FormI) (s : State) : Result :=
  match s.cur.agent with
  | .core => .next (forLanes s fun _ t => movhLane (latchIndex s) f t)
  | .coachman => .next (writeCoach s ⟨false, 0⟩ f.dst fun c => movhCoach f c)

/-- R120. -/
def execLea (f : FormA) (s : State) : Result := .next (aluForm s f fun _ a b _ => leaV (f.field 4 0) a b)

/-- R120: a pair. -/
def execLeaw (f : FormA) (s : State) : Result :=
  .next (writePair s f.x.guard f.dst fun _ t =>
    leawV (f.bit 5) (f.field 4 0) (srcPair t .a f.a) (srcWord t .b f.b))

/-- R118. -/
def execPlop (f : FormA) (s : State) : Result :=
  .next (writePred s f.x.guard f.dst fun _ t =>
    plopV (f.field 7 0) (srcPred t f.a) (srcPred t f.b) (srcPred t f.x.srcC))

end Sys2Proof.Machine
end

