-- ==== Sys2Proof/Machine/Special.lean ====
section
/-!
DEFINITION. The special functions with an accuracy bound (07 R155, R156). The exact value is
approximated in fixed point with 96 fraction bits, far below the bound. The result is the value that
`Config.specialFn` proposes for the operand where it lies within the bound, and the correctly rounded
approximation where it does not, so a claim holds for every value the bound admits (log 12).
-/

namespace Sys2Proof.Machine

/-- 1.0 in the fixed point of this file. -/
def fxOne : Int := 2 ^ 96

/-- ln 2 with 96 fraction bits, truncated. -/
def fxLn2 : Int := 54916777467707473351141471128

/-- π with 96 fraction bits, truncated. -/
def fxPi : Int := 248902613312231085230521944622

/-- A product in fixed point. -/
def fxMul (a b : Int) : Int := a * b / fxOne

/-- A number ±m × 2^e in fixed point, truncated. -/
def fxOf (neg : Bool) (m : Nat) (e : Int) : Int :=
  signedMant neg (if 0 ≤ e + 96 then m * 2 ^ (e + 96).toNat else m / 2 ^ (-(e + 96)).toNat)

/-- e^y for 0 ≤ y < 1, by its power series to degree 34. -/
def fxExp (y : Int) : Int :=
  (List.range 34).foldl (fun acc k => fxOne + y * acc / (((34 - k : Nat) : Int) * fxOne)) fxOne

/-- sin y for |y| ≤ π/2, by its power series. -/
def fxSin (y : Int) : Int :=
  let y2 := fxMul y y
  fxMul y ((List.range 20).foldl
    (fun acc k => let n : Int := (20 - k : Nat); fxOne - y2 * acc / (2 * n * (2 * n + 1) * fxOne)) fxOne)

/-- cos y for |y| ≤ π/2, by its power series. -/
def fxCos (y : Int) : Int :=
  let y2 := fxMul y y
  (List.range 20).foldl
    (fun acc k => let n : Int := (20 - k : Nat); fxOne - y2 * acc / (2 * n * (2 * n - 1) * fxOne)) fxOne

/-- 2 atanh z for |z| ≤ 1/3, which is the logarithm of (1 + z)/(1 − z). -/
def fxLogRatio (z : Int) : Int :=
  let z2 := fxMul z z
  2 * fxMul z ((List.range 32).foldl
    (fun acc k => let n : Int := (31 - k : Nat); fxOne / (2 * n + 1) + fxMul z2 acc) 0)

/-- 07 R155: the exponent of the F32 spacing at a nonzero magnitude m × 2^e. -/
def ulpExp (m : Nat) (e : Int) : Int := max ((Nat.log2 m : Int) + e - 23) (-149)

/-- Whether |c − y| ≤ t × 2^te for a finite c, with y = ±m × 2^e. -/
def withinTol (c : FVal) (neg : Bool) (m : Nat) (e : Int) (t : Nat) (te : Int) : Bool :=
  match c with
  | .num cs cm ce =>
    let e0 := min (min ce e) te
    let d := signedMant cs cm * (2 : Int) ^ (ce - e0).toNat - signedMant neg m * (2 : Int) ^ (e - e0).toNat
    d.natAbs ≤ t * 2 ^ (te - e0).toNat
  | _ => false

/-- The value a form writes: the proposed one within the tolerance and the form's own condition, else
the rounded approximation. -/
def acceptOr (op : BitVec 8) (a : Word) (ok : FVal → Bool) (neg : Bool) (m : Nat) (e : Int) (t : Nat)
    (te : Int) : Nat :=
  let c := (Config.specialFn op a).toNat
  if withinTol (readFmt .f32 c) neg m e t te && ok (readFmt .f32 c) then c
  else roundNum .f32 .rn false neg m e

/-- A tolerance of n ulp at m × 2^e, less a 2^-20 part for the approximation's own error. -/
def ulpTol (n m : Nat) (e : Int) : Nat × Int := (n * (2 ^ 20 - 1), ulpExp m e - 20)

/-- Accepts within n ulp. -/
def acceptUlp (op : BitVec 8) (a : Word) (ok : FVal → Bool) (n : Nat) (neg : Bool) (m : Nat) (e : Int) : Nat :=
  let t := ulpTol n m e
  acceptOr op a ok neg m e t.1 t.2

/-- R155: accepts within an absolute error of 2^-22, less its last 2^-20 part: a proposal between the two is replaced by the
rounded value (DESIGN CHOICE, log 12, unsafe: such a result of a device is none of the model's). -/
def acceptAbs (op : BitVec 8) (a : Word) (y : Int) : Nat :=
  acceptOr op a (fun _ => true) (y < 0) y.natAbs (-96) (2 ^ 20 - 1) (-42)

/-- 07 R155: 1/√A within 1 ulp, exact where the result is an F32 value. -/
def frsqV (a : Word) : Nat :=
  match readFmt .f32 a.toNat with
  | .nan => Fmt.f32.nanCode
  | .inf neg => if neg then Fmt.f32.nanCode else 0
  | .num neg m e =>
    if m = 0 then Fmt.f32.withSign neg Fmt.f32.infCode
    else if neg then Fmt.f32.nanCode
    else
      let m2 := if e % 2 = 0 then m else 2 * m
      let e2 := if e % 2 = 0 then e else e - 1
      let q := Nat.sqrt (2 ^ 200 / m2)
      let qe : Int := -100 - e2 / 2
      if q * q * m2 = 2 ^ 200 then roundNum .f32 .rn false false q qe
      else acceptUlp 0x41 a (fun _ => true) 1 false q qe

/-- 2^x for a fixed-point x, as a mantissa and an exponent. -/
def pow2Fx (x : Int) : Nat × Int := ((fxExp (fxMul (x % fxOne) fxLn2)).toNat, x / fxOne - 96)

/-- 07 R155: 2^A within 2 ulp, exact at the integers −149 to 127. -/
def fex2V (a : Word) : Nat :=
  match readFmt .f32 a.toNat with
  | .nan => Fmt.f32.nanCode
  | .inf neg => if neg then 0 else Fmt.f32.infCode
  | .num neg m e =>
    if !neg && !numLt false m e false 128 0 then Fmt.f32.infCode
    else if numLt neg m e true 150 0 then 0
    else
      let t := fxOf neg m e
      let x := if neg && m != 0 && t = 0 then -1 else t
      if x % fxOne = 0 && !numLt neg m e true 149 0 && (0 ≤ e || m % 2 ^ (-e).toNat = 0) then
        roundNum .f32 .rn false false 1 (x / fxOne)
      else
        let p := pow2Fx x
        acceptUlp 0x43 a (fun _ => true) 2 false p.1 p.2

/-- 07 R155: log2 A, exact at powers of two. -/
def flg2V (a : Word) : Nat :=
  match readFmt .f32 a.toNat with
  | .nan => Fmt.f32.nanCode
  | .inf neg => if neg then Fmt.f32.nanCode else Fmt.f32.infCode
  | .num neg m e =>
    if m = 0 then Fmt.f32.withSign true Fmt.f32.infCode
    else if neg then Fmt.f32.nanCode
    else
      let l := Nat.log2 m
      let k : Int := (l : Int) + e
      if m = 2 ^ l then roundNum .f32 .rn false (k < 0) k.natAbs 0
      else
        let z := ((m : Int) - (2 : Int) ^ l) * fxOne / ((m : Int) + (2 : Int) ^ l)
        let y := k * fxOne + fxLogRatio z * fxOne / fxLn2
        if k = -1 || k = 0 then acceptAbs 0x44 a y
        else acceptUlp 0x44 a (fun _ => true) 2 (y < 0) y.natAbs (-96)

/-- 07 R155: A in quarter turns modulo 4, if A is a whole number of them. -/
def quarterTurns (neg : Bool) (m : Nat) (e : Int) : Option Nat :=
  if 0 ≤ e + 2 then some ((signedMant neg m * (2 : Int) ^ (e + 2).toNat) % 4).toNat
  else if m % 2 ^ (-(e + 2)).toNat = 0 then
    some ((signedMant neg (m / 2 ^ (-(e + 2)).toNat)) % 4).toNat
  else none

/-- 07 R155: the exact reduction to a quadrant and the angle within it: A turns are q quarter turns,
rounded to nearest, plus r, in fixed point; the angle of r is at most π/4. -/
def reduceTurns (neg : Bool) (m : Nat) (e : Int) : Nat × Int :=
  let q := roundInt .rn neg m (e + 2)
  let r := if 0 ≤ e + 96 then signedMant neg m * (2 : Int) ^ (e + 96).toNat - q * (2 : Int) ^ 94
           else fxOf neg m e - q * (2 : Int) ^ 94
  ((q % 4).toNat, 2 * fxMul r fxPi)

/-- sin or cos of q quarter turns plus the angle θ: q shifts the phase. -/
def sinQuadrant (q : Nat) (th : Int) : Int :=
  match q % 4 with
  | 0 => fxSin th
  | 1 => fxCos th
  | 2 => -fxSin th
  | _ => -fxCos th

/-- 07 R155: sin(2πA), absolute error at most 2^-22. -/
def fsinV (a : Word) : Nat :=
  match readFmt .f32 a.toNat with
  | .nan => Fmt.f32.nanCode
  | .inf _ => Fmt.f32.nanCode
  | .num neg m e =>
    if m = 0 then Fmt.f32.withSign neg 0
    else match quarterTurns neg m e with
      | some 1 => 0x3F800000
      | some 3 => 0xBF800000
      | some _ => 0
      | none =>
        let p := reduceTurns neg m e
        acceptAbs 0x45 a (sinQuadrant p.1 p.2)

/-- 07 R155: cos(2πA), absolute error at most 2^-22. -/
def fcosV (a : Word) : Nat :=
  match readFmt .f32 a.toNat with
  | .nan => Fmt.f32.nanCode
  | .inf _ => Fmt.f32.nanCode
  | .num neg m e =>
    match quarterTurns neg m e with
    | some 0 => 0x3F800000
    | some 2 => 0xBF800000
    | some _ => 0
    | none =>
      let p := reduceTurns neg m e
      acceptAbs 0x46 a (sinQuadrant (p.1 + 1) p.2)

/-- The magnitude of a value is at most 1. -/
def atMostOne : FVal → Bool
  | .num _ m e => !numLt false 1 0 false m e
  | _ => false

/-- 07 R155: tanh A within 2 ulp and at most 1 in magnitude. Below 2^-12 it is A − A³/3 to within
2^-50 of A; from 16 on it is 1 to within 2^-40. -/
def ftanhV (a : Word) : Nat :=
  match readFmt .f32 a.toNat with
  | .nan => Fmt.f32.nanCode
  | .inf neg => Fmt.f32.withSign neg 0x3F800000
  | .num neg m e =>
    if m = 0 then Fmt.f32.withSign neg 0
    else if numLt false m e false 1 (-12) then
      acceptUlp 0x47 a atMostOne 2 neg ((3 * m * 2 ^ (-2 * e).toNat - m ^ 3) * 2 ^ 8 / 3) (3 * e - 8)
    else if !numLt false m e false 16 0 then
      acceptUlp 0x47 a atMostOne 2 neg (2 ^ 96 - 1) (-96)
    else
      let p := pow2Fx (2 * fxOf false m e * fxOne / fxLn2)
      let x : Int := (p.1 : Int) * (2 : Int) ^ (p.2 + 96).toNat
      acceptUlp 0x47 a atMostOne 2 neg ((x - fxOne) * fxOne / (x + fxOne)).toNat (-96)

end Sys2Proof.Machine
end

