-- ==== Sys2Proof/Machine/FloatOps.lean ====
section
/-!
DEFINITION. The floating, packed, conversion and special-function forms, opcodes 0x25 to 0x38 and 0x40
to 0x4B (07 R144-R162). None faults at execution (07 R144).
-/

namespace Sys2Proof.Machine

/-- An F32 form with a 32-bit result. -/
def f32Form (s : State) (f : FormA) (op : Nat → Nat → Nat → Nat) : State :=
  wordForm s f fun t =>
    BitVec.ofNat 32 (op (operandA f t).toNat (operandB f t).toNat (operandC f t).toNat)

/-- R149. -/
def execFadd (f : FormA) (s : State) : Result := .next (f32Form s f fun a b _ => faddFmt .f32 f.x.rnd f.x.sat a b)

/-- R149. -/
def execFsub (f : FormA) (s : State) : Result := .next (f32Form s f fun a b _ => fsubFmt .f32 f.x.rnd f.x.sat a b)

/-- R149. -/
def execFmul (f : FormA) (s : State) : Result := .next (f32Form s f fun a b _ => fmulFmt .f32 f.x.rnd f.x.sat a b)

/-- R149. -/
def execFfma (f : FormA) (s : State) : Result := .next (f32Form s f fun a b c => ffmaFmt .f32 f.x.rnd f.x.sat a b c)

/-- R150. -/
def execFmin (f : FormA) (s : State) : Result := .next (f32Form s f fun a b _ => fminFmt .f32 a b)

/-- R150. -/
def execFmax (f : FormA) (s : State) : Result := .next (f32Form s f fun a b _ => fmaxFmt .f32 a b)

/-- R151: the comparison of one lane. -/
def fsetLane (f : FormA) (t : Thread) : Bool :=
  fcompare (f.field 3 1) (readFmt .f32 (operandA f t).toNat) (readFmt .f32 (operandB f t).toNat)

/-- R151, 05 R116: to a predicate, or as 1 or 0 to a register with `.r`. -/
def execFset (f : FormA) (s : State) : Result :=
  if f.bit 4 then .next (wordForm s f fun t => boolV 32 (fsetLane f t))
  else .next (writePred s f.x.guard f.dst fun _ t => fsetLane f t)

/-- R152. -/
def execFrnd (f : FormA) (s : State) : Result := .next (f32Form s f fun a _ _ => roundIntegral f.x.rnd a)

/-- R145: the format codes. -/
def fmtOfCode (c : Nat) : Fmt :=
  match c with
  | 0 => .f32
  | 1 => .h16
  | _ => .bf16

/-- R153, R157, R159: a source code in a format, the upper half with `.hi`. DESIGN CHOICE (log 79): an inline constant,
converted to a 16-bit format, stands in both halves. -/
def srcInFmt (k : Fmt) (hi : Bool) (t : Thread) (x : Src) : Nat :=
  match k with
  | .f32 => (srcF32 t .a x).toNat
  | _ => half (srcPacked k t .a x) hi.toNat

/-- R153. -/
def execFclass (f : FormA) (s : State) : Result :=
  .next (wordForm s f fun t =>
    let k := fmtOfCode (f.field 1 0)
    BitVec.ofNat 32 (2 ^ classBit k (srcInFmt k (f.bit 2) t f.a)))

/-- R145: the range of an integer type: bit 0 unsigned, bit 1 of 64 bits. -/
def itypeMin (ity : Nat) : Int :=
  match ity with
  | 0 => -2147483648
  | 2 => -9223372036854775808
  | _ => 0

/-- R145. -/
def itypeMax (ity : Nat) : Int :=
  match ity with
  | 0 => 2147483647
  | 1 => 4294967295
  | 2 => 9223372036854775807
  | _ => 18446744073709551615

/-- R157: the integer of one lane. -/
def f2iLane (f : FormA) (t : Thread) : Int :=
  let k := fmtOfCode (f.field 3 2)
  valToInt f.x.rnd (itypeMin (f.field 1 0)) (itypeMax (f.field 1 0)) (readFmt k (srcInFmt k (f.bit 4) t f.a))

/-- R157: a 64-bit type writes a pair. -/
def execF2i (f : FormA) (s : State) : Result :=
  if f.bit 1 then .next (writePair s f.x.guard f.dst fun _ t => BitVec.ofInt 64 (f2iLane f t))
  else .next (wordForm s f fun t => BitVec.ofInt 32 (f2iLane f t))

/-- R158: the integer of one lane, by its type. -/
def i2fValue (f : FormA) (t : Thread) : Int :=
  if f.bit 1 then readInt (f.bit 0) (srcPair t .a f.a) else readInt (f.bit 0) (srcWord t .a f.a)

/-- R158. -/
def execI2f (f : FormA) (s : State) : Result :=
  .next (wordForm s f fun t =>
    BitVec.ofNat 32 (roundVal (fmtOfCode (f.field 3 2)) f.x.rnd f.x.sat (intToVal (i2fValue f t))))

/-- R159: bits 1:0 give the source format and 3:2 the destination format. -/
def execF2f (f : FormA) (s : State) : Result :=
  .next (wordForm s f fun t =>
    let k := fmtOfCode (f.field 1 0)
    BitVec.ofNat 32 (roundVal (fmtOfCode (f.field 3 2)) f.x.rnd f.x.sat (readFmt k (srcInFmt k (f.bit 4) t f.a))))

/-- R154: each half computed on its own in a 16-bit format. -/
def packedForm (s : State) (k : Fmt) (f : FormA) (op : Nat → Nat → Nat → Nat) : State :=
  wordForm s f fun t =>
    let a := packedA k f t
    let b := packedB k f t
    let c := packedC k f t
    packHalves (op (half a 0) (half b 0) (half c 0)) (op (half a 1) (half b 1) (half c 1))

/-- R154. -/
def execHadd2 (f : FormA) (s : State) : Result :=
  .next (packedForm s .h16 f fun a b _ => faddFmt .h16 f.x.rnd f.x.sat a b)

/-- R154. -/
def execHmul2 (f : FormA) (s : State) : Result :=
  .next (packedForm s .h16 f fun a b _ => fmulFmt .h16 f.x.rnd f.x.sat a b)

/-- R154. -/
def execHfma2 (f : FormA) (s : State) : Result :=
  .next (packedForm s .h16 f fun a b c => ffmaFmt .h16 f.x.rnd f.x.sat a b c)

/-- R154. -/
def execHmin2 (f : FormA) (s : State) : Result := .next (packedForm s .h16 f fun a b _ => fminFmt .h16 a b)

/-- R154. -/
def execHmax2 (f : FormA) (s : State) : Result := .next (packedForm s .h16 f fun a b _ => fmaxFmt .h16 a b)

/-- R154. -/
def execBadd2 (f : FormA) (s : State) : Result :=
  .next (packedForm s .bf16 f fun a b _ => faddFmt .bf16 f.x.rnd f.x.sat a b)

/-- R154. -/
def execBmul2 (f : FormA) (s : State) : Result :=
  .next (packedForm s .bf16 f fun a b _ => fmulFmt .bf16 f.x.rnd f.x.sat a b)

/-- R154. -/
def execBfma2 (f : FormA) (s : State) : Result :=
  .next (packedForm s .bf16 f fun a b c => ffmaFmt .bf16 f.x.rnd f.x.sat a b c)

/-! ### Class 1: results that land later -/

/-- The outstanding register result of one lane (R148, 03 R62): the new value is `operand`, the value
it replaces `old`, the register `dst`; 128, which names no register, where write-back is suppressed. -/
def resultAccess (s : State) (id : Nat) (f : FormA) (new : Word) (uid : Nat) (t : Thread) : Access :=
  let n := match f.dst with
    | .reg n => stepReg t.ctl .dst n.toNat
    | .suppress => 128
  { id := id, kind := .result, space := .globalG, core := s.cur.core, block := s.cur.block,
    ctr := f.x.ctr.toNat,
    lanes := [{ uid := uid, dst := n, operand := new.setWidth 64, old := (t.regs.get n).setWidth 64 }] }

/-- The outstanding results of a position, numbered from `id` up; a suppressed destination with no
counter leaves none. -/
def resultAccesses (s : State) (f : FormA) (val : Thread → Word) : List (Nat × Thread) → Nat → List Access
  | [], _ => []
  | (u, t) :: r, id => resultAccess s id f (val t) u t :: resultAccesses s f val r (id + 1)

/-- R148, 03 R62: a class-1 form latches and writes its result in position order; the write stays
outstanding, named by its counter, until it lands (`LOAD_DATA_RETURN`), and at the clause end the
register shows its old value again until then. -/
def classOne (s : State) (f : FormA) (val : Thread → Word) : State :=
  let act := activeLanes s f.x.guard
  let s1 := wordForm s f val
  let s2 := forLanes s1 fun _ t =>
    if guardOn f.x.guard t.regs then t.modRegs fun r => r.ctrUp f.x.ctr.toNat else t
  let new := match f.dst with
    | .suppress => if f.x.ctr = 0 then [] else resultAccesses s f val act s.nextAccess
    | .reg _ => resultAccesses s f val act s.nextAccess
  { s2 with pend := s2.pend ++ new, nextAccess := s2.nextAccess + new.length,
            cur := { s2.cur with created := s2.cur.created ++ new.map Access.id } }

/-- A special function of one F32 operand (R155). -/
def specialForm (s : State) (f : FormA) (op : Word → Nat) : State :=
  classOne s f fun t => BitVec.ofNat 32 (op (operandA f t))

/-- R155: correctly rounded. -/
def execFrcp (f : FormA) (s : State) : Result :=
  .next (specialForm s f fun a => frcpV f.x.rnd f.x.sat (readFmt .f32 a.toNat))

/-- R155. -/
def execFrsq (f : FormA) (s : State) : Result := .next (specialForm s f frsqV)

/-- R155: correctly rounded. -/
def execFsqrt (f : FormA) (s : State) : Result :=
  .next (specialForm s f fun a => fsqrtV f.x.rnd (readFmt .f32 a.toNat))

/-- R155. -/
def execFex2 (f : FormA) (s : State) : Result := .next (specialForm s f fex2V)

/-- R155. -/
def execFlg2 (f : FormA) (s : State) : Result := .next (specialForm s f flg2V)

/-- R155. -/
def execFsin (f : FormA) (s : State) : Result := .next (specialForm s f fsinV)

/-- R155. -/
def execFcos (f : FormA) (s : State) : Result := .next (specialForm s f fcosV)

/-- R155. -/
def execFtanh (f : FormA) (s : State) : Result := .next (specialForm s f ftanhV)

/-! ### Narrow formats (R160-R162) -/

/-- A narrow format of a conversion form: element width in a register, element count, and how a value
is rounded into it and read from it. -/
structure Narrow where
  bits : Nat
  count : Nat
  pack : Rnd → Bool → FVal → Nat
  unpack : Nat → FVal

/-- A binary narrow format. -/
def narrowFmt (k : Fmt) (count : Nat) : Narrow :=
  { bits := k.width, count := count, pack := fun r sat v => roundVal k r sat v, unpack := fun c => readFmt k c }

/-- R160: L6 elements. -/
def narrowL6 : Narrow :=
  { bits := 6, count := 4, pack := fun r _ v => roundL6 r v, unpack := fun c => readL6 (c % 64) }

/-- Element j of a register (06 R131). -/
def element (n : Narrow) (x : Word) (j : Nat) : Nat := x.toNat / 2 ^ (n.bits * j) % 2 ^ n.bits

/-- A register from its elements; the bits above them are 0. -/
def fromElements (n : Narrow) (f : Nat → Nat) : Word :=
  BitVec.ofNat 32 ((List.range n.count).foldl (fun acc j => acc + f j % 2 ^ n.bits * 2 ^ (n.bits * j)) 0)

/-- R160: the value packed into element j: from F32 two elements at 2s, from a 16-bit format four at
4s, and the others merged from c. DESIGN CHOICE (log 79): an inline constant as c is the integer's bits. -/
def packLane (n : Narrow) (f : FormA) (t : Thread) : Word :=
  let k := fmtOfCode (f.field 3 2)
  let sel := f.field 6 4
  let c := srcWord t .c f.x.srcC
  match k with
  | .f32 =>
    fromElements n fun j =>
      if j = 2 * sel then n.pack f.x.rnd f.x.sat (readFmt .f32 (srcF32 t .a f.a).toNat)
      else if j = 2 * sel + 1 then n.pack f.x.rnd f.x.sat (readFmt .f32 (srcF32 t .b f.b).toNat)
      else element n c j
  | _ =>
    fromElements n fun j =>
      if 4 * sel ≤ j ∧ j < 4 * sel + 4 then
        let x := if j - 4 * sel < 2 then srcPacked k t .a f.a else srcPacked k t .b f.b
        n.pack f.x.rnd f.x.sat (readFmt k (half x ((j - 4 * sel) % 2)))
      else element n c j

/-- R160, R161: one element to F32, or two to a packed pair. DESIGN CHOICE (log 79): an inline constant as the narrow source
is the integer's bits. -/
def unpackLane (n : Narrow) (f : FormA) (t : Thread) : Word :=
  let k := fmtOfCode (f.field 3 2)
  let sel := f.field 6 4
  let a := srcWord t .a f.a
  match k with
  | .f32 => BitVec.ofNat 32 (roundVal .f32 f.x.rnd false (n.unpack (element n a sel)))
  | _ =>
    packHalves (roundVal k f.x.rnd false (n.unpack (element n a (2 * sel))))
      (roundVal k f.x.rnd false (n.unpack (element n a (2 * sel + 1))))

/-- R160. -/
def cvtLane (n : Narrow) (f : FormA) (t : Thread) : Word :=
  if f.bit 0 then unpackLane n f t else packLane n f t

/-- R160. -/
def execCvt8 (f : FormA) (s : State) : Result :=
  .next (classOne s f (cvtLane (narrowFmt (if f.bit 1 then .e5m2 else .e4m3) 4) f))

/-- R160. -/
def execCvt4 (f : FormA) (s : State) : Result := .next (classOne s f (cvtLane (narrowFmt .e2m1 8) f))

/-- R160. -/
def execCvtl (f : FormA) (s : State) : Result := .next (classOne s f (cvtLane narrowL6 f))

/-- R162: build replaces byte s of c by the scale of A; apply multiplies A by the scale, or its inverse
with `.inv`. DESIGN CHOICE (log 79): an inline constant as b or c is the integer's bits. -/
def scvLane (f : FormA) (t : Thread) : Word :=
  let sel := f.field 5 4
  let a := (srcF32 t .a f.a).toNat
  if f.bit 0 then
    let e := (byteOf (srcWord t .b f.b) sel).toNat
    if e = 255 then 0x7FC00000
    else
      let k : Int := if f.bit 1 then 127 - (e : Int) else (e : Int) - 127
      BitVec.ofNat 32 (roundVal .f32 f.x.rnd f.x.sat (mulVal (readFmt .f32 a) (.num false 1 k)))
  else
    let c := srcWord t .c f.x.srcC
    let e := buildScale (scaleEmax (f.field 3 2)) a
    wordOfBytes fun j => if j = sel then BitVec.ofNat 8 e else byteOf c j

/-- R162. -/
def execScv (f : FormA) (s : State) : Result := .next (classOne s f (scvLane f))

end Sys2Proof.Machine
end

