-- ==== Sys2Proof/Machine/LaneOps.lean ====
section
/-!
DEFINITION. The lane-exchange forms, opcodes 0x39 to 0x3D (07 R163-R170). A form reads every lane's
source as left by the position before it.
-/

namespace Sys2Proof.Machine

/-- R163: lane i of the bundle, if its thread participates. A bundle keeps its `%lane` values when
threads leave it (02 R32; log 7). -/
def laneAt (s : State) (g : Guard) (i : Nat) : Option Thread :=
  match (lanes s).find? (fun p => p.2.ctl.lane == i) with
  | none => none
  | some p => if guardOn g p.2.regs then some p.2 else none

/-- R163: a value of each lane position, absent where the lane does not participate. -/
def laneValues {α : Type} (s : State) (g : Guard) (f : Thread → α) : List (Option α) :=
  (List.range 32).map (fun i => (laneAt s g i).map f)

/-- A lane-exchange result in every participating lane, from its lane number. -/
def exchange (s : State) (f : FormA) (val : Nat → Thread → Word) : State :=
  writeWord s f.x.guard f.dst fun _ t => val t.ctl.lane t

/-- R164: the lane a lane reads from, and whether it lies in the lane's segment. -/
def shflTarget (mode seg lane k : Nat) : Option Nat :=
  let base := lane - lane % seg
  let t : Int := match mode with
    | 0 => ((base + Nat.xor (lane - base) (k % seg) : Nat) : Int)
    | 1 => (lane : Int) + k
    | 2 => (lane : Int) - k
    | 3 => ((base + k % seg : Nat) : Int)
    | _ => ((base + (lane - base + k) % seg : Nat) : Int)
  if t < base ∨ (base : Int) + seg ≤ t then none else some t.toNat

/-- R164: one lane's result: its own value where the target is outside or does not participate. -/
def shflLane (s : State) (f : FormA) (lane : Nat) (t : Thread) : Word :=
  match shflTarget (f.field 2 0) (32 / 2 ^ f.field 5 3) lane (srcWord t .b f.b).toNat with
  | none => srcWord t .a f.a
  | some j => match laneAt s f.x.guard j with
    | none => srcWord t .a f.a
    | some o => srcWord o .a f.a

/-- R164. -/
def execShfl (f : FormA) (s : State) : Result := .next (exchange s f (shflLane s f))

/-- R165: the predicate each participating lane votes. -/
def votes (s : State) (f : FormA) : List (Option Bool) :=
  laneValues s f.x.guard fun t => srcPred t f.a != f.bit 2

/-- R165: the mask of participating lanes in which p is true. -/
def voteMask (vs : List (Option Bool)) : Word := buildBits 32 fun i => vs[i]? == some (some true)

/-- R165: `.some`, `.every` and `.same`. -/
def voteResult (mode : Nat) (vs : List (Option Bool)) : Bool :=
  let ps := vs.filterMap id
  match mode with
  | 1 => ps.any id
  | 2 => ps.all id
  | _ => ps.all id || ps.all (fun b => !b)

/-- R165. -/
def execVote (f : FormA) (s : State) : Result :=
  if f.field 1 0 = 0 then .next (exchange s f fun _ _ => voteMask (votes s f))
  else .next (writePred s f.x.guard f.dst fun _ _ => voteResult (f.field 1 0) (votes s f))

/-- R166: the combination of two words by operation code. -/
def combine (op : Nat) (r : Rnd) (x y : Word) : Word :=
  match op with
  | 0 => x &&& y
  | 1 => x ||| y
  | 2 => x ^^^ y
  | 3 => x + y
  | 4 => iminV false x y
  | 5 => imaxV false x y
  | 6 => iminV true x y
  | 7 => imaxV true x y
  | 8 => BitVec.ofNat 32 (faddFmt .f32 r false x.toNat y.toNat)
  | 9 => BitVec.ofNat 32 (fminFmt .f32 x.toNat y.toNat)
  | _ => BitVec.ofNat 32 (fmaxFmt .f32 x.toNat y.toNat)

/-- R166: the identity of an operation. -/
def identityOf (op : Nat) : Word :=
  match op with
  | 0 => 0xFFFFFFFF
  | 1 | 2 | 3 => 0
  | 4 => 0x7FFFFFFF
  | 5 => 0x80000000
  | 6 => 0xFFFFFFFF
  | 7 => 0
  | 8 => 0x80000000
  | 9 => 0x7F800000
  | _ => 0xFF800000

/-- R167: a tree node: left ⊕ right, or the one that is present. -/
def combineOpt (g : Word → Word → Word) : Option Word → Option Word → Option Word
  | some x, some y => some (g x y)
  | some x, none => some x
  | none, y => y

/-- R167: one level of the tree. -/
def treeLevel (g : Word → Word → Word) : List (Option Word) → List (Option Word)
  | x :: y :: r => combineOpt g x y :: treeLevel g r
  | r => r

/-- R167: the fixed tree over the 32 lane positions, five levels. -/
def reduceTree (g : Word → Word → Word) (xs : List (Option Word)) : Option Word :=
  ((treeLevel g (treeLevel g (treeLevel g (treeLevel g (treeLevel g xs))))).head?).join

/-- R124, R147: the result of a combination: a floating operation's NaN is canonical, also one that met no other value. -/
def combined (op : Nat) (w : Word) : Word :=
  if 8 ≤ op ∧ 0x7F800000 < w.toNat % 2 ^ 31 then BitVec.ofNat 32 (Fmt.nanCode .f32) else w

/-- R167: the same value in every participating lane. -/
def execRedux (f : FormA) (s : State) : Result :=
  let v := reduceTree (combine (f.field 3 0) f.x.rnd)
    (laneValues s f.x.guard fun t => if f.field 3 0 < 8 then srcWord t .a f.a else srcF32 t .a f.a)
  .next (exchange s f fun _ _ => combined (f.field 3 0) (v.getD 0))

/-- R168: the combination, left to right, of the present values. -/
def scanOf (g : Word → Word → Word) (xs : List (Option Word)) : Option Word :=
  xs.foldl (fun acc x => match acc, x with
    | some a, some y => some (g a y)
    | none, y => y
    | a, none => a) none

/-- R168: in ascending lane order; with `.excl` the lanes below only, the lowest taking the identity. -/
def execPscan (f : FormA) (s : State) : Result :=
  let xs := laneValues s f.x.guard fun t =>
    if f.field 3 0 < 8 then srcWord t .a f.a else srcF32 t .a f.a
  .next (exchange s f fun lane _ =>
    combined (f.field 3 0) ((scanOf (combine (f.field 3 0) f.x.rnd)
      (xs.take (if f.bit 4 then lane else lane + 1))).getD (identityOf (f.field 3 0))))

/-- R169: the value a lane compares. -/
def matchValue (f : FormA) (t : Thread) : DWord :=
  if f.bit 0 then srcPair t .a f.a else (srcWord t .a f.a).setWidth 64

/-- R169: the lanes of a group, as a mask. -/
def groupMask (xs : List (Option DWord)) (x : DWord) : Word := buildBits 32 fun i => xs[i]? == some (some x)

/-- R169: the group mask, or its leader, size and the lane's rank. -/
def execMatch (f : FormA) (s : State) : Result :=
  let xs := laneValues s f.x.guard (matchValue f)
  .next (exchange s f fun lane t =>
    let m := groupMask xs (matchValue f t)
    if f.bit 1 then
      let rank := popCount (m &&& BitVec.ofNat 32 (2 ^ lane - 1))
      BitVec.ofNat 32 (ctzCount m + popCount m * 32 + rank * 2048)
    else m)

end Sys2Proof.Machine
end

