-- ==== Sys2Proof/Machine/Matrix.lean ====
section
/-!
DEFINITION. The matrix forms, opcodes 0x70 to 0x7C (12 R275-R298): they make, bind and post commands, own
tiles and entries, read pairs and wait for tickets. The engine itself is in EvEngine.lean.
-/

namespace Sys2Proof.Machine

/-! ### Ownership and entries (R278, R292) -/

/-- R278: the owner a block's tiles belong to. -/
def ownerOfBlock (s : State) (b : Nat) : TileOwner :=
  match (launchOfBlock s b).desc.group, (blockOf s b).group with
  | true, some g => .group g
  | _, _ => .block b

/-- The cluster a block is placed on. -/
def clusterOfBlock (s : State) (b : Nat) : Nat := clusterOfCore ((blockOf s b).core.getD s.cur.core)

/-- R278: the tiles of its cluster that a block's owner holds. -/
def tilesOwned (s : State) (b : Nat) : List Nat :=
  (List.range 8).filter fun t => mget (clusterOf s (clusterOfBlock s b)).owners t == some (ownerOfBlock s b)

/-- R292: the tiles owned and the entries held when the clause issued. -/
def ownedAtIssue (s : State) (b : Nat) : List Nat :=
  match s.cur.reserved with
  | some (_, ts) => ts
  | none => tilesOwned s b

/-- R292. -/
def heldAtIssue (s : State) (b : Nat) : Nat :=
  match s.cur.reserved with
  | some (n, _) => n
  | none => (syncOf s b).entries

/-- R292: what the clause's checks use, kept before the clause's first `RSV` or `RLS` acts. -/
def keepReserved (s : State) (b : Nat) : State :=
  match s.cur.reserved with
  | some _ => s
  | none => { s with cur := { s.cur with reserved := some ((syncOf s b).entries, tilesOwned s b) } }

/-- R278, R297: the commands of a block that have not completed. -/
def commandsOf (s : State) (b : Nat) : List MatCmd :=
  tableOf s (clusterOfBlock s b) b ++ ((syncOf s b).bound.map Prod.snd)

/-- R292: the entries a block has free. -/
def freeEntries (s : State) (b : Nat) : Nat := (syncOf s b).entries - (commandsOf s b).length

/-! ### Making and binding a command (R275, R277, R293) -/

/-- R277: the next ticket of a block. -/
def nextTicket (n : Nat) : Nat := if n = 0xFFFFFFFF then 1 else n + 1

/-- R277: a block's ticket counter advanced. -/
def takeTicket (s : State) (b : Nat) : State :=
  modSync s b fun k => { k with ticket := nextTicket k.ticket, wrapped := k.wrapped || k.ticket == 0xFFFFFFFF }

/-- R192: a command bound to a convergence register: posted at once, held, or completed `WITHDRAWN`. -/
def bindCommand (s : State) (k : Nat) (m : MatCmd) : State :=
  let r := kregOf s m.block k
  match r.state with
  | .idle => postMatrix s m
  | .signed => postMatrix (setKreg s m.block k {}) m
  | .declared =>
    modSync (setKreg s m.block k { r with state := .bound, command := some m.ticket }) m.block fun y =>
      { y with bound := mset y.bound m.ticket m }
  | _ => ringPut (setKreg s m.block k {}) m.block m.ticket .withdrawn .none

/-- R292: the opcodes of the posting forms. -/
def posts (i : Instr) : Option FormA :=
  match i with
  | .mmal6 f | .mmae2 f | .mmaf8a f | .mmaf8b f | .mmab16 f | .mmai8 f | .accz f | .accld f | .accst f => some f
  | _ => none

/-- R292: whether a fetched clause has the free entries its posting positions need: where their number is above the entries
held, the clause does not wait. -/
def entriesReady (s : State) : Bool :=
  let n := (s.cur.code.filter fun p => ((posts p.2).map fun f => !(activeLanes s f.x.guard).isEmpty).getD false).length
  n == 0 || decide ((syncOf s s.cur.block).entries < n) || decide (n ≤ freeEntries s s.cur.block)

/-- R275, R292: a posting form: the checks of the lowest participating lane, then the ticket to every
participating lane, and the command bound. `bad` is the form's own checks 1 to 3. -/
def postingForm (s : State) (f : FormA) (op : Nat) (bad : Thread → MatCmd → Option (FaultCode × Nat))
    (fill : Thread → MatCmd → MatCmd) : State :=
  match activeLanes s f.x.guard with
  | [] => eachLane s f.x.guard f.dst fun acc _ _ => (acc, 0)
  | (u, t) :: _ =>
    let b := t.block
    let k := f.field 3 0
    let ticket := nextTicket (syncOf s b).ticket
    let base : MatCmd := { op := op, ctx := ctxOfBlock s b, block := b, core := s.cur.core,
                           cluster := clusterOfCore s.cur.core, thread := u, ticket := ticket, seq := 0,
                           tile := stepTile t.ctl (f.field 6 4) }
    let m := fill t base
    match bad t m with
    | some (c, a) => faultAt s c a
    | none =>
      if !(m.tiles.all fun x => (ownedAtIssue s b).contains x) || (kregOf s b k).state == .bound then
        faultAt s .reservation s.cur.word
      else if heldAtIssue s b < s.cur.posts + 1 then faultAt s .reservation s.cur.word
      else
        let s1 : State := { s with cur := { s.cur with posts := s.cur.posts + 1 } }
        let s2 := bindCommand (takeTicket s1 b) k m
        eachLane s2 f.x.guard f.dst fun acc _ _ => (acc, BitVec.ofNat 32 ticket)

/-! ### Multiply forms (R279-R286) -/

/-- R285: byte q of register c + i of a lane, or 0xFF where the lane does not participate. -/
def scaleByte (s : State) (f : FormA) (lane i q : Nat) : Nat :=
  match laneAt s f.x.guard lane with
  | none => 255
  | some t =>
    match f.x.srcC with
    | .reg n => (byteOf (t.regs.get (stepReg t.ctl .c n.toNat + i)) q).toNat
    | _ => 255

/-- R285: the scales captured for `count` rows or columns, from register c + first on. -/
def captureScales (s : State) (f : FormA) (first count : Nat) : List Nat :=
  (List.range count).flatMap fun m => (List.range 4).map fun p =>
    scaleByte s f (m % 32) (first + m / 32) (f.field 8 7 + p)

/-- R286: the valid counts of a pair. -/
def validCounts (x : DWord) (n : Nat) : Nat × Nat := (min (dbits x 31 0) 128, min (dbits x 63 32) n)

/-- R279, R293: the command of a multiply form. -/
def multiplyCmd (s : State) (f : FormA) (t : Thread) (m : MatCmd) : MatCmd :=
  let n := (passShape m.op).2.2.2
  let v := validCounts (srcPair t .b f.b) n
  { m with
    desc := srcPair t .a f.a, vr := v.1, vc := v.2, passes := f.field 10 9 + 1, overwrite := f.bit 12
    rowScale := if f.bit 11 then captureScales s f 0 128 else []
    colScale := if f.bit 11 then captureScales s f 4 n else [] }

/-- R292 check 2: an operand region: a core, its first row and its rows. -/
def operandOk (s : State) (ctx core row rows : Nat) : Bool :=
  row % 16 == 0 && decide (row + rows ≤ 64 * (roleBanks (coreOf s core) 2).length)
    && (match (coreOf s core).tobLaunch with
        | some l => (launchOf s l).ctx == ctx
        | none => true)

/-- R292 checks 2 and 3 of a multiply form. -/
def multiplyBad (s : State) (m : MatCmd) : Option (FaultCode × Nat) :=
  let k := passShape m.op
  if dbits m.desc 63 35 ≠ 0 ∨ (m.op ≠ 0x75 ∧ dbits m.desc 34 33 ≠ 0)
      ∨ !operandOk s m.ctx m.acore m.arow (m.passes * k.2.1)
      ∨ !operandOk s m.ctx m.bcore m.brow (m.passes * k.2.2.1) then some (.protection, m.desc.toNat)
  else if m.alay = 0 ∨ 3 < m.alay ∨ m.blay = 0 ∨ 3 < m.blay then some (.layoutMismatch, m.desc.toNat)
  else none

/-- R293: a multiply form. -/
def multiplyForm (s : State) (f : FormA) (op : Nat) : State :=
  postingForm s f op (fun _ m => multiplyBad s m) (multiplyCmd s f)

/-- R293. -/
def execMmal6 (f : FormA) (s : State) : Result := .next (multiplyForm s f 0x70)

/-- R293. -/
def execMmae2 (f : FormA) (s : State) : Result := .next (multiplyForm s f 0x71)

/-- R293. -/
def execMmaf8a (f : FormA) (s : State) : Result := .next (multiplyForm s f 0x72)

/-- R293. -/
def execMmaf8b (f : FormA) (s : State) : Result := .next (multiplyForm s f 0x73)

/-- R293. -/
def execMmab16 (f : FormA) (s : State) : Result := .next (multiplyForm s f 0x74)

/-- R293. -/
def execMmai8 (f : FormA) (s : State) : Result := .next (multiplyForm s f 0x75)

/-- R293. -/
def execAccz (f : FormA) (s : State) : Result := .next (postingForm s f 0x78 (fun _ _ => none) fun _ m => m)

/-! ### ACCLD and ACCST (R294) -/

/-- R294: the address, stride, valid counts and, for `ACCST`, the bound register captured at issue. -/
def moveCmd (s : State) (f : FormA) (t : Thread) (m : MatCmd) : MatCmd :=
  let v := validCounts (srcPair t .c f.x.srcC) 128
  let bd := bdOf (ctxOf s m.ctx) (f.field 12 9)
  { m with
    vr := v.1, vc := v.2, pair := f.bit 7, scratch := f.bit 8
    addr := if f.bit 8 then (srcWord t .a f.a).toNat else (srcPair t .a f.a).toNat
    stride := (srcWord t .b f.b).toNat
    lo := bd.1, hi := bd.2.1, act := bd.2.2.toNat }

/-- R294: whether every row of valid elements lies in the valid S window. -/
def moveInWindow (s : State) (m : MatCmd) : Bool :=
  m.vc == 0 || (List.range m.vr).all fun r =>
    windowOk s m.block m.core (m.addr + r * m.stride) (m.vc * m.width)

/-- R292 checks 1 and 2 of `ACCLD` and `ACCST`. -/
def moveBad (s : State) (m : MatCmd) : Option (FaultCode × Nat) :=
  let last := m.addr + (m.vr - 1) * m.stride + (m.vc - 1) * m.width
  if m.addr % m.width ≠ 0 ∨ m.stride % m.width ≠ 0 then some (.alignment, m.addr)
  else if m.scratch then (if moveInWindow s m then none else some (.protection, m.addr))
  else if m.vr ≠ 0 ∧ m.vc ≠ 0 ∧ 2 ^ 56 ≤ last then some (.protection, m.addr)
  else none

/-- R294. -/
def execAccld (f : FormA) (s : State) : Result :=
  .next (postingForm s f 0x79 (fun _ m => moveBad s m) (moveCmd s f))

/-- R294, R295. -/
def execAccst (f : FormA) (s : State) : Result :=
  .next (postingForm s f 0x7A (fun _ m => moveBad s m) (moveCmd s f))

/-! ### ACCRD (R296) -/

/-- R296: the position a lane reads: row, first column, and whether pairs come back whole. -/
def readPosition (f : FormA) (pos : Word) : List Nat :=
  let n := pos.toNat / 256 % 128
  if f.bit 7 then [pos.toNat % 128, n - n % 2, 1] else [pos.toNat % 128, n - n % 4, 0]

/-- R296. -/
def execAccrd (f : FormA) (s : State) : Result :=
  let ps := activeLanes s f.x.guard
  let tileOf (t : Thread) : Nat := stepTile t.ctl (f.field 6 4)
  if !(ps.all fun p => (ownedAtIssue s p.2.block).contains (tileOf p.2)) then
    .next (faultAt s .reservation s.cur.word)
  else
    let proto : Access := { id := 0, kind := .load, space := .globalG, core := s.cur.core,
                            ctx := ctxOfBlock s s.cur.block, block := s.cur.block, ctr := f.x.ctr.toNat }
    .next (issueRequests s proto (ps.map fun p =>
      { uid := p.1, mem := .tile (clusterOfCore s.cur.core) (tileOf p.2)
        addrs := readPosition f (srcWord p.2 .a f.a)
        dst := match f.dst with
          | .reg n => stepReg p.2.ctl .dst n.toNat
          | .suppress => 0 }))

/-! ### RSV and RLS (R297) -/

/-- R297: tiles of a mask. -/
def maskTiles (x : Word) : List Nat := (List.range 8).filter fun t => x.getLsbD t

/-- R297: the free entries of a cluster: 16 less those its blocks hold; the allotments of a context that is switched out are
saved with it (R302). -/
def clusterFree (s : State) (cluster : Nat) : Nat :=
  16 - (s.work.blocks.filter fun p => p.2.core.map clusterOfCore == some cluster
      && (ctxOf s (ctxOfBlock s p.1)).resident).foldl
    (fun n p => n + (syncOf s p.1).entries) 0

/-- R297: a tile taken by an owner of a context; its pairs are zeroed where its last owner's context
differs. -/
def ownTile (ctx : Nat) (o : TileOwner) (c : Cluster) (t : Nat) : Cluster :=
  if mget c.owners t = some o then c
  else
    { c with
      tiles := if mget c.lastCtx t = some ctx then c.tiles else merase c.tiles t
      owners := mset c.owners t o
      lastCtx := mset c.lastCtx t ctx }

/-- R297, 22 R506: the tiles whose pairs are zeroed as they are taken: what is written whole is poison no more. -/
def clearTiles (s : State) (cluster : Nat) (tiles : List Nat) : State :=
  if s.mem.poisoned.isEmpty then s
  else { s with mem := { s.mem with poisoned := s.mem.poisoned.filter fun k =>
    !(k / 2 ^ 60 == memTag (.tile cluster 0) && tiles.any fun t => k % 2 ^ 60 / 4096 == 8 * cluster + t) } }

/-- R297: the tiles of a mask that an owner takes from another context's last. -/
def freshTiles (c : Cluster) (ctx : Nat) (o : TileOwner) (tiles : List Nat) : List Nat :=
  tiles.filter fun t => mget c.owners t != some o && mget c.lastCtx t != some ctx

/-- R297: the effect and status of `RSV`. -/
def reserve (s : State) (b : Nat) (tiles : List Nat) (n prio : Nat) : State × Status :=
  let c := clusterOfBlock s b
  let o := ownerOfBlock s b
  let taken := tiles.any fun t => match mget (clusterOf s c).owners t with
    | none => false
    | some x => x != o
  if taken || decide (8 < (syncOf s b).entries + n) || decide (clusterFree s c < n) then (s, .busy)
  else
    let s1 := modCluster (clearTiles s c (freshTiles (clusterOf s c) (ctxOfBlock s b) o tiles)) c fun x =>
      tiles.foldl (ownTile (ctxOfBlock s b) o) x
    (modSync s1 b fun k => { k with entries := k.entries + n, prio := prio }, .done)

/-- R297: the blocks of a block's owner. -/
def ownerBlocks (s : State) (b : Nat) : List Nat :=
  match ownerOfBlock s b with
  | .group g => (groupOf s g).blocks
  | .block x => [x]

/-- R297: the effect and status of `RLS`. -/
def release (s : State) (b : Nat) (tiles : List Nat) (n : Nat) : State × Status :=
  let mine := tiles.filter fun t => (tilesOwned s b).contains t
  let held := (syncOf s b).entries
  let k := min n held
  let cmds := (ownerBlocks s b).flatMap (commandsOf s)
  if (mine.any fun t => cmds.any fun m => m.tiles.contains t) || decide (held - k < (commandsOf s b).length) then
    (s, .busy)
  else
    let s1 := modCluster s (clusterOfBlock s b) fun x => { x with owners := mine.foldl merase x.owners }
    (modSync s1 b fun y => { y with entries := held - k }, .done)

/-- R297: a form that acts once per bundle with the lowest participating lane's operands. -/
def oncePerBundle (s : State) (f : FormA) (act : State → Thread → State × Status) : State :=
  match activeLanes s f.x.guard with
  | [] => eachLane s f.x.guard f.dst fun acc _ _ => (acc, 0)
  | (_, t) :: _ =>
    let q := act (keepReserved s t.block) t
    eachLane q.1 f.x.guard f.dst fun acc _ _ => (acc, q.2.word)

/-- R297. -/
def execRsv (f : FormA) (s : State) : Result :=
  .next (oncePerBundle s f fun acc t =>
    reserve acc t.block (maskTiles (srcWord t .a f.a)) (srcWord t .b f.b).toNat (f.field 1 0))

/-- R297. -/
def execRls (f : FormA) (s : State) : Result :=
  .next (oncePerBundle s f fun acc t =>
    release acc t.block (maskTiles (srcWord t .a f.a)) (srcWord t .b f.b).toNat)

/-! ### Waiting for tickets (R298, 14 R344) -/

/-- R298: the tickets from `t` back over the 64 most recent of a counter, oldest first. -/
def recentUpTo (last : Nat) (wrapped : Bool) (t : Nat) : List Nat :=
  let at_ (d : Nat) : Nat := if d < last then last - d else last + 0xFFFFFFFF - d
  let all := (List.range 64).filter fun d => wrapped || decide (d < last)
  ((all.map at_).filter fun x => (all.map at_).idxOf t ≤ (all.map at_).idxOf x).reverse

/-- R298: whether t is one of the 64 most recent tickets. -/
def isRecent (last : Nat) (wrapped : Bool) (t : Nat) : Bool :=
  t != 0 && (if t ≤ last then decide (last - t < 64) else wrapped && decide (last + 0xFFFFFFFF - t < 64))

/-- R298: what a wait for ticket t comes to: a status and its fault code, or nothing yet. -/
def ticketResult (last : Nat) (wrapped : Bool) (open_ : Nat → Bool) (ring : SMap RingEntry) (t : Nat) (all : Bool) :
    Option (Status × FaultCode) :=
  let entry (x : Nat) : RingEntry := mgetD ring (x % 64) {}
  if t = 0 then some (.done, .none)
  else if !isRecent last wrapped t then some (.stalePhase, .none)
  else
    let ts := if all then recentUpTo last wrapped t else [t]
    if ts.any open_ then none
    else
      match ts.find? fun x => (entry x).status != .done with
      | some x => some ((entry x).status, (entry x).fault)
      | none => some (.done, .none)

/-- R298: a block's matrix ticket. -/
def matrixResult (s : State) (b t : Nat) (all : Bool) : Option (Status × FaultCode) :=
  let k := syncOf s b
  ticketResult k.ticket k.wrapped (fun x => (commandsOf s b).any fun m => m.ticket == x) k.ring t all

/-- R298: the destination of a ticket wait. -/
def ticketWord (st : Status) (code : FaultCode) : Word :=
  statusWord st (if st = .faulted then code.byte else 0)

/-- R298: `MWAIT` by one lane at issue. -/
def mwaitLane (s : State) (f : FormW) (u : Nat) (t : Thread) : State :=
  let n := (srcWord t .a f.a).toNat
  let all := f.field 0 0 == 1
  match matrixResult s t.block n all with
  | some (st, code) =>
    endAtIssue s u f.dst f.x.deadline f.x.esc st (ticketWord st code) (st == .done) fun r => r
  | none =>
    blockOrExpire s u t f.dst f.x.deadline f.x.esc (.matrix t.block n all) .timeout Status.timeout.word

/-- R298. -/
def execMwait (f : FormW) (s : State) : Result :=
  .next ((activeLanes s f.x.guard).foldl (fun acc p => mwaitLane acc f p.1 p.2) s)

end Sys2Proof.Machine
end

