-- ==== Sys2Proof/Machine/CopyTb.lean ====
section
/-!
DEFINITION. The copy forms and `CPW`, opcodes 0x68 to 0x6D (14 R335-R344), transaction barriers (14
R345-R348) and circular buffers (14 R349-R352).
-/

namespace Sys2Proof.Machine

/-- A position of the Coachman that acts and writes a status to its m register and latch. -/
def coachAct (s : State) (g : Guard) (d : Dst) (f : Coach → State × DWord) : State :=
  let c := coachOf s s.cur.core
  if guardCoach g c then
    let q := f c
    modCoach q.1 s.cur.core fun x => x.put (latchIndex s) d q.2
  else modCoach s s.cur.core fun x => x.skip (latchIndex s) d

/-! ### Transaction barriers (R345, R346) -/

/-- A transaction barrier of a core. -/
def tbOf (s : State) (core i : Nat) : TxBarrier := mgetD (coreOf s core).tbs i {}

/-- A transaction barrier written. -/
def setTb (s : State) (core i : Nat) (b : TxBarrier) : State :=
  modCore s core fun c => { c with tbs := mset c.tbs i b }

/-- R346: the check after every `TBA`, `TBE` and delivery: with nothing pending the phase completes. -/
def TxBarrier.settle (b : TxBarrier) : TxBarrier :=
  if b.valid && b.arr == 0 && b.sect == 0 then { b with phase := (b.phase + 1) % 16, arr := b.init, flag := 0 }
  else b

/-- R343, R346: a sector delivered on a barrier; one that is not initialised discards it. -/
def TxBarrier.deliver (b : TxBarrier) : TxBarrier :=
  if b.valid then { b with sect := b.sect - 1 }.settle else b

/-- R348: `TBI`. -/
def TxBarrier.initTb (b : TxBarrier) (n : Nat) : TxBarrier × Status :=
  if b.valid && (b.arr != b.init || b.sect != 0) || decide (2047 < n) then (b, .busy)
  else if n = 0 then ({ b with valid := false }, .done)
  else ({ b with valid := true, init := n, arr := n, sect := 0, flag := 0 }, .done)

/-- R348: `TBA`: the barrier and the phase word, bit 31 set where it is rejected. -/
def TxBarrier.arriveTb (b : TxBarrier) : TxBarrier × Nat :=
  if !b.valid || b.arr == 0 then (b, b.phase + 2 ^ 31) else ({ b with arr := b.arr - 1 }.settle, b.phase)

/-- R348: `TBE`. -/
def TxBarrier.expectTb (b : TxBarrier) (n : Nat) : TxBarrier × Status :=
  if !b.valid || decide ((2 : Int) ^ 31 - 1 < b.sect + n) then (b, .busy)
  else ({ b with sect := b.sect + n }.settle, .done)

/-- R345: the status a barrier's `F` names. -/
def flagStatus (f : Nat) : Status := if f = 1 then .faulted else if f = 2 then .poisoned else .cancelled

/-- R348: what a `TBW` for a phase comes to. -/
def TxBarrier.result (b : TxBarrier) (phase : Nat) : Option Status :=
  let d := (b.phase + 16 - phase % 16) % 16
  if 1 ≤ d ∧ d ≤ 7 then some .done
  else if 8 ≤ d then some .stalePhase
  else if !b.valid then some .busy
  else if b.flag ≠ 0 then some (flagStatus b.flag)
  else none

/-- 22 R507: a thread that reads a barrier which a double-bit error has poisoned consumes poison. -/
def readTb (s : State) (core i u block : Nat) : State :=
  consumeLane s block ((coreOf s core).badTbs.contains i) u

/-- 22 R507: what a form leaves of a barrier; one that writes it whole ends its poison. -/
def putTb (s : State) (core i : Nat) (whole : Bool) (b : TxBarrier) : State :=
  modCore s core fun c =>
    { c with tbs := mset c.tbs i b, badTbs := if whole then c.badTbs.filter (· != i) else c.badTbs }

/-- A transaction-barrier form on either agent: the barrier, the operand and the word written; `whole` for the form that reads
nothing of what the barrier held before its first initialisation. -/
def tbForm (s : State) (f : FormA) (whole : Bool) (act : TxBarrier → Nat → TxBarrier × Nat) : State :=
  let i := f.field 5 0
  match s.cur.agent with
  | .core => eachLane s f.x.guard f.dst fun acc u t =>
      let q := act (tbOf acc s.cur.core i) (srcWord t .a f.a).toNat
      (putTb (if whole then acc else readTb acc s.cur.core i u t.block) s.cur.core i whole q.1, BitVec.ofNat 32 q.2)
  | .coachman => coachAct s f.x.guard f.dst fun c =>
      let q := act (tbOf s s.cur.core i) (srcCoach c f.a).toNat
      (putTb s s.cur.core i whole q.1, BitVec.ofNat 64 q.2)

/-- R348. -/
def execTbi (f : FormA) (s : State) : Result :=
  .next (tbForm s f true fun b n => ((b.initTb n).1, (b.initTb n).2.code))

/-- R348. -/
def execTba (f : FormA) (s : State) : Result := .next (tbForm s f false fun b _ => b.arriveTb)

/-- R348. -/
def execTbe (f : FormA) (s : State) : Result :=
  .next (tbForm s f false fun b n => ((b.expectTb n).1, (b.expectTb n).2.code))

/-- R348: `TBW` by one lane at issue. -/
def tbwLane (s : State) (f : FormW) (u : Nat) (t : Thread) : State :=
  let i := f.field 5 0
  let phase := (srcWord t .a f.a).toNat
  match (tbOf s s.cur.core i).result phase with
  | some st => endAtIssue (readTb s s.cur.core i u t.block) u f.dst f.x.deadline f.x.esc st st.word (st == .done) fun r => r
  | none => blockOrExpire s u t f.dst f.x.deadline f.x.esc (.tb s.cur.core i phase) .timeout Status.timeout.word

/-- R348, R332. -/
def execTbw (f : FormW) (s : State) : Result :=
  match s.cur.agent with
  | .core => .next ((activeLanes s f.x.guard).foldl (fun acc p => tbwLane acc f p.1 p.2) s)
  | .coachman =>
    let c := coachOf s s.cur.core
    let i := f.field 5 0
    let phase := (srcCoach c f.a).toNat
    if !guardCoach f.x.guard c then .next s
    else
      match (tbOf s s.cur.core i).result phase with
      | some st => .next (endCoachAtIssue s f.dst f.x.deadline f.x.esc st (st.word.setWidth 64) fun x => x)
      | none =>
        .next (blockCoach s f.dst f.x.deadline f.x.esc (.tb s.cur.core i phase) .timeout
          (Status.timeout.word.setWidth 64))

/-! ### The copy forms (R335-R339) -/

/-- R336: the command a copy form makes from its command block. -/
def copyCmdOf (s : State) (op : Nat) (c : Coach) (f : FormA) : CopyCmd :=
  let n := match f.a with
    | .reg r => r.toNat
    | _ => 0
  { ticket := nextTicket (coreOf s s.cur.core).copyTicket, op := op, ctx := ctxOfBlock s s.cur.block,
    block := s.cur.block, core := s.cur.core, seq := (syncOf s s.cur.block).posts, control := c.get n,
    shape := c.get (n + 1), src := c.get (n + 2), dst := c.get (n + 3), stride := c.get (n + 4) }

/-- R339: the blocks a copy writes S of: its own, or the peers of a `CPX`. -/
def copyTargets (s : State) (c : CopyCmd) : List (Option Nat) :=
  if c.outward then []
  else if c.op = 0x6A then c.peers.map (peerBlock s c.block)
  else [some c.block]

/-- R339: the cores whose barriers count a copy's sectors. -/
def copyCores (c : CopyCmd) : List Nat :=
  if c.op = 0x6A then c.peers.map fun p => 4 * clusterOfCore c.core + p else [c.core]

/-- R338 check 1. -/
def copyMisaligned (c : CopyCmd) : Bool :=
  c.src.toNat % 32 != 0 || c.dst.toNat % 32 != 0 || c.sstr % 32 != 0 || c.dstr % 32 != 0
    || dbits c.control 63 40 % 4 != 0

/-- R338 check 2: the codes and the fields a form does not take. -/
def copyFieldsBad (c : CopyCmd) : Bool :=
  let conv := dbits c.control 3 1
  let narrow := conv == 1 || conv == 2
  let rnd := dbits c.control 5 4
  dbits c.control 35 22 != 0 || dbits c.shape 63 37 != 0 || dbits c.control 9 7 > 3 || rnd == 3 || conv > 4
    || (c.op != 0x6B && dbits c.control 63 40 != 0)
    || (c.op == 0x6A) == c.peers.isEmpty
    || (c.op != 0x6C && dbit c.control 0)
    || (c.op == 0x6C) == (conv == 0)
    || (!narrow && (rnd != 0 || dbit c.control 6))
    || dbits c.shape 11 0 == 0 || (narrow && dbits c.shape 11 0 % 2 == 1)
    || (dbit c.control 21 && (c.outward || c.op == 0x6A))

/-- R338 check 2: the S span of a copy's valid rows, from the first byte to the last, inside one valid window (09 R209). -/
def copyRowsOk (s : State) (block core base rows stride bytes : Nat) : Bool :=
  rows == 0 || windowOk s block core base (spanEnd base rows stride bytes - base)

/-- The circular buffer a copy names. -/
def copyBuf (s : State) (c : CopyCmd) : CircBuf := mgetD (coreOf s c.core).cbufs (dbits c.control 20 17) {}

/-- R338 check 2: the layout tag needs every destination byte in the TOB window. -/
def copyTagBad (s : State) (c : CopyCmd) : Bool :=
  dbits c.control 9 7 != 0 && (c.outward
    || decide ((if dbit c.control 21 then (copyBuf s c).base + c.dst.toNat else c.dst.toNat) < 0x800000))

/-- R338 check 2: the destination span of a copy into S or a slot. -/
def copyDstBad (s : State) (c : CopyCmd) : Bool :=
  if c.outward then false
  else if dbit c.control 21 then
    !(copyBuf s c).valid
      || decide (128 * (copyBuf s c).srows < spanEnd c.dst.toNat c.validRows c.dstr c.dstBytes)
  else (copyTargets s c).any fun b => match b with
    | none => true
    | some x => !copyRowsOk s x ((blockOf s x).core.getD c.core) c.dst.toNat c.validRows c.dstr c.dstBytes

/-- R338 check 2: the source span, the index array and the last G byte. -/
def copySrcBad (s : State) (c : CopyCmd) : Bool :=
  if c.outward then
    !copyRowsOk s c.block c.core c.src.toNat c.validRows c.sstr c.srcBytes
      || decide (2 ^ 56 < spanEnd c.dst.toNat c.validRows c.dstr c.dstBytes)
  else
    (c.op == 0x6B && !windowOk s c.block c.core (dbits c.control 63 40) (4 * c.validRows))
      || decide (2 ^ 56 < (copySrcSpan s c).hi)

/-- R338 check 2: a counting barrier that is not initialised, and `CPX` outside a group launch. -/
def copyPlaceBad (s : State) (c : CopyCmd) : Bool :=
  (dbit c.control 16 && (copyCores c).any fun g => !(tbOf s g (dbits c.control 15 10)).valid)
    || (c.op == 0x6A && !(launchOfBlock s c.block).desc.group)

/-- R338: the fault of a command block, if a check fails. -/
def copyBad (s : State) (c : CopyCmd) : Option FaultCode :=
  if copyMisaligned c then some .alignment
  else if copyFieldsBad c || copyPlaceBad s c || copyTagBad s c || copyDstBad s c || copySrcBad s c then
    some .protection
  else none

/-- R338: a command enters its core's queue with the next ticket. -/
def postCopy (s : State) (c : CopyCmd) : State :=
  let s1 := modCore s c.core fun k =>
    { k with
      copyQ := k.copyQ ++ [{ c with released := copyEdgesClear s c }]
      copyTicket := c.ticket
      copyWrapped := k.copyWrapped || k.copyTicket == 0xFFFFFFFF }
  modSync s1 c.block fun y => { y with posts := y.posts + 1 }

/-- R338: a copy form: the checks, then the ticket, or 0 where the queue holds 16 commands. -/
def copyForm (s : State) (op : Nat) (f : FormA) : State :=
  let k := coachOf s s.cur.core
  if !guardCoach f.x.guard k then modCoach s s.cur.core fun x => x.skip (latchIndex s) f.dst
  else
    let c := copyCmdOf s op k f
    match copyBad s c with
    | some e => faultAt s e s.cur.word
    | none =>
      if 16 ≤ (coreOf s s.cur.core).copyQ.length then
        modCoach s s.cur.core fun x => x.put (latchIndex s) f.dst 0
      else modCoach (postCopy s c) s.cur.core fun x => x.put (latchIndex s) f.dst (BitVec.ofNat 64 c.ticket)

/-- R339. -/
def execCpy (f : FormA) (s : State) : Result := .next (copyForm s 0x68 f)

/-- R339. -/
def execCps (f : FormA) (s : State) : Result := .next (copyForm s 0x69 f)

/-- R339. -/
def execCpx (f : FormA) (s : State) : Result := .next (copyForm s 0x6A f)

/-- R339. -/
def execCpg (f : FormA) (s : State) : Result := .next (copyForm s 0x6B f)

/-- R339, R341. -/
def execCpc (f : FormA) (s : State) : Result := .next (copyForm s 0x6C f)

/-- R344: a core's copy ticket. -/
def copyResult (s : State) (core t : Nat) (all : Bool) : Option (Status × FaultCode) :=
  let k := coreOf s core
  ticketResult k.copyTicket k.copyWrapped (fun x => k.copyQ.any fun c => c.ticket == x) k.copyRing t all

/-- R344. -/
def execCpw (f : FormW) (s : State) : Result :=
  let c := coachOf s s.cur.core
  let t := (srcCoach c f.a).toNat
  let all := f.field 0 0 == 1
  if !guardCoach f.x.guard c then .next s
  else
    match copyResult s s.cur.core t all with
    | some (st, code) =>
      .next (endCoachAtIssue s f.dst f.x.deadline f.x.esc st ((ticketWord st code).setWidth 64) fun x => x)
    | none =>
      .next (blockCoach s f.dst f.x.deadline f.x.esc (.copy s.cur.core t all) .timeout
        (Status.timeout.word.setWidth 64))

/-! ### Circular buffers (R349-R352) -/

/-- A circular buffer of a core. -/
def cbufOf (s : State) (core i : Nat) : CircBuf := mgetD (coreOf s core).cbufs i {}

/-- A circular buffer written. -/
def setCbuf (s : State) (core i : Nat) (b : CircBuf) : State :=
  modCore s core fun c => { c with cbufs := mset c.cbufs i b }

/-- R349: how far one 32-bit sequence lies ahead of another. -/
def seqGap (a b : Nat) : Nat := (b + 2 ^ 32 - a % 2 ^ 32) % 2 ^ 32

/-- R349: whether one of a buffer's sequences comes before another: within half the range, so that their order holds where
the counts wrap (log 73). -/
def seqLt (a b : Nat) : Bool := decide (0 < seqGap a b ∧ seqGap a b < 2 ^ 31)

/-- R349: the next 32-bit sequence. -/
def seqNext (a : Nat) : Nat := (a + 1) % 2 ^ 32

/-- R352: what a `CBGET` for a sequence comes to: the status and the word. -/
def CircBuf.result (b : CircBuf) (q : Nat) : Option (Status × Word) :=
  if !b.valid then some (.busy, Status.busy.word)
  else if q < b.freeSeq then some (.stalePhase, Status.stalePhase.word)
  else if q < b.fillSeq then
    let st := mgetD b.status (q % max 1 b.nslot) .done
    some (st, statusWord st (b.slotAt q))
  else none

/-- R352: `FREESEQ` past every filled slot whose count is 0; `fuel` bounds the slots. -/
def CircBuf.advanceFree : Nat → CircBuf → CircBuf
  | 0, b => b
  | fuel + 1, b =>
    if seqLt b.freeSeq b.fillSeq = true ∧ mgetD b.count (b.freeSeq % max 1 b.nslot) 0 = 0 then
      CircBuf.advanceFree fuel { b with freeSeq := seqNext b.freeSeq }
    else b

/-- R352: `CBPUT` of a sequence. -/
def CircBuf.put (b : CircBuf) (q : Nat) : CircBuf × Status :=
  if b.fillSeq ≤ q then (b, .busy)
  else if q < b.freeSeq then (b, .stalePhase)
  else
    let k := q % max 1 b.nslot
    (CircBuf.advanceFree 64 { b with count := mset b.count k (mgetD b.count k 0 - 1) }, .done)

/-- R352: `CBGET` by one lane at issue. -/
def cbgetLane (s : State) (f : FormW) (u : Nat) (t : Thread) : State :=
  let i := f.field 3 0
  let q := (srcWord t .a f.a).toNat
  match (cbufOf s s.cur.core i).result q with
  | some (st, w) => endAtIssue s u f.dst f.x.deadline f.x.esc st w (st == .done) fun r => r
  | none => blockOrExpire s u t f.dst f.x.deadline f.x.esc (.cbuf s.cur.core i q) .timeout Status.timeout.word

/-- R352. -/
def execCbget (f : FormW) (s : State) : Result :=
  .next ((activeLanes s f.x.guard).foldl (fun acc p => cbgetLane acc f p.1 p.2) s)

/-- R352. -/
def execCbput (f : FormA) (s : State) : Result :=
  .next (eachLane (holdUntilSettled s f.x.guard .blk) f.x.guard f.dst fun acc _ t =>
    let q := (cbufOf acc s.cur.core (f.field 3 0)).put (srcWord t .a f.a).toNat
    (setCbuf acc s.cur.core (f.field 3 0) q.1, q.2.word))

/-- R351, R352: the buffer a configuration sets up. -/
def CircBuf.ofConfig (base cfg : Nat) : CircBuf :=
  { valid := true, base := base, srows := cfg % 256 + 1, nslot := cfg / 256 % 64 + 1, cons := cfg / 16384 % 2048 }

/-- R352: why an initialisation faults. -/
def cbInitBad (s : State) (base cfg : Nat) : Bool :=
  let b := CircBuf.ofConfig base cfg
  cfg / 2 ^ 25 != 0 || base % 128 != 0 || !windowOk s s.cur.block s.cur.core base (128 * b.srows * b.nslot)

/-- R352: `CBPUT.init`, once per position. Where both hold, the fault comes before `BUSY` (DESIGN CHOICE, log 86: R352 gives no
order). -/
def execCbputInit (f : FormA) (s : State) : Result :=
  match activeLanes s f.x.guard with
  | [] => .next (eachLane s f.x.guard f.dst fun acc _ _ => (acc, 0))
  | (_, t) :: _ =>
    let base := (srcWord t .a f.a).toNat
    let cfg := (srcWord t .b f.b).toNat
    let i := f.field 3 0
    let b := cbufOf s s.cur.core i
    if cbInitBad s base cfg then .next (faultAt s .protection base)
    else if b.takeSeq ≠ b.freeSeq then
      .next (eachLane s f.x.guard f.dst fun acc _ _ => (acc, Status.busy.word))
    else
      .next (eachLane (setCbuf s s.cur.core i (CircBuf.ofConfig base cfg)) f.x.guard f.dst fun acc _ _ =>
        (acc, Status.done.word))

end Sys2Proof.Machine
end

