-- ==== Sys2Proof/Machine/LoadStore.lean ====
section
/-!
DEFINITION. The memory forms, opcodes 0x50 to 0x62 (10 R222-R248). A form checks every participating lane,
then puts its requests in flight; the device events of Access.lean perform them.
-/

namespace Sys2Proof.Machine

/-! ### Shared operations -/

/-- The storage and the bytes a passing plan names. -/
def planNames : Plan → Mem × List Nat
  | .names m as => (m, as)
  | .fails _ _ _ _ => (.device, [])

/-- The participating lanes of a form with the plans of their addresses (R226, R227). -/
def lanePlans (s : State) (g : Guard) (sp : Space) (n : Need) (a : Src) (off : Int) (size : Size) :
    List (Nat × Thread × Plan) :=
  (activeLanes s g).map fun p => (p.1, p.2, planLane s p.2 sp n a off (sizeBytes size))

/-- What every request of a form shares. -/
def formAccess (s : State) (k : AccKind) (sp : Space) (x : ExtM) : Access :=
  { id := 0, kind := k, space := sp, core := s.cur.core, ctx := ctxOfBlock s s.cur.block, block := s.cur.block,
    scope := effectiveScope sp x.scope, ordering := x.ordering, size := x.size, sext := x.sext,
    ctr := x.ctr.toNat }

/-- R223: the value of a data source: a word, a pair or a quad. An inline integer constant gives its integer's bits, to the
floating atomics and reductions too: the manual does not say whether they are floating instructions (log 67). -/
def sourceValue (t : Thread) (r : Role) (size : Size) (x : Src) : Nat :=
  match size with
  | .b8 => (srcPair t r x).toNat
  | .b16 => match x with
    | .reg n => (List.range 4).foldl (fun acc k =>
        acc + (t.regs.get (stepReg t.ctl r n.toNat + k)).toNat * 2 ^ (32 * k)) 0
    | _ => 0
  | _ => (srcWord t r x).toNat

/-- R226: the address a lane's form computes, as a report holds it. -/
def laneAddress (t : Thread) (sp : Space) (a : Src) (off : Int) : Nat :=
  match sp with
  | .globalG | .hostH => reportAddr (((srcPair t .a a).toNat : Int) + off)
  | .clusterC => reportAddr (((srcWord t .a a).toNat % 2 ^ 24 : Nat) + off)
  | _ => reportAddr (((srcWord t .a a).toNat : Int) + off)

/-- R230: a load. -/
def loadForm (s : State) (sp : Space) (f : LoadForm) : State :=
  let ps := lanePlans s f.x.guard sp { read := true } f.a f.x.off.toInt f.x.size
  match planFault s (ps.map fun p => p.2.2) with
  | some s1 => s1
  | none =>
    issueRequests s (formAccess s .load sp f.x) (ps.map fun p =>
      { uid := p.1, va := laneAddress p.2.1 sp f.a f.x.off.toInt, dst := stepReg p.2.1.ctl .dst f.dst.toNat
        mem := (planNames p.2.2).1, addrs := (planNames p.2.2).2 })

/-- R231: the bytes a lane's store writes: those its mask selects. -/
def storeWrites (f : StoreForm) (t : Thread) (addrs : List Nat) : List (Nat × Byte) :=
  let x := sourceValue t .b f.x.size f.data
  let m := if f.x.mask then (srcWord t .dst f.maskSrc).toNat else 2 ^ addrs.length - 1
  ((addrs.zip (List.range addrs.length)).filter fun p => m.testBit p.2).map fun p =>
    (p.1, BitVec.ofNat 8 (x / 256 ^ p.2))

/-- R231: a store. -/
def storeForm (s : State) (sp : Space) (f : StoreForm) : State :=
  let ps := lanePlans s f.x.guard sp { write := true } f.a f.x.off.toInt f.x.size
  match planFault s (ps.map fun p => p.2.2) with
  | some s1 => s1
  | none =>
    issueRequests s (formAccess s .store sp f.x) (ps.map fun p =>
      { uid := p.1, mem := (planNames p.2.2).1, addrs := (planNames p.2.2).2,
        writes := storeWrites f p.2.1 (planNames p.2.2).2 })

/-- R224, R239: the operation of an atomic or reduction. -/
def atomOp (x : ExtM) : Nat := x.off.toNat / 512

/-- R224: the signed offset of an atomic or reduction. -/
def atomOff (x : ExtM) : Int := (x.off.setWidth 9).toInt

/-- R238: an atomic. `ATH` needs a page held through CXL.cache (R227). -/
def atomForm (s : State) (sp : Space) (f : AtomForm) : State :=
  let ps := lanePlans s f.x.guard sp { read := true, write := true, cached := decide (sp = .hostH) } f.a
    (atomOff f.x) f.x.size
  match planFault s (ps.map fun p => p.2.2) with
  | some s1 => s1
  | none =>
    issueRequests s { formAccess s .atomic sp f.x with op := atomOp f.x } (ps.map fun p =>
      let n := stepReg p.2.1.ctl .dst f.dst.toNat
      { uid := p.1, va := laneAddress p.2.1 sp f.a (atomOff f.x), dst := n, mem := (planNames p.2.2).1,
        addrs := (planNames p.2.2).2,
        operand := BitVec.ofNat 64 (sourceValue p.2.1 .b f.x.size f.operand), cmp := p.2.1.regs.pair n })

/-- R238: a reduction. -/
def redForm (s : State) (sp : Space) (f : RedForm) : State :=
  let ps := lanePlans s f.x.guard sp { read := true, write := true } f.a (atomOff f.x) f.x.size
  match planFault s (ps.map fun p => p.2.2) with
  | some s1 => s1
  | none =>
    issueRequests s { formAccess s .reduction sp f.x with op := atomOp f.x } (ps.map fun p =>
      { uid := p.1, mem := (planNames p.2.2).1, addrs := (planNames p.2.2).2,
        operand := BitVec.ofNat 64 (sourceValue p.2.1 .b f.x.size f.operand) })

/-! ### Blocking loads (R235-R237) -/

/-- R236: the read of a blocked or blocking lane of a core that its line does not hold back: a plain G load may hit, and
otherwise fills, an L1 copy (11 R254); every other reads the home, an acquire of G as its die's Read (11 R267). `floors` are
those of the lanes that read the sector with it, so that all of them read one state (R232). The state, the value and whether it
met poison. -/
def readBlocking (s : State) (core ctx : Nat) (sp : Space) (acq : Bool) (floors : List Nat) (r : LaneReq) : State × Nat × Bool :=
  let line := r.addrs.headD 0 / 128
  if sp = .globalG then
    match (if acq then none else l1Hit s core line floors) with
    | some c => (s, laneValue s (some c) r, lanePoison s (some c) r)
    | none => (if acq then engineReads s (dieOfCore core) [line] else fillCopy s core ctx line, laneValue s none r, lanePoison s none r)
  else (s, laneValue s none r, lanePoison s none r)

/-- 11 R258, R268: whether the line of a blocking lane holds its read back: an acquire meets it at the home (R260), a plain load
that no live copy serves needs a fill (R253). -/
def blockedByLine (s : State) (core : Nat) (acq : Bool) (floors : List Nat) (r : LaneReq) : Bool :=
  let line := r.addrs.headD 0 / 128
  r.mem == .device && if acq then (lineOf s line).transient || filterBlocks s (dieOfCore core) line
    else (l1Hit s core line floors).isNone && !fillReady s core line

/-- R236: the value compared, of the access size. -/
def compareValue (t : Thread) (size : Size) (x : Src) : Nat := sourceValue t .b size x % 256 ^ sizeBytes size

/-- R236: what the end of a blocking load writes to its destination: the low word through the wait's own
destination, and for 8 bytes the high word. -/
def blockedHigh (size : Size) (n x : Nat) (r : Regs) : Regs :=
  if size = .b8 then r.set (n + 1) (BitVec.ofNat 32 (x / 2 ^ 32)) else r

/-- R236: the low word of the value. -/
def blockedLow (size : Size) (sx : Bool) (x : Nat) : Word :=
  if size = .b8 then BitVec.ofNat 32 x else extendTo32 (sizeBytes size) sx x

/-- R233: the bytes of a lane as the thread's own stores in flight leave them, over the present value. -/
def ownValue (s : State) (u : Nat) (sp : Space) (r : LaneReq) : Nat :=
  let ws := (s.pend.filter fun a => a.kind == .store && !a.applied && a.space == sp).flatMap fun a =>
    (a.lanes.filter fun x => x.uid == u && x.mem == r.mem).flatMap LaneReq.writes
  leNat (r.addrs.map fun k => ((ws.reverse.find? fun w => w.1 == k).map Prod.snd).getD (readByte s r.mem k))

/-- R233, 21 R491: whether a blocking load of a core's thread cannot read yet: an earlier access of the thread to the bytes is still
in flight, or no port leads to a host. -/
def unread (s : State) (core u : Nat) (sp : Space) (r : LaneReq) : Bool :=
  ownPending s u sp r || (sp == .hostH && (hostPort s (dieOfCore core)).isNone)

/-- 20 R482: whether a thread has just been trapped. -/
def trappedNow (s : State) (u : Nat) : Bool := (threadOf s u).any fun t => t.ctl.run == .trapped

/-- R236: one lane of a blocking load at issue. A lane that cannot read yet waits for its first re-read; one that a second
consumption of poison traps stays trapped (20 R482). -/
def blockLane (s : State) (sp : Space) (f : BlockForm) (floors : List Nat) (u : Nat) (t : Thread) (r : LaneReq) : State :=
  let va := if sp = .clusterC then 0 else (srcPair t .a f.a).toNat
  let acq := f.x.ordering == .acq
  let q := readBlocking s s.cur.core (ctxOfBlock s t.block) sp acq floors r
  let s1 := if q.2.2 then consumePoison q.1 u t.block { clause := s.cur.addr, addr := va } else q.1
  let x := q.2.1
  let high := blockedHigh f.x.size (stepReg t.ctl .dst f.dst.toNat) x
  let low := blockedLow f.x.size f.x.sext x
  let cmp := compareValue t f.x.size f.cmp
  if unread s s.cur.core u sp r then
    blockThread s u (.reg f.dst) f.x.deadline f.x.esc
      (.blockingLoad sp va { r with cmp := BitVec.ofNat 64 cmp } f.x.size f.x.sext acq
        (stepReg t.ctl .dst f.dst.toNat) (BitVec.ofNat 64 (ownValue s u sp r)))
  else if trappedNow s1 u then s1
  else if x ≠ cmp then endAtIssue s1 u (.reg f.dst) f.x.deadline f.x.esc .done low acq high
  else if tooLate s t f.x.deadline then endAtIssue s1 u (.reg f.dst) f.x.deadline f.x.esc .timeout low false high
  else
    blockThread s1 u (.reg f.dst) f.x.deadline f.x.esc
      (.blockingLoad sp va { r with cmp := BitVec.ofNat 64 cmp } f.x.size f.x.sext acq
        (stepReg t.ctl .dst f.dst.toNat) (BitVec.ofNat 64 x))

/-- R232: the read floors of the lanes that read the sector of a plan. -/
def sectorFloors (ps : List (Nat × Thread × Plan)) (m : Mem) (sector : Nat) : List Nat :=
  (ps.filter fun p => (planNames p.2.2).1 == m && (planNames p.2.2).2.headD 0 / 32 == sector).map fun p => p.2.1.regs.floor

/-- R235, R236: a blocking load; it waits while a line that it must read is in transition (11 R258). -/
def blockForm (s : State) (sp : Space) (f : BlockForm) : State :=
  let ps := lanePlans s f.x.guard sp { read := true } f.a 0 f.x.size
  match planFault s (ps.map fun p => p.2.2) with
  | some s1 => s1
  | none =>
    let s1 := holdClause s (ps.any fun p =>
      let m := planNames p.2.2
      blockedByLine s s.cur.core (f.x.ordering == .acq) (sectorFloors ps m.1 (m.2.headD 0 / 32))
        { uid := p.1, mem := m.1, addrs := m.2 })
    ps.foldl (fun acc p =>
      let m := planNames p.2.2
      blockLane acc sp f (sectorFloors ps m.1 (m.2.headD 0 / 32)) p.1 p.2.1 { uid := p.1, mem := m.1, addrs := m.2 }) s1

/-! ### FENCE (R244-R247) -/

/-- The engine commands of a block that have been posted and have not completed, by place in its post
order. -/
def blockCommands (s : State) (b : Nat) : List Nat :=
  (s.clusters.flatMap fun p => (p.2.table.filter fun e => e.2.cmd.block == b).map fun e => e.2.cmd.seq)
  ++ (s.cores.flatMap fun p => (p.2.copyQ.filter fun c => c.block == b).map (·.seq))

/-- The copies of a block that have been posted and have not completed (R247). -/
def blockCopies (s : State) (b : Nat) : List Nat :=
  s.cores.flatMap fun p => (p.2.copyQ.filter fun c => c.block == b).map (·.seq)

/-- R244: the scope a code names. -/
def scopeOf (code : Nat) : Scope :=
  match code with
  | 0 => .dev
  | 1 => .blk
  | 2 => .cls
  | 3 => .die
  | _ => .sys

/-- R245: the frames of a context's migrations in flight. -/
def migrationsOf (s : State) (ctx : Nat) : List Nat :=
  (s.frames.filter fun p => p.2.mig && p.2.ctx == ctx).map Prod.fst

/-- R245: whether the stores a fence covers, of some spaces, are performed at its scope. -/
def storesDone (s : State) (spaces : Space → Bool) (scope : Scope) (accesses : List Nat) (wh : Nat) : Bool :=
  (s.pend.all fun a => !accesses.contains a.id || !spaces a.space || performedAt s a scope)
    && (!atLeastDie scope || decide (wh ≤ s.dtime))

/-- R245, class 1: the spaces whose stores engines read. -/
def engineSpace (x : Space) : Bool := x == .scratchS || x == .clusterC || x == .globalG

/-- R245, class 2: whether what a thread has stored to a frame has been written back since. -/
def frameWritten (s : State) (f : Nat × Nat) : Bool := decide (f.2 < (frameOf s f.1).wrote)

/-- R245: whether one class of a fence is complete. -/
def classDone (s : State) (block : Nat) (scope : Scope) (accesses engines migs : List Nat) (frames : List (Nat × Nat))
    (wh k : Nat) : Bool :=
  match k with
  | 0 => storesDone s (fun _ => true) scope accesses wh
  | 1 => storesDone s engineSpace scope accesses wh && (blockCommands s block).all fun n => !engines.contains n
  | 2 => storesDone s (fun _ => true) .blk accesses 0 && frames.all (frameWritten s)
  | _ => migs.all fun f => !(frameOf s f).mig

/-- R246: the mask of the requested classes that are complete. -/
def fenceMask (s : State) (block classes : Nat) (scope : Scope) (accesses engines migs : List Nat)
    (frames : List (Nat × Nat)) (wh : Nat) : Nat :=
  (List.range 4).foldl (fun m k =>
    if classes.testBit k && classDone s block scope accesses engines migs frames wh k then m + 2 ^ k else m) 0

/-- R244: the classes and the scope of a `FENCE`. -/
def fenceClasses (x : ExtW) : Nat := x.spec.toNat / 64

/-- R244. -/
def fenceScope (x : ExtW) : Scope := scopeOf (x.spec.toNat / 8 % 8)

/-- The stores, atomics and reductions of a thread in flight (R245). -/
def threadStores (s : State) (u : Nat) : List Nat :=
  (s.pend.filter fun a => (a.kind == .store || a.kind == .atomic || a.kind == .reduction)
    && a.lanes.any fun r => r.uid == u).map Access.id

/-- The loads of a thread in flight and its texture operations, by number. -/
def threadReads (s : State) (u : Nat) : List Nat :=
  (s.pend.filter fun a => a.kind == .load && a.lanes.any fun r => r.uid == u).map Access.id
    ++ s.cores.flatMap fun c => (c.2.texQ.filter fun o => o.lanes.any fun l => l.uid == u).map TexOp.after

/-- R245, 11 R265: what the end of a `FENCE` with some classes complete orders beside what it has waited for: where every class
is complete, every access of its thread still in flight comes at the fence's scope before the thread's later accesses, and
where class 1 is, its reads before the later engine commands of its block. -/
def orderAhead (s : State) (u block classes : Nat) (scope : Scope) (done : Nat) : State :=
  let ls := threadReads s u
  let s1 := if done = classes then modThread s u fun t =>
      { t with
        ahead := ls ++ threadStores s u
        aheadWh := if atLeastDie scope then some t.regs.wh else if aheadOver s t s.nextAccess then none else t.aheadWh } else s
  if done.testBit 1 && !ls.isEmpty then
    modSync s1 block fun k => { k with ahead := (k.ahead.filter fun i => readPending s i) ++ ls.filter (!k.ahead.contains ·) }
  else s1

/-- R245, R246: a thread's `FENCE` at issue. -/
def fenceLane (s : State) (f : FormW) (u : Nat) (t : Thread) : State :=
  let classes := fenceClasses f.x
  let scope := fenceScope f.x
  let acc := threadStores s u
  let eng := blockCommands s t.block
  let migs := migrationsOf s (ctxOfBlock s t.block)
  let m := fenceMask s t.block classes scope acc eng migs t.frames t.regs.wh
  let clean (r : Regs) : Regs := r
  if m = classes then
    endAtIssue (orderAhead s u t.block classes scope m) u f.dst f.x.deadline f.x.esc .done (statusWord .done m) true clean
  else
    let s1 := if tooLate s t f.x.deadline then orderAhead s u t.block classes scope m else s
    blockOrExpire s1 u t f.dst f.x.deadline f.x.esc (.fence classes scope acc eng migs t.regs.wh)
      .partialDone (statusWord .partialDone m)

/-- R247: the Coachman's `FENCE`: only class 1 can wait, for the copies of its block. -/
def fenceCoach (s : State) (f : FormW) : State :=
  let classes := fenceClasses f.x
  let eng := if classes.testBit 1 then blockCopies s s.cur.block else []
  let done := if eng.isEmpty then classes else classes - 2
  if eng.isEmpty then
    endCoachAtIssue s f.dst f.x.deadline f.x.esc .done ((statusWord .done classes).setWidth 64) fun c => c
  else
    blockCoach s f.dst f.x.deadline f.x.esc (.fence classes (fenceScope f.x) [] eng [] 0) .partialDone
      ((statusWord .partialDone done).setWidth 64)

/-! ### PREF (R248) -/

/-- R248: one lane of a `PREF`: a line of a present page is brought to its home slice; an absent page is entered
in the fault queue as a prefetch (17 R409); a page of a lent extent is not touched, and every other failure does nothing. -/
def prefLane (s : State) (f : PrefForm) (t : Thread) : State :=
  let va : Int := ((srcPair t .a f.a).toNat : Int) + f.x.off.toInt
  if va < 0 then s
  else
    match translate s s.cur.core (ctxOfBlock s t.block) va.toNat { read := true } with
    | .ok (.device pa) =>
      let line := pa / 128
      if (frameOf s (frameOfLine line)).lent || (lineOf s line).transient then s
      else markRef (l2Fill s (homeDie line) line false) line
    | .error .pageAbsent => enterAbsent s s.cur.core (ctxOfBlock s t.block) va.toNat 4
    | _ => s

/-! ### The forms -/

/-- R230. -/
def execLdl (f : LoadForm) (s : State) : Result := .next (loadForm s .laneL f)

/-- R231. -/
def execStl (f : StoreForm) (s : State) : Result := .next (storeForm s .laneL f)

/-- R230. -/
def execLds (f : LoadForm) (s : State) : Result := .next (loadForm s .scratchS f)

/-- R231. -/
def execSts (f : StoreForm) (s : State) : Result := .next (storeForm s .scratchS f)

/-- R230. -/
def execLdc (f : LoadForm) (s : State) : Result := .next (loadForm s .clusterC f)

/-- R236. -/
def execLdcBlock (f : BlockForm) (s : State) : Result := .next (blockForm s .clusterC f)

/-- R231. -/
def execStc (f : StoreForm) (s : State) : Result := .next (storeForm s .clusterC f)

/-- R230. -/
def execLdk (f : LoadForm) (s : State) : Result := .next (loadForm s .constK f)

/-- R230. -/
def execLdg (f : LoadForm) (s : State) : Result := .next (loadForm s .globalG f)

/-- R236. -/
def execLdgBlock (f : BlockForm) (s : State) : Result := .next (blockForm s .globalG f)

/-- R231. -/
def execStg (f : StoreForm) (s : State) : Result := .next (storeForm s .globalG f)

/-- R230. -/
def execLdh (f : LoadForm) (s : State) : Result := .next (loadForm s .hostH f)

/-- R236. -/
def execLdhBlock (f : BlockForm) (s : State) : Result := .next (blockForm s .hostH f)

/-- R231. -/
def execSth (f : StoreForm) (s : State) : Result := .next (storeForm s .hostH f)

/-- R238, R240. -/
def execAts (f : AtomForm) (s : State) : Result := .next (atomForm s .scratchS f)

/-- R238, R240. -/
def execAtc (f : AtomForm) (s : State) : Result := .next (atomForm s .clusterC f)

/-- R238, R240. -/
def execAtg (f : AtomForm) (s : State) : Result := .next (atomForm s .globalG f)

/-- R238, R240. -/
def execAth (f : AtomForm) (s : State) : Result := .next (atomForm s .hostH f)

/-- R238. -/
def execReds (f : RedForm) (s : State) : Result := .next (redForm s .scratchS f)

/-- R238. -/
def execRedg (f : RedForm) (s : State) : Result := .next (redForm s .globalG f)

/-- R245-R247. -/
def execFence (f : FormW) (s : State) : Result :=
  match s.cur.agent with
  | .core => .next ((activeLanes s f.x.guard).foldl (fun acc p => fenceLane acc f p.1 p.2) s)
  | .coachman =>
    if guardCoach f.x.guard (coachOf s s.cur.core) then .next (fenceCoach s f) else .next s

/-- R248. -/
def execPref (f : PrefForm) (s : State) : Result :=
  .next ((activeLanes s f.x.guard).foldl (fun acc p => prefLane acc f p.2) s)

end Sys2Proof.Machine
end

