-- ==== Sys2Proof/Machine/Levels.lean ====
section
/-!
DEFINITION. The levels of work (02 R49-R51): what a cancel does to threads, engine commands, rays, blocks,
groups, launches, replays, phases and jobs (13 R321, R327), and the states and counters `CMPL` reads (13 R328).
-/

namespace Sys2Proof.Machine

/-! ### The end of a copy (14 R340, R346, R350) -/

/-- R350: `FILLSEQ` past every slot whose copy has completed; `fuel` bounds the slots. -/
def CircBuf.advanceFill : Nat → CircBuf → CircBuf
  | 0, b => b
  | fuel + 1, b =>
    let k := b.fillSeq % max 1 b.nslot
    if seqLt b.fillSeq b.takeSeq = true ∧ mgetD b.filled k false = true then
      CircBuf.advanceFill fuel { b with fillSeq := seqNext b.fillSeq, filled := merase b.filled k }
    else b

/-- R350: the copy of slot sequence q has completed. -/
def CircBuf.fill (b : CircBuf) (q : Nat) (st : Status) : CircBuf :=
  let k := q % max 1 b.nslot
  CircBuf.advanceFill 64 { b with status := mset b.status k st, filled := mset b.filled k true }

/-- R345: the flag of a status. -/
def tbFlag : Status → Nat
  | .faulted => 1
  | .poisoned => 2
  | .cancelled => 3
  | _ => 0

/-- R346: a copy that counts on a barrier completed with a status other than `DONE`. -/
def flagTb (s : State) (core i : Nat) (st : Status) : State :=
  let b := tbOf s core i
  if b.valid && tbFlag st != 0 then setTb s core i { b with flag := tbFlag st } else s

/-- R340, R346, R350: a copy completes: its ring entry, its barriers' flags, its slot; a fault is reported as
an engine fault (20 R461). -/
def completeCopy (s : State) (c : CopyCmd) (st : Status) (code : FaultCode) (detail : Nat) : State :=
  let s1 := modCore s c.core fun k =>
    { k with copyQ := k.copyQ.filter (fun x => x.ticket != c.ticket)
             copyRing := mset k.copyRing (c.ticket % 64) { status := st, fault := code } }
  let s2 := if dbit c.control 16 then
      (copyCores c).foldl (fun acc g => flagTb acc g (dbits c.control 15 10) st) s1
    else s1
  let s3 := match c.slot with
    | none => s2
    | some q => setCbuf s2 c.core (dbits c.control 20 17) ((cbufOf s2 c.core (dbits c.control 20 17)).fill q st)
  if st = .faulted then
    engineFault s3 c.ctx (dieOfCore c.core) 3 (coreLocation c.core) (blockOf s c.block).slot
      (handleOfBlock s c.block) code detail
  else s3

/-! ### Engine commands of a cancelled block (12 R301, 13 R321) -/

/-- 12 R301: a block's bound commands complete unposted. -/
def dropBounds (s : State) (b : Nat) (st : Status) : State :=
  (mkeys (syncOf s b).bound).foldl (fun acc t => dropBound acc b t st) s

/-- 12 R301: one table entry of a cancelled block: a running multiply finishes its granted pass first. -/
def cancelEntry (s : State) (cluster i : Nat) (e : MatEntry) : State :=
  if isMultiply e.cmd.op ∧ (clusterOf s cluster).granted = some i then
    modCluster s cluster fun c => { c with table := mset c.table i { e with cancelled := true } }
  else completeMatrix s cluster i .cancelled .none 0

/-- 12 R301: a block's commands in the reservation tables; what a context that is switched out has saved stands while it is
cancelled (`onContext`). -/
def cancelMatrix (s : State) (b : Nat) (keep : MatEntry → Bool) : State :=
  s.clusters.foldl (fun acc c =>
    c.2.table.foldl (fun a e =>
      if e.2.cmd.block = b ∧ !keep e.2 then cancelEntry a c.1 e.1 e.2 else a) acc) s

/-- 13 R321: a block's copies, started or not: between steps each is at a sector boundary. -/
def cancelCopies (s : State) (b : Nat) (keep : CopyCmd → Bool) : State :=
  s.cores.foldl (fun acc p =>
    p.2.copyQ.foldl (fun a c => if c.block = b ∧ !keep c then completeCopy a c .cancelled .none 0 else a) acc) s

/-- 14 R332: the movement programs of a block end or never start. -/
def cancelCoach (s : State) (b : Nat) : State :=
  { s with coaches := s.coaches.map fun p =>
      let c := { p.2 with starts := p.2.starts.filter fun x => x.block != b }
      (p.1, if c.running && c.block == b then
        { c with running := false, held := false, stack := [], npc := none, wait := none } else c) }

/-- Whether a replay record belongs to a block whose threads have all ended, or to a command or program of
it that is gone (17 R411, R417). -/
def recordOver (s : State) (b : Nat) : ReplayWork → Bool
  | .core _ _ ts => ts.all fun u =>
      match threadOf s u with
      | some t => t.block == b && t.ctl.run == .exited
      | none => false
  | .coachman g _ => (coachOf s g).block == b && !(coachOf s g).running
  | .copy g t => !((coreOf s g).copyQ.any fun c => c.ticket == t)
  | .matrix c e _ t => !((mget (clusterOf s c).table e).any fun x => x.cmd.ticket == t)
  | .texture _ _ _ => false
  | _ => false

/-- 17 R411: the slots, and the waiting records, of works that satisfy a test are free. -/
def dropWorks (s : State) (ctx : Nat) (gone : ReplayWork → Bool) : State :=
  let s1 := modMore s ctx fun m => { m with replayWaiting := m.replayWaiting.filter fun r => !gone r.work }
  (moreOf s ctx).replay.foldl (fun acc p => if gone p.2.work then freeRecord acc ctx p.1 else acc) s1

/-- R411, 20 R464: the slots, and the waiting records, of work that a cancel has ended. -/
def dropRecords (s : State) (ctx b : Nat) : State := dropWorks s ctx (recordOver s b)

/-! ### Threads and blocks -/

/-- 10 R237: a cancel ends a blocking load with `CANCELLED`, and its destination receives the last value read. Every other
wait that a cancel ends writes nothing (18 R439; log 77). -/
def cancelLoad (s : State) (u : Nat) (t : Thread) : State :=
  match t.ctl.wait with
  | none => s
  | some w =>
    match w.kind with
    | .blockingLoad _ _ _ size sx _ dst last =>
      if t.ctl.run = .blocked then
        endWaitRegs s u w .cancelled (blockedLow size sx last.toNat) false (blockedHigh size dst last.toNat)
      else s
    | _ => s

/-- 02 R50: a thread ends by a cancel: at the end of the clause under way, or at once; 15 R375: its ray
completes `CANCELLED`. -/
def cancelThread (s : State) (u : Nat) : State :=
  match threadOf s u with
  | none => s
  | some t =>
    if t.ctl.run = .bundled ∧ s.cur.lanes.contains u then leaveThread s u
    else exitThreadWith (unfile (cancelLoad s u t) ((blockOf s t.block).core.getD 0) [u]) u .cancelled .none

/-- 02 R50: a placed block is cancelled. -/
def cancelBlock (s : State) (b : Nat) : State :=
  if (blockOf s b).cancelled then s
  else
    let s1 := modBlock s b fun k => { k with cancelled := true }
    let s2 := ((threadsOfBlock s b).map Prod.fst).foldl cancelThread s1
    let s3 := cancelMatrix (dropBounds s2 b .cancelled) b fun _ => false
    dropRecords (cancelCoach (cancelCopies s3 b fun _ => false) b) (ctxOfBlock s b) b

/-- The placed blocks of a launch. -/
def blocksOfLaunch (s : State) (l : Nat) : List Nat :=
  (s.work.blocks.filter fun p => p.2.launch == l).map Prod.fst

/-! ### Rays of a cancelled launch (15 R372) -/

/-- Every ray of a launch that no thread carries. -/
def looseRays (s : State) (l : Nat) : List Nat :=
  let r := mgetD s.work.rays l {}
  (r.queues.flatMap fun q => (q.2.die ++ q.2.ring).map RayEntry.id)
  ++ (r.hits.flatMap fun h => h.2.map Prod.fst)
  ++ (r.held.map Prod.fst)
  ++ ((launchOf s l).hitQ.flatMap fun e => e.rays.map Prod.fst)
  ++ (s.clusters.flatMap fun c => match c.2.run with
      | some x => if x.launch = l then x.rays.map RayEntry.id else []
      | none => [])

/-- Whether a replay record is of a ray or a run of a launch. -/
def ofRays (l : Nat) : ReplayWork → Bool
  | .ray _ m _ _ _ _ _ _ => l == m
  | _ => false

/-- R372: a cancel of a launch completes its rays `CANCELLED`; runs stop at the ray boundary, and their records are over
(17 R411). -/
def cancelRays (s0 : State) (l : Nat) : State :=
  let ids := looseRays s0 l
  let s := dropWorks s0 (launchOf s0 l).ctx (ofRays l)
  let s1 := modRays s l fun r => { scene := r.scene, closing := r.closing }
  let s2 := { s1 with clusters := s1.clusters.map fun c => match c.2.run with
    | some x => if x.launch = l then (c.1, { c.2 with run := none }) else c
    | none => c }
  ids.foldl (fun acc id => completeRay acc l id 0 .cancelled .none false) s2

/-- 17 R411: the record with which a binner has parked for a launch is over, and the binner goes on. -/
def dropRaster (ctx h : Nat) (s : State) (b : Nat) : State :=
  let mine : ReplayWork → Bool
    | .raster c _ _ _ _ k => c == b && k == h
    | _ => false
  let m := moreOf s ctx
  if m.replay.any (fun r => mine r.2.work) || m.replayWaiting.any (fun r => mine r.work) then
    startFlush (modBinner (dropWorks s ctx mine) b fun x => { x with parked := x.parked.filter (· != ctx) }) b
  else s

/-- 16 R389: a launch's primitives leave their binners; a step to zero that waited for their flush is made. -/
def cancelPrims (s0 : State) (l : Nat) : State :=
  let s := (binnersOf s0 l).foldl (dropRaster (launchOf s0 l).ctx (launchOf s0 l).handle) s0
  let s1 := (binnersOf s l).foldl (fun acc b =>
    modBinner acc b fun x => x.keep fun p => p.launch != l) s
  modLaunch s1 l fun k => if k.lastHeld then { k with lastHeld := false, counter := k.counter - 1 } else k

/-! ### Launches, groups, replays -/

/-- The blocks of a launch that wait for a place. -/
def pendingBlocks (k : Launch) : Nat :=
  ((k.spawnQ ++ k.spawnRing ++ k.hitQ).map SpawnEntry.count).foldl (· + ·) 0

/-- 18 R433: blocks that never start leave every launch barrier. -/
def leaveLaunchBars (k : Launch) (n : Nat) : Launch :=
  { k with bars := k.bars.map fun b => (b.1, { b.2 with members := b.2.members - n, pending := b.2.pending - n }) }

/-- 02 R50: a launch is cancelled: pending blocks are discarded, placed ones end, rays complete. -/
def cancelLaunch (s : State) (l : Nat) : State :=
  let k := launchOf s l
  if k.counter = 0 ∨ k.cancelled = true then s
  else
    let n := pendingBlocks k
    let s0 := modLaunch (markLaunch s l .cancelled) l fun x => { x with cancelled := true }
    let s1 := cancelPrims (cancelRays s0 l) l
    let s2 := modLaunch s1 l fun x => leaveLaunchBars
      { x with spawnQ := [], spawnRing := [], hitQ := [], counter := x.counter - n } n
    (blocksOfLaunch s l).foldl cancelBlock (launchSettled s2 l)

/-- 02 R50, 13 R327: a cluster group is cancelled; without the group flag, the one block. -/
def cancelGroup (s : State) (b : Nat) : State :=
  match (blockOf s b).group with
  | none => cancelBlock s b
  | some g =>
    let k := groupOf s g
    if k.counter = 0 then s
    else k.blocks.foldl cancelBlock
      (modGroup s g fun x => if x.state = .running then { x with state := .cancelled } else x)

/-- 13 R317: a replay by its handle. -/
def replayOf (s : State) (ctx h : Nat) : Option Replay := (moreOf s ctx).replays.find? fun r => r.handle == h

/-- A replay changed. -/
def modReplay (s : State) (ctx h : Nat) (f : Replay → Replay) : State :=
  modMore s ctx fun m => { m with replays := m.replays.map fun r => if r.handle = h then f r else r }

/-- 02 R50, R51: a replay that has not ended is cancelled: nodes not begun are discarded, the others' launches are
cancelled. -/
def cancelReplay (s : State) (ctx h : Nat) : State :=
  match replayOf s ctx h with
  | none => s
  | some r =>
    if r.counter = 0 then s else
    let drop := (r.nodes.filter fun n => !n.begun).length
    let s1 := modReplay s ctx h fun x =>
      { x with state := if x.state = .running then .cancelled else x.state
               counter := x.counter - drop
               nodes := x.nodes.map fun n => if n.begun then n else { n with begun := true, ended := true } }
    r.nodes.foldl (fun acc n => match n.launch with
      | some l => cancelLaunch acc l
      | none => acc) s1

/-! ### Records, phases, jobs (13 R310, R320, R321) -/

/-- The record a handle names, the latest of that handle. -/
def recordOf (s : State) (ctx h : Nat) : Option Record := (ctxOf s ctx).records.find? fun r => r.handle == h

/-- A record changed. -/
def modRecord (s : State) (ctx h : Nat) (f : Record → Record) : State :=
  modCtx s ctx fun c => { c with records := c.records.map fun r => if r.handle = h then f r else r }

/-- 13 R321, R327: what a cancel does to a record that has not completed. -/
def cancelRecordWork (s : State) (ctx : Nat) (r : Record) : State :=
  if r.ended.isSome || r.due.isSome then s
  else
    let drop := modRecord s ctx r.handle fun x => { x with due := some (.cancelled, .none), page := none }
    match r.kind, r.begun, r.launch with
    | 1, true, some l => cancelLaunch s l
    | 2, true, _ => cancelReplay s ctx r.handle
    | 5, _, _ => s
    | 6, _, _ => s
    | _, _, _ => drop

/-- The key of a phase of a queue. -/
def phaseKey (queue n : Nat) : Nat := queue * 2 ^ 24 + n

/-- A phase of a context. -/
def phaseOf (s : State) (ctx key : Nat) : Phase := mgetD (ctxOf s ctx).phases key {}

/-- A phase changed. -/
def modPhase (s : State) (ctx key : Nat) (f : Phase → Phase) : State :=
  modCtx s ctx fun c => { c with phases := mset c.phases key (f (mgetD c.phases key {})) }

/-- The records of a context that satisfy a test, cancelled. -/
def cancelRecords (s : State) (ctx : Nat) (p : Record → Bool) : State :=
  ((ctxOf s ctx).records.filter p).foldl (fun acc r => cancelRecordWork acc ctx r) s

/-- 02 R50, R51: a phase whose counter is not at zero is cancelled with every record of it. -/
def cancelPhase (s : State) (ctx key : Nat) : State :=
  if (phaseOf s ctx key).ended.isSome ∨ (phaseOf s ctx key).counter = 0 then s
  else
    cancelRecords (modPhase s ctx key fun p => { p with cancelled := true }) ctx
      fun r => phaseKey r.queue r.phase == key

/-- 13 R327: a phase whose mark a cancel has named before it was read is cancelled when the mark is read. -/
def cancelMarked (s : State) (ctx key : Nat) : State :=
  modPhase (cancelPhase s ctx key) ctx key fun p => { p with cancelled := true }

/-- 13 R308: the sequence numbers of a queue's records that have been announced and not read. -/
def CmdQueue.unread (q : CmdQueue) : List Nat :=
  (List.range ((q.writeIdx + q.size - q.readIdx) % max 1 q.size)).map fun i => (q.seq + i) % 2 ^ 24

/-- 02 R50: a job that has not ended is cancelled: its phases, every record that has been read, and those announced, which
complete `CANCELLED` when they are read. -/
def cancelJob (s : State) (ctx : Nat) : State :=
  if (moreOf s ctx).jobCounter = 0 then s
  else
    let s1 := modMore s ctx fun m => { m with jobState := .cancelled }
    let s2 := modCtx s1 ctx fun c => { c with queues := c.queues.map fun q =>
      (q.1, { q.2 with marks := (q.2.marks ++ q.2.unread).dedup }) }
    cancelRecords ((mkeys (ctxOf s ctx).phases).foldl (fun acc k => cancelPhase acc ctx k) s2) ctx fun _ => true

/-- The record of a launch: the one that made it, or its replay's. -/
def launchRecordOf (s : State) (k : Launch) : Option Record := recordOf s k.ctx k.handle

/-- 13 R320: where a handle lies: a record read, `some none` one read so long ago that it is no longer
tracked, `none` one still ahead of the read position. -/
def lookupHandle (s : State) (ctx h : Nat) : Option (Option Record) :=
  match mget (ctxOf s ctx).queues (h / 2 ^ 24) with
  | none => some none
  | some q =>
    let behind := (q.seq + 2 ^ 24 - h % 2 ^ 24) % 2 ^ 24
    if 1 ≤ behind ∧ behind ≤ 2 ^ 23 then some (recordOf s ctx h) else none

/-- 13 R327: a cancel by handle. A handle still ahead is marked. -/
def cancelHandle (s : State) (ctx level h : Nat) : State :=
  match lookupHandle s ctx h with
  | none => modCtx s ctx fun c => { c with queues := mmod c.queues (h / 2 ^ 24) fun q =>
      { q with marks := if q.marks.contains (h % 2 ^ 24) then q.marks else h % 2 ^ 24 :: q.marks } }
  | some none => s
  | some (some r) =>
    if r.kind = 5 ∨ level = 3 then cancelPhase s ctx (phaseKey r.queue r.phase) else cancelRecordWork s ctx r

/-- 13 R327: a cancel of the level of a kind that holds a block. A launch read from a queue is a replay of
one node. -/
def cancelLevel (s : State) (b level : Nat) : State :=
  let l := (blockOf s b).launch
  let k := launchOf s l
  match level with
  | 0 => cancelGroup s b
  | 1 => cancelLaunch s l
  | 2 => match k.graph with
    | some h => cancelReplay s k.ctx h
    | none => cancelLaunch s l
  | 3 => match launchRecordOf s k with
    | some r => cancelPhase s k.ctx (phaseKey r.queue r.phase)
    | none => cancelLaunch s l
  | _ => cancelJob (cancelLaunch s l) k.ctx

/-! ### States and counters (13 R328) -/

/-- R328: the state code of a level that has ended. -/
def LevelState.endCode : LevelState → Nat
  | .cancelled => 3
  | .faulted _ => 6
  | _ => 1

/-- R328: the state code of a status. A record completed with `BUSY`, `TIMEOUT` or `POISONED` reads 1, completed (DESIGN CHOICE,
log 86: R328 gives these no code). -/
def Status.levelCode : Status → Nat
  | .cancelled => 3
  | .faulted => 6
  | _ => 1

/-- The count word of R328. -/
def countWord (state counter : Nat) : Word := BitVec.ofNat 32 (2 ^ 28 * state + min counter (2 ^ 28 - 1))

/-- The state and counter of a level with a counter. -/
def levelOf (st : LevelState) (counter : Nat) : Nat × Nat := if counter = 0 then (st.endCode, 0) else (0, counter)

/-- A launch's level. -/
def launchLevel (k : Launch) : Nat × Nat := levelOf k.state k.counter

/-- A launch as a replay of one node. -/
def oneNode (k : Launch) : Nat × Nat := if k.counter = 0 then (k.state.endCode, 0) else (0, 1)

/-- A phase's level. -/
def phaseLevel (p : Phase) : Nat × Nat :=
  match p.ended with
  | some st => (st.levelCode, 0)
  | none => (0, p.counter)

/-- A record that is no level of its own, or whose level has ended with it. -/
def plainLevel (r : Record) : Nat × Nat :=
  match r.ended with
  | some (st, _) => (st.levelCode, 0)
  | none => if r.begun then (0, 1) else (15, 0)

/-- The status and code of a level that has ended. -/
def LevelState.status : LevelState → Status × FaultCode
  | .faulted c => (.faulted, c)
  | .cancelled => (.cancelled, .none)
  | _ => (.done, .none)

/-- Whether a level ended otherwise than `DONE`. -/
def LevelState.bad : LevelState → Bool
  | .faulted _ => true
  | .cancelled => true
  | _ => false

/-- R317: the final status of a replay: its own where a cancel reached it, else that of the first of its launches
that faulted, or was cancelled. -/
def replayStatus (s : State) (ctx : Nat) (x : Replay) : Status × FaultCode :=
  let ks := (s.work.launches.map Prod.snd).filter fun k => k.ctx == ctx && k.handle == x.handle
  let faulted := ks.find? fun k => match k.state with
    | .faulted _ => true
    | _ => false
  match x.state, faulted with
  | .running, some k => k.state.status
  | .running, none => ((ks.find? fun k => k.state.bad).map fun k => k.state.status).getD (.done, .none)
  | st, _ => st.status

/-- R328: the level of a replay under way: it has faulted where one of its launches has. -/
def runLevel (s : State) (ctx : Nat) (x : Replay) : Nat × Nat :=
  if x.counter = 0 then ((replayStatus s ctx x).1.levelCode, 0) else (0, x.counter)

/-- A replay's level. -/
def replayLevel (s : State) (ctx : Nat) (r : Record) : Nat × Nat :=
  match replayOf s ctx r.handle with
  | some x => runLevel s ctx x
  | none => plainLevel r

/-- The launches of a replay together. -/
def replayLaunches (s : State) (ctx h : Nat) : Nat × Nat :=
  let ks := (s.work.launches.map Prod.snd).filter fun k => k.ctx == ctx && k.handle == h
  match ks with
  | [] => (15, 0)
  | k :: r =>
    let n := (ks.map Launch.counter).foldl (· + ·) 0
    if n = 0 then (r.foldl (fun m x => max m x.state.endCode) k.state.endCode, 0) else (0, n)

/-- The level of a kind that a record names. -/
def recordLevel (s : State) (ctx level : Nat) (r : Record) : Nat × Nat :=
  if r.kind = 5 ∨ level = 3 then phaseLevel (phaseOf s ctx (phaseKey r.queue r.phase))
  else
    match r.kind, r.launch with
    | 1, some l => if level = 1 then launchLevel (launchOf s l) else oneNode (launchOf s l)
    | 2, _ => if level = 1 ∧ r.begun = true then replayLaunches s ctx r.handle else replayLevel s ctx r
    | _, _ => plainLevel r

/-- R328: the state and counter a handle reads. -/
def handleLevel (s : State) (ctx level h : Nat) : Nat × Nat :=
  match lookupHandle s ctx h with
  | none => (15, 0)
  | some none => (1, 0)
  | some (some r) => recordLevel s ctx level r

/-- R328: the state and counter of the level of a kind that holds a block. -/
def ownLevel (s : State) (b level : Nat) : Nat × Nat :=
  let k := launchOfBlock s b
  match level with
  | 0 => match (blockOf s b).group with
    | some g => if k.desc.group then levelOf (groupOf s g).state (groupOf s g).counter else (0, 1)
    | none => (0, 1)
  | 1 => launchLevel k
  | 2 => match k.graph with
    | some h => match replayOf s k.ctx h with
      | some x => runLevel s k.ctx x
      | none => oneNode k
    | none => oneNode k
  | 3 => match launchRecordOf s k with
    | some r => phaseLevel (phaseOf s k.ctx (phaseKey r.queue r.phase))
    | none => oneNode k
  | _ => levelOf (moreOf s k.ctx).jobState (moreOf s k.ctx).jobCounter

end Sys2Proof.Machine
end

