-- ==== Sys2Proof/Machine/Clause.lean ====
section
/-!
DEFINITION. A clause: which agent issues next, its fetch and decode (03 R74-R77), what it waits for before it
issues (03 R62, 10 R234, 15 R375), and its end (08 R172, 02 R27, R32).
-/

namespace Sys2Proof.Machine

/-! ### Who issues next -/

/-- An agent with a clause to issue: a bundle, or the Coachman of a core. -/
inductive ClauseAgent where
  | bundle (b : Bundle)
  | coach (core : Nat)
  deriving DecidableEq, Repr

/-- Whether a core can issue: not halted (22 R521), its die not lost (22 R509), the package awake. -/
def coreIssues (s : State) (core : Nat) : Bool :=
  !(coreOf s core).halted && !(dieOf s (dieOfCore core)).lost && !s.power.asleep

/-- 22 R525: the issue rate of a block in eighths: the lower of the package's rate (R523) and that of its launch's queue
(13 R322). -/
def issueRate (s : State) (b : Nat) : Nat :=
  let k := launchOfBlock s b
  min s.power.issueEighths (((mget (ctxOf s k.ctx).queues (k.handle / 2 ^ 24)).map CmdQueue.throttle).getD 8)

/-- 22 R523, 13 R322: whether the issue slots take a bundle of a block now: n eighths of the turns at a rate of n (log 31). -/
def rateAllows (s : State) (b : Nat) : Bool := decide (s.dtime / 2 % 8 < issueRate s b)

/-- 20 R481, R554: whether nothing of a block's checkpoint holds its issue: no rollback is due, no image waits to be written. -/
def checkpointClear (s : State) (b : Nat) : Bool := !(syncOf s b).rollbackDue && !(syncOf s b).imageHeld

/-- Whether a bundle may issue: its block runs at its rate and its checkpoint does not hold it. -/
def bundleIssues (s : State) (b : Bundle) : Bool :=
  coreIssues s b.core && blockRuns s b.block && checkpointClear s b.block && rateAllows s b.block

/-- Whether a Coachman may issue: a program runs, neither waiting nor held for a page (14 R331, 17 R413), of a block that is
neither parked (09 R219) nor to be rolled back (20 R481). -/
def coachIssues (s : State) (core : Nat) : Bool :=
  let c := coachOf s core
  c.running && !c.held && c.wait.isNone && coreIssues s core && !s.security.haltedUnits.contains (.coachman core) && (blockOf s c.block).core.isSome
    && (ctxOf s (ctxOfBlock s c.block)).resident && !parkDue s c.block && checkpointClear s c.block

/-- The agents that may issue, taken in turn (log 2). -/
def clauseAgents (s : State) : List ClauseAgent :=
  let xs := ((s.work.bundles.filter (bundleIssues s)).map ClauseAgent.bundle)
    ++ (((mkeys s.coaches).filter (coachIssues s)).map ClauseAgent.coach)
  let k := s.dtime / 2 % max 1 xs.length
  xs.drop k ++ xs.take k

/-! ### Fetch and decode -/

/-- The clause an agent stands at. -/
def curFor (s : State) : ClauseAgent → Cur
  | .bundle b =>
    { agent := .core, core := b.core, block := b.block, lanes := b.lanes,
      addr := ((b.lanes.head?.bind (threadOf s)).map (·.ctl.pc)).getD 0 }
  | .coach g => { agent := .coachman, core := g, block := (coachOf s g).block, addr := (coachOf s g).pc }

/-- 08 R187: the captured words of an active loop at the clause, where a lane of the bundle is in one. A lane outside every
loop runs them too: 03 R78 leaves open which of the old and new words its fetch sees (log 74). -/
def capturedWords (s : State) : Option (List Word) :=
  (lanes s).findSome? fun p =>
    match inBody p.2.ctl with
    | none => none
    | some l => if l.body.isEmpty then none else some (l.body.drop ((s.cur.addr - l.base) / 4))

/-- 03 R74 step 1: the words of the clause, header first: captured, or fetched whole. -/
def clauseText (s : State) : Except (FaultCode × Nat) (List Word) :=
  match capturedWords s with
  | some ws => .ok (ws.take (clauseWords (headerOf (ws.headD 0))))
  | none =>
    match fetchWords s s.cur.core (ctxOfBlock s s.cur.block) 1 s.cur.addr with
    | .error e => .error e
    | .ok h => fetchWords s s.cur.core (ctxOfBlock s s.cur.block) (clauseWords (headerOf (h.headD 0))) s.cur.addr

/-- The address of each instruction's base word, from the address of the first. -/
def placeInstrs (h : Header) : Nat → Nat → List Instr → List (Nat × Instr)
  | _, _, [] => []
  | pos, va, i :: r => (va, i) :: placeInstrs h (pos + 1) (va + if h.extMap.getLsbD pos then 8 else 4) r

/-- 03 R74: the decoded clause put in `cur`. -/
def loadClause (s : State) (n : Nat) (h : Header) (is : List Instr) : State :=
  { s with cur := { s.cur with
      stop := s.cur.addr + 4 * n
      yieldBit := h.yieldBit
      code := placeInstrs h 0 (s.cur.addr + 4) is } }

/-- 03 R74-R77: the clause at `cur` fetched whole and checked, or its fault taken. -/
def fetchClause (s : State) : State :=
  match clauseText s with
  | .error (c, va) => deliver { s with cur := { s.cur with pos := 15 } } (fetchReport c va 15)
  | .ok ws =>
    match checkClause s.cur.agent (launchOfBlock s s.cur.block).desc.allot ws with
    | .error (pos, e) =>
      deliver { s with cur := { s.cur with pos := pos, stop := s.cur.addr + 4 * ws.length } }
        { code := decodeCode e, pos := pos, addr := s.cur.addr }
    | .ok (h, is) => loadClause s ws.length h is

/-! ### What a fetched clause waits for -/

/-- 03 R53, R62: the wait mask of the fetched clause, from its header word. -/
def waitMaskClear (s : State) (h : Header) : Bool :=
  (lanes s).all fun p => (List.range 6).all fun j => !h.waitMask.getLsbD j || p.2.regs.getCtr j == 0

/-- Whether an instruction accesses memory, posts an engine command or makes an arrival (10 R234). -/
def touchesMemory (i : Instr) : Bool :=
  match i.parts with
  | none => false
  | some (op, _) =>
    let c := classOf op.toNat
    c == 2 || c == 3 || c == 5 || c == 6 || op == 0x82 || op == 0x83 || op == 0x84

/-- 10 R234: whether a thread of the bundle has an acquire that has not returned. -/
def acquirePending (s : State) : Bool :=
  s.pend.any fun a => a.ordering == .acq && (a.kind == .load || a.kind == .atomic)
    && a.lanes.any fun r => s.cur.lanes.contains r.uid

/-- 08 R177: whether the bundle's threads have lane-private accesses in flight. -/
def privatePending (s : State) : Bool :=
  s.pend.any fun a => a.space == .laneL && a.kind != .result && a.lanes.any fun r => s.cur.lanes.contains r.uid

/-- 10 R233, 11 R260: whether the bundle's threads have accesses in flight that come before a blocking load of a space: writes
not applied, loads not returned of the space and of the bytes behind it, and what a `FENCE` has put ahead (10 R245). -/
def accessesPending (s : State) (sp : Space) : Bool :=
  (s.pend.any fun a => a.kind != .result && !a.applied
    && (a.kind != .load || a.space == sp || (sp == .globalG && a.space == .constK))
    && a.lanes.any fun r => s.cur.lanes.contains r.uid)
  || (sp == .globalG && s.cores.any fun c => c.2.texQ.any fun o => o.lanes.any fun l => s.cur.lanes.contains l.uid)
  || (lanes s).any fun p => !aheadOver s p.2 s.nextAccess

/-- What an instruction of the clause waits for: acquires before any memory form, return slots before a call
or return, a thread's own accesses before a blocking load. -/
def instrReady (s : State) (i : Instr) : Bool :=
  !(touchesMemory i && acquirePending s)
    && match i with
       | .call _ | .callx _ => !privatePending s
       | .ret => !privatePending s
       | .ldcBlock _ => !accessesPending s .clusterC
       | .ldgBlock _ => !accessesPending s .globalG
       | .ldhBlock _ => !accessesPending s .hostH
       | _ => true

/-- The header word of the fetched clause, as its fetch gave it. -/
def headerNow (s : State) : Header :=
  match clauseText s with
  | .ok (h :: _) => headerOf h
  | _ => headerOf 0

/-- Whether the fetched clause may issue. -/
def clauseReady (s : State) : Bool :=
  waitMaskClear s (headerNow s) && entriesReady s && s.cur.code.all fun p => instrReady s p.2

/-- The first agent whose clause faults at fetch or decode, or may issue: the state with that fault taken, or
with the clause in `cur`. -/
def nextClause (s : State) : List ClauseAgent → Option State
  | [] => none
  | a :: r =>
    let s1 := fetchClause { s with cur := curFor s a }
    if s1.cur.fault.isSome || clauseReady s1 then some s1 else nextClause s r

/-- 03 R77: a clause is fetched whole and decoded; the step then issues it. -/
def execClauseFetch (s : State) : Result :=
  .next ((nextClause s (clauseAgents s)).getD s)

/-! ### The end of a clause -/

/-- 07 R148, 03 R62: a register result still in flight has not reached its register. -/
def revertLane (r : LaneReq) (t : Thread) : Thread :=
  if r.dst < 128 ∧ t.regs.get r.dst = r.operand.setWidth 32 then t.modRegs fun x => x.set r.dst (r.old.setWidth 32)
  else t

/-- The results of the clause that are in flight, the last position's first. -/
def revertResults (s : State) : State :=
  (s.pend.filter fun a => a.kind == .result && s.cur.created.contains a.id).foldr (fun a acc =>
    a.lanes.foldl (fun st r => modThread st r.uid (revertLane r)) acc) s

/-- Whether a thread is still in the bundle. -/
def inBundle (s : State) (u : Nat) : Bool := ((threadOf s u).map fun t => t.ctl.run == .bundled).getD false

/-- 15 R375: a hit-shader thread leaves its bundle and waits until its stores are performed at `.dev`. -/
def holdExit (s : State) (u : Nat) : State :=
  modThread s u fun t => t.modCtl fun c => { c with run := .exiting, leaving := false }

/-- 08 R172, R181, 02 R50: one thread at the end of the clause: it exits, a hit-shader thread once its stores are performed
(15 R375), or its program counter moves. -/
def threadEnd (s : State) (u : Nat) : State :=
  match threadOf s u with
  | none => s
  | some t =>
    if t.ctl.run ≠ .bundled then s
    else if (blockOf s t.block).cancelled then exitThreadWith s u .cancelled .none
    else if t.ctl.leaving then
      (if t.hitRay.isSome && !settledBut s [] [] .dev u then holdExit s u else exitThreadNow s u)
    else modThread s u (passEnd s.cur.stop)

/-- The program counter of a thread. -/
def pcOf (s : State) (u : Nat) : Nat := ((threadOf s u).map (·.ctl.pc)).getD 0

/-- 18 R442, 26 R552: a thread whose wait escalated at issue traps at the end of the clause, together with those of
its bundle that escalate with it (log 10). -/
def threadEscalates (s : State) (u : Nat) : State :=
  match trapDueOf s u with
  | none => s
  | some q =>
    if inBundle s u then
      escalate s s.cur.block
        (s.cur.lanes.filter fun x => inBundle s x && trapDueOf s x == some q && pcOf s x == pcOf s u) (pcOf s u) s.cur.addr q
    else s

/-- 02 R27: the threads filed at the clause end: all where a yield is taken or the branch diverged, else those
that reform or yield themselves. -/
def filedThreads (s : State) (us : List Nat) : List Nat :=
  let yields := s.cur.yieldBit && s.yields.headD false
  if yields || ((us.map (pcOf s)).dedup.length ≠ 1) then us
  else us.filter fun u => ((threadOf s u).map (·.ctl.refile)).getD false

/-- The bundle of the clause replaced by the threads that stay in it. -/
def keepBundle (s : State) (stay : List Nat) : State :=
  modWork s fun w =>
    { w with bundles := w.bundles.filterMap fun b =>
        if b.core = s.cur.core ∧ b.block = s.cur.block ∧ b.lanes.any s.cur.lanes.contains then
          (if stay.isEmpty then none else some { b with lanes := stay })
        else some b }

/-- 19 R456: codes 1 and 2. -/
def countIssue (s : State) : State :=
  countEvent (countEvent s s.cur.core 1 1) s.cur.core 2 s.cur.lanes.length

/-- The end of a bundle's clause. -/
def bundleEnd (s : State) : State :=
  let s1 := s.cur.lanes.foldl threadEscalates (s.cur.lanes.foldl threadEnd (revertResults (countIssue s)))
  let us := s.cur.lanes.filter (inBundle s1)
  let filed := filedThreads s1 us
  let s2 := fileThreads (keepBundle s1 (us.filter fun u => !filed.contains u)) filed
  if s.cur.yieldBit then { s2 with yields := s2.yields.tail } else s2

/-- The end of a Coachman's clause (14 R331, 08 R184). -/
def coachEnd (s : State) : State :=
  modCoach s s.cur.core fun c =>
    if c.running then { c with pc := c.npc.getD s.cur.stop, npc := none } else { c with npc := none }

/-- 08 R172: the end of the clause under way; checkpoints that came due are taken (20 R479). -/
def endClause (s : State) : State :=
  let s0 := addTrace s (ctxOfBlock s s.cur.block) 0 s.cur.addr
  let s1 := match s.cur.agent with
    | .core => bundleEnd s0
    | .coachman => coachEnd s0
  { (mkeys s1.work.sync).foldl settleCheckpoint s1 with cur := {} }

end Sys2Proof.Machine
end

