-- ==== Sys2Proof/Machine/EvAccess.lean ====
section
/-!
DEFINITION. Device events of accesses in flight (10 R230-R242, 11 R251-R258): each names a request; one that
cannot happen in a state leaves the state as it is (log 2).
-/

namespace Sys2Proof.Machine

/-- A state change by the request of a number, where it is in flight. -/
def onAccess (s : State) (i : Nat) (f : Access → State) : State :=
  match accessOf s i with
  | none => s
  | some a => f a

/-- 11 R254: whether a live L1 copy serves a plain load, whatever its line does at home. -/
def l1Serves (s : State) (a : Access) : Bool :=
  a.kind == .load && usesL1 a && (l1Hit s a.core a.line (floorsOf s a)).isSome

/-- 10 R230, R238, 03 R62: data comes back to the registers: a load's, an applied atomic's, or a pending
result. Host requests complete by their own events (11 R252). -/
def dataReturn (s : State) (a : Access) : State :=
  match a.kind with
  | .result => finishResult s a
  | .load =>
    if a.space != .hostH && canPerform s a then (if l1Serves s a then serveLoad s a else atLine s a serveLoad) else s
  | .atomic => if a.applied then finishAtomic s a else s
  | _ => s

/-- 11 R251, 03 R62: an applied write is performed at its scope: its counter falls. -/
def performWrite (s : State) (a : Access) : State := dropAccess (countDown (noteSpawn s a) a) a.id

/-- 10 R231, R251: a store of L, S or C space is performed at its port; a G store, or a reduction, that has been
applied is performed at its scope. -/
def storePerform (s : State) (a : Access) : State :=
  match a.kind with
  | .store =>
    if a.applied then (if performedAt s a a.scope then performWrite s a else s)
    else if (a.space == .laneL || a.space == .scratchS || a.space == .clusterC) && canPerform s a then
      finishStore s a
    else s
  | .reduction => if performedAt s a a.scope then performWrite s a else s
  | _ => s

/-- 11 R255: a G store is applied at its die home. -/
def writeApplied (s : State) (a : Access) : State :=
  if a.kind == .store && a.space == .globalG && canPerform s a then atLine s a serveStore else s

/-- 10 R242: a combined atomic or reduction is applied at its home. -/
def atomicApplied (s : State) (a : Access) : State :=
  if (a.kind == .atomic || a.kind == .reduction) && a.space != .hostH && canPerform s a then atLine s a serveAtomic
  else s

/-- 10 R242: whether a request may sit in the hot-address queue: an `.add` of `ATG` or `REDG`. -/
def isHotAdd (a : Access) : Bool :=
  a.space == .globalG && (a.kind == .atomic || a.kind == .reduction) && a.op == 0

/-- 11 R258: a refused request retries, whatever it is. -/
def retryRefused (s : State) (a : Access) : State :=
  if a.refusals = 0 then s
  else
    match a.kind with
    | .load => dataReturn s a
    | .store => writeApplied s a
    | _ => atomicApplied s a

/-- 11 R258: a persistent request is served when its line leaves the transient state. -/
def servePersistent (s : State) (i : Nat) : State :=
  onAccess s i fun a => if canPerform s a then serveAccess s a else s

/-- 11 R258: whether nothing keeps a line transient: no transaction, no acknowledgement due, no hand-over of
its page (R270). -/
def lineSettled (s : State) (line : Nat) : Bool :=
  let d := lineOf s line
  d.txn.isNone && d.acks.isEmpty && (frameOf s (frameOfLine line)).hstate == 0

/-- 11 R258: the readers' writes that wait at a line are applied, in their order. -/
def applyHeld (s : State) (line : Nat) : State :=
  let ws := (lineOf s line).homeWrites
  if ws.isEmpty then s else ws.foldl homeWriteNow (modLine s line fun d => { d with homeWrites := [] })

/-- 11 R258: a line leaves its transient state; the readers' writes that wait at it are applied, and its persistent requests are
served in the order of their slots. -/
def releaseLine (s : State) (line : Nat) : State :=
  let waiting := (lineOf s line).persistent
  waiting.foldl servePersistent (applyHeld (modLine s line fun d => { d with transient := false, persistent := [] }) line)

/-! ### Blocking loads (10 R237) -/

/-- What a re-read needs of its page. -/
def rereadNeed (sp : Space) : Need := { read := true, hc := sp == .hostH }

/-- R237: where a re-read finds its bytes: C space is not translated. -/
def rereadPlace (s : State) (ctx : Nat) (sp : Space) (va : Nat) (r : LaneReq) : Except FaultCode LaneReq :=
  if sp = .clusterC then .ok r
  else
    match translateWalk s ctx va (rereadNeed sp) with
    | .error c => .error c
    | .ok p => .ok { r with mem := p.mem.1, addrs := (List.range r.addrs.length).map (p.mem.2 + ·) }

/-- R237: a re-read of a blocked lane: the wait ends where the value differs, meets poison or cannot be
reached; an absent page is entered in the fault queue and the wait goes on. A re-read waits for the thread's own earlier
accesses (R233) and for a line in transition (11 R258); it reads the home, of G as a fill of its core's L1 (11 R254) or, with
`.acq`, as its die's Read (11 R267). Only a wait that ends `DONE` acquires (18 R449). A read that no port carries to a host for
1 ms is poison, and Dray reports it (21 R491). -/
def rereadLane (s : State) (u : Nat) (t : Thread) (w : Wait) : State :=
  match w.kind with
  | .blockingLoad sp va req size sx acq dst last =>
    let ctx := ctxOfBlock s t.block
    let core := (blockOf s t.block).core.getD 0
    let finish (s1 : State) (st : Status) (x : Nat) : State :=
      endWait s1 u w st (blockedLow size sx x) (acq && st == .done) (blockedHigh size dst x)
    let poison (s1 : State) (x : Nat) : State :=
      let s2 := consumePoison s1 u t.block { clause := w.site, addr := va }
      if trappedNow s2 u then s2 else finish s2 .poisoned x
    if ownPending s u sp req then s
    else if unread s core u sp req then
      if w.since + 1000000 ≤ s.dtime then
        poison (engineFault s ctx (dieOfCore core) 0 (dieOfCore core) 0xFF 0 .protection va) 0
      else s
    else match rereadPlace s ctx sp va req with
    | .error .pageAbsent => enterAbsent s core ctx va 0
    | .error _ => finish s .faulted last.toNat
    | .ok r =>
      let line := r.addrs.headD 0 / 128
      let s0 := if r.mem = .device then dropCopy s (l1Core s core line) line else s
      if blockedByLine s0 core acq [] r then s
      else
        let q := readBlocking s0 core ctx sp acq [] r
        let s1 := q.1
        let x := q.2.1
        if q.2.2 then poison s1 x
        else if x ≠ req.cmp.toNat then finish s1 .done x
        else modThread s1 u fun y => y.modCtl fun c => { c with wait := some { w with
          kind := .blockingLoad sp va r size sx acq dst (BitVec.ofNat 64 x) } }
  | _ => s

/-- 15 R379: a re-read of the slot that a wait on a ray names: an absent page, of the slot or of the scene descriptor, is
entered in the fault queue and the wait goes on; what it finds otherwise ends the wait at its own event. -/
def rereadRay (s : State) (t : Thread) (ctx l id : Nat) : State :=
  let core := (blockOf s t.block).core.getD 0
  let va := if (sceneBytes s l).isSome then raySlot s l id + 64 else ((mget (launchOf s l).bank 15).map Prod.fst).getD 0
  match translateWalk s ctx va { read := true } with
  | .error .pageAbsent => enterAbsent s core ctx va 0
  | _ => s

/-- The blocking load a thread waits in, if it waits in one of a space that satisfies a test; a wait on a ray re-reads its slot
alike (15 R379). -/
def reread (s : State) (x : Waiter) (ok : Space → Bool) : State :=
  match x with
  | .coachman _ => s
  | .thread u =>
    match threadOf s u with
    | none => s
    | some t =>
      match t.ctl.wait with
      | none => s
      | some w =>
        match w.kind with
        | .blockingLoad sp _ _ _ _ _ _ _ => if ok sp && t.ctl.run == .blocked then rereadLane s u t w else s
        | .ray ctx l id => if ok .globalG && t.ctl.run == .blocked then rereadRay s t ctx l id else s
        | _ => s

/-! ### Soft errors (22 R507) -/

/-- R507: a double-bit error in a line of a die's L2 slice: a clean line is invalid, a dirty one poisons the sector. -/
def l2Error (s : State) (die line sector : Nat) : State :=
  match mget (lineOf s line).held die with
  | none => s
  | some (true, _) => addPoison s .device (4 * line + sector % 4)
  | some (false, _) =>
    if die = homeDie line then modLine s line fun d => { d with held := merase d.held die } else l2Drop s die line

/-- R507: a double-bit error in a line of L space of a core's L1: a clean line is invalid, a dirty one poisons the sector. -/
def privateError (s : State) (g line sector : Nat) : State :=
  match (coreOf s g).lLines.find? fun x => x.1 == line with
  | none => s
  | some (_, true) => addPoison s .device (4 * line + sector % 4)
  | some (_, false) => modCore s g fun c => { c with lLines := c.lLines.filter fun x => x.1 != line }

/-- R507: a double-bit error in a word of an array: a clean L1 or L2 line is invalid; in any other array the containing sector
or register is poisoned, for a directory entry those of its line (log 71). -/
def doubleError (s : State) : ArrayWord → State
  | .register u n =>
    if n < 128 then modThread s u fun t => t.modRegs fun r => { r.set n 0 with bad := n :: r.bad.filter (· != n) } else s
  | .scratch b o => addPoison s (.scratch b) (o / 32)
  | .tob g o => addPoison s (.tob g) (o / 32)
  | .tile c t m n => addPoison s (.tile c t) (tileSector c t m n)
  | .l1 g line => dropCopy s g line
  | .l1Private g line k => privateError s g line k
  | .l2 die line k => l2Error s die line k
  | .directory line => (List.range 4).foldl (fun acc k => addPoison acc .device (4 * line + k)) s
  | .barrier g i => modCore s g fun c => { c with tbs := mset c.tbs i {}, badTbs := i :: c.badTbs.filter (· != i) }

/-- R507: a single-bit error is corrected on read. -/
def softError (s : State) (e : SoftError) : State := if e.double then doubleError s e.word else s

/-! ### The events -/

/-- 10 R230, 22 R507: the data of a load comes back, after the soft errors of the arrays by then. -/
def execLoadDataReturn (load : LoadReturn) (s : State) : Result :=
  let s1 := load.errors.foldl softError s
  .next (onAccess s1 load.access (dataReturn s1))

/-- 10 R231. -/
def execStorePerformed (access : Nat) (s : State) : Result := .next (onAccess s access (storePerform s))

/-- 10 R234: the wait of a release for `%dtime` ≥ `%wh` ends and it issues, one to a host once all that it waits for is performed
(21 R491 counts from then); while its context is switched out it does not (11 R273). -/
def execReleaseWhWaitEnd (access : Nat) (s : State) : Result :=
  .next (onAccess s access fun a =>
    if (ctxOf s a.ctx).resident && (if a.space == .hostH then releaseReady s a
        else a.lanes.all fun r => ((threadOf s r.uid).map (·.regs.wh)).getD 0 ≤ s.dtime) then
      modAccess s access fun x => { x with issued := true, since := s.dtime }
    else s)

/-- 10 R242. -/
def execAtomicRequestApply (access : Nat) (s : State) : Result := .next (onAccess s access (atomicApplied s))

/-- 11 R269: what several requests did to a line counts as one write transaction of it. -/
def oneTransaction (s t : State) (line : Nat) : State :=
  let v := lineVersion (lineOf s line)
  if lineVersion (lineOf t line) = v then t
  else modLine t line fun d => bumpVersion (homeDie line) 1 { d with version := v }

/-- 10 R242: up to eight `.add` requests retire in the order given; the batch is one write transaction of
each of its lines (11 R269). -/
def execHotQueueRetire (accesses : List Nat) (s : State) : Result :=
  let batch := accesses.take 8
  let t := batch.foldl (fun acc i => onAccess acc i fun a => if isHotAdd a then atomicApplied acc a else acc) s
  .next (((batch.filterMap fun i => (accessOf s i).map (·.line)).dedup).foldl (oneTransaction s) t)

/-- 10 R237. -/
def execBlockingLoadReread (w : Waiter) (s : State) : Result := .next (reread s w fun sp => sp != .hostH)

/-- 10 R237. -/
def execHPollReread (w : Waiter) (s : State) : Result := .next (reread s w fun sp => sp == .hostH)

/-- 11 R253: an L1 fills a line that a plain load in flight on its core needs. -/
def execL1FillRequest (core ctx line : Nat) (s : State) : Result :=
  let wanted := s.pend.any fun a =>
    a.kind == .load && usesL1 a && a.core == core && a.ctx == ctx && a.line == line
      && (l1Hit s core line (floorsOf s a)).isNone
  .next (if wanted && fillReady s core line then fillCopy s core ctx line else s)

/-- 11 R253: the lease of an L1 copy expires and its token counts as returned. -/
def execLeaseExpiry (core line : Nat) (s : State) : Result :=
  match l1Copy s core line with
  | none => .next s
  | some c =>
    if s.dtime < c.expiry then .next s
    else
      .next (modLine (dropCopy s core line) line fun d =>
        { d with tokens := mset d.tokens (dieOfCore core) (liveTokens s d (dieOfCore core)) })

/-- 11 R255. -/
def execWriteApply (access : Nat) (s : State) : Result := .next (onAccess s access (writeApplied s))

/-- 11 R258. -/
def execTransientRefusalRetry (request : Nat) (s : State) : Result := .next (onAccess s request (retryRefused s))

/-- 11 R258. -/
def execTransientLineRelease (line : Nat) (s : State) : Result :=
  .next (if (lineOf s line).transient && lineSettled s line then releaseLine s line else s)

end Sys2Proof.Machine
end

