-- ==== Sys2Proof/Machine/Pages.lean ====
section
/-!
DEFINITION. Whole pages: frames of the page cache (09 R205, 17 R407), the pool ranges of the decoders (21 R489),
and the block transfers between them (17 R421, R422, 22 R506).
-/

namespace Sys2Proof.Machine

/-! ### Frames -/



/-- 09 R204: the GDDR-7 channel of a frame, of 32 in the package. -/
def channelOf (f : Nat) : Nat := f % 32

/-- 09 R204: the die of a frame's channel. -/
def dieOfFrame (f : Nat) : Nat := channelOf f / 8

/-- R407: whether a frame-table entry is free: not valid, pinned, lent, in migration or surrendered. -/
def Frame.free (x : Frame) : Bool := !x.valid && !x.pin && !x.lent && !x.mig && x.hstate == 0

/-- The frames that are not free. -/
def usedFrames (s : State) : Nat := (s.frames.filter fun p => !p.2.free).length

/-- R420: how many frames are free. -/
def freeFrames (s : State) : Nat := cacheFrames - usedFrames s

/-- Whether a frame can be taken: free, and not on a lost die (22 R511). -/
def canTake (s : State) (f : Nat) : Bool :=
  decide (f < cacheFrames) && (frameOf s f).free && !(dieOf s (dieOfFrame f)).lost

/-- The lowest frame of a die that can be taken, from an index up; `fuel` bounds the search. -/
def freeOnDie (s : State) (die : Nat) : Nat → Nat → Option Nat
  | 0, _ => none
  | fuel + 1, i =>
    let f := i / 8 * 32 + 8 * die + i % 8
    if cacheFrames ≤ f then none
    else if canTake s f then some f
    else freeOnDie s die fuel (i + 1)

/-- R420: a free frame: of the owner's die first, then of other dies in ascending order. Every frame that is not
free is listed, so the search ends within the listed ones. -/
def takeFrame (s : State) (die : Nat) : Option Nat :=
  (die :: [0, 1, 2, 3].filter (· != die)).findSome? fun d => freeOnDie s d (s.frames.length + 1) 0

/-- R418: the first run of n free frames from a base up in steps; `fuel` bounds the search. -/
def takeRun (s : State) (n step : Nat) : Nat → Nat → Option Nat
  | 0, _ => none
  | fuel + 1, base =>
    if cacheFrames < base + n then none
    else if (List.range n).all fun i => canTake s (base + i) then some base
    else takeRun s n step fuel (base + step)

/-- R418, R420: the frames of a 64 KiB page: 16 whose first frame is a multiple of 16, which lie on D0 and D1 or on D2 and D3:
the owner's side first. -/
def takeSixteen (s : State) (die : Nat) : Option Nat :=
  let fuel := 2 * s.frames.length + 4
  (takeRun s 16 32 fuel (16 * (die / 2))).or (takeRun s 16 32 fuel (16 - 16 * (die / 2)))

/-- The 32 lines of a frame. -/
def linesOf (f : Nat) : List Nat := (List.range 32).map fun i => 32 * f + i

/-- R270, R421: the lines of a frame become transient. -/
def holdLines (s : State) (f : Nat) : State :=
  (linesOf f).foldl (fun acc l => modLine acc l fun d => { d with transient := true }) s

/-- R267, R270: every die's copies of a frame's lines are gone and the home has the data. -/
def recallLines (s : State) (f : Nat) : State :=
  (linesOf f).foldl (fun acc l =>
    if (mget acc.lines l).isSome then
      modLine acc l fun d => { passOthers d 4 with states := [], txn := none, acks := [], held := [] } else acc) s

/-- 11 R258: the transient lines of a frame are free again; what waits at them is served. -/
def freeLines (s : State) (f : Nat) : State :=
  (linesOf f).foldl (fun acc l => if (lineOf acc l).transient then releaseLine acc l else acc) s

/-- 11 R249: a frame has been filled: versions are 0 and no die holds a copy; the hand-over state is held. -/
def freshLines (s : State) (f : Nat) : State :=
  let s1 := (linesOf f).foldl (fun acc l =>
    if (mget acc.lines l).isSome then
      modLine acc l fun d => { d with states := [], version := 0, counts := [], holderVersion := [], tokens := [], held := [] }
    else acc) s
  modFrame s1 f fun x => { x with hstate := 0 }

/-- 17 R421: whether a request in flight still has to be applied to a frame. -/
def frameBusy (s : State) (f : Nat) : Bool :=
  s.pend.any fun a => onLine a && frameOfLine a.line == f && !a.applied && a.kind != .result

/-! ### Loss of a die (22 R509, R510) -/

/-- 22 R509: the buddy of a die; where both of a pair are lost, the lowest-numbered die that survives. -/
def buddy (s : State) (d : Nat) : Nat :=
  let b := if d % 2 = 0 then d + 1 else d - 1
  if (dieOf s b).lost then ([0, 1, 2, 3].find? fun x => !(dieOf s x).lost).getD b else b

/-- R410, 22 R510 step 1: the Dray that owns a page: that of die v mod 4, or of the lost die's buddy. -/
def ownerDie (s : State) (vpn : Nat) : Nat := if (dieOf s (vpn % 4)).lost then buddy s (vpn % 4) else vpn % 4

/-- 22 R510 step 1: a die is lost: nothing is sent to it any more, and the census sweep is due. -/
def loseDie (s : State) (d : Nat) : State :=
  if (dieOf s d).lost then s else modDie s d fun x => { x with lost := true, census := true }

/-! ### The pool -/



/-- 21 R492: the extent a pool address lies in. -/
def extentAt (s : State) (a : Nat) : Option (Nat × Extent) :=
  s.tables.extents.find? fun p => decide (p.2.kind = 0 ∧ 0 < p.2.state ∧ p.2.base ≤ a ∧ a < p.2.base + p.2.len)



/-- 21 R489: the memory ports of a decoder, each as 3 times its die and its number there: bits 12:1 of its third word
(log 88). -/
def hdmPorts (w : Nat) : List Nat := (List.range 12).filter fun k => w.testBit (k + 1)

/-- 21 R489: whether a decoder maps its range: base and length, in bytes, of 256 MiB alignment, onto 1, 2, 3, 4, 6 or 8 memory
ports. -/
def hdmMaps (s : State) (x : Nat × Nat × Nat) : Bool :=
  x.1 % 2 ^ 28 == 0 && x.2.1 % 2 ^ 28 == 0 && [1, 2, 3, 4, 6, 8].contains (hdmPorts x.2.2).length
    && (hdmPorts x.2.2).all fun k => portModeOf s (k / 3) (k % 3) == 2

/-- 21 R489: the decoder that maps a pool address. -/
def decoderOf (s : State) (a : Nat) : Option (Nat × Nat × Nat) :=
  (s.tables.hdm.find? fun p => hdmMaps s p.2 && decide (p.2.1 ≤ a ∧ a < p.2.1 + p.2.2.1)).map Prod.snd

/-- 21 R489: whether a decoder covers a pool address. -/
def poolCovered (s : State) (a : Nat) : Bool := (decoderOf s a).isSome

/-- 21 R489, R490: whether the range of a pool address is HDM-DB. Bit 0 of a decoder's third word marks it. -/
def poolShared (s : State) (a : Nat) : Bool := (decoderOf s a).any fun x => x.2.2 % 2 == 1

/-- 21 R489: the memory port of a pool address: those of its decoder take turns every 4 KiB. -/
def poolPort (s : State) (a : Nat) : Option Nat :=
  (decoderOf s a).bind fun x =>
    let ps := hdmPorts x.2.2
    ps[(a - x.1) / 4096 % max 1 ps.length]?



/-- 22 R511: whether a host reaches the device: by the primary port, or, where D0 is lost, by an upstream port of a die that
is not. -/
def hostReach (s : State) : Bool :=
  [0, 1, 2, 3].any fun d => !(dieOf s d).lost && [0, 1, 2].any fun p => portModeOf s d p == 1

/-- 01 R13, 22 R511: the die whose security core runs attestation: D0, or D1 once D0 is lost. -/
def securityDie (s : State) : Option Nat := [0, 1].find? fun d => !(dieOf s d).lost

/-- 21 R489: whether a block transfer with a pool page can complete: a decoder covers it, the die of its port is not lost
(log 88), and its extent is not released. -/
def poolReachable (s : State) (page : Nat) : Bool :=
  (poolPort s (4096 * page)).any (fun k => !(dieOf s (k / 3)).lost) && !poolGone s (4096 * page)

/-- 22 R518: the key pair a frame's sectors are encrypted with: that of its page's leaf, or key 0. -/
def frameKey (s : State) (f : Nat) : BitVec 512 :=
  let x := frameOf s f
  let paged := (x.valid || x.hstate != 0) && !x.pin && !x.lent
  let key := if paged then ((walk s x.ctx (4096 * x.vpn)).map fun w => dbits w.1 63 52).getD 0 else 0
  (mgetD s.tables.keys key {}).bits

/-- 17 R407: the 32 bytes of a frame-table entry (log 89). -/
def Frame.bytes (f : Frame) : List Byte :=
  leBytes 16 f.dirty.toNat ++ leBytes 8 (f.pool % 2 ^ 40 + f.key % 2 ^ 12 * 2 ^ 40)
  ++ leBytes 8 (f.vpn % 2 ^ 44 + f.ctx % 2 ^ 12 * 2 ^ 44 + f.valid.toNat * 2 ^ 56 + f.pin.toNat * 2 ^ 57 + f.lent.toNat * 2 ^ 58
      + f.ref.toNat * 2 ^ 59 + f.mig.toNat * 2 ^ 60 + f.shared.toNat * 2 ^ 61 + f.hstate % 4 * 2 ^ 62)

/-- 22 R518: the key pair under which a page that a frame holds is kept in the pool; none in an HDM-DB range. -/
def poolKey (s : State) (f page : Nat) : Option (BitVec 512) :=
  if poolShared s (4096 * page) then none else some (frameKey s f)

/-- 22 R518: the 32 bytes that a reader with one key, or with none, gets of a sector that was written with another: `sector` is
that of the pool. -/
def openSector (written read : Option (BitVec 512)) (sector : Nat) (bs : List Byte) : List Byte :=
  if written = read then bs
  else
    let plain := BitVec.ofNat 256 (leNat bs)
    let kept := match written with
      | none => plain
      | some k => Config.xtsSector k (sector / 4) (sector % 4) plain
    leBytes 32 (match read with
      | none => kept.toNat
      | some k => (Config.xtsOpen k (sector / 4) (sector % 4) kept).toNat)

/-- One sector copied from one storage to another; poison travels with it (22 R506). -/
def moveSector (s : State) (from_ to_ : Mem) (a b : Nat) : State :=
  if isPoisoned s from_ a then addPoison s to_ b
  else
    writeCells (clearPoison s to_ b) to_
      ((List.range 32).map fun i => (32 * b + i, cellAt (memCells s from_) (32 * a + i)))

/-- 22 R518: the key under which a pool sector is written. -/
def sealSector (s : State) (sector : Nat) (key : Option (BitVec 512)) : State :=
  { s with tables := { s.tables with poolKeys := match key with
      | none => merase s.tables.poolKeys sector
      | some k => mset s.tables.poolKeys sector k } }

/-- R421: sectors of a frame written to its pool page, which counts as one write-back of the frame (10 R245); a write the pool
cannot take is dropped (21 R489). -/
def writeBack (s : State) (f : Nat) (sectors : List Nat) : State :=
  let p := (frameOf s f).pool
  if poolReachable s p then
    sectors.foldl (fun acc k => sealSector (moveSector acc .device .pool (128 * f + k) (128 * p + k)) (128 * p + k) (poolKey s f p))
      (modFrame s f fun x => { x with wrote := x.wrote + 1 })
  else s

/-- The dirty sectors of a frame. -/
def dirtySectors (s : State) (f : Nat) : List Nat :=
  (List.range 128).filter fun k => (frameOf s f).dirty.getLsbD k

/-- R422, 22 R518: a sector of a pool page read into a frame, deciphered under the frame's key. A sector that this device has not
written there reads as the pool holds it (log 69). -/
def fillSector (s : State) (f page k : Nat) : State :=
  let b := 128 * page + k
  let s1 := moveSector s .pool .device b (128 * f + k)
  match mget s.tables.poolKeys b with
  | none => s1
  | some w =>
    if some w = poolKey s f page || isPoisoned s .pool b then s1
    else
      let bs := openSector (some w) (poolKey s f page) b (cellsFrom s.mem.pool (32 * b) 32)
      writeCells s1 .device (((List.range 32).map (32 * (128 * f + k) + ·)).zip bs)

/-- R422: a page read from the pool into a frame; without a decoder it arrives poisoned (21 R489). -/
def fillFrame (s : State) (f page : Nat) : State :=
  if poolReachable s page then
    (List.range 128).foldl (fun acc k => fillSector acc f page k) s
  else (List.range 128).foldl (fun acc k => addPoison acc .device (128 * f + k)) s

/-- R423: a frame filled with zeros. -/
def zeroFrame (s : State) (f : Nat) : State :=
  let s1 := { s with mem := { s.mem with device := s.mem.device.filter fun c => c.1 / 4096 != f } }
  (List.range 128).foldl (fun acc k => clearPoison acc .device (128 * f + k)) s1

/-- 21 R489, R425: Dray reports to the supervisor; Dray has no unit kind, so byte 50 is 0 (log 28). -/
def drayFault (s : State) (ctx die : Nat) (code : FaultCode) (detail : Nat) : State :=
  engineFault s ctx die 0 die 0xFF 0 code detail

/-- 21 R489: a transfer with a page that no decoder covers is reported. -/
def reportUncovered (s : State) (ctx die page : Nat) : State :=
  if poolCovered s (4096 * page) then s else drayFault s ctx die .protection (4096 * page)

end Sys2Proof.Machine
end

