-- ==== Sys2Proof/Machine/Switch.lean ====
section
/-!
DEFINITION. The structures of a context whose partition is switched out (02 R44, 20 R474, R476): what leaves the
cores, Coachmen and clusters, and the bytes of thread records and accumulator images.
-/

namespace Sys2Proof.Machine

/-! ### What stays with the hardware -/

/-- R474: a core's structures on a core: counters, clock state, caches and the owners of banks are the hardware's. -/
def onHardware (hw c : Core) : Core :=
  { c with
    l1 := hw.l1, lLines := hw.lLines, tlb := hw.tlb, perf := hw.perf, gated := hw.gated, halted := hw.halted, idleSince := hw.idleSince
    gateFrom := hw.gateFrom, regOwner := hw.regOwner, rowOwner := hw.rowOwner }

/-- R474: the same for a cluster. -/
def onCluster (hw c : Cluster) : Cluster := { c with gated := hw.gated }

/-- Whether a context has structures saved. -/
def hasSaved (s : State) (ctx : Nat) : Bool :=
  let m := moreOf s ctx
  !(m.savedCores.isEmpty && m.savedCoaches.isEmpty && m.savedClusters.isEmpty)

/-- 10 R229: the poisoned sectors of the TOBs and tiles of some cores and clusters. -/
def poisonOn (s : State) (cores clusters : List Nat) : List Nat :=
  s.mem.poisoned.filter fun k =>
    cores.any (fun g => k / 2 ^ 60 == memTag (.tob g)) || k / 2 ^ 60 == memTag (.tile 0 0) && clusters.contains (k % 2 ^ 60 / 32768)

/-- R474: the poison of a context's TOBs and tiles changes places with what stands there. -/
def swapPoison (s : State) (ctx : Nat) : State :=
  let m := moreOf s ctx
  let here := poisonOn s (mkeys m.savedCores) (mkeys m.savedClusters)
  let s1 := { s with mem := { s.mem with poisoned := m.savedPoison ++ s.mem.poisoned.filter fun k => !here.contains k } }
  modMore s1 ctx fun x => { x with savedPoison := here }

/-- R474, R475: the structures that a context has saved change places with those that stand. -/
def swapSaved (s0 : State) (ctx : Nat) : State :=
  if !hasSaved s0 ctx then s0
  else
    let s := swapPoison s0 ctx
    let m := moreOf s ctx
    let s1 := m.savedCores.foldl (fun acc p => modCore acc p.1 fun h => onHardware h p.2) s
    let s2 := m.savedCoaches.foldl (fun acc p => modCoach acc p.1 fun _ => p.2) s1
    let s3 := m.savedClusters.foldl (fun acc p => modCluster acc p.1 fun h => onCluster h p.2) s2
    modMore s3 ctx fun x =>
      { x with savedCores := m.savedCores.map fun p => (p.1, onHardware {} (coreOf s p.1))
               savedCoaches := m.savedCoaches.map fun p => (p.1, coachOf s p.1)
               savedClusters := m.savedClusters.map fun p => (p.1, onCluster {} (clusterOf s p.1)) }



/-! ### Thread records (R477) -/

/-- R477: the opcode of the form a thread waits in. -/
def WaitKind.opcode : WaitKind → Nat
  | .barrier _ _ arrived => if arrived then 0xA2 else 0xA1
  | .tb .. => 0xA7
  | .cbuf .. => 0xAD
  | .copy .. => 0x6D
  | .matrix .. => 0x7C
  | .queue .. => 0xA9
  | .ray .. => 0x91
  | .rayCount .. => 0x91
  | .svc .. => 0xB1
  | .fence .. => 0x61
  | .blockingLoad sp .. => match sp with
    | .clusterC => 0x54
    | .hostH => 0x59
    | _ => 0x57

/-- R477: byte 8. -/
def RunState.byte : RunState → Nat
  | .runnable => 0
  | .bundled => 0
  | .blocked => 1
  | .faultWait => 1
  | .trapped => 2
  | .exiting => 1
  | .exited => 3

/-- R477: bytes 96 to 115. -/
def loopBytes : Option LoopState → List Byte
  | none => leBytes 8 0 ++ leBytes 4 0 ++ leBytes 4 0 ++ leBytes 1 0 ++ leBytes 2 0 ++ leBytes 1 0xC0
  | some l =>
    leBytes 8 (l.base + 2 ^ 63) ++ leBytes 4 l.count ++ leBytes 4 l.pass ++ leBytes 1 l.words
    ++ leBytes 2 (l.dStep + 8 * l.aStep + 64 * l.bStep + 512 * l.cStep + 4096 * l.tileStep)
    ++ leBytes 1 (l.addr.getD 0xC0)

/-- R477: a thread record. The manual does not say how bytes 57 to 63 name the object of a wake condition: they are
free values (log 37). -/
def threadRecord (t : Thread) (free : Nat) : List Byte :=
  let w := t.ctl.wait
  let live := if t.ctl.run = .exited then 0 else 2 ^ 63
  leBytes 8 (t.ctl.pc + live) ++ leBytes 1 t.ctl.run.byte ++ leBytes 1 t.regs.p.toNat ++ leBytes 1 t.ctl.depth
  ++ leBytes 1 0 ++ leBytes 2 t.ctl.key ++ leBytes 2 t.tid ++ leBytes 8 t.regs.wh ++ leBytes 8 t.regs.floor
  ++ leBytes 8 ((w.map (·.deadline)).getD 0) ++ leBytes 8 ((w.map (·.resume)).getD 0) ++ leBytes 8 ((w.map (·.site)).getD 0)
  ++ (match w with
      | none => leBytes 8 0
      | some x => leBytes 1 x.kind.opcode ++ leBytes 7 free)
  ++ leBytes 24 ((List.range 32).foldl (fun acc e =>
      let a := mgetD t.arrivals e {}
      acc + (a.phase % 16 + 16 * a.state) * 64 ^ e) 0)
  ++ leBytes 8 (t.ctl.escSite + t.ctl.escCount * 2 ^ 56) ++ loopBytes t.ctl.loop ++ leBytes 12 0
  ++ leBytes 4 t.regs.chk.toNat ++ leBytes 4 t.regs.status.toNat
  ++ leBytes 8 (mgetD t.chkSet 0 0) ++ leBytes 8 (mgetD t.chkSet 1 0) ++ leBytes 1 t.chkReported.toNat ++ leBytes 103 0

/-- R477: the state byte 8 gives a thread; a byte that says what the thread already is changes nothing. -/
def RunState.ofByte (r : RunState) (b : Nat) : RunState :=
  if r.byte = b then r
  else match b with
    | 0 => .runnable
    | 2 => .trapped
    | 3 => .exited
    | _ => r

/-- R477: bytes 96 to 115: the loop of a thread, with the captured words it has where the body is the same. -/
def loopOfBytes (l : Option LoopState) (n : Nat → Nat → Nat) : Option LoopState :=
  if n 96 8 / 2 ^ 63 = 0 then none
  else
    let base := n 96 8 % 2 ^ 56
    let k : LoopState := { base := base, words := n 112 1, clauses := 0, count := n 104 4, pass := n 108 4
                           dStep := n 113 2 % 8, aStep := n 113 2 / 8 % 8, bStep := n 113 2 / 64 % 8
                           cStep := n 113 2 / 512 % 8, tileStep := n 113 2 / 4096 % 8
                           addr := if n 115 1 = 0xC0 then none else some (n 115 1) }
    match l with
    | some x => some (if x.base = base then { k with clauses := x.clauses, body := x.body } else k)
    | none => some k

/-- A map with an entry set, unless it reads so already. -/
def msetNew {α : Type} [DecidableEq α] (m : SMap α) (i : Nat) (d x : α) : SMap α := if mgetD m i d = x then m else mset m i x

/-- R475, R477: a thread as its record in the save area gives it: the supervisor may have changed the record; the bits of `%chk`
and `%status` that are reserved or read 0 stay 0 (05 R98, 00 R6). What the thread waits for stays with the device. -/
def Thread.ofRecord (t : Thread) (bs : List Byte) : Thread :=
  let n (a k : Nat) : Nat := leNat ((bs.drop a).take k)
  let run := t.ctl.run.ofByte (n 8 1)
  { t with
    regs := { t.regs with p := BitVec.ofNat 7 (n 9 1), wh := n 16 8, floor := n 24 8
                          chk := BitVec.ofNat 32 (n 128 4) &&& 0xFFFF0003, status := BitVec.ofNat 32 (n 132 1) }
    ctl := { t.ctl with
      pc := n 0 8 % 2 ^ 56, depth := n 10 1, key := n 12 2, run := run
      wait := if run = t.ctl.run then t.ctl.wait.map fun w => { w with deadline := n 32 8, resume := n 40 8, site := n 48 8 }
        else none
      escSite := n 88 8 % 2 ^ 56, escCount := n 88 8 / 2 ^ 56 % 16, loop := loopOfBytes t.ctl.loop n }
    arrivals := (List.range 32).foldl (fun m e =>
      let x := n 64 24 / 64 ^ e % 64
      msetNew m e {} { state := x / 16, phase := x % 16 }) t.arrivals
    chkSet := msetNew (msetNew t.chkSet 0 0 (n 136 8)) 1 0 (n 144 8)
    chkReported := BitVec.ofNat 2 (n 152 1) }

/-- R476: where a cluster's region of a save area begins. -/
def saveCluster (s : State) (ctx cluster : Nat) : Nat := (ctxOf s ctx).f.saveBase + 0x1000000 + cluster * 0x2000000

/-- R476: the address of a thread's record. -/
def saveThread (s : State) (ctx core slot : Nat) : Nat :=
  saveCluster s ctx (clusterOfCore core) + core % 4 * 0x400000 + 0x100000 + 256 * slot

/-- R476: row m of a tile's image: its pairs, hi then lo. -/
def tileRow (c : Cluster) (t m : Nat) : List Byte :=
  (List.range 128).flatMap fun n =>
    let p := mgetD (mgetD c.tiles t []) (128 * m + n) (0, 0)
    leBytes 4 p.1.toNat ++ leBytes 4 p.2.toNat

/-- R476: row m of a tile from its image. -/
def tileRowBack (c : Cluster) (t m : Nat) (bs : List Byte) : Cluster :=
  let row := (List.range 128).foldl (fun acc n =>
    msetNew acc (128 * m + n) (0, 0) (BitVec.ofNat 32 (leNat ((bs.drop (8 * n)).take 4)),
      BitVec.ofNat 32 (leNat ((bs.drop (8 * n + 4)).take 4)))) (mgetD c.tiles t [])
  if row = mgetD c.tiles t [] then c else { c with tiles := mset c.tiles t row }

end Sys2Proof.Machine
end

