-- ==== Sys2Proof/Machine/Banks.lean ====
section
/-!
DEFINITION. Register banks and scratchpad banks (02 R42, 05 R100, 09 R197): the words and rows a block holds, who owns a
bank, spills to the save area and refills from it (20 R473 to R476), and the parked-row region (09 R219).
-/

namespace Sys2Proof.Machine

/-! ### Words of the register file (05 R100) -/

/-- The blocks of a core that have not ended: one that has only holds its rows (R210). -/
def liveBlocks (s : State) (core : Nat) : List Nat := (coreOf s core).blocks.filter fun b => !(blockOf s b).ended

/-- The register-file words of a block (R100). -/
def wordsOf (s : State) (b : Nat) : Nat := 32 * (blockOf s b).gangs * (launchOfBlock s b).desc.allot

/-- The blocks of a context that hold registers of a core, whether the context is resident or not. -/
def regBlocks (s : State) (core ctx : Nat) : List Nat :=
  (s.work.blocks.filter fun p => p.2.core == some core && !p.2.ended && ctxOfBlock s p.1 == ctx).map Prod.fst

/-- R100: the first of n free words of a core for a context, at a multiple of 256: the lowest run that no block of the
context holds. Words of other contexts are claimed by the bank (02 R42). -/
def freeRun (s : State) (core ctx n : Nat) : Option Nat :=
  let used := (regBlocks s core ctx).map fun b => ((blockOf s b).regBase, wordsOf s b)
  ((List.range 256).map (256 * ·)).find? fun w =>
    decide (w + n ≤ 65536) && used.all fun u => decide (w + n ≤ u.1) || decide (u.1 + u.2 ≤ w)

/-- R100: the banks that a run of words lies in. -/
def banksOfRun (base n : Nat) : List Nat := (List.range 16).filter fun k => base < 4096 * (k + 1) && 4096 * k < base + n

/-- The thread and register at word i of a block's run: gang after gang, register after register, lane after lane
(log 57). -/
def regPlace (s : State) (b i : Nat) : Nat × Nat :=
  let a := (launchOfBlock s b).desc.allot
  (threadUid b (32 * (i / (32 * a)) + i % 32), i / 32 % max 1 a)

/-- The block of a context whose run holds a word of a core, and the word's place in it. -/
def wordBlock (s : State) (core ctx w : Nat) : Option (Nat × Nat) :=
  ((regBlocks s core ctx).find? fun b =>
    (blockOf s b).regBase ≤ w && w < (blockOf s b).regBase + wordsOf s b).map fun b => (b, w - (blockOf s b).regBase)

/-- A word of the register file as a context's blocks hold it. -/
def regWord (s : State) (core ctx w : Nat) : Word :=
  match wordBlock s core ctx w with
  | none => 0
  | some (b, i) => ((threadOf s (regPlace s b i).1).map fun t => t.regs.get (regPlace s b i).2).getD 0

/-- A word of the register file written. -/
def setRegWord (s : State) (core ctx w : Nat) (x : Word) : State :=
  match wordBlock s core ctx w with
  | none => s
  | some (b, i) => modThread s (regPlace s b i).1 fun t =>
      if t.regs.get (regPlace s b i).2 = x then t else t.modRegs fun r => r.set (regPlace s b i).2 x

/-! ### The save area as bytes (20 R476, R554) -/

/-- R476: where a core's region of a save area begins. -/
def saveCore (s : State) (ctx core : Nat) : Nat := saveCluster s ctx (clusterOfCore core) + core % 4 * 0x400000

/-- A write that failed: the context whose structure it is, and the address. -/
abbrev Held := Nat × Nat

/-- R554: bytes written to a context's save area; a write that fails translation leaves its address. -/
def saveArea (q : Except Held State) (ctx va : Nat) (bs : List Byte) : Except Held State :=
  match q with
  | .error a => .error a
  | .ok s => match writeVirtual s ctx va bs with
    | none => .error (ctx, va)
    | some s1 => .ok s1

/-- Bytes read from a context's save area. -/
def savedBytes (s : State) (ctx va n : Nat) : Except Held (List Byte) :=
  match readVirtual s ctx va n with
  | .error _ => .error (ctx, va)
  | .ok bs => .ok bs

/-- R554: what a held write leaves: the state as it was, with the failure recorded. -/
def holdWrite (s : State) : Except Held State → State
  | .ok t => t
  | .error a => structureFailed s a.1 a.2

/-! ### The reserved ways of the L2 (09 R204, 20 R474, R475) -/

/-- R204: the bytes of the ways of a die reserved by `SHADOWWAYS`. -/
def shadowBytes (s : State) (die : Nat) : Nat := 384 * 256 * 128 * min 8 (dieOf s die).shadowWays

/-- The bytes of a die's reserved ways in use. -/
def shadowUsed (s : State) (die : Nat) : Nat := (dieOf s die).shadow.foldl (fun n x => n + x.2.2.length) 0

/-- R204, R474: bytes saved by a cluster of a die: into the reserved ways, beyond them into the save area. -/
def saveState (die ctx : Nat) (q : Except Held State) (va : Nat) (bs : List Byte) : Except Held State :=
  match q with
  | .error a => .error a
  | .ok s =>
    if shadowUsed s die + bs.length ≤ shadowBytes s die then
      .ok (modDie s die fun d => { d with shadow := d.shadow ++ [(ctx, va, bs)] })
    else saveArea (.ok s) ctx va bs

/-- What a die's reserved ways hold of an address of a context. -/
def shadowAt (s : State) (die ctx va : Nat) : Option (List Byte) :=
  ((dieOf s die).shadow.find? fun x => x.1 == ctx && x.2.1 == va).map fun x => x.2.2

/-- R475: bytes read back, from the reserved ways or from the save area. -/
def loadState (s : State) (die ctx va n : Nat) : Except Held (List Byte) :=
  match shadowAt s die ctx va with
  | some bs => .ok bs
  | none => savedBytes s ctx va n

/-- R474: saved bytes replaced by others where they lie. -/
def resaveState (die ctx : Nat) (q : Except Held State) (va : Nat) (bs : List Byte) : Except Held State :=
  match q with
  | .error a => .error a
  | .ok s =>
    if (shadowAt s die ctx va).isSome then
      .ok (modDie s die fun d => { d with shadow := d.shadow.map fun x => if x.1 = ctx ∧ x.2.1 = va then (ctx, va, bs) else x })
    else saveArea (.ok s) ctx va bs

/-- What a die's reserved ways hold of an address of a context, gone once it has been read back. -/
def dropSaved (s : State) (die ctx va : Nat) : State :=
  if (shadowAt s die ctx va).isNone then s
  else modDie s die fun d => { d with shadow := d.shadow.filter fun x => !(x.1 == ctx && x.2.1 == va) }

/-- R204: one entry of a die's reserved ways put back, there or in the save area; one that can go to neither stays until its
write succeeds (20 R554). -/
def putBack (die : Nat) (s : State) (x : Nat × Nat × List Byte) : State :=
  match saveState die x.1 (.ok s) x.2.1 x.2.2 with
  | .ok t => t
  | .error a => structureFailed (modDie s die fun d => { d with shadow := d.shadow ++ [x] }) a.1 a.2

/-- R204: a die's reserved ways hold no more than they have room for: what does not fit goes to the save areas. -/
def trimShadow (s : State) (die : Nat) : State :=
  if shadowUsed s die ≤ shadowBytes s die then s
  else (dieOf s die).shadow.foldl (putBack die) (modDie s die fun d => { d with shadow := [] })

/-! ### Register banks (02 R42) -/

/-- R476: the image of a register bank. -/
def regImage (s : State) (core ctx bank : Nat) : List Byte :=
  (List.range 4096).flatMap fun w => leBytes 4 (regWord s core ctx (4096 * bank + w)).toNat

/-- Whether blocks of a context hold words of a bank. -/
def holdsBank (s : State) (core ctx bank : Nat) : Bool :=
  (regBlocks s core ctx).any fun b => (banksOfRun (blockOf s b).regBase (wordsOf s b)).contains bank

/-- A bank among those a context has spilled. -/
def findBank (m : List SpilledBank) (core bank : Nat) : Option SpilledBank := m.find? fun x => x.core == core && x.bank == bank

/-- Spilled banks without one. -/
def dropBank (m : List SpilledBank) (core bank : Nat) : List SpilledBank := m.filter fun x => !(x.core == core && x.bank == bank)

/-- R42, R45: where a claimed bank goes: what a partition that is switched out holds, to the reserved ways and beyond them to
the save area (R474); what a resident context's evicted blocks hold, to the save area. -/
def spillTo (s : State) (core ctx va : Nat) (bs : List Byte) : Except Held State :=
  if (ctxOf s ctx).resident then saveArea (.ok s) ctx va bs else saveState (dieOfCore core) ctx (.ok s) va bs

/-- The bytes of a bank that returns: those its image now holds, but those that the device has changed since the spill, where
`was` is what was spilled and `cur` what the device has. -/
def returned (cur was now : List Byte) : List Byte :=
  ((cur.zip was).zip now).map fun x => if x.1.1 = x.1.2 then x.2 else x.1.1

/-- R476: the address of a register bank's image. -/
def regImageAddr (s : State) (core ctx bank : Nat) : Nat := saveCore s ctx core + 0x4000 * bank

/-- R42: a bank's contents spilled for its owner, if they are not already. -/
def spillRegs (s : State) (core ctx bank : Nat) : Except Held State :=
  if !holdsBank s core ctx bank || (findBank (moreOf s ctx).spilledRegs core bank).isSome then .ok s
  else
    let img := regImage s core ctx bank
    match spillTo s core ctx (regImageAddr s core ctx bank) img with
    | .error a => .error a
    | .ok s1 => .ok (modMore s1 ctx fun m => { m with spilledRegs := { core := core, bank := bank, img := img } :: m.spilledRegs })

/-- R42, R475: a spilled bank's contents read back, and its image no longer current (R473). -/
def readRegs (s : State) (core ctx bank : Nat) : Except Held State :=
  match findBank (moreOf s ctx).spilledRegs core bank with
  | none => .ok s
  | some x =>
    match loadState s (dieOfCore core) ctx (regImageAddr s core ctx bank) 0x4000 with
    | .error a => .error a
    | .ok now =>
      let bs := returned (regImage s core ctx bank) x.img now
      let s1 := (List.range 4096).foldl (fun acc w =>
        setRegWord acc core ctx (4096 * bank + w) (BitVec.ofNat 32 (leNat ((bs.drop (4 * w)).take 4)))) s
      .ok (modMore (dropSaved s1 (dieOfCore core) ctx (regImageAddr s core ctx bank)) ctx fun m =>
        { m with spilledRegs := dropBank m.spilledRegs core bank })

/-- R42: a register bank is present for a context: another owner's contents are spilled, the context's own, if spilled, read
back. -/
def claimRegs (core ctx : Nat) (q : Except Held State) (bank : Nat) : Except Held State :=
  match q with
  | .error a => .error a
  | .ok s =>
    let own (t : State) : Except Held State :=
      readRegs (modCore t core fun c => { c with regOwner := mset c.regOwner bank ctx }) core ctx bank
    match mget (coreOf s core).regOwner bank with
    | none => own s
    | some o =>
      if o = ctx then readRegs s core ctx bank
      else match spillRegs s core o bank with
        | .error a => .error a
        | .ok s1 => own s1

/-! ### Scratchpad banks (02 R42, 09 R197) -/

/-- A core's own part of the work of a context: the core where the context is resident, else what it has saved. -/
def coreOfCtx (s : State) (core ctx : Nat) : Core :=
  match mget (moreOf s ctx).savedCores core with
  | some c => if (ctxOf s ctx).resident then coreOf s core else c
  | none => coreOf s core

/-- The blocks of a context that hold rows of a core. -/
def rowHolders (s : State) (core ctx : Nat) : List Nat :=
  (s.work.blocks.filter fun p => p.2.core == some core && !p.2.parked && ctxOfBlock s p.1 == ctx).map Prod.fst

/-- Whether the TOB of a core, as a context sees it, belongs to a launch of the context. -/
def tobOfCtx (s : State) (core ctx : Nat) : Bool :=
  match (coreOfCtx s core ctx).tobLaunch with
  | none => false
  | some l => (launchOf s l).ctx == ctx

/-- The 128 bytes of a logical row. -/
def rowBytes (m : List Host.Cell) (i : Nat) : List Byte := cellsFrom m (128 * i) 128

/-- The bytes of a physical row (64 × bank + row) as a context's blocks and TOB hold it; 0 where it holds none. -/
def regPlaceBytes (s : State) (core ctx p : Nat) : List Byte :=
  match (rowHolders s core ctx).findSome? fun b =>
      ((blockOf s b).rowPlace.find? fun q => q.2 == p).map fun q => rowBytes (blockOf s b).scratch q.1 with
  | some bs => bs
  | none =>
    if tobOfCtx s core ctx then
      (((coreOfCtx s core ctx).tobPlace.find? fun q => q.2 == p).map fun q =>
        rowBytes (coreOfCtx s core ctx).tob q.1).getD (leBytes 128 0)
    else leBytes 128 0

/-- Whether a context holds rows of a scratchpad bank. -/
def holdsRows (s : State) (core ctx bank : Nat) : Bool :=
  ((rowHolders s core ctx).any fun b => (blockOf s b).rowPlace.any fun q => q.2 / 64 == bank)
    || (tobOfCtx s core ctx && (coreOfCtx s core ctx).tobPlace.any fun q => q.2 / 64 == bank)

/-- R476: the image of a scratchpad bank. -/
def rowImage (s : State) (core ctx bank : Nat) : List Byte :=
  (List.range 64).flatMap fun r => regPlaceBytes s core ctx (64 * bank + r)

/-- R476: the address of a scratchpad bank's image. -/
def rowImageAddr (s : State) (core ctx bank : Nat) : Nat := saveCore s ctx core + 0x40000 + 0x2000 * bank

/-- R42: a scratchpad bank's contents spilled by `put`, if they are not already. -/
def spillRowsTo (put : State → Nat → List Byte → Except Held State) (s : State) (core ctx bank : Nat) : Except Held State :=
  if !holdsRows s core ctx bank || (findBank (moreOf s ctx).spilledRows core bank).isSome then .ok s
  else
    let img := rowImage s core ctx bank
    match put s (rowImageAddr s core ctx bank) img with
    | .error a => .error a
    | .ok s1 => .ok (modMore s1 ctx fun m => { m with spilledRows := { core := core, bank := bank, img := img } :: m.spilledRows })

/-- R42: a claimed scratchpad bank's contents spilled for its owner. -/
def spillRows (s : State) (core ctx bank : Nat) : Except Held State :=
  spillRowsTo (fun t va bs => spillTo t core ctx va bs) s core ctx bank

/-- The 128 bytes of a logical row written. -/
def setRow (m : List Host.Cell) (i : Nat) (bs : List Byte) : List Host.Cell :=
  setCells m (((List.range 128).zip bs).map fun x => (128 * i + x.1, x.2))

/-- The rows of a place map that lie in a bank, read back from its image; `was` is what was spilled. -/
def rowsBack (bank : Nat) (was now : List Byte) (places : SMap Nat) (m : List Host.Cell) : List Host.Cell :=
  let part (bs : List Byte) (q : Nat × Nat) : List Byte := (bs.drop (128 * (q.2 % 64))).take 128
  (places.filter fun q => q.2 / 64 == bank).foldl (fun acc q =>
    setRow acc q.1 (returned (rowBytes acc q.1) (part was q) (part now q))) m

/-- R42, R475: a spilled scratchpad bank's contents read back, and its image no longer current (R473). -/
def readRows (s : State) (core ctx bank : Nat) : Except Held State :=
  match findBank (moreOf s ctx).spilledRows core bank with
  | none => .ok s
  | some x =>
    match loadState s (dieOfCore core) ctx (rowImageAddr s core ctx bank) 0x2000 with
    | .error a => .error a
    | .ok now =>
      let s1 := (rowHolders s core ctx).foldl (fun acc b =>
        modBlock acc b fun k => { k with scratch := rowsBack bank x.img now k.rowPlace k.scratch }) s
      let s2 := if tobOfCtx s core ctx then
          modCore s1 core fun c => { c with tob := rowsBack bank x.img now c.tobPlace c.tob }
        else s1
      .ok (modMore (dropSaved s2 (dieOfCore core) ctx (rowImageAddr s core ctx bank)) ctx fun m =>
        { m with spilledRows := dropBank m.spilledRows core bank })

/-- R42: a scratchpad bank is present for a context: another owner's contents are spilled, the context's own, if spilled, read
back. -/
def claimRows (core ctx : Nat) (q : Except Held State) (bank : Nat) : Except Held State :=
  match q with
  | .error a => .error a
  | .ok s =>
    let own (t : State) : Except Held State :=
      readRows (modCore t core fun c => { c with rowOwner := mset c.rowOwner bank ctx }) core ctx bank
    match mget (coreOf s core).rowOwner bank with
    | none => own s
    | some o =>
      if o = ctx then readRows s core ctx bank
      else match spillRows s core o bank with
        | .error a => .error a
        | .ok s1 => own s1

/-- The scratchpad banks that a place map lies in. -/
def banksOfPlaces (m : SMap Nat) : List Nat := (m.map fun q => q.2 / 64).dedup

/-- R42, R475: every bank that a block's registers and rows lie in is present and its context's. -/
def refillBanks (q : Except Held State) (b : Nat) : Except Held State :=
  match q with
  | .error a => .error a
  | .ok s =>
    match (blockOf s b).core with
    | none => .ok s
    | some core =>
      let ctx := ctxOfBlock s b
      (banksOfPlaces (blockOf s b).rowPlace).foldl (claimRows core ctx)
        ((banksOfRun (blockOf s b).regBase (wordsOf s b)).foldl (claimRegs core ctx) (.ok s))

/-- R42, R475: the banks that a core's TOB lies in are present, where it is a context's. -/
def refillTob (ctx : Nat) (q : Except Held State) (core : Nat) : Except Held State :=
  match q with
  | .error a => .error a
  | .ok s =>
    if tobOfCtx s core ctx then (banksOfPlaces (coreOf s core).tobPlace).foldl (claimRows core ctx) (.ok s) else .ok s

/-! ### Parked rows (09 R219, 20 R476) -/

/-- R476: the first of n free rows of a core's parked-row region, first fit among the parked blocks of a context. -/
def parkRoom (s : State) (core ctx n : Nat) : Option Nat :=
  let used := s.work.blocks.filterMap fun p =>
    if p.2.core == some core && p.2.parked && ctxOfBlock s p.1 == ctx then
      p.2.parkRow.map fun r => (r, (launchOfBlock s p.1).desc.rows)
    else none
  (0 :: used.map fun u => u.1 + u.2).filter (fun r =>
    decide (r + n ≤ 4096) && used.all fun u => decide (r + n ≤ u.1) || decide (u.1 + u.2 ≤ r)) |>.min?

/-- R476: the address of a row of a core's parked-row region. -/
def parkAddr (s : State) (ctx core row : Nat) : Nat := saveCore s ctx core + 0x80000 + 128 * row

/-- R219 step 3: a block's rows written to the parked-row region. -/
def parkRows (s : State) (b : Nat) : Except Held State :=
  let k := blockOf s b
  let n := (launchOfBlock s b).desc.rows
  let ctx := ctxOfBlock s b
  match k.core with
  | none => .ok s
  | some core =>
    let at_ := (parkRoom s core ctx n).getD 0
    match saveArea (.ok s) ctx (parkAddr s ctx core at_) ((List.range n).flatMap (rowBytes k.scratch)) with
    | .error a => .error a
    | .ok s1 => .ok (modBlock s1 b fun x => { x with parkRow := some at_ })

/-- R219: a parked block's rows read back in logical order. -/
def unparkRows (s : State) (b : Nat) : Except Held State :=
  let k := blockOf s b
  let n := (launchOfBlock s b).desc.rows
  let ctx := ctxOfBlock s b
  match k.core, k.parkRow with
  | some core, some r =>
    match savedBytes s ctx (parkAddr s ctx core r) (128 * n) with
    | .error a => .error a
    | .ok bs => .ok (modBlock s b fun x =>
        { x with parkRow := none
                 scratch := (List.range n).foldl (fun m i => setRow m i ((bs.drop (128 * i)).take 128)) x.scratch })
  | _, _ => .ok s

/-! ### Records of a block that leaves its slots (02 R41, 20 R476) -/

/-- 18 R429: the 68 bits of a barrier. -/
def Barrier.bytes (b : Barrier) : List Byte :=
  leBytes 9 (b.pending % 2 ^ 32 + b.members % 2 ^ 32 * 2 ^ 32 + b.phase % 16 * 2 ^ 64)

/-- The barriers of a map in key order. -/
def barsBytes (m : SMap Barrier) : List Byte := m.flatMap fun p => leBytes 2 p.1 ++ p.2.bytes

/-- 08 R191, R196: the state and masks of a convergence register. -/
def KReg.bytes (k : KReg) : List Byte := leBytes 1 k.state.code ++ leBytes 128 k.declared.toNat ++ leBytes 128 k.signed.toNat

/-- R476: a block record, a part of the save area that belongs to the device: the block's gang and block barriers, and its
convergence registers that are not `IDLE` (08 R196, log 58). -/
def blockRecord (s : State) (b : Nat) : List Byte :=
  leBytes 8 b ++ barsBytes (blockOf s b).gangBars ++ leBytes 2 0xFFFF ++ barsBytes (blockOf s b).blockBars
  ++ leBytes 2 0xFFFF
  ++ ((syncOf s b).kregs.filter fun k => k.2.state != .idle).flatMap fun k => leBytes 1 k.1 ++ k.2.bytes

/-- R476: the address of a block record. -/
def blockRecordAddr (s : State) (ctx core slot : Nat) : Nat := saveCore s ctx core + 0x180000 + 0x2000 * (slot % 64)

/-- R477: the record of one thread, with the free values that bytes 57 to 63 take (log 37). -/
def recordNow (s : State) (t : Thread) : List Byte :=
  threadRecord t ((Config.freeWord s.draws).toNat + (Config.freeWord (s.draws + 1)).toNat * 2 ^ 32)

/-- R41: a block's barriers and the records of its live threads written to its context's save area. -/
def saveWaits (s : State) (b : Nat) : Except Held State :=
  let ctx := ctxOfBlock s b
  let core := (blockOf s b).core.getD 0
  let q := saveArea (.ok s) ctx (blockRecordAddr s ctx core (blockOf s b).slot) (blockRecord s b)
  (threadsOfBlock s b).foldl (fun acc p =>
    if p.2.ctl.run = .exited then acc
    else match acc with
      | .error a => .error a
      | .ok s1 => saveArea (.ok { s1 with draws := s1.draws + 2 }) ctx (saveThread s1 ctx core p.2.slot) (recordNow s1 p.2)) q

/-! ### Checkpoint images (20 R480) -/

/-- R480, R554: bytes of a block's checkpoint image written to the save area; a write that fails is recorded and tried again at
its retry, and holds the block's work until then. -/
def writeImage (s : State) (b ctx va : Nat) (bs : List Byte) (done : State → State) : State :=
  let hold (t : State) : State := modSync t b fun y => { y with imageHeld := true }
  if (moreOf s ctx).retryAt.isSome then hold s
  else match writeVirtual s ctx va bs with
    | none => hold (structureFailed s ctx va)
    | some s1 => done s1

/-- A word of a block's run as its checkpoint holds it. -/
def imageWord (s : State) (b : Nat) (img : Image) (i : Nat) : Word :=
  let p := regPlace s b i
  ((mget img.threads p.1).map fun t => t.regs.get p.2).getD 0

/-- The places in a block's run that lie in a register bank. -/
def runInBank (s : State) (b bank : Nat) : List Nat :=
  (List.range (wordsOf s b)).filter fun i => ((blockOf s b).regBase + i) / 4096 == bank

/-- R480: the first write of a block to its words in a register bank after a checkpoint copies those words to the register
checkpoint image, at the same offsets (log 82). -/
def copyRegs (b core ctx : Nat) (img : Image) (s : State) (bank : Nat) : State :=
  let is := runInBank s b bank
  let written (i : Nat) : Bool := ((threadOf s (regPlace s b i).1).any fun t => t.regs.get (regPlace s b i).2 != imageWord s b img i)
  if (syncOf s b).imgRegs.contains bank || !is.any written then s
  else
    writeImage s b ctx (saveCore s ctx core + 0x210000 + 4 * ((blockOf s b).regBase + is.headD 0))
      (is.flatMap fun i => leBytes 4 (imageWord s b img i).toNat)
      fun t => modSync t b fun y => { y with imgRegs := bank :: y.imgRegs }

/-- R480: the same for a row of a scratchpad bank; the image of a row that has moved follows it. -/
def copyRow (b core ctx : Nat) (img : Image) (dirty : List Nat) (s : State) (q : Nat × Nat) : State :=
  let now := mget (syncOf s b).imgRows q.1
  if now = some q.2 ∨ (now = none ∧ dirty.contains (q.2 / 64) = false) then s
  else
    writeImage s b ctx (saveCore s ctx core + 0x250000 + 128 * q.2) (rowBytes img.rows q.1)
      fun t => modSync t b fun y => { y with imgRows := mset y.imgRows q.1 q.2 }

/-- R480: the checkpoint images of a block that stands on its core. -/
def copyBlock (s : State) (b : Nat) : State :=
  match (syncOf s b).checkpoint, (blockOf s b).core with
  | some img, some core =>
    let k := blockOf s b
    let ctx := ctxOfBlock s b
    if k.parked || k.ended || !(ctxOf s ctx).resident then s
    else
      let dirty := ((k.rowPlace.filter fun q => rowBytes k.scratch q.1 != rowBytes img.rows q.1).map fun q => q.2 / 64).dedup
      let s0 := if (syncOf s b).imageHeld then modSync s b fun y => { y with imageHeld := false } else s
      k.rowPlace.foldl (copyRow b core ctx img dirty)
        ((banksOfRun k.regBase (wordsOf s b)).foldl (copyRegs b core ctx img) s0)
  | _, _ => s

/-- R480: the checkpoint images of every shadowed block follow what the last step wrote. -/
def copyImages (s : State) : State :=
  ((s.work.sync.filter fun p => p.2.checkpoint.isSome).map Prod.fst).foldl copyBlock s

/-! ### Units that stop with a record (02 R44 step 2, 09 R219) -/

/-- A command changed in its core's queue. -/
def modCopy (s : State) (core ticket : Nat) (f : CopyCmd → CopyCmd) : State :=
  modCore s core fun k => { k with copyQ := k.copyQ.map fun x => if x.ticket = ticket then f x else x }

/-- 14 R353: a command that stands at the start of a row, its first sector not yet drawn, keeps `CPSEED` as it is there. -/
def keepSeed (s : State) (c : CopyCmd) : State :=
  if c.completion = 0 ∧ c.next % max 1 (copyRowSectors c.control c.shape) = 0 then
    modCopy s c.core c.ticket fun x => { x with rowSeed := (coreOf s c.core).cpSeed }
  else s

/-- 14 R353: a command parks. The value that the saved seed of its row comes to at its watermark is kept, so that the row is
drawn on from it. -/
def pauseCopy (s : State) (c : CopyCmd) : State :=
  modCopy s c.core c.ticket fun x => { x with parked := true, seed := (coreOf s c.core).cpSeed }

/-- 14 R337: whether a copy rounds stochastically. -/
def CopyCmd.stochastic (c : CopyCmd) : Bool :=
  (dbits c.control 3 1 == 1 || dbits c.control 3 1 == 2) && dbits c.control 5 4 == 2

/-- 14 R353: a parked command resumes: its draws go on from the saved seed, whatever `CPSEED` holds. -/
def resumeCopy (s : State) (core ticket : Nat) : State :=
  let s1 := modCopy s core ticket fun c => { c with parked := false }
  match (coreOf s core).copyQ.find? fun c => c.ticket == ticket with
  | none => s1
  | some c => if c.stochastic && c.parked then modCore s1 core fun k => { k with cpSeed := c.seed } else s1

/-- R44 step 2: a copy that runs stops at its watermark with a record. -/
def parkSwitched (s : State) (c : CopyCmd) : State :=
  if c.started && !c.parked then
    takeRecord (pauseCopy (keepSeed s c) c) c.ctx
      { cause := 2, location := coreLocation c.core, slot := (blockOf s c.block).slot, work := .copy c.core c.ticket
        since := (ctxOf s c.ctx).ctime }
  else s

/-- R44 step 2: a sampler's operation stops between quads with a record. -/
def parkSampler (s : State) (core : Nat) (o : TexOp) : State :=
  if o.parked then s
  else
    let ctx := ctxOfBlock s o.block
    takeRecord (modCore s core fun c =>
        { c with texQ := c.texQ.map fun x => if x.id = o.id then { x with parked := true } else x }) ctx
      { cause := 2, location := coreLocation core, slot := (blockOf s o.block).slot, work := .texture core o.id o.done
        since := (ctxOf s ctx).ctime }

/-! ### What a partition switch saves (20 R474 to R476, 09 R204) -/

/-- R476: whether a thread's record is saved at a switch: it holds a slot. -/
def recordSaved (s : State) (t : Thread) : Bool :=
  !(blockOf s t.block).evicted && !(blockOf s t.block).parked && t.ctl.run != .exited

/-- R474: the record of one live thread that holds a slot. -/
def saveOneThread (ctx : Nat) (q : Except Held State) (t : Thread) : Except Held State :=
  match q with
  | .error a => .error a
  | .ok s =>
    let core := (blockOf s t.block).core.getD 0
    if !recordSaved s t then .ok s
    else saveState (dieOfCore core) ctx (.ok { s with draws := s.draws + 2 }) (saveThread s ctx core t.slot) (recordNow s t)

/-- R476: the address of row m of tile t in the accumulator image of a cluster. -/
def tileAddr (s : State) (ctx cluster t m : Nat) : Nat := saveCluster s ctx cluster + 0x1000000 + t * 0x20000 + m * 0x400

/-- R476: the accumulator image of a cluster. -/
def saveTiles (ctx : Nat) (q : Except Held State) (cluster : Nat) : Except Held State :=
  (List.range 1024).foldl (fun q0 k =>
    match q0 with
    | .error a => .error a
    | .ok s =>
      saveState (cluster / 48) ctx (.ok s) (tileAddr s ctx cluster (k / 128) (k % 128))
        (tileRow (clusterOf s cluster) (k / 128) (k % 128))) q

/-- 14 R345: the state of a transaction barrier in 16 bytes. -/
def TxBarrier.bytes (b : TxBarrier) : List Byte :=
  leBytes 1 b.valid.toNat ++ leBytes 1 b.phase ++ leBytes 1 b.flag ++ leBytes 1 0 ++ leBytes 2 b.init ++ leBytes 2 b.arr
  ++ leBytes 8 (BitVec.ofInt 64 b.sect).toNat

/-- 14 R349: a circular buffer with its slots. -/
def CircBuf.bytes (b : CircBuf) : List Byte :=
  leBytes 1 b.valid.toNat ++ leBytes 2 b.base ++ leBytes 2 b.srows ++ leBytes 1 b.nslot ++ leBytes 2 b.cons
  ++ leBytes 4 b.takeSeq ++ leBytes 4 b.fillSeq ++ leBytes 4 b.freeSeq
  ++ (List.range b.nslot).flatMap fun i =>
      leBytes 2 (mgetD b.count i 0) ++ leBytes 1 (mgetD b.status i .done).code ++ leBytes 1 (mgetD b.filled i false).toNat

/-- 14 R336, R353: a posted copy command. -/
def CopyCmd.bytes (c : CopyCmd) : List Byte :=
  leBytes 4 c.ticket ++ leBytes 1 c.op ++ leBytes 4 c.block ++ leBytes 4 c.seq
  ++ ([c.control, c.shape, c.src, c.dst, c.stride, c.rowSeed, c.seed].flatMap fun x => leBytes 8 x.toNat)
  ++ leBytes 1 (c.released.toNat + 2 * c.started.toNat + 4 * c.parked.toNat + 8 * c.poisoned.toNat)
  ++ leBytes 2 (c.slot.getD 0xFFFF) ++ leBytes 4 c.next

/-- 12 R276, 14 R349: a completion ring. -/
def ringImage (m : SMap RingEntry) : List Byte :=
  leBytes 2 m.length ++ m.flatMap fun p => leBytes 2 p.1 ++ leBytes 1 p.2.status.code ++ leBytes 1 p.2.fault.byte

/-- 16 R396: an operation in a sampler's operand buffer. -/
def TexOp.bytes (o : TexOp) : List Byte :=
  leBytes 1 o.id ++ leBytes 1 o.op ++ leBytes 4 o.block ++ leBytes 1 o.channel ++ leBytes 1 o.done ++ leBytes 1 o.lanes.length
  ++ o.lanes.flatMap fun l => leBytes 1 l.lane ++ leBytes 4 l.uid ++ leBytes 1 l.dst ++ leBytes 4 l.desc ++ leBytes 4 l.u.toNat
      ++ leBytes 4 l.v.toNat

/-- 20 R459: a call slot. -/
def CallSlot.bytes (c : CallSlot) : List Byte :=
  leBytes 4 c.tag ++ leBytes 1 c.state ++ leBytes 2 c.waiting.length ++ (c.waiting.flatMap fun u => leBytes 4 u)
  ++ leBytes 2 c.reply.length ++ c.reply

/-- R476: the core state: transaction barriers, circular buffers, the copy queue and ring, the Coachman, the call slots of the
core's blocks, the sampler's operand buffer (log 58). -/
def coreStateBytes (s : State) (c : Core) (h : Coach) : List Byte :=
  let calls := c.blocks.flatMap fun b => (syncOf s b).calls.map fun p => (b, p)
  ((List.range 64).flatMap fun i => (mgetD c.tbs i {}).bytes)
  ++ leBytes 2 c.cbufs.length ++ (c.cbufs.flatMap fun p => leBytes 2 p.1 ++ p.2.bytes)
  ++ leBytes 4 c.copyTicket ++ leBytes 4 c.copyQ.length ++ (c.copyQ.flatMap CopyCmd.bytes) ++ ringImage c.copyRing
  ++ ((List.range 32).flatMap fun i => leBytes 8 (h.get i).toNat) ++ leBytes 8 h.pc ++ leBytes 1 h.running.toNat
  ++ leBytes 1 h.stack.length ++ (h.stack.flatMap fun a => leBytes 8 a)
  ++ leBytes 2 calls.length ++ (calls.flatMap fun q => leBytes 4 q.1 ++ leBytes 1 q.2.1 ++ q.2.2.bytes)
  ++ leBytes 1 c.texQ.length ++ c.texQ.flatMap TexOp.bytes

/-- 15 R365, R366: the run under way in a cluster's ray traversal unit. -/
def runBytes : Option RayRun → List Byte
  | none => leBytes 1 0
  | some r => leBytes 1 1 ++ leBytes 4 r.launch ++ leBytes 4 r.subtree ++ leBytes 8 r.number ++ leBytes 2 r.taken
    ++ leBytes 2 r.rays.length ++ r.rays.flatMap fun e => leBytes 4 e.id ++ leBytes 8 e.stamp ++ leBytes 8 e.filed

/-- R476: the cluster state: the reservation table, the tile owners, the entry allotments, the cluster-group barriers and the
ray traversal unit (log 58). -/
def clusterStateBytes (s : State) (ctx cluster : Nat) : List Byte :=
  let c := clusterOf s cluster
  leBytes 2 c.table.length
  ++ (c.table.flatMap fun e => leBytes 2 e.1 ++ leBytes 4 e.2.cmd.ticket ++ leBytes 4 e.2.cmd.block ++ leBytes 1 e.2.pass
      ++ leBytes 2 e.2.row ++ leBytes 8 e.2.postedAt)
  ++ leBytes 2 c.owners.length
  ++ (c.owners.flatMap fun o => leBytes 1 o.1 ++ match o.2 with
      | .group g => leBytes 1 1 ++ leBytes 8 g
      | .block b => leBytes 1 2 ++ leBytes 8 b)
  ++ ((s.work.groups.filter fun g => g.2.cluster == some cluster && (launchOf s g.2.launch).ctx == ctx).flatMap fun g =>
      leBytes 8 g.1 ++ barsBytes g.2.bars)
  ++ (((s.work.blocks.filter fun b => b.2.core.any (fun g => clusterOfCore g == cluster) && ctxOfBlock s b.1 == ctx).map
      Prod.fst).flatMap fun b => leBytes 4 b ++ leBytes 1 (syncOf s b).entries)
  ++ runBytes c.run

/-- R476: the 64 bytes of an incomplete launch in the launch table. -/
def launchBytes (l : Nat) (k : Launch) : List Byte :=
  (leBytes 8 l ++ leBytes 8 k.counter ++ barsBytes k.bars ++ leBytes 48 0).take 64

/-- R476: the header: the context, `%ctime` at switch-out, the partition table entry (log 58). -/
def headerBytes (s : State) (ctx index : Nat) (p : Partition) : List Byte :=
  leBytes 8 ctx ++ leBytes 8 (ctxOf s ctx).ctime ++ leBytes 8 index ++ leBytes 24 p.mask.toNat

/-- R474: the blocks of a context, whose records are saved. -/
def blocksOfCtx (s : State) (ctx : Nat) : List Nat :=
  (s.work.blocks.filter fun p => ctxOfBlock s p.1 == ctx && p.2.core.isSome).map Prod.fst

/-- R474: what is saved eagerly: the header, the launch table, block records, core and cluster states, thread records and
accumulator images. -/
def saveImages (s : State) (ctx index : Nat) (p : Partition) : Except Held State :=
  let die := (((List.range 192).find? fun c => p.mask.getLsbD c).getD 0) / 48
  let base := (ctxOf s ctx).f.saveBase
  let running := s.work.launches.filter fun l => l.2.ctx == ctx && l.2.counter != 0
  let q1 := saveState die ctx (.ok s) base (headerBytes s ctx index p)
  let q2 := (running.zip (List.range running.length)).foldl (fun q x =>
    saveState die ctx q (base + 0x1000 + 64 * x.2) (launchBytes x.1.1 x.1.2)) q1
  let q3 := (blocksOfCtx s ctx).foldl (fun q b =>
    let core := (blockOf s b).core.getD 0
    saveState (dieOfCore core) ctx q (blockRecordAddr s ctx core (blockOf s b).slot) (blockRecord s b)) q2
  let q4 := (s.cores.filter fun c => p.mask.getLsbD (clusterOfCore c.1)).foldl (fun q c =>
    saveState (dieOfCore c.1) ctx q (saveCore s ctx c.1 + 0x200000) ((coreStateBytes s c.2 (coachOf s c.1)).take 0x10000)) q3
  let q5 := (s.clusters.filter fun c => p.mask.getLsbD c.1).foldl (fun q c =>
    saveState (c.1 / 48) ctx q (saveCluster s ctx c.1 + 0x1100000) ((clusterStateBytes s ctx c.1).take 0x10000)) q4
  let ts := (s.work.threads.filter fun t => ctxOfBlock s t.2.block == ctx).map Prod.snd
  ((List.range 192).filter fun c => p.mask.getLsbD c).foldl (saveTiles ctx) (ts.foldl (saveOneThread ctx) q5)

/-- What the reserved ways hold of a context, gone once it is restored, but for its banks that are still spilled (R475). -/
def dropShadow (s : State) (ctx : Nat) : State :=
  let kept := (moreOf s ctx).spilledRegs.map (fun x => regImageAddr s x.core ctx x.bank)
    ++ (moreOf s ctx).spilledRows.map fun x => rowImageAddr s x.core ctx x.bank
  { s with dies := s.dies.map fun p =>
      (p.1, { p.2 with shadow := p.2.shadow.filter fun x => x.1 != ctx || kept.contains x.2.1 }) }

/-! ### Work of a context that is switched out (20 R478) -/

/-- R474: a thread's record saved again, if the thread has changed since `s0`. -/
def resaveThread (s0 : State) (ctx : Nat) (q : Except Held State) (p : Nat × Thread) : Except Held State :=
  match q with
  | .error a => .error a
  | .ok s =>
    if ctxOfBlock s p.2.block ≠ ctx ∨ threadOf s0 p.1 = some p.2 ∨ recordSaved s p.2 = false then .ok s
    else
      let core := (blockOf s p.2.block).core.getD 0
      resaveState (dieOfCore core) ctx (.ok { s with draws := s.draws + 2 }) (saveThread s ctx core p.2.slot) (recordNow s p.2)

/-- R478: a change of a context's work that can happen while its partition is switched out acts on what it has saved, its
thread records among it; a record that cannot be written holds the change (R554). -/
def onContext (s : State) (ctx : Nat) (f : State → State) : State :=
  if (ctxOf s ctx).resident then f s
  else
    let t := swapSaved (f (swapSaved s ctx)) ctx
    if !hasSaved s ctx then t
    else match t.work.threads.foldl (resaveThread s ctx) (.ok t) with
      | .error a => structureFailed s a.1 a.2
      | .ok t1 => t1

/-- R475: the records of a context's threads read back. -/
def loadThreads (s : State) (ctx : Nat) : Except Held State :=
  (s.work.threads.filter fun t => ctxOfBlock s t.2.block == ctx && recordSaved s t.2).foldl (fun q t =>
    match q with
    | .error a => .error a
    | .ok s1 =>
      let core := (blockOf s t.2.block).core.getD 0
      match loadState s1 (dieOfCore core) ctx (saveThread s1 ctx core t.2.slot) 256 with
      | .error a => .error a
      | .ok bs => .ok (modThread s1 t.1 fun x => x.ofRecord bs)) (.ok s)

/-- R475: the accumulator images of the clusters read back. -/
def loadTiles (s : State) (ctx : Nat) (clusters : List Nat) : Except Held State :=
  clusters.foldl (fun q c =>
    (List.range 1024).foldl (fun q0 k =>
      match q0 with
      | .error a => .error a
      | .ok s1 =>
        match loadState s1 (c / 48) ctx (tileAddr s1 ctx c (k / 128) (k % 128)) 1024 with
        | .error a => .error a
        | .ok bs => .ok (modCluster s1 c fun x => tileRowBack x (k / 128) (k % 128) bs)) q) (.ok s)

end Sys2Proof.Machine
end

