-- ==== Sys2Proof/Machine/Queue.lean ====
section
/-!
DEFINITION. The queue and launch forms, opcodes 0xA8 to 0xAC (13 R324-R328), with spill and quota (13 R306,
R307).
-/

namespace Sys2Proof.Machine

/-! ### Spill and quota (R306, R307) -/

/-- R306: an entry appended: on die while nothing is in the ring and there is room, else to the ring. -/
def spillPush {α : Type} (cap : Nat) (q : List α × List α) (x : α) : List α × List α :=
  if q.2.isEmpty && q.1.length < cap then (q.1 ++ [x], q.2) else (q.1, q.2 ++ [x])

/-- R306: the ring's head entries refill the on-die part. -/
def spillRefillPair {α : Type} (cap : Nat) (q : List α × List α) : List α × List α :=
  let k := cap - q.1.length
  (q.1 ++ q.2.take k, q.2.drop k)

/-- R305, R306: an entry appended to a queue of which each die holds `cap` entries made on it. -/
def spillHome {α : Type} (home : α → Nat) (cap : Nat) (q : List α × List α) (x : α) : List α × List α :=
  if q.2.isEmpty && decide ((q.1.filter fun y => home y == home x).length < cap) then (q.1 ++ [x], q.2)
  else (q.1, q.2 ++ [x])

/-- 20 R467: the die of a call record. -/
def callHome (e : List Byte) : Nat := leNat ((e.drop 14).take 2) % 4

/-- 13 R305: a call record appended: each die holds 32. -/
def HwQueue.pushCall (q : HwQueue) (x : List Byte) : HwQueue :=
  let p := spillHome callHome 32 (q.die, q.ring) x
  { q with die := p.1, ring := p.2 }

/-- An entry appended to a hardware queue. -/
def HwQueue.push (cap : Nat) (q : HwQueue) (x : List Byte) : HwQueue :=
  let p := spillPush cap (q.die, q.ring) x
  { q with die := p.1, ring := p.2 }

/-- The entries of a queue, oldest first. -/
def HwQueue.all (q : HwQueue) : List (List Byte) := q.die ++ q.ring

/-- The oldest entry taken. -/
def HwQueue.pop (q : HwQueue) : HwQueue :=
  match q.die with
  | _ :: r => { q with die := r }
  | [] => { q with ring := q.ring.tail }

/-- R307: a ring's share of the quota, in 4 KiB. -/
def ringPages (bytes : Nat) : Nat := (bytes + 4095) / 4096

/-- 16 R382, R388, R305: the bytes of a context in the spill rings of a binner: of its primitive store and of each tile's bin. -/
def binnerBytes (s : State) (ctx : Nat) (b : Binner) : List Nat :=
  let mine (p : BinPrim) : Bool := (launchOf s p.launch).ctx == ctx
  let refs := (b.all.filter mine).flatMap fun p => p.ringRefs.map fun t => (p.launch, t)
  Config.primBytes * (b.ring.filter mine).length :: refs.dedup.map fun t => Config.binRefBytes * refs.count t

/-- R307: the bytes in each spill ring of a context: message, atlas, supervisor-call, spawn, subtree, fault and bin
queues. -/
def ringBytes (s : State) (ctx : Nat) : List Nat :=
  let c := ctxOf s ctx
  let ls := s.work.launches.filter fun p => p.2.ctx == ctx
  (c.msgs.map fun q => 8 * q.2.ring.length)
  ++ [((c.atlas.ring).map List.length).foldl (· + ·) 0, 256 * c.svcQ.ring.length]
  ++ (ls.map fun p => 32 * p.2.spawnRing.length)
  ++ (ls.flatMap fun p => (mgetD s.work.rays p.1 {}).queues.map fun q => 4 * q.2.ring.length)
  ++ (s.dies.map fun d => 32 * (d.2.fault.ring.filter fun e => e.ctx == ctx).length)
  ++ (List.range 8).flatMap fun b => binnerBytes s ctx (binnerOf s b)

/-- R307: the amount of `OVFQUOTA` used. -/
def quotaUsed (s : State) (ctx : Nat) : Nat := ((ringBytes s ctx).map ringPages).foldl (· + ·) 0

/-- R307: whether the entries that lead from `s` to `s1` breach the quota: one of them spills, and the amount
used is above the quota. -/
def quotaBreach (s s1 : State) (ctx : Nat) : Bool :=
  decide ((ringBytes s ctx).foldl (· + ·) 0 < (ringBytes s1 ctx).foldl (· + ·) 0)
    && decide ((ctxOf s1 ctx).f.ovfQuota < quotaUsed s1 ctx)

/-! ### QSEND and QRECV (R325) -/

/-- A message queue of a context. -/
def msgQueue (s : State) (ctx q : Nat) : HwQueue := mgetD (ctxOf s ctx).msgs q {}

/-- A message queue changed. -/
def modMsg (s : State) (ctx q : Nat) (f : HwQueue → HwQueue) : State :=
  modCtx s ctx fun c => { c with msgs := mset c.msgs q (f (mgetD c.msgs q {})) }

/-- R325: one 8-byte entry appended to a message queue. -/
def sendMsg (s : State) (ctx q : Nat) (x : DWord) : State := modMsg s ctx q fun k => k.push 256 (leBytes 8 x.toNat)

/-- R325: `QSEND` by one lane: the state and its status. -/
def qsendLane (f : FormA) (s : State) (_ : Nat) (t : Thread) : State × Word :=
  if (blockOf s t.block).cancelled then (s, Status.cancelled.word)
  else
    (sendMsg s (ctxOfBlock s t.block) (srcWord t .a f.a).toNat (srcPair t .b f.b), Status.done.word)

/-- A result after the quota check of R307. -/
def underQuota (s : State) (ctx : Nat) (s1 : State) : State :=
  if quotaBreach s s1 ctx then faultAt s .quotaBreach s.cur.word else s1

/-- R325, on the cores and the Coachman. -/
def execQsend (f : FormA) (s : State) : Result :=
  let ctx := ctxOfBlock s s.cur.block
  match s.cur.agent with
  | .core =>
    if (activeLanes s f.x.guard).any fun p => 64 ≤ (srcWord p.2 .a f.a).toNat then
      .next (faultAt s .protection s.cur.word)
    else
      let s1 := if f.bit 0 then holdUntilSettled s f.x.guard .dev else s
      .next (underQuota s ctx (eachLane s1 f.x.guard f.dst (qsendLane f)))
  | .coachman =>
    let c := coachOf s s.cur.core
    if guardCoach f.x.guard c && decide (64 ≤ (srcCoach c f.a).toNat) then .next (faultAt s .protection s.cur.word)
    else
      .next (underQuota s ctx (coachAct s f.x.guard f.dst fun k =>
        (sendMsg s ctx (srcCoach k f.a).toNat (srcCoach k f.b), Status.done.word.setWidth 64)))

/-- The turn of a wait on a message queue. -/
def queueTurn (ctx q : Nat) : WaitKind → Option Nat
  | .queue c k _ _ n => if c = ctx ∧ k = q then some n else none
  | _ => none

/-- R325: the turns of the waiters of a queue. -/
def queueWaiters (s : State) (ctx q : Nat) : List Nat :=
  (s.work.threads.filterMap fun p => p.2.ctl.wait.bind fun w => queueTurn ctx q w.kind)
  ++ (s.coaches.filterMap fun p => p.2.wait.bind fun w => queueTurn ctx q w.kind)

/-- R325: whether a receiver that issues now finds an entry that no older waiter has a claim on. -/
def queueReady (s : State) (ctx q : Nat) : Bool :=
  decide ((queueWaiters s ctx q).length < (msgQueue s ctx q).all.length)

/-- The head entry of a queue as a value. -/
def queueHead (s : State) (ctx q : Nat) : DWord := BitVec.ofNat 64 (leNat ((msgQueue s ctx q).all.headD []))

/-- R325: the head entry taken. -/
def takeMsg (s : State) (ctx q : Nat) : State := modMsg s ctx q HwQueue.pop

/-- R325: what a receiver's registers get: the data pair, and with `.acq` the read floor (11 R257). -/
def gotEntry (now : Nat) (data : Nat) (x : DWord) (acq : Bool) (r : Regs) : Regs :=
  let r1 := r.setPair data x
  if acq then { r1 with floor := max r1.floor now } else r1

/-- R325: `QRECV` by one lane at issue. -/
def qrecvLane (f : FormW) (s : State) (u : Nat) (t : Thread) : State :=
  let ctx := ctxOfBlock s t.block
  let q := (srcWord t .a f.a).toNat
  let acq := f.field 0 0 == 1
  let data := f.field 9 2
  if queueReady s ctx q then
    endAtIssue (takeMsg s ctx q) u f.dst f.x.deadline f.x.esc .done Status.done.word false
      (gotEntry s.dtime data (queueHead s ctx q) acq)
  else
    let n := (msgQueue s ctx q).turns
    blockOrExpire (modMsg s ctx q fun k => { k with turns := n + 1 }) u t f.dst f.x.deadline f.x.esc
      (.queue ctx q acq data n) .timeout Status.timeout.word

/-- R325, on the cores and the Coachman. -/
def execQrecv (f : FormW) (s : State) : Result :=
  match s.cur.agent with
  | .core =>
    let ps := activeLanes s f.x.guard
    if ps.any fun p => 64 ≤ (srcWord p.2 .a f.a).toNat then .next (faultAt s .protection s.cur.word)
    else .next (ps.foldl (fun acc p => qrecvLane f acc p.1 p.2) s)
  | .coachman =>
    let c := coachOf s s.cur.core
    let ctx := ctxOfBlock s s.cur.block
    let q := (srcCoach c f.a).toNat
    if !guardCoach f.x.guard c then .next s
    else if 64 ≤ q then .next (faultAt s .protection s.cur.word)
    else if queueReady s ctx q then
      .next (endCoachAtIssue (takeMsg s ctx q) f.dst f.x.deadline f.x.esc .done (Status.done.word.setWidth 64)
        fun x => x.set (f.field 9 2) (queueHead s ctx q))
    else
      let n := (msgQueue s ctx q).turns
      .next (blockCoach (modMsg s ctx q fun k => { k with turns := n + 1 }) f.dst f.x.deadline f.x.esc
        (.queue ctx q (f.field 0 0 == 1) (f.field 9 2) n) .timeout (Status.timeout.word.setWidth 64))

/-! ### SPAWN (R326) -/

/-- 18 R430: n blocks join every launch barrier in the current phase. -/
def joinBarriers (k : Launch) (n : Nat) : Launch :=
  { k with bars := (List.range k.desc.launchBars).foldl (fun m i =>
      let b := mgetD m i {}
      mset m i { b with members := b.members + n, pending := b.pending + n }) k.bars }

/-- R34, R326: a range enters a launch: its counters, its barriers and the spawn queue. -/
def enqueueRange (k : Launch) (e : SpawnEntry) : Launch :=
  let q := spillHome SpawnEntry.home 64 (k.spawnQ, k.spawnRing) e
  joinBarriers { k with counter := k.counter + e.count, spawnQ := q.1, spawnRing := q.2 } e.count

/-- R315: the accesses a thread has outstanding. -/
def accessesOf (s : State) (u : Nat) : List Nat :=
  (s.pend.filter fun a => a.lanes.any fun l => l.uid == u).map Access.id

/-- R315: the texture operations of a core that hold a thread. -/
def texsOf (s : State) (core u : Nat) : List (Nat × Nat) :=
  ((coreOf s core).texQ.filter fun o => o.lanes.any fun l => l.uid == u).map fun o => (core, o.id)

/-- R326: `SPAWN` by one lane: the fault, or the state and the first index. -/
def spawnLane (f : FormA) (s : State) (u : Nat) (t : Thread) : Except FaultCode (State × Word) :=
  let l := (blockOf s t.block).launch
  let k := launchOf s l
  let n := (srcWord t .a f.a).toNat
  let params := (srcPair t .b f.b).toNat
  let entry := (srcPair t .c f.x.srcC).toNat
  if 2 ^ 20 < n then .error .protection
  else if (params != 0 && params % 64 != 0) || entry % 4 != 0 then .error .alignment
  else if 2 ^ 32 - 1 < k.nextIndex + n then .error .protection
  else
    let s1 := modLaunch s l fun x => { x with nextIndex := x.nextIndex + n }
    let e : SpawnEntry := { first := k.nextIndex, index := k.nextIndex, count := n, entry := entry,
                            params := if params = 0 then k.params else params,
                            accs := accessesOf s u, texs := texsOf s s.cur.core u, wh := t.regs.wh
                            home := dieOfCore s.cur.core }
    let s2 := if n = 0 ∨ k.cancelled = true then s1 else modLaunch s1 l fun x => enqueueRange x e
    .ok (s2, BitVec.ofNat 32 k.nextIndex)

/-- Lanes in ascending order, each of which may fault: the first fault is the position's. -/
def eachLaneChecked (s : State) (g : Guard) (d : Dst)
    (f : State → Nat → Thread → Except FaultCode (State × Word)) : Except FaultCode State :=
  s.cur.lanes.foldl (fun acc u =>
    match acc with
    | .error c => .error c
    | .ok a =>
      match threadOf a u with
      | none => .ok a
      | some t =>
        if guardOn g t.regs then
          match f a u t with
          | .error c => .error c
          | .ok q => .ok (modThread q.1 u (putWord (latchIndex s) d q.2))
        else .ok (modThread a u (skipWord (latchIndex s) d))) (.ok s)

/-- R326. -/
def execSpawn (f : FormA) (s : State) : Result :=
  match eachLaneChecked s f.x.guard f.dst (spawnLane f) with
  | .error c => .next (faultAt s c s.cur.word)
  | .ok s1 => .next (underQuota s (ctxOfBlock s s.cur.block) s1)

/-! ### CANCEL and CMPL (R327, R328) -/

/-- R327: `CANCEL` by one lane. -/
def cancelLane (f : FormA) (s : State) (_ : Nat) (t : Thread) : State × Word :=
  (if f.bit 4 then cancelHandle s (ctxOfBlock s t.block) (f.field 2 0) (srcWord t .a f.a).toNat
   else cancelLevel s t.block (f.field 2 0), Status.done.word)

/-- R327. -/
def execCancel (f : FormA) (s : State) : Result := .next (eachLane s f.x.guard f.dst (cancelLane f))

/-- R328: `CMPL` by one lane: an acquire of a complete level raises the read floor (11 R257). -/
def cmplLane (f : FormA) (s : State) (u : Nat) (t : Thread) : State × Word :=
  let q := if f.bit 4 then handleLevel s (ctxOfBlock s t.block) (f.field 2 0) (srcWord t .a f.a).toNat
    else ownLevel s t.block (f.field 2 0)
  let complete := q.1 == 1 || q.1 == 3 || q.1 == 6
  (if f.bit 3 && complete then
     modThread s u fun x => x.modRegs fun r => { r with floor := max r.floor s.dtime }
   else s, countWord q.1 q.2)

/-- R328. -/
def execCmpl (f : FormA) (s : State) : Result := .next (eachLane s f.x.guard f.dst (cmplLane f))

end Sys2Proof.Machine
end

