-- ==== Sys2Proof/Machine/Placing.lean ====
section
/-!
DEFINITION. The dispatcher: what a core can hold (02 R35, 09 R199-R203, R208, R215), how a block starts
(02 R27, R33, 13 R314, R315, R553, 15 R374) and how it is placed again (02 R41).
-/

namespace Sys2Proof.Machine

/-! ### Rows and roles of a core (09 R199, R214, R215) -/

/-- R214: whether row r of a bank is usable at a point. -/
def rowUsable (s : State) (core bank row vs : Nat) : Bool :=
  let w := mgetD (dieOf s (dieOfCore core)).rowMap (32 * coreIndex core + bank) 0
  !((List.range 8).any fun j => rowEntryLost w vs j && w.toNat / 2 ^ (8 * j) % 64 == row)

/-- A bank entered in a list by usable rows at VS5, fewest first, ties to the lower number. -/
def rankBank (s : State) (core b : Nat) : List Nat → List Nat
  | [] => [b]
  | x :: r =>
    if usableRows s core b 5 < usableRows s core x 5 then b :: x :: r else x :: rankBank s core b r

/-- R199: the roles of a core for the bank counts of a launch, as the bank-role register. -/
def rolesFor (s : State) (core l1 tob : Nat) : BitVec 64 :=
  let ranked := (List.range 32).foldl (fun acc b => rankBank s core b acc) []
  let l1s := ranked.take l1
  let tobs := ((List.range 32).filter fun b => !l1s.contains b).take tob
  BitVec.ofNat 64 ((List.range 32).foldl (fun n b =>
    n + (if l1s.contains b then 0 else if tobs.contains b then 2 else 1) * 4 ^ b) 0)

/-- R215: the row capacity of a core in given roles for `tob` TOB banks at a point. -/
def capacityWith (s : State) (core : Nat) (roles : BitVec 64) (tob vs : Nat) : Nat :=
  let l1 := (List.range 32).filter fun b => roles.toNat / 4 ^ b % 4 == 0
  scapOf s core vs - l1.foldl (fun n b => n + usableRows s core b vs) 0 - 64 * tob

/-- R218 step 1: the point that allocation uses: the target of a step down in progress, else the current. -/
def planVs (s : State) : Nat := max s.power.vs (s.power.target.getD 0)

/-- The blocks of a core that hold rows: resident or evicted, not parked. -/
def rowBlocks (s : State) (core : Nat) : List Nat := (coreOf s core).blocks.filter fun b => !(blockOf s b).parked

/-- The rows allocated on a core. -/
def rowsUsed (s : State) (core : Nat) : Nat :=
  ((rowBlocks s core).map fun b => (launchOfBlock s b).desc.rows).foldl (· + ·) 0

/-- The parked rows of a core (20 R476). -/
def rowsParked (s : State) (core : Nat) : Nat :=
  (((coreOf s core).blocks.filter fun b => (blockOf s b).parked).map fun b => (launchOfBlock s b).desc.rows).foldl
    (· + ·) 0

/-- The physical rows of a core in use: 64 × bank + row. -/
def placesUsed (s : State) (core : Nat) : List Nat :=
  (rowBlocks s core).flatMap (fun b => (blockOf s b).rowPlace.map Prod.snd)
    ++ (coreOf s core).tobPlace.map Prod.snd

/-- R198, R215: the free physical rows of a core that are usable at a point, in banks of some roles. -/
def freePlaces (s : State) (core vs : Nat) (roles : List Nat) : List Nat :=
  let used := placesUsed s core
  (List.range 2048).filter fun p =>
    roles.contains (bankRole (coreOf s core) (p / 64)) && rowUsable s core (p / 64) (p % 64) vs
      && !used.contains p

/-- R209, R215: the free usable rows a block's rows may lie in: of the scratchpad-role banks, then what a TOB leaves of its
own. -/
def blockRoom (s : State) (core vs : Nat) : List Nat := freePlaces s core vs [1] ++ freePlaces s core vs [2]

/-- R215: the free usable rows a TOB's rows may lie in: of its own banks, then spares. -/
def tobRoom (s : State) (core vs : Nat) : List Nat := freePlaces s core vs [2] ++ freePlaces s core vs [1]

/-- Logical rows 0 to n − 1 given physical ones. -/
def givePlaces (n : Nat) (ps : List Nat) : SMap Nat := (List.range n).zip ps

/-! ### Thread slots and registers (01 R15, 05 R100) -/

/-- The blocks of a core that hold thread slots: placed, neither evicted nor parked. -/
def slotBlocks (s : State) (core : Nat) : List Nat :=
  (coreOf s core).blocks.filter fun b => !(blockOf s b).parked && !(blockOf s b).evicted

/-- 08 R181: whether a thread holds its slot. -/
def holdsSlot (t : Thread) : Bool :=
  t.ctl.run != .exited || (List.range 6).any fun j => t.regs.getCtr j != 0

/-- The gang slots of a core in use. -/
def gangSlotsUsed (s : State) (core : Nat) : List Nat :=
  ((slotBlocks s core).flatMap fun b =>
    ((threadsOfBlock s b).filter fun p => holdsSlot p.2).map fun p => p.2.slot / 32).dedup

/-- The free gang slots of a core, lowest first. -/
def freeGangSlots (s : State) (core : Nat) : List Nat :=
  let used := gangSlotsUsed s core
  (List.range 64).filter fun i => !used.contains i



/-- R208: the lowest free lane-private frame index of a context on a core. -/
def freeFrame (s : State) (core ctx : Nat) : Option Nat :=
  let used := ((liveBlocks s core).filter fun b => ctxOfBlock s b == ctx).map fun b => (blockOf s b).frame
  (List.range (max 1 (min 64 (ctxOf s ctx).f.lpFrames))).find? fun f => !used.contains f

/-- 17 R412: the lowest free block slot of a core. -/
def freeBlockSlot (s : State) (core : Nat) : Nat :=
  let used := (liveBlocks s core).map fun b => (blockOf s b).slot
  ((List.range 64).find? fun i => !used.contains i).getD 63

/-! ### Partitions and the ramp -/

/-- 17 R400: the partition that holds a context resident. -/
def partitionOf (s : State) (ctx : Nat) : Option Partition :=
  (s.tables.partitions.find? fun p => p.2.ctx == some ctx && p.2.state == 1).map Prod.snd

/-- 22 R514: whether a core lies in its context's partition. -/
def inPartition (s : State) (ctx core : Nat) : Bool :=
  match partitionOf s ctx with
  | none => false
  | some p => p.mask.getLsbD (clusterOfCore core)

/-- 02 R36: `DISPRAMP`; a written 0 acts as 1. -/
def rampRate (d : Die) : Nat := max 1 d.dispRamp

/-- 02 R36: the net change that stands against a µs, some µs after the one it was counted in: what a rise left above the
rate; a fall gives later µs no more starts than the rate. -/
def rampAfter (net : Int) (rate us : Nat) : Int := if us = 0 then net else max 0 (net - rate * us)

/-- 02 R36: the change in resident blocks that stands against the present µs of a die. -/
def rampNow (s : State) (d : Die) : Int := rampAfter d.rampNet (rampRate d) ((s.dtime - d.rampStart) / 1000)

/-- 02 R36: the blocks a die's dispatcher may still start in the present µs. -/
def rampLeft (s : State) (die : Nat) : Nat := (rampRate (dieOf s die) - rampNow s (dieOf s die)).toNat

/-- 02 R36: the start of the present µs of a die's ramp. -/
def rampUs (s : State) (d : Die) : Nat := d.rampStart + (s.dtime - d.rampStart) / 1000 * 1000

/-- 02 R36: how many blocks the supply current still stands above what is resident: each µs sheds the rate. -/
def fallNow (s : State) (d : Die) : Nat := d.rampFall - rampRate d * ((s.dtime - d.rampStart) / 1000)

/-- 02 R36: a change of n in a die's resident blocks. -/
def countRamp (s : State) (die : Nat) (n : Int) : State :=
  modDie s die fun d =>
    { d with rampNet := rampNow s d + n, rampFall := ((fallNow s d : Int) - n).toNat, rampStart := rampUs s d }

/-- 02 R36: from when a core emptied now may gate its clock: once the ramp has shed the blocks that have ended, at the
rate. -/
def gateTime (s : State) (die : Nat) : Nat :=
  let d := dieOf s die
  rampUs s d + 1000 * ((fallNow s d - 1) / rampRate d)

/-! ### What a core can hold (02 R35) -/

/-- Whether a command reads the TOB of a core. -/
def MatCmd.readsTob (m : MatCmd) (core : Nat) : Bool := isMultiply m.op && (m.acore == core || m.bcore == core)

/-- 12 R292: whether a command that is not complete names the TOB of a core: the core then keeps its bank roles. -/
def tobNamed (s : State) (core : Nat) : Bool :=
  (s.clusters.any fun c => c.2.table.any fun e => e.2.cmd.readsTob core)
    || s.work.sync.any fun k => k.2.bound.any fun m => m.2.readsTob core

/-- 09 R220: whether rows of the TOB that a command reads are to move for a step under way. -/
def tobMoves (s : State) (m : MatCmd) : Bool :=
  s.power.phase == 2 && s.power.target.any fun n =>
    [m.acore, m.bcore].any fun g => m.readsTob g
      && (coreOf s g).tobPlace.any fun q => !rowUsable s g (q.2 / 64) (q.2 % 64) n

/-- R199: the roles a launch needs of a core, where it can have them: those it has, or new ones on a core
without blocks whose TOB no command names. -/
def rolesOn (s : State) (core : Nat) (d : LaunchDesc) : Option (BitVec 64) :=
  match (coreOf s core).blocks with
  | [] =>
    let r := rolesFor s core d.l1Banks d.tobBanks
    if (coreOf s core).roles ≠ r ∧ tobNamed s core = true then none else some r
  | b :: _ =>
    let e := (launchOfBlock s b).desc
    if e.l1Banks = d.l1Banks ∧ e.spadBanks = d.spadBanks ∧ e.tobBanks = d.tobBanks then some (coreOf s core).roles
    else none

/-- R200: a core with TOB banks holds blocks of one launch at a time. -/
def tobFree (s : State) (core l : Nat) : Bool :=
  (launchOf s l).desc.tobBanks == 0 || (coreOf s core).blocks.all fun b => (blockOf s b).launch == l

/-- R203: the blocks of a cluster all ask for the same fusion. -/
def fuseFree (s : State) (core : Nat) (fuse : Bool) : Bool :=
  (List.range 4).all fun i => (coreOf s (4 * clusterOfCore core + i)).blocks.all fun b =>
    (launchOfBlock s b).desc.fuse == fuse

/-- R215, R476: whether a core has the rows for a block of a launch. -/
def rowsFit (s : State) (core l : Nat) : Bool :=
  let d := (launchOf s l).desc
  match rolesOn s core d with
  | none => false
  | some r =>
    decide (rowsUsed s core + d.rows ≤ capacityWith s core r d.tobBanks (planVs s))
      && decide (d.rows + rowsParked s core ≤ 4096)

/-- R35: whether a core can hold a block of a launch with so many gangs. -/
def fits (s : State) (core l gangs : Nat) : Bool :=
  let k := launchOf s l
  rowsFit s core l && tobFree s core l && fuseFree s core k.desc.fuse
    && decide (gangs ≤ (freeGangSlots s core).length)
    && (freeRun s core k.ctx (32 * gangs * k.desc.allot)).isSome
    && (freeFrame s core k.ctx).isSome && decide ((liveBlocks s core).length < 64)
    && inPartition s k.ctx core && (ctxOf s k.ctx).resident && decide (0 < rampLeft s (dieOfCore core))
    && !(dieOf s (dieOfCore core)).lost

/-! ### Preparing a core -/

/-- R203: a cluster enters or leaves fused mode: its L1s are written back and invalidated. -/
def setFused (s : State) (core : Nat) (fuse : Bool) : State :=
  let g := clusterOfCore core
  if (clusterOf s g).fused = fuse then s
  else
    modCluster ((List.range 4).foldl (fun acc i => flushL1 acc (4 * g + i)) s) g fun c => { c with fused := fuse }

/-- R199: the bank-role register written; lines of banks that leave the L1 role are invalidated. -/
def setRoles (s : State) (core : Nat) (r : BitVec 64) : State :=
  if (coreOf s core).roles = r then s else modCore (flushL1 s core) core fun c => { c with roles := r }

/-- R201: the TOB banks assigned to a launch: rows 0, tags untagged, rows in free usable places. -/
def assignTob (s : State) (core l tob : Nat) : State :=
  if tob = 0 ∨ (coreOf s core).tobLaunch = some l then s
  else
    let s1 := modCore (clearStorage s (.tob core)) core fun c =>
      { c with tob := [], tobTags := [], tobPlace := [], tobLaunch := some l }
    modCore s1 core fun c => { c with tobPlace := givePlaces (64 * tob) (tobRoom s1 core (planVs s)) }

/-- A core prepared for a block of a launch. -/
def prepareCore (s : State) (core l : Nat) : State :=
  let d := (launchOf s l).desc
  let s1 := setFused s core d.fuse
  let s2 := match rolesOn s1 core d with
    | some r => if (coreOf s1 core).blocks.isEmpty then setRoles s1 core r else s1
    | none => s1
  modCore (assignTob s2 core l d.tobBanks) core fun c => { c with gated := false }

/-- 02 R42: the banks that a block of a launch takes on a prepared core, claimed for its context: the register banks of
its run, the banks in the L1 and TOB roles, and those its rows lie in. -/
def claimBanks (s : State) (core l gangs : Nat) : Except Held State :=
  let k := launchOf s l
  let n := 32 * gangs * k.desc.allot
  let rows := givePlaces k.desc.rows (blockRoom s core (planVs s))
  let banks := roleBanks (coreOf s core) 0 ++ roleBanks (coreOf s core) 2
    ++ banksOfPlaces rows ++ banksOfPlaces (coreOf s core).tobPlace
  banks.dedup.foldl (claimRows core k.ctx)
    ((banksOfRun ((freeRun s core k.ctx n).getD 0) n).foldl (claimRegs core k.ctx) (.ok s))

/-- A core prepared for a block of a launch, and its banks claimed. -/
def readyCore (l gangs : Nat) (q : Except Held State) (core : Nat) : Except Held State :=
  match q with
  | .error a => .error a
  | .ok s => claimBanks (prepareCore s core l) core l gangs

/-! ### The start of a block -/

/-- 02 R27, 15 R374: a thread of a new block: its entry and key, or exited where a hit block has no ray for
it. Its read floor stands at its start (13 R315). -/
def newThread (s : State) (b : Nat) (e : SpawnEntry) (hit : Bool) (slots : List Nat) (tid : Nat) : Thread :=
  let t : Thread := { block := b, tid := tid, slot := 32 * slots.getD (tid / 32) 0 + tid % 32
                      regs := { floor := s.dtime }, ctl := { pc := e.entry } }
  if !hit then t
  else
    match e.rays[tid]? with
    | none => { t with ctl := { t.ctl with run := .exited } }
    | some (id, entry, key) => { t with hitRay := some id, ctl := { t.ctl with pc := entry, key := key % 65536 } }

/-- 18 R428: a barrier with its members all pending. -/
def newBarrier (n : Nat) : Barrier := { members := n, pending := n }

/-- 18 R428: n barriers numbered from a key. -/
def newBarriers (from_ n members : Nat) (m : SMap Barrier) : SMap Barrier :=
  (List.range n).foldl (fun acc i => mset acc (from_ + i) (newBarrier members)) m

/-- The live threads among some, in one gang. -/
def liveIn (ts : List (Nat × Thread)) (gang : Nat) : Nat :=
  (ts.filter fun p => p.2.ctl.run != .exited && p.2.tid / 32 == gang).length

/-- 18 R428, R431: a new block's own barriers and its counts at the barriers of blocks. -/
def newSync (d : LaunchDesc) (group : Bool) (live : Nat) : BlockSync :=
  let counts (n : Nat) : SMap Nat := (List.range n).map fun i => (i, live)
  { launchArr := counts d.launchBars, groupArr := if group && d.group then counts d.groupBars else [] }

/-- 18 R428: a new block's gang barriers. -/
def newGangBars (d : LaunchDesc) (gangs : Nat) (ts : List (Nat × Thread)) : SMap Barrier :=
  (List.range gangs).foldl (fun m g => newBarriers (4 * g) d.gangBars (liveIn ts g) m) []

/-- 14 R330: the entries of a context's `MOVTAB`, as memory holds them: launch descriptor and entry address. A base of 0 is no
table (DESIGN CHOICE, log 63). -/
def movTab (s : State) (ctx : Nat) : List (Nat × Nat) :=
  if (ctxOf s ctx).f.movBase = 0 then [] else
  match readVirtual s ctx (ctxOf s ctx).f.movBase 1024 with
  | .error _ => []
  | .ok bs => (List.range 64).map fun i => (fieldOf bs (16 * i) 8, fieldOf bs (16 * i + 8) 8)

/-- 14 R331: a block placed for the first time enters its core's start queue where its descriptor has a
movement program. -/
def queueProgram (s : State) (core b : Nat) : State :=
  let k := launchOfBlock s b
  match (movTab s k.ctx).find? fun p => p.1 == k.descAddr && k.descAddr != 0 && p.2 % 4 == 0 && decide (p.2 < 2 ^ 56) with
  | none => s
  | some p => modCoach s core fun c => { c with starts := c.starts ++ [{ block := b, entry := p.2 }] }

/-- R35: one block starts on a core that is prepared for it. -/
def startBlock (s : State) (core l : Nat) (e : SpawnEntry) (hit : Bool) (index gangs gpos : Nat)
    (group : Option Nat) : State :=
  let s1 := countRamp s (dieOfCore core) 1
  let k := launchOf s1 l
  let b := s1.work.nextBlock
  let slots := freeGangSlots s1 core
  let ts := (List.range (32 * gangs)).map fun i => (threadUid b i, newThread s1 b e hit slots i)
  let live := (ts.filter fun p => p.2.ctl.run != .exited).length
  let block : Block :=
    { launch := l, index := index, group := group, gpos := gpos, gangs := gangs, core := some core
      slot := freeBlockSlot s1 core, placedAt := s1.dtime, frame := (freeFrame s1 core k.ctx).getD 0
      regBase := (freeRun s1 core k.ctx (32 * gangs * k.desc.allot)).getD 0
      entry := e.entry, params := e.params
      rowPlace := givePlaces k.desc.rows (blockRoom s1 core (planVs s))
      gangBars := newGangBars k.desc gangs ts
      blockBars := newBarriers 0 k.desc.blockBars live [] }
  let s2 := modWork s1 fun w =>
    { w with blocks := mset w.blocks b block
             sync := mset w.sync b (newSync k.desc group.isSome live)
             threads := ts.foldl (fun m p => mset m p.1 p.2) w.threads
             nextBlock := b + 1 }
  let s3 := modCore s2 core fun c => { c with blocks := c.blocks ++ [b] }
  let s4 := fileThreads s3 ((ts.filter fun p => p.2.ctl.run != .exited).map Prod.fst)
  let s5 := queueProgram s4 core b
  if k.desc.shadow then takeCheckpoint s5 b else s5

/-! ### The next of a launch (13 R315, R553) -/

/-- R315: the lowest pending block of a launch: of its spawn queue, or a hit block. -/
def nextEntry (k : Launch) : Option (SpawnEntry × Bool) :=
  match k.spawnQ.head?, k.hitQ.head? with
  | none, none => none
  | some e, none => some (e, false)
  | none, some h => if k.spawnRing.isEmpty then some (h, true) else none
  | some e, some h => if e.index < h.index then some (e, false) else some (h, true)

/-- 02 R33, R314: the gangs of a block: the seed has one. -/
def gangsOf (k : Launch) (index : Nat) : Nat := if index = 0 then 1 else max 1 k.desc.gangs

/-- R553: the blocks placed together: up to four of a range in a launch with the group flag, else one. -/
def groupSize (k : Launch) (e : SpawnEntry) (hit : Bool) : Nat :=
  if k.desc.group && !hit then min 4 e.count else 1

/-- R315: what must be performed before a spawned block is placed. -/
def spawnReady (s : State) (e : SpawnEntry) : Bool :=
  decide (e.wh ≤ s.dtime) && (s.pend.all fun a => !e.accs.contains a.id || performedAt s a .dev)
    && e.texs.all fun x => (coreOf s x.1).texQ.all fun o => o.id != x.2

/-- n blocks of an entry have been placed. -/
def takeBlocks (k : Launch) (hit : Bool) (n : Nat) : Launch :=
  let next (q : List SpawnEntry) : List SpawnEntry :=
    match q with
    | [] => []
    | e :: r => if e.count ≤ n then r else { e with index := e.index + n, count := e.count - n } :: r
  let k1 := { k with heldSince := none, holdReported := false }
  if hit then { k1 with hitQ := next k.hitQ } else { k1 with spawnQ := next k.spawnQ }

/-- R553: the group that the next blocks of a launch form. -/
def newGroup (l cluster n first : Nat) (d : LaunchDesc) : Group :=
  { launch := l, cluster := some cluster, blocks := (List.range n).map (first + ·)
    bars := newBarriers 0 d.groupBars n [], counter := n }

/-- R35: the next block or group of a launch started on a core, or on the cores from it up. -/
def startNext (s : State) (l core : Nat) (e : SpawnEntry) (hit : Bool) (n : Nat) : State :=
  let k := launchOf s l
  let first := s.work.nextBlock
  let group : Option Nat := if k.desc.group then some first else none
  let s1 := (List.range n).foldl (fun acc j =>
    startBlock acc (core + j) l e hit (e.index + j) (gangsOf k (e.index + j)) j group) s
  let s2 := if k.desc.group then
      modWork s1 fun w => { w with groups := mset w.groups first (newGroup l (clusterOfCore core) n first k.desc) }
    else s1
  modLaunch s2 l fun x => takeBlocks x hit n

/-- R217: whether no core of the partition has the rows for a block of a launch. -/
def heldForRows (s : State) (l : Nat) : Bool :=
  (List.range 768).all fun g => !inPartition s (launchOf s l).ctx g || !rowsFit s g l

/-- R217: a hold ends where a core has the rows. -/
def Launch.unheld (k : Launch) : Launch := { k with heldSince := none, holdReported := false }

/-- R217: a launch held for want of rows; the first such moment of a hold stands. -/
def noteHeld (s : State) (l : Nat) : State :=
  if heldForRows s l then
    modLaunch s l fun k => if k.heldSince.isNone then { k with heldSince := some (ctxOf s k.ctx).ctime } else k
  else modLaunch s l Launch.unheld

/-- R217: room has appeared: a step up, a block's end, or parked rows that leave a core. -/
def settleHolds (s : State) : State :=
  modWork s fun w => { w with launches := w.launches.map fun p =>
    (p.1, if p.2.heldSince.isSome && !heldForRows s p.1 then p.2.unheld else p.2) }

/-- R35: the next block or group of a launch placed on cores that can hold it; where a bank's spill cannot be written it
waits (20 R554). -/
def placeOn (s : State) (l core : Nat) (e : SpawnEntry) (hit : Bool) (n : Nat) : State :=
  let k := launchOf s l
  match ((List.range n).map (core + ·)).foldl (readyCore l (gangsOf k e.index)) (.ok s) with
  | .error a => structureFailed s a.1 a.2
  | .ok s1 => startNext s1 l core e hit n

/-- R35: the dispatcher places the next pending block or group of a launch on a core. A group of more blocks than
`DISPRAMP` starts in a µs that no other change has used; what it exceeds the rate by stands against the µs after it
(log 56). -/
def placeNext (s : State) (l core : Nat) : State :=
  let k := launchOf s l
  match nextEntry k with
  | none => s
  | some (e, hit) =>
    let n := groupSize k e hit
    let aligned := !k.desc.group || core % 4 == 0
    let onDie := match e.die with
      | none => true
      | some d => dieOfCore core == d
    if !spawnReady s e || !aligned || !onDie || k.cancelled then s
    else if (List.range n).all (fun j => fits s (core + j) l (gangsOf k (e.index + j)))
        && decide (min n (rampRate (dieOf s (dieOfCore core))) ≤ rampLeft s (dieOfCore core)) then placeOn s l core e hit n
    else noteHeld s l

/-! ### Placing again (02 R41) -/

/-- The threads of a block given thread slots of its core again. -/
def giveSlots (s : State) (b core : Nat) : State :=
  let slots := freeGangSlots s core
  (threadsOfBlock s b).foldl (fun acc p => modThread acc p.1 fun t =>
    { t with slot := 32 * slots.getD (t.tid / 32) 0 + t.tid % 32 }) s

/-- The runnable threads of a block filed. -/
def fileBlock (s : State) (b : Nat) : State :=
  fileThreads s (((threadsOfBlock s b).filter fun p => p.2.ctl.run == .runnable).map Prod.fst)

/-- R41, 08 R193: an evicted block with a runnable thread takes thread slots again; its spilled banks are refilled (R42)
before it issues. -/
def placeAgain (s : State) (b core : Nat) : State :=
  let k := blockOf s b
  let wake := (threadsOfBlock s b).any fun p => p.2.ctl.run == .runnable
  if k.evicted && !k.parked && k.core == some core && wake && (ctxOf s (ctxOfBlock s b)).resident
      && decide (k.gangs ≤ (freeGangSlots s core).length) && decide (0 < rampLeft s (dieOfCore core)) then
    match refillBanks (.ok s) b with
    | .error a => structureFailed s a.1 a.2
    | .ok s0 =>
      let s1 := countRamp (giveSlots s0 b core) (dieOfCore core) 1
      fileBlock (blockCheck (modBlock s1 b fun x => { x with evicted := false }) b) b
  else s

/-- R218 step 4: places of a map that are unusable at a point move to free usable ones. -/
def movePlaces (s : State) (core vs : Nat) (m : SMap Nat) (free : List Nat) : SMap Nat × List Nat :=
  m.foldr (fun p acc =>
    if rowUsable s core (p.2 / 64) (p.2 % 64) vs then (p :: acc.1, acc.2)
    else match acc.2 with
      | [] => (p :: acc.1, [])
      | f :: r => ((p.1, f) :: acc.1, r)) ([], free)

/-- 09 R219: a parked block's rows return to its core in logical order, from the parked-row region, and its threads may
issue. -/
def refillBlock (s : State) (b : Nat) : State :=
  let k := blockOf s b
  match k.core with
  | none => s
  | some core =>
    let l := k.launch
    let room := rowsUsed s core + (launchOf s l).desc.rows
      ≤ capacityWith s core (coreOf s core).roles (launchOf s l).desc.tobBanks (planVs s)
    if k.parked && decide room && (k.ended || decide (k.gangs ≤ (freeGangSlots s core).length))
        && (ctxOf s (ctxOfBlock s b)).resident then
      let place (t : State) : State := modBlock t b fun x =>
        { x with parked := false, selected := false
                 rowPlace := givePlaces (launchOf s l).desc.rows (blockRoom s core (planVs s)) }
      match unparkRows s b with
      | .error a => structureFailed s a.1 a.2
      | .ok s0 =>
        let s1 := place s0
        if k.ended then s1
        else match refillBanks (.ok s1) b with
          | .error a => structureFailed s a.1 a.2
          | .ok s2 =>
            if k.evicted then s2
            else fileBlock (blockCheck (giveSlots (countRamp s2 (dieOfCore core) 1) b core) b) b
    else s

end Sys2Proof.Machine
end

