-- ==== Sys2Proof/Machine/EvMatrix.lean ====
section
/-!
DEFINITION. The matrix engine (12 R280-R289, R294, R295, R299-R301) and its device events; the release of engine
commands by the task scheduler (11 R264). An event that cannot happen leaves the state as it is (log 2).
-/

namespace Sys2Proof.Machine

/-! ### Operands of a pass (R280, R281, 06 R131) -/

/-- 06 R131: the bits of an element in memory, by opcode. -/
def elementBits (op : Nat) : Nat :=
  match op with
  | 0x70 => 6
  | 0x71 => 4
  | 0x74 => 16
  | _ => 8

/-- R281: the physical byte of a logical byte of a region, under a layout. -/
def layoutByte (layout b : Nat) : Nat :=
  if layout = 2 then 128 * (b / 128) + 16 * Nat.xor (b % 128 / 16) (b / 128 % 8) + b % 16 else b

/-- R281: the index of element (i, k) of an operand of `count` rows or columns. -/
def elementIndex (layout kp count i k : Nat) : Nat := if layout = 3 then k * count + i else i * kp + k

/-- R281: the TOB-window bytes an element lies in, from the first row of its region. -/
def elementBytes (op layout row e : Nat) : List Nat :=
  let w := elementBits op
  (List.range ((e * w + w - 1) / 8 + 1 - e * w / 8)).map fun i => 128 * row + layoutByte layout (e * w / 8 + i)

/-- 06 R131: the code of an element. -/
def elementCode (s : State) (core op layout row e : Nat) : Nat :=
  leNat ((elementBytes op layout row e).map (readByte s (.tob core))) / 2 ^ (e * elementBits op % 8)
    % 2 ^ elementBits op

/-- Whether an element's bytes are poisoned (R300). -/
def elementPoisoned (s : State) (core op layout row e : Nat) : Bool :=
  (elementBytes op layout row e).any fun a => isPoisoned s (.tob core) (a / 32)

/-- 06 R130: the product of two L6 codes. -/
def l6Product (a b : Nat) : FVal :=
  match l6Index a, l6Index b with
  | some p, some q => .num (l6Neg a != l6Neg b) (l6Mag (p + q)).1 (l6Mag (p + q)).2
  | _, _ => .num false 0 0

/-- 12 R279: an INT8 element. -/
def int8Val (signed : Bool) (c : Nat) : FVal :=
  intToVal (if signed then (BitVec.ofNat 8 c).toInt else ((c % 256 : Nat) : Int))

/-- 06 R136, R137: the exact product of two codes of a form. -/
def elementProduct (m : MatCmd) (a b : Nat) : FVal :=
  match m.op with
  | 0x70 => l6Product a b
  | 0x71 => mulVal (readFmt .e2m1 a) (readFmt .e2m1 b)
  | 0x72 => mulVal (readFmt .e4m3 a) (readFmt .e4m3 b)
  | 0x73 => mulVal (readFmt .e5m2 a) (readFmt .e5m2 b)
  | 0x74 => mulVal (readFmt .bf16 a) (readFmt .bf16 b)
  | _ => mulVal (int8Val (dbit m.desc 33) a) (int8Val (dbit m.desc 34) b)

/-- R280: the first rows of A and of B in pass p. -/
def MatCmd.passRows (m : MatCmd) (p : Nat) : Nat × Nat :=
  let k := passShape m.op
  (m.arow + p * k.2.1, m.brow + p * k.2.2.1)

/-- R280, R281: the products of element (i, j) of pass p. -/
def passProducts (s : State) (m : MatCmd) (p i j : Nat) : List FVal :=
  let k := passShape m.op
  let r := m.passRows p
  (List.range k.1).map fun x =>
    elementProduct m (elementCode s m.acore m.op m.alay r.1 (elementIndex m.alay k.1 128 i x))
      (elementCode s m.bcore m.op m.blay r.2 (elementIndex m.blay k.1 k.2.2.2 j x))

/-- R300: whether a poisoned sector feeds element (i, j) of pass p. -/
def passPoisoned (s : State) (m : MatCmd) (p i j : Nat) : Bool :=
  let k := passShape m.op
  let r := m.passRows p
  (List.range k.1).any fun x =>
    elementPoisoned s m.acore m.op m.alay r.1 (elementIndex m.alay k.1 128 i x)
      || elementPoisoned s m.bcore m.op m.blay r.2 (elementIndex m.blay k.1 k.2.2.2 j x)

/-- 06 R136-R138: the pass result. -/
def passResult (s : State) (m : MatCmd) (p i j : Nat) : Nat :=
  let ps := passProducts s m p i j
  if m.op = 0x74 then passBf16 ps else passExact ps

/-- R285: the scale of a row or column in pass p; 0x7F without `.sc`. -/
def scaleAt (xs : List Nat) (p i : Nat) : Nat := xs.getD (4 * i + p) 0x7F

/-! ### Accumulator tiles -/

/-- A pair of a tile written; +0, +0 is not listed. -/
def setPairIn (t : SMap (Word × Word)) (i : Nat) (x : Word × Word) : SMap (Word × Word) :=
  if x = (0, 0) then merase t i else mset t i x

/-- 12 R274: a pair of a tile of a cluster written. -/
def setTilePair (s : State) (cluster tile m n : Nat) (x : Word × Word) : State :=
  modCluster s cluster fun c =>
    { c with tiles := mset c.tiles tile (setPairIn (mgetD c.tiles tile []) (128 * m + n) x) }

/-- R300, 22 R507: whether element (i, j) of pass p reads poison: a sector that feeds it, or the pair it adds to. -/
def elementBad (s : State) (m : MatCmd) (p i j : Nat) : Bool :=
  passPoisoned s m p i j
    || (!(m.overwrite && p == 0) && pairPoisoned s m.cluster (m.tile + j / 128) i (j % 128))

/-- 22 R507, 10 R229: the poison of the sectors of a row of a tile whose four pairs are all written is cleared. -/
def clearRow (s : State) (cluster tile m count : Nat) : State :=
  if s.mem.poisoned.isEmpty then s
  else (List.range (count / 4)).foldl (fun acc k => clearPoison acc (.tile cluster tile) (tileSector cluster tile m (4 * k))) s

/-- R287, R300: one element of a pass: the pair after it. -/
def passElement (s : State) (m : MatCmd) (p i j : Nat) (old : Word × Word) : Word × Word :=
  if elementBad s m p i j then (0x7FC00000, 0)
  else
    let x := scalePass (passResult s m p i j) (scaleAt m.rowScale p i) (scaleAt m.colScale p j)
    if m.overwrite && p == 0 then (BitVec.ofNat 32 x, 0)
    else
      let y := pairAdd (old.1.toNat, old.2.toNat) x
      (BitVec.ofNat 32 y.1, BitVec.ofNat 32 y.2)

/-- R287: the epilogue of pass p: every valid pair. -/
def applyPass (s : State) (m : MatCmd) (p : Nat) : State :=
  let s1 := (List.range m.vr).foldl (fun acc i => (List.range m.vc).foldl (fun a j =>
    setTilePair a m.cluster (m.tile + j / 128) i (j % 128)
      (passElement s m p i j (tilePair a m.cluster (m.tile + j / 128) i (j % 128)))) acc) s
  (List.range m.vr).foldl (fun acc i =>
    clearRow (clearRow acc m.cluster m.tile i (min m.vc 128)) m.cluster (m.tile + 1) i (m.vc - 128)) s1

/-- R300: whether a pass meets poison. -/
def passMeetsPoison (s : State) (m : MatCmd) (p : Nat) : Bool :=
  (List.range m.vr).any fun i => (List.range m.vc).any fun j => elementBad s m p i j

/-- R293: every pair of a tile is +0. -/
def zeroTile (s : State) (cluster tile : Nat) : State :=
  let s1 := modCluster s cluster fun c => { c with tiles := merase c.tiles tile }
  if s1.mem.poisoned.isEmpty then s1 else (List.range 128).foldl (fun acc i => clearRow acc cluster tile i 128) s1

/-! ### Grants (R283, R288) -/

/-- R283: the first operand group of a pass that fails the tag check. -/
def tagFails (s : State) (m : MatCmd) (p : Nat) : Bool :=
  let k := passShape m.op
  let r := m.passRows p
  let bad (core layout row rows : Nat) : Bool :=
    (List.range (rows / 16)).any fun i =>
      let tag := mgetD (coreOf s core).tobTags (row / 16 + i) 0
      !(tag == layout || (tag == 0 && !dbit m.desc 32))
  bad m.acore m.alay r.1 k.2.1 || bad m.bcore m.blay r.2 k.2.2.1

/-- R288: whether an entry holds its tiles: from its first grant to its completion. -/
def MatEntry.holdsTiles (e : MatEntry) : Bool := e.stage == .running || e.begun || decide (0 < e.pass)

/-- R294: where each byte of the valid elements of a row lies, or the first fault. -/
def rowSpots (s : State) (m : MatCmd) (row : Nat) : Except (FaultCode × Nat) (List (Mem × Nat)) :=
  let base := m.addr + row * m.stride
  if m.scratch then .ok ((List.range (m.vc * m.width)).map fun i => windowPlace m.block m.core (base + i))
  else
    let n : Need := if m.op = 0x7A then { write := true } else { read := true }
    byteSpots (fun a => translateEngine s (.matrix m.cluster) m.ctx a n) base (m.vc * m.width)

/-- 11 R258, R268: whether the bytes of a row of a transfer lie on a line that the engine must wait for (log 72). -/
def rowHeld (s : State) (m : MatCmd) (spots : List (Mem × Nat)) : Bool :=
  engineWaits s (m.cluster / 48) (m.op == 0x7A) (deviceLines spots)

/-- 11 R258: whether the next row of a transfer lies on a line in transition (log 72). -/
def rowWaits (s : State) (e : MatEntry) : Bool :=
  if !(e.cmd.op == 0x79 || e.cmd.op == 0x7A) || decide (e.cmd.vr ≤ e.row) then false
  else match rowSpots s e.cmd e.row with
    | .error _ => false
    | .ok spots => rowHeld s e.cmd spots

/-- R288: whether an entry may be granted; the commands of a parked block wait (09 R219). -/
def eligible (s : State) (cluster i : Nat) (e : MatEntry) : Bool :=
  (e.stage == .posted || (e.stage == .running && isMultiply e.cmd.op)) && e.released && !e.cancelled
    && (ctxOf s e.cmd.ctx).resident && !rowWaits s e && !tobMoves s e.cmd && !parkDue s e.cmd.block
    && (clusterOf s cluster).table.all fun o =>
        o.1 == i || !o.2.holdsTiles || !(e.cmd.tiles.any fun t => o.2.cmd.tiles.contains t)

/-- R288: whether an eligible entry has aged. -/
def matAged (s : State) (e : MatEntry) : Bool :=
  decide (e.postedAt + 64 * (ctxOf s e.cmd.ctx).f.matAge < (ctxOf s e.cmd.ctx).ctime)

/-- R288: the arbiter's order of two entries: aged first, then by priority unless both aged, then the older post. -/
def grantBefore (s : State) (a b : MatEntry) : Bool :=
  let pa := (syncOf s a.cmd.block).prio
  let pb := (syncOf s b.cmd.block).prio
  if matAged s a != matAged s b then matAged s a
  else if !matAged s a && pa != pb then decide (pb < pa)
  else decide (a.postedAt < b.postedAt)

/-- R288: the entry the arbiter grants; the lower entry number wins a tie. -/
def grantChoice (s : State) (cluster : Nat) : Option (Nat × MatEntry) :=
  match (clusterOf s cluster).table.filter fun p => eligible s cluster p.1 p.2 with
  | [] => none
  | x :: r => some (r.foldl (fun best y => if grantBefore s y.2 best.2 then y else best) x)

/-- An entry changed. -/
def modEntry (s : State) (cluster i : Nat) (f : MatEntry → MatEntry) : State :=
  modCluster s cluster fun c => { c with table := mmod c.table i f }

/-! ### ACCLD and ACCST (R294, R295, R299) -/

/-- R295: whether a single word lies outside a bound. -/
def outsideBound (m : MatCmd) (y : Word) : Bool :=
  let v := readFmt .f32 y.toNat
  v.isNan || ltVal v (readFmt .f32 m.lo.toNat) || ltVal (readFmt .f32 m.hi.toNat) v

/-- R295: the word a bound with action 2 writes. -/
def boundedWord (m : MatCmd) (y : Word) : Word :=
  let v := readFmt .f32 y.toNat
  if v.isNan || ltVal v (readFmt .f32 m.lo.toNat) then m.lo
  else if ltVal (readFmt .f32 m.hi.toNat) v then m.hi
  else y

/-- R294, R295: the bytes `ACCST` writes for an element. -/
def storeElement (m : MatCmd) (p : Word × Word) : List Byte :=
  let y := singleWord p
  let z := if m.act = 2 then boundedWord m y else y
  if !m.pair then leBytes 4 z.toNat
  else if m.act = 2 ∧ outsideBound m y = true then leBytes 4 z.toNat ++ leBytes 4 0
  else leBytes 4 p.1.toNat ++ leBytes 4 p.2.toNat

/-- R295: whether any valid element is outside the bound. -/
def anyOutside (s : State) (m : MatCmd) : Bool :=
  (List.range m.vr).any fun i => (List.range m.vc).any fun j =>
    outsideBound m (singleWord (tilePair s m.cluster m.tile i j))

/-- R294: `ACCLD` moves a row into its tile. -/
def loadRow (s : State) (m : MatCmd) (row : Nat) (spots : List (Mem × Nat)) : State :=
  let bytes := spots.map fun x => readByte s x.1 x.2
  clearRow ((List.range m.vc).foldl (fun acc j =>
    let word (k : Nat) : Word := BitVec.ofNat 32 (leNat ((bytes.drop (j * m.width + k)).take 4))
    setTilePair acc m.cluster m.tile row j (word 0, if m.pair then word 4 else 0)) s) m.cluster m.tile row m.vc

/-- 22 R507: whether a row of a tile that `ACCST` reads holds a poisoned pair. -/
def rowPoisoned (s : State) (m : MatCmd) (row : Nat) : Bool :=
  (List.range m.vc).any fun j => pairPoisoned s m.cluster m.tile row j

/-- R294, 11 R251, R255: `ACCST` writes a row, a poisoned pair as zeros (10 R229, log 71); a G row's completion time. -/
def storeRow (s : State) (m : MatCmd) (row : Nat) (spots : List (Mem × Nat)) : State × Nat :=
  let bytes := (List.range m.vc).flatMap fun j =>
    storeElement m (if pairPoisoned s m.cluster m.tile row j then (0, 0) else tilePair s m.cluster m.tile row j)
  let ws := (spots.zip bytes).map fun x => (x.1.2, x.2)
  if m.scratch then (portWrite s ((spots.head?.map Prod.fst).getD .device) ws, 0)
  else (dropWritten (applyWrite s (m.cluster / 48) ws) m.core ws, writeCompletion s (m.cluster / 48) ws)

/-- R299: a transfer that met an absent page parks with a replay record of its first row not yet moved. -/
def parkMatrix (s : State) (cluster i : Nat) (e : MatEntry) (va : Nat) : State :=
  let s1 := modEntry s cluster i fun x => { x with stage := .parked, row := e.row, completion := e.completion,
                                                   poisoned := e.poisoned, bound := e.bound }
  takeRecord s1 e.cmd.ctx
    { cause := 1, location := clusterLocation cluster, waits := 1, slot := (blockOf s e.cmd.block).slot,
      work := .matrix cluster i e.row e.cmd.ticket, pages := [(va / 4096, if e.cmd.op = 0x7A then 1 else 0)],
      code := .pageAbsent, kind := 3, addr := va }

/-- R287: the end of a transfer, with a fault where it met one: complete once its writes are performed at `.dev`. -/
def transferEnds (s : State) (cluster i : Nat) (e : MatEntry) (q : Status × FaultCode × Nat) : State :=
  if s.dtime < e.completion then
    modEntry s cluster i fun x => { x with stage := .running, row := e.row, completion := e.completion,
                                           poisoned := e.poisoned, bound := e.bound, ending := some q }
  else completeMatrix (modEntry s cluster i fun x => { x with poisoned := e.poisoned, bound := e.bound }) cluster i q.1 q.2.1 q.2.2

/-- R287: the end of a transfer whose rows have all moved, or that has met a fault before. -/
def transferDone (s : State) (cluster i : Nat) (e : MatEntry) : State :=
  transferEnds s cluster i e (e.ending.getD (if e.poisoned then .poisoned else .done, .none, 0))

/-- 20 R461: what a row of a transfer that met poison reports. -/
def rowConsumed (e : MatEntry) : Consumed := { addr := e.cmd.addr + e.row * e.cmd.stride, unit := 4 }

/-- R294, R299, R300: the rows of a transfer in order; one that reads poison consumes it as a load does
(10 R229), to the thread when the command completes (19 R455); at a row with a line in transition it is posted again, and is
granted when the line is free (11 R258, log 72), a surrendered page being asked back (R271); `fuel` bounds them. -/
def moveRows (cluster i : Nat) : Nat → State → MatEntry → State
  | 0, s, e => transferDone s cluster i e
  | fuel + 1, s, e =>
    if e.cmd.vr ≤ e.row ∨ e.cmd.vc = 0 then transferDone s cluster i e
    else
      match rowSpots s e.cmd e.row with
      | .error (.pageAbsent, va) => parkMatrix s cluster i e va
      | .error (c, va) => transferEnds s cluster i e (.faulted, c, va)
      | .ok spots =>
        let s0 := if e.cmd.scratch then s
          else engineUsed s (.matrix cluster) e.cmd.ctx [(e.cmd.addr + e.row * e.cmd.stride, e.cmd.vc * e.cmd.width)]
        if rowHeld s e.cmd spots then
          askBack (modEntry s cluster i fun x => { e with stage := .posted, released := x.released }) (deviceLines spots)
        else if e.cmd.op = 0x79 then
          let bad := spots.any fun x => isPoisoned s x.1 (x.2 / 32)
          let s1 := loadRow (engineReads s0 (cluster / 48) (deviceLines spots)) e.cmd e.row spots
          moveRows cluster i fuel (if bad then engineConsumes s1 e.cmd.block (rowConsumed e) else s1)
            { e with row := e.row + 1, poisoned := e.poisoned || bad }
        else
          let bad := rowPoisoned s e.cmd e.row
          let q := storeRow s0 e.cmd e.row spots
          moveRows cluster i fuel (if bad then engineConsumes q.1 e.cmd.block (rowConsumed e) else q.1)
            { e with row := e.row + 1, completion := max e.completion q.2, poisoned := e.poisoned || bad }

/-- R295: an `ACCST` with its bound: a trap before any write, or the bit of action 1. A transfer whose rows are over has only its
completion left (R302). -/
def moveTile (s : State) (cluster i : Nat) (e : MatEntry) : State :=
  let m := e.cmd
  if e.ending.isSome then transferDone s cluster i e
  else if m.op = 0x7A ∧ m.act = 3 ∧ e.row = 0 ∧ anyOutside s m = true then
    completeMatrix s cluster i .faulted .boundTrap m.addr
  else
    moveRows cluster i (m.vr + 1) s { e with bound := e.bound || (m.op == 0x7A && m.act == 1 && anyOutside s m) }

/-! ### The events -/

/-- 12 R288: one slot granted to an eligible entry: a pass, which the tag check may fail, or a whole `ACCZ`,
`ACCLD` or `ACCST`. A pass granted counts for the core of its block (19 R456, log 51). -/
def grant (s : State) (cluster i : Nat) (e : MatEntry) : State :=
  if isMultiply e.cmd.op then
    if tagFails s e.cmd e.pass then completeMatrix s cluster i .faulted .layoutMismatch e.cmd.desc.toNat
    else
      let s1 := countEvent s ((blockOf s e.cmd.block).core.getD (4 * cluster)) 6 1
      modCluster (modEntry s1 cluster i fun x => { x with stage := .running, begun := true }) cluster fun c =>
        { c with granted := some i }
  else if e.cmd.op = 0x78 then completeMatrix (zeroTile s cluster e.cmd.tile) cluster i .done .none 0
  else moveTile (modEntry s cluster i fun x => { x with stage := .running, begun := true }) cluster i
    { e with stage := .running, begun := true }

/-- 12 R288: the arbiter grants the slot. The model lets a pass's epilogue precede the next grant. -/
def execArbiterGrant (cluster : Nat) (s : State) : Result :=
  match (clusterOf s cluster).granted, grantChoice s cluster with
  | none, some (i, e) => .next (grant s cluster i e)
  | _, _ => .next s

/-- R287: the transfers whose writes are all performed complete. -/
def finishTransfers (s : State) (cluster : Nat) : State :=
  (clusterOf s cluster).table.foldl (fun acc p =>
    if p.2.stage = .running ∧ !isMultiply p.2.cmd.op then transferDone acc cluster p.1 p.2 else acc) s

/-- R287, R300, R301: the epilogue of the granted pass; after the last, or where the command is cancelled, the
command completes. -/
def endPass (s : State) (cluster i : Nat) (e : MatEntry) : State :=
  let bad := passMeetsPoison s e.cmd e.pass
  let s1 := applyPass s e.cmd e.pass
  let s2 := if bad then engineConsumes s1 e.cmd.block { unit := 4 } else s1
  let s3 := modEntry s2 cluster i fun x => { x with poisoned := e.poisoned || bad }
  if e.cancelled then completeMatrix s3 cluster i .cancelled .none 0
  else if e.pass + 1 = e.cmd.passes then
    completeMatrix s3 cluster i (if bad || e.poisoned then .poisoned else .done) .none 0
  else modEntry s2 cluster i fun x => { x with pass := e.pass + 1, poisoned := e.poisoned || bad }

/-- 12 R287. -/
def execMatrixPassEpilogue (cluster : Nat) (s : State) : Result :=
  let s1 := finishTransfers s cluster
  match (clusterOf s1 cluster).granted with
  | none => .next s1
  | some i =>
    let s2 := modCluster s1 cluster fun c => { c with granted := none }
    match mget (clusterOf s1 cluster).table i with
    | none => .next s2
    | some e => .next (endPass s2 cluster i e)

/-- 11 R264: the scheduler releases a command when every earlier overlapping command of its block has completed. -/
def execEngineCommandRelease (e : EngineId) (s : State) : Result :=
  match e with
  | .matrix cluster i =>
    match mget (clusterOf s cluster).table i with
    | none => .next s
    | some x =>
      .next (if !x.released && matEdgesClear s x.cmd then modEntry s cluster i fun y => { y with released := true } else s)
  | .copy core ticket =>
    match (coreOf s core).copyQ.find? fun c => c.ticket == ticket with
    | none => .next s
    | some c =>
      .next (if !c.released && copyEdgesClear s c then
        modCore s core fun k => { k with copyQ := k.copyQ.map fun x =>
          if x.ticket = ticket then { x with released := true } else x }
        else s)

end Sys2Proof.Machine
end

