-- ==== Sys2Proof/Machine/EvBlock.lean ====
section
/-!
DEFINITION. Device events of blocks and operating points: placement, eviction, parking and end of blocks
(02 R34-R41, 09 R217-R219, 19 R454), and the steps of the operating point (09 R218-R221).
-/

namespace Sys2Proof.Machine

/-! ### Placement and eviction -/

/-- 02 R35, R41. -/
def execBlockPlacement (target : PlaceTarget) (core : Nat) (s : State) : Result :=
  match target with
  | .next l => .next (placeNext s l core)
  | .again b => .next (placeAgain s b core)

/-- R41: whether every live thread of a block is blocked, at least one of them. -/
def allBlocked (s : State) (b : Nat) : Bool :=
  let live := (threadsOfBlock s b).filter fun p => p.2.ctl.run != .exited
  !live.isEmpty && live.all fun p =>
    p.2.ctl.run == .blocked || p.2.ctl.run == .faultWait || p.2.ctl.run == .trapped

/-- R41: a block whose wait records are saved leaves its thread slots. -/
def evictBlock (s : State) (b : Nat) : State :=
  let core := (blockOf s b).core.getD 0
  countRamp (countEvent (modBlock (blockCheck s b) b fun k => { k with evicted := true }) core 9 1) (dieOfCore core) (-1)

/-- 02 R41, 08 R193: a block whose live threads are all blocked is evicted once its barriers and wait records are
saved. -/
def execBlockEviction (block : Nat) (s : State) : Result :=
  if blockRuns s block && allBlocked s block then
    match saveWaits s block with
    | .error a => .next (structureFailed s a.1 a.2)
    | .ok s1 => .next (evictBlock s1 block)
  else .next s

/-! ### The end of a block (02 R34, 12 R303, 14 R331) -/

/-- R34: whether every store of a block's threads is performed at `.dev` and nothing of them is in flight. -/
def blockSettled (s : State) (b : Nat) : Bool :=
  let ts := threadsOfBlock s b
  (ts.all fun p => p.2.ctl.run == .exited && decide (p.2.regs.wh ≤ s.dtime)
      && (List.range 6).all fun j => p.2.regs.getCtr j == 0)
    && (s.pend.all fun a => a.block != b)
    && s.cores.all fun c => c.2.texQ.all fun o => o.block != b

/-- R303, R331: whether the block's engine commands and movement program are over. -/
def blockIdle (s : State) (b : Nat) : Bool :=
  (blockCommands s b).isEmpty
    && s.coaches.all fun p => !(p.2.running && p.2.block == b) && p.2.starts.all fun x => x.block != b

/-- 12 R303: the tiles of an owner are released. -/
def releaseTiles (s : State) (o : TileOwner) : State :=
  { s with clusters := s.clusters.map fun p => (p.1, { p.2 with owners := p.2.owners.filter fun w => w.2 != o }) }

/-- 02 R49, 12 R303: the block's group loses a member; its tiles go with the last. -/
def leaveGroup (s : State) (b : Nat) : State :=
  match (blockOf s b).group with
  | none => releaseTiles s (.block b)
  | some g =>
    let s1 := modGroup s g fun k => { k with counter := k.counter - 1 }
    if (groupOf s1 g).counter = 0 then releaseTiles s1 (.group g) else s1

/-- 19 R454: the report of a block that ends with a nonzero check summary. -/
def checkReport (s : State) (b : Nat) : State :=
  let y := syncOf s b
  let core := (blockOf s b).core.getD 0
  if y.chkBits = 0 then s
  else appendEvent s (dieOfCore core)
    { ctx := ctxOfBlock s b, kind := 7, location := coreLocation core, slot := (blockOf s b).slot,
      handle := handleOfBlock s b, detail := y.chkBits.toNat + y.chkCount * 2 ^ 16 + 0x3FF * 2 ^ 32 }

/-- R210: whether the rows of a block that ends stay: its group has a block that has not ended. -/
def keepsRows (s : State) (b : Nat) : Bool :=
  match (blockOf s b).group with
  | none => false
  | some g => 0 < (groupOf s g).counter

/-- 09 R200, R208: the block leaves its core; a TOB without blocks is no longer a launch's (log 27). -/
def leaveCore (s : State) (b : Nat) : State :=
  match (blockOf s b).core with
  | none => s
  | some g => modCore s g fun c =>
      let rest := c.blocks.filter (· != b)
      { c with blocks := rest, tobLaunch := if rest.isEmpty then none else c.tobLaunch
               tobPlace := if rest.isEmpty then [] else c.tobPlace, idleSince := s.dtime
               gateFrom := if rest.isEmpty then gateTime s (dieOfCore g) else c.gateFrom }

/-- 02 R36: the end of a block lowers the resident blocks of its die. -/
def countEnd (s : State) (b : Nat) : State :=
  match (blockOf s b).core with
  | none => s
  | some g => countRamp s (dieOfCore g) (-1)

/-- The block's threads are gone, and its counts with them (20 R468). -/
def forgetThreads (s : State) (b : Nat) : State :=
  modWork s fun w => { w with sync := merase w.sync b, threads := w.threads.filter fun p => p.2.block != b }

/-- The block leaves its core and is gone. -/
def forgetBlock (s : State) (b : Nat) : State :=
  modWork (leaveCore s b) fun w => { w with blocks := merase w.blocks b }

/-- R210: a block that has ended keeps its rows where its group runs on; else it goes, with the blocks of its group
that ended before it. -/
def freeRows (s : State) (b : Nat) : State :=
  if keepsRows s b then modBlock s b fun k => { k with ended := true, evicted := false, selected := false }
  else match (blockOf s b).group with
    | none => forgetBlock s b
    | some g => (groupOf s g).blocks.foldl forgetBlock s

/-- 02 R34, R49: the end of a block. -/
def endBlock (s : State) (b : Nat) : State :=
  let l := (blockOf s b).launch
  let s1 := leaveGroup (checkReport (blockLeaves (dropBounds s b .cancelled) b) b) b
  launchDown (settleHolds (freeRows (forgetThreads (countEnd (dropRecords s1 (ctxOfBlock s b) b) b) b) b)) l

/-- 02 R34. A block of a context that is switched out ends after its restore: its commands and programs are saved. -/
def execBlockEnd (block : Nat) (s : State) : Result :=
  .next (if (mget s.work.blocks block).isSome && !(blockOf s block).ended && (ctxOf s (ctxOfBlock s block)).resident
      && blockSettled s block && blockIdle s block then endBlock s block
    else s)

/-! ### Holding and parking (09 R217-R219) -/

/-- 09 R217: a launch held for `HOLDLIMIT` µs for want of rows is reported once. -/
def execHoldlimitExpiry (launch : Nat) (s : State) : Result :=
  let k := launchOf s launch
  match k.heldSince with
  | none => .next s
  | some t =>
    if s.power.holdLimit ≠ 0 ∧ !k.holdReported ∧ heldForRows s launch ∧ t + 1000 * s.power.holdLimit ≤ (ctxOf s k.ctx).ctime then
      .next (appendEvent (modLaunch s launch fun x => { x with holdReported := true }) 0
        { ctx := k.ctx, kind := 3, code := .scratchCapacity, handle := k.handle, detail := k.desc.rows })
    else .next s

/-- R219 step 2, R44 step 2: whether a block's operations in flight have drained: its accesses, and the granted pass if it is
the block's. -/
def drained (s : State) (b : Nat) : Bool :=
  (s.pend.all fun a => a.block != b || a.space == .globalG && a.applied)
    && s.clusters.all fun c => c.2.granted.all fun i => (mget c.2.table i).all fun e => e.cmd.block != b

/-- 12 R302: an `ACCLD` or `ACCST` that has begun and is not over stops with a record. -/
def parkTransfer (cluster : Nat) (s : State) (p : Nat × MatEntry) : State :=
  let e := p.2
  if e.begun && !isMultiply e.cmd.op && (e.stage == .running || e.stage == .posted) then
    takeRecord (modEntry s cluster p.1 fun x => { x with stage := .parked }) e.cmd.ctx
      { cause := 2, location := clusterLocation cluster, slot := (blockOf s e.cmd.block).slot
        work := .matrix cluster p.1 e.row e.cmd.ticket, since := (ctxOf s e.cmd.ctx).ctime }
  else s

/-- R219 step 2, R44 step 2: a block's copies, texture operations and tile transfers stop with their records. -/
def parkWork (s : State) (b : Nat) : State :=
  match (blockOf s b).core with
  | none => s
  | some core =>
    let s1 := ((coreOf s core).copyQ.filter fun c => c.block == b).foldl parkSwitched s
    let s2 := ((coreOf s1 core).texQ.filter fun o => o.block == b).foldl (fun acc o => parkSampler acc core o) s1
    let g := clusterOfCore core
    ((clusterOf s2 g).table.filter fun e => e.2.cmd.block == b).foldl (parkTransfer g) s2

/-- R219: a block whose rows are in the parked-row region is parked: its threads leave their bundles and bins. -/
def leaveRows (s : State) (b : Nat) : State :=
  let core := (blockOf s b).core.getD 0
  let us := (threadsOfBlock s b).map Prod.fst
  let s1 := unfile s core us
  let s2 := us.foldl (fun acc u => modThread acc u fun t =>
    if t.ctl.run = .bundled then t.modCtl fun c => { c with run := .runnable } else t) s1
  let s3 := if (blockOf s2 b).ended then s2 else blockCheck s2 b
  let s4 := if (blockOf s3 b).ended || (blockOf s3 b).evicted then s3 else countRamp s3 (dieOfCore core) (-1)
  settleHolds (modBlock s4 b fun k => { k with parked := true, selected := false, rowPlace := [] })

/-- R219: a block parked: its operations stop, its barriers and wait records are saved, and its rows leave the core. A write
that fails holds it (20 R554). -/
def parkBlock (s : State) (b : Nat) : State :=
  match parkRows (parkWork s b) b with
  | .error a => structureFailed s a.1 a.2
  | .ok s1 =>
    match saveWaits s1 b with
    | .error a => structureFailed s a.1 a.2
    | .ok s2 => leaveRows s2 b

/-- 09 R219. -/
def execParkedBlockRefill (block : Nat) (s : State) : Result := .next (refillBlock s block)

/-! ### Steps of the operating point (09 R218, R221) -/

/-- The blocks of a core that a step has not selected and that hold rows. -/
def keptBlocks (s : State) (core : Nat) : List Nat :=
  (rowBlocks s core).filter fun b => !(blockOf s b).selected

/-- R218: the most recently placed of some blocks; among equals the last listed. -/
def latestPlaced (s : State) : List Nat → Option Nat
  | [] => none
  | b :: r =>
    match latestPlaced s r with
    | none => some b
    | some c => if (blockOf s c).placedAt < (blockOf s b).placedAt then some b else some c

/-- R218: a block selected to leave, with its whole group. -/
def selectBlock (s : State) (b : Nat) : State :=
  let bs := match (blockOf s b).group with
    | none => [b]
    | some g => (groupOf s g).blocks
  bs.foldl (fun acc x => modBlock acc x fun k => { k with selected := true }) s

/-- R218 step 2 on one core; `fuel` bounds its blocks. -/
def selectOn (core vs : Nat) : Nat → State → State
  | 0, s => s
  | fuel + 1, s =>
    let kept := keptBlocks s core
    let rows := (kept.map fun b => (launchOfBlock s b).desc.rows).foldl (· + ·) 0
    let tob := (roleBanks (coreOf s core) 2).length
    if rows ≤ capacityWith s core (coreOf s core).roles tob vs then s
    else
      match latestPlaced s kept with
      | none => s
      | some b => selectOn core vs fuel (selectBlock s b)

/-- R220: whether a step must wait: another is in progress, or a partition switches. -/
def stepWaits (s : State) : Bool := s.power.target.isSome || s.tables.partitions.any fun p => p.2.state == 3

/-- R220: a step order that waits. -/
def queueStep (s : State) (n : Nat) (urgent : Bool) : State :=
  { s with power := { s.power with queued := s.power.queued ++ [(n, urgent)] } }

/-- R218 steps 1 and 2: a step down to a point is ordered. -/
def orderStepDown (s : State) (n : Nat) (urgent : Bool) : State :=
  if n ≤ s.power.vs ∨ 5 < n then s
  else if stepWaits s then queueStep s n urgent
  else
    let s1 := { s with power := { s.power with
      target := some n, phase := 1, orderedAt := s.dtime, urgent := urgent } }
    (mkeys s.cores).foldl (fun acc g => selectOn g n 64 acc) s1

/-- 09 R218. -/
def execOpStepDownOrder (target : Nat) (s : State) : Result := .next (orderStepDown s target false)

/-- The blocks selected to leave. -/
def selectedBlocks (s : State) : List Nat := (s.work.blocks.filter fun p => p.2.selected && !p.2.parked).map Prod.fst



/-- 09 R218 step 3: the selected blocks that have not ended are parked as they drain; the step goes on when
none is left. -/
def execEvaclimitExpiry (s : State) : Result :=
  if s.power.phase ≠ 1 then .next s
  else
    let s1 := if parkTime s then ((selectedBlocks s).filter (drained s)).foldl parkBlock s else s
    .next (if (selectedBlocks s1).isEmpty then { s1 with power := { s1.power with phase := 2 } } else s1)



/-- R218 step 4 for the blocks of a core. -/
def moveBlockRows (s : State) (core vs : Nat) : State :=
  (rowBlocks s core).foldl (fun acc b =>
    let q := movePlaces acc core vs (blockOf acc b).rowPlace (blockRoom acc core vs)
    modBlock acc b fun k => { k with rowPlace := q.1 }) s

/-- The physical rows of a core that a context whose partition is switched out holds. -/
def savedPlaces (s : State) (core ctx : Nat) : List Nat :=
  (rowHolders s core ctx).flatMap (fun b => (blockOf s b).rowPlace.map Prod.snd)
    ++ (if tobOfCtx s core ctx then (coreOfCtx s core ctx).tobPlace.map Prod.snd else [])

/-- R220: the scratchpad banks of a core, with their owners, in which an owner whose partition is switched out has a row that a
point takes; a bank that is spilled holds none. -/
def lostBanks (s : State) (core vs : Nat) : List (Nat × Nat) :=
  (coreOf s core).rowOwner.filter fun p =>
    (mget (moreOf s p.2).savedCores core).isSome && (findBank (moreOf s p.2).spilledRows core p.1).isNone
      && (savedPlaces s core p.2).any fun x => x / 64 == p.1 && !rowUsable s core p.1 (x % 64) vs

/-- R220: the usable rows that a context whose partition is switched out may move rows to: free ones of the banks it owns and
has not spilled. -/
def ownFree (s : State) (core ctx vs : Nat) : List Nat :=
  let used := savedPlaces s core ctx
  (List.range 2048).filter fun x =>
    mget (coreOf s core).rowOwner (x / 64) == some ctx && (findBank (moreOf s ctx).spilledRows core (x / 64)).isNone
      && bankRole (coreOfCtx s core ctx) (x / 64) != 0 && rowUsable s core (x / 64) (x % 64) vs && !used.contains x

/-- R220: the rows of a context whose partition is switched out move, as far as free usable rows of its banks go. -/
def moveSaved (s : State) (core vs ctx : Nat) : State :=
  let spilled (x : Nat) : Bool := (findBank (moreOf s ctx).spilledRows core (x / 64)).isSome
  let step (acc : State) (m : SMap Nat) : SMap Nat :=
    let q := movePlaces acc core vs (m.filter fun q => !spilled q.2) (ownFree acc core ctx vs)
    m.map fun x => (x.1, mgetD q.1 x.1 x.2)
  let s1 := (rowHolders s core ctx).foldl (fun acc b => modBlock acc b fun k => { k with rowPlace := step acc k.rowPlace }) s
  if tobOfCtx s1 core ctx then
    let m := step s1 (coreOfCtx s1 core ctx).tobPlace
    modMore s1 ctx fun x => { x with savedCores := x.savedCores.map fun p => (p.1, if p.1 = core then { p.2 with tobPlace := m } else p.2) }
  else s1

/-- R220: the rows in banks that a context owns whose partition is switched out move; a bank for whose lost rows no free usable
row remains is spilled to its owner's save area. -/
def spillLost (s : State) (core vs : Nat) : State :=
  let s1 := ((lostBanks s core vs).map Prod.snd).dedup.foldl (fun acc o => moveSaved acc core vs o) s
  (lostBanks s1 core vs).foldl (fun acc p =>
    holdWrite acc (spillRowsTo (fun t va bs => saveArea (.ok t) p.2 va bs) acc core p.2 p.1)) s1

/-- R220: whether a granted pass reads the TOB of a core. -/
def tobRead (s : State) (core : Nat) : Bool :=
  let c := clusterOf s (clusterOfCore core)
  c.granted.any fun i => (mget c.table i).any fun e => e.cmd.readsTob core

/-- R220: a TOB row moves only while no granted pass reads the core's TOB. -/
def moveTobRows (s : State) (core vs : Nat) : State :=
  if tobRead s core then s
  else
    let q := movePlaces s core vs (coreOf s core).tobPlace (tobRoom s core vs)
    modCore s core fun c => { c with tobPlace := q.1 }

/-- 09 R218 steps 4 and 5: the rows of a core that the target point loses move, its L1 shrinks. -/
def execRowEvacuation (core : Nat) (s : State) : Result :=
  match s.power.target with
  | none => .next s
  | some n =>
    if s.power.phase ≠ 2 then .next s
    else
      .next (changeL1 (spillLost (moveTobRows (moveBlockRows s core n) core n) core n) core
        (keepCopies (roleRows s core 0 n)))

/-- R218: whether no core keeps anything in a row that a point loses. -/
def evacuated (s : State) (vs : Nat) : Bool :=
  (mkeys s.cores).all fun g =>
    ((placesUsed s g).all fun p => rowUsable s g (p / 64) (p % 64) vs) && (lostBanks s g vs).isEmpty
      && decide ((coreOf s g).l1.length + (coreOf s g).lLines.length ≤ roleRows s g 0 vs)

/-- R218 step 6, 19 R457: the main clock and `%vs` change; the step is recorded. -/
def switchPoint (s : State) (n : Nat) (p : Power) : State :=
  blackBoxAdd (settleHolds { s with power := p }) { time := 0, seq := 0, kind := 5, code := n }

/-- 09 R218 step 6. -/
def execOpClockSwitch (s : State) : Result :=
  match s.power.target with
  | none => .next s
  | some n =>
    if s.power.phase = 2 ∧ evacuated s n then .next (switchPoint s n { s.power with vs := n, phase := 3 })
    else .next s

/-- 09 R221: a step up: the rail slews, then the clock switches; no row moves. -/
def stepUp (s : State) (n : Nat) : State :=
  if s.power.vs ≤ n then s
  else if stepWaits s then queueStep s n false
  else switchPoint s n { s.power with rail := n, vs := n }

/-- 09 R221. -/
def execOpStepUp (target : Nat) (s : State) : Result := .next (stepUp s target)

/-- R220: the first step order that waits, in the direction it now has. -/
def takeQueued (s : State) : State :=
  match s.power.queued with
  | [] => s
  | q :: r =>
    let s1 := { s with power := { s.power with queued := r } }
    if s.power.vs < q.1 then orderStepDown s1 q.1 q.2 else stepUp s1 q.1

/-- R220: the step orders that waited are taken until one is in progress; `fuel` counts them. -/
def takeOrders : Nat → State → State
  | 0, s => s
  | fuel + 1, s => if stepWaits s then s else takeOrders fuel (takeQueued s)

/-- 09 R218 step 7: the core rail reaches the new supply. -/
def railDone (s : State) : State :=
  { s with power := { s.power with rail := s.power.vs, target := none, phase := 0, urgent := false } }

end Sys2Proof.Machine
end

