-- ==== Sys2Proof/Machine/EvCopy.lean ====
section
/-!
DEFINITION. The copy engine and the start of movement programs (14 R331, R340-R343, R350, R353) as device events.
The model delivers the sectors of a command in row-major order, one per event (log 29). An event that cannot
happen leaves the state as it is (log 2).
-/

namespace Sys2Proof.Machine

/-! ### Conversion (R341, R342, 06 R133, R134) -/

/-- R342: the next state of the generator; a state of 0 acts as 1. -/
def seedNext (x : DWord) : DWord :=
  let s0 := if x = 0 then 1 else x
  let s1 := s0 ^^^ (s0 * 8192)
  let s2 := s1 ^^^ (BitVec.ofNat 64 (s1.toNat / 128))
  s2 ^^^ (s2 * 131072)

/-- R342: the 16-bit draw of a state. -/
def seedDraw (x : DWord) : Nat := x.toNat / 2 ^ 48

/-- 06 R133: a value rounded stochastically with a draw; overflow follows RN. -/
def stochRound (f : Fmt) (sat : Bool) (r : Nat) (v : FVal) : Nat :=
  match v with
  | .num neg m e =>
    if m = 0 then f.withSign neg 0
    else
      let emin : Int := 1 - (f.bias : Int)
      let q : Int := max ((Nat.log2 m : Int) + e) emin - f.mant
      let k := (q - e).toNat
      let n := if q ≤ e then m * 2 ^ (e - q).toNat
        else if r < 2 ^ 16 * (m % 2 ^ k) / 2 ^ k then m / 2 ^ k + 1 else m / 2 ^ k
      let code : Int := (q + f.mant - emin) * (2 : Int) ^ f.mant + n
      if (f.maxCode : Int) < code then overflowCode f .rn sat neg else f.withSign neg code.toNat
  | x => roundVal f .rn sat x

/-- R337: the eight-bit format of a conversion. -/
def CopyCmd.narrowFmt (c : CopyCmd) : Fmt := if dbits c.control 3 1 % 2 = 1 then .e4m3 else .e5m2



/-- R341, R342: BF16 codes narrowed in order, with the generator's state. -/
def narrowAll (c : CopyCmd) : List Nat → DWord → List Byte × DWord
  | [], seed => ([], seed)
  | x :: r, seed =>
    let v := readFmt .bf16 x
    if c.stochastic then
      let s1 := seedNext seed
      let q := narrowAll c r s1
      (BitVec.ofNat 8 (stochRound c.narrowFmt (dbit c.control 6) (seedDraw s1) v) :: q.1, q.2)
    else
      let q := narrowAll c r seed
      let rnd : Rnd := if dbits c.control 5 4 = 1 then .rz else .rn
      (BitVec.ofNat 8 (roundVal c.narrowFmt rnd (dbit c.control 6) v) :: q.1, q.2)

/-- Little-endian halves of bytes. -/
def halves : List Byte → List Nat
  | a :: b :: r => (a.toNat + 256 * b.toNat) :: halves r
  | _ => []

/-- R340: the 32 destination bytes from the source bytes that feed them, and the generator's state after. -/
def convertSector (c : CopyCmd) (bs : List Byte) (seed : DWord) : List Byte × DWord :=
  match dbits c.control 3 1 with
  | 0 => (bs, seed)
  | 1 | 2 => narrowAll c (halves bs) seed
  | _ => (bs.flatMap fun b => leBytes 2 (roundVal .bf16 .rn false (readFmt c.narrowFmt b.toNat)), seed)

/-! ### Places of a sector (R339, R340) -/

/-- R340: the sectors of a command's destination. -/
def CopyCmd.rowSectors (c : CopyCmd) : Nat := max 1 (copyRowSectors c.control c.shape)

/-- R340: every destination sector of a command. -/
def CopyCmd.total (c : CopyCmd) : Nat := c.rows * copyRowSectors c.control c.shape

/-- The row of the next sector. -/
def CopyCmd.row (c : CopyCmd) : Nat := c.next / c.rowSectors

/-- The sector within its row of the next sector. -/
def CopyCmd.col (c : CopyCmd) : Nat := c.next % c.rowSectors

/-- R337, R340: the bytes of a source row that feed destination sector j: their offset and number. -/
def feedSpan (c : CopyCmd) (j : Nat) : Nat × Nat :=
  match dbits c.control 3 1 with
  | 0 => (32 * j, 32)
  | 1 | 2 => (64 * j, 64)
  | _ => (16 * j, 16)

/-- R339: where the source bytes of a sector lie, or the fault. -/
def sourceSpots (s : State) (c : CopyCmd) (i j : Nat) : Except (FaultCode × Nat) (List (Mem × Nat)) :=
  let a := copySrc s c i + (feedSpan c j).1
  let n := (feedSpan c j).2
  if c.outward then .ok ((List.range n).map fun k => windowPlace c.block c.core (a + k))
  else byteSpots (fun x => translateEngine s (.copy c.core) c.ctx x { read := true }) a n

/-- R339: the S offset or G address of a destination sector. -/
def destAddr (s : State) (c : CopyCmd) (i j : Nat) : Nat := copyBase s c + i * c.dstr + 32 * j

/-- R339: where a destination sector's bytes lie: one list for each core written. -/
def destSpots (s : State) (c : CopyCmd) (i j : Nat) : Except (FaultCode × Nat) (List (List (Mem × Nat))) :=
  let a := destAddr s c i j
  if c.outward then
    match byteSpots (fun x => translateEngine s (.copy c.core) c.ctx x { write := true }) a 32 with
    | .error e => .error e
    | .ok xs => .ok [xs]
  else
    .ok ((copyTargets s c).filterMap fun b => b.map fun x =>
      (List.range 32).map fun k => windowPlace x ((blockOf s x).core.getD c.core) (a + k))

/-! ### Delivery (R340, R343, R353) -/

/-- R343: the next sector is delivered: the barriers that count it, and the watermark. -/
def deliverSector (s : State) (c : CopyCmd) : State :=
  let s1 := if dbit c.control 16 then
      (copyCores c).foldl (fun acc g =>
        setTb acc g (dbits c.control 15 10) (tbOf acc g (dbits c.control 15 10)).deliver) s
    else s
  modCopy s1 c.core c.ticket fun x => { x with next := x.next + 1, completion := 0 }

/-- R340: whether an earlier sector of the command lies in the tag group of S offset a. -/
def groupTouched (s : State) (c : CopyCmd) (a : Nat) : Bool :=
  (List.range c.next).any fun n =>
    let i := n / c.rowSectors
    decide (i < c.validRows) && (destAddr s c i (n % c.rowSectors)) / 2048 == a / 2048

/-- R340, 12 R282: the first write of a command to a TOB tag group gives it the command's tag. -/
def tagSector (s : State) (c : CopyCmd) (a : Nat) (m : Mem) : State :=
  match m with
  | .tob g =>
    if groupTouched s c a then s
    else
      let k := (a - 0x800000) / 2048
      modCore s g fun x =>
        { x with tobTags := if dbits c.control 9 7 = 0 then merase x.tobTags k else mset x.tobTags k (dbits c.control 9 7) }
  | _ => s

/-- R340, 11 R251: one destination sector written to one place. -/
def writeSector (s : State) (c : CopyCmd) (a : Nat) (spots : List (Mem × Nat)) (bs : List Byte) : State :=
  let m := (spots.head?.map Prod.fst).getD .device
  let ws := (spots.zip bs).map fun x => (x.1.2, x.2)
  if c.outward then dropWritten (applyWrite s (dieOfCore c.core) ws) c.core ws else tagSector (writeBytes s m ws) c a m

/-- R353: an absent page parks the command at its watermark. -/
def parkCopy (s : State) (c : CopyCmd) (va acc : Nat) : State :=
  takeRecord (pauseCopy s c) c.ctx
    { cause := 1, location := coreLocation c.core, waits := 1, slot := (blockOf s c.block).slot,
      work := .copy c.core c.ticket, pages := [(va / 4096, acc)], code := .pageAbsent, kind := 3, addr := va }

/-- R353: a translation fault of a command. -/
def copyFault (s : State) (c : CopyCmd) (code : FaultCode) (va acc : Nat) : State :=
  if code = .pageAbsent then parkCopy s c va acc else completeCopy s c .faulted code va

/-- R353: a copy that read poison. -/
def poisonCopy (s : State) (c : CopyCmd) : State :=
  engineConsumes (modCopy s c.core c.ticket fun x => { x with poisoned := true }) c.block
    { addr := copySrc s c c.row + (feedSpan c c.col).1, unit := 3 }



/-- R340, R353: the next sector of a valid row is converted and written; it is delivered once it is performed at
`.dev`. It waits while a line it names is in transition (11 R258), and a page that is surrendered is asked back (R271). -/
def moveSectorOf (s : State) (c : CopyCmd) : State :=
  let i := c.row
  let j := c.col
  let s0 := keepSeed s c
  match sourceSpots s c i j, destSpots s c i j with
  | .error (e, va), _ => copyFault s0 c e va 0
  | _, .error (e, va) => copyFault s0 c e va 1
  | .ok src, .ok dst =>
    let die := dieOfCore c.core
    let reads := deviceLines src
    let writes := deviceLines (dst.flatMap id)
    if engineWaits s die false reads || engineWaits s die true writes then askBack s (reads ++ writes)
    else
      let q := convertSector c (src.map fun x => readByte s x.1 x.2) (coreOf s c.core).cpSeed
      let bad := src.any fun x => isPoisoned s x.1 (x.2 / 32)
      let a := destAddr s c i j
      let done := if c.outward then writeCompletion s (dieOfCore c.core) ((dst.headD []).map fun x => (x.2, 0)) else s.dtime
      let sr := engineReads (engineUsed s0 (.copy c.core) c.ctx
        [if c.outward then (a, 32) else (copySrc s c i + (feedSpan c j).1, (feedSpan c j).2)]) die reads
      let s1 := dst.foldl (fun acc spots => writeSector acc c a spots q.1) sr
      let s2 := modCore s1 c.core fun k => { k with cpSeed := q.2 }
      let s3 := if bad then poisonCopy s2 c else s2
      if done ≤ s.dtime then deliverSector s3 c
      else modCopy s3 c.core c.ticket fun x => { x with completion := done }

/-- R340, R343: the next step of a running command: a sector whose write has been performed is delivered; else the
next sector moves. Rows past the valid ones are delivered without an access. -/
def stepCopy (s : State) (c : CopyCmd) : State :=
  if 0 < c.completion then (if c.completion ≤ s.dtime then deliverSector s c else s)
  else if c.validRows ≤ c.row then deliverSector s c
  else moveSectorOf s c

/-! ### The events -/

/-- A core's command by its ticket. -/
def copyOf (s : State) (core ticket : Nat) : Option CopyCmd := (coreOf s core).copyQ.find? fun c => c.ticket == ticket

/-- R350: whether a circular buffer has a slot to take. -/
def CircBuf.hasRoom (b : CircBuf) : Bool := decide (seqGap b.freeSeq b.takeSeq < b.nslot)

/-- R350: whether a command in `CB` mode stalls for a slot. -/
def CopyCmd.stalled (c : CopyCmd) : Bool := dbit c.control 21 && c.slot.isNone

/-- R340: whether the engine runs fewer than four commands; those parked or stalled for a slot do not count. -/
def engineFree (s : State) (core : Nat) : Bool :=
  decide (((coreOf s core).copyQ.filter fun x => x.started && !x.parked && !x.stalled).length < 4)

/-- R350: a copy takes the next slot of its buffer, once no earlier command overlaps the slot (R339, 11 R264). -/
def takeSlot (s : State) (c : CopyCmd) : State :=
  let n := dbits c.control 20 17
  let b := cbufOf s c.core n
  if !c.stalled || !b.hasRoom || !engineFree s c.core || !copyEdgesClear s { c with slot := some b.takeSeq } then s
  else
    let s1 := setCbuf s c.core n
      { b with takeSeq := seqNext b.takeSeq, count := mset b.count (b.takeSeq % max 1 b.nslot) b.cons }
    modCopy s1 c.core c.ticket fun x => { x with slot := some b.takeSeq }

/-- R340, R342: whether a command may start: released, in ticket order among those the scheduler has released, at
most four at once (a command that will stall for its slot blocks none, R350), and one stochastic command at a time. -/
def mayStart (s : State) (c : CopyCmd) : Bool :=
  let q := (coreOf s c.core).copyQ
  !c.started && c.released && (ctxOf s c.ctx).resident && !(blockOf s c.block).parked
    && (c.stalled || engineFree s c.core)
    && (q.all fun x => !ticketBefore x.ticket c.ticket || x.started || !x.released)
    && !(c.stochastic && q.any fun x => x.stochastic && ticketBefore x.ticket c.ticket)

/-- 14 R340: the engine starts a posted command; in `CB` mode it takes a slot, or stalls for one (R350). -/
def execCopyCommandStart (core ticket : Nat) (s : State) : Result :=
  match copyOf s core ticket with
  | none => .next s
  | some c => .next (if mayStart s c then takeSlot (modCopy s core ticket fun x => { x with started := true }) c else s)

/-- 14 R350: a stalled copy takes a slot that has come free. -/
def execCbSlotTake (core ticket : Nat) (s : State) : Result :=
  match copyOf s core ticket with
  | none => .next s
  | some c => .next (if c.started then takeSlot s c else s)

/-- 09 R219, R220: whether the rows that a command reads or writes stand in their cores: no block of them is parked. -/
def rowsStand (s : State) (c : CopyCmd) : Bool :=
  !(blockOf s c.block).parked && (copyTargets s c).all fun b => !(b.map fun x => (blockOf s x).parked).getD false

/-- Whether a started command can move its next sector. -/
def canDeliver (s : State) (c : CopyCmd) : Bool :=
  c.started && !c.parked && (ctxOf s c.ctx).resident && (c.slot.isSome || !dbit c.control 21) && decide (c.next < c.total)
    && rowsStand s c

/-- 14 R343. -/
def execCopySectorDelivery (core ticket : Nat) (s : State) : Result :=
  match copyOf s core ticket with
  | none => .next s
  | some c => .next (if canDeliver s c then stepCopy s c else s)

/-- 14 R340: every sector is delivered: the ring entry, and in `CB` mode the slot. -/
def execCopyComplete (core ticket : Nat) (s : State) : Result :=
  match copyOf s core ticket with
  | none => .next s
  | some c =>
    .next (if c.started && !c.parked && c.total ≤ c.next then
      completeCopy s c (if c.poisoned then .poisoned else .done) .none 0 else s)

/-- 14 R331: an idle Coachman starts the oldest queued program. -/
def startProgram (s : State) (core : Nat) : State :=
  let c := coachOf s core
  match c.starts with
  | [] => s
  | x :: r =>
    if c.running then s
    else modCoach s core fun y =>
      { y with starts := r, running := true, block := x.block, program := x.entry, pc := x.entry, npc := none,
               stack := [], wait := none, held := false }

/-- 14 R331. -/
def execMovementProgramStart (core : Nat) (s : State) : Result := .next (startProgram s core)

end Sys2Proof.Machine
end

