-- ==== Sys2Proof/Machine/EvDir.lean ====
section
/-!
DEFINITION. Device events of the directory (11 R266-R269), of pages shared with hosts (11 R270, R271, 21 R490) and
of sleeping caches (11 R272). A request that cannot start leaves the state as it is (log 2).
-/

namespace Sys2Proof.Machine

/-! ### Transactions of a line (R267) -/

/-- R267: whether a die may begin a transaction of a line: the line is not transient (R258) and neither die is
lost. -/
def canBegin (s : State) (die line : Nat) : Bool :=
  decide (die < 4) && !(lineOf s line).transient && !(dieOf s die).lost && !(dieOf s (homeDie line)).lost

/-- The dies with an entry for a line, other than some. -/
def sharersBut (d : LineDir) (out : List Nat) : List Nat := (mkeys d.states).filter fun x => !out.contains x

/-- R267: a transaction starts: the line is transient until it is over, and its probes are sent (R272). -/
def beginTxn (s : State) (line : Nat) (t : LineTxn) (acks : List Nat) : State :=
  modLine s line fun d => { d with transient := true, txn := some t, acks := acks, probedAt := s.dtime }

/-- R272: the unit of a die's slice that holds a line. -/
def sliceUnit (die line : Nat) : UnitId := .l2Slice (384 * die + (Config.sliceOf line).toNat)

/-- R272: a die has answered a probe of a line's home: its slice is awake, and its timeouts start anew. -/
def answered (s : State) (die line : Nat) : State :=
  let s1 := if s.power.gatedUnits.isEmpty then s
    else { s with power := { s.power with gatedUnits := s.power.gatedUnits.filter (· != sliceUnit die line) } }
  if (mget (dieOf s (homeDie line)).timeouts die).isNone then s1
  else modDie s1 (homeDie line) fun d => { d with timeouts := merase d.timeouts die }

/-- R267: the end of a transaction that waits for nothing more: ownership passes, or only the home is left. -/
def settleTxn (s : State) (line : Nat) : State :=
  let d := lineOf s line
  match d.txn with
  | none => s
  | some t =>
    if t.forward.isNone && d.acks.isEmpty then
      modLine s line fun x => { (if t.own then ownStates x line t.die else x) with txn := none }
    else s

/-- R267, read: the home sends the data, or forwards to the die that owns the line. -/
def readRequest (s : State) (die line : Nat) : State :=
  let d := lineOf s line
  if !canBegin s die line || dieHolds d line die || filterBlocks s die line then s
  else
    match ownerOf d with
    | none => modLine (l2Fill s die line false) line fun x =>
      { readStates x line die with holderVersion := mset x.holderVersion die (BitVec.ofNat 16 (lineVersion x)) }
    | some o => beginTxn s line { die := die, own := false, forward := some o } []

/-- R267, ownership or upgrade: a forward to an owner other than the requester, and every other sharer
invalidated. -/
def ownRequest (s : State) (die line : Nat) : State :=
  let d := lineOf s line
  let o := (ownerOf d).filter (· != die)
  settleTxn (beginTxn s line { die := die, own := true, forward := o } (sharersBut d (die :: o.toList))) line

/-! ### The events -/

/-- 11 R267. -/
def execDirReadRequest (die line : Nat) (s : State) : Result := .next (readRequest s die line)

/-- 11 R267, ownership from I. -/
def execDirOwnershipRequest (die line : Nat) (s : State) : Result :=
  .next (if canBegin s die line && moesiOf (lineOf s line) die == .invalid && !filterBlocks s die line then
    ownRequest s die line else s)

/-- 11 R267, upgrade from S or O. -/
def execDirUpgradeRequest (die line : Nat) (s : State) : Result :=
  let m := moesiOf (lineOf s line) die
  .next (if canBegin s die line && (m == .shared || m == .owned) then ownRequest s die line else s)

/-- 11 R267, write-back of an M or O line: the requester holds nothing and the home has the data. -/
def execDirWriteback (die line : Nat) (s : State) : Result :=
  let m := moesiOf (lineOf s line) die
  .next (if canBegin s die line && (m == .modified || m == .owned) then l2Drop s die line else s)

/-- 11 R267, atomic or reduction: dirty data is recalled and every copy invalidated. -/
def execDirAtomicRequest (die line : Nat) (s : State) : Result :=
  .next (if canBegin s die line then ownRequest s (homeDie line) line else s)

/-- 11 R267: the die a request was forwarded to sends its data: a reader then shares the line, an owner takes
it. -/
def execDirForward (die line : Nat) (s : State) : Result :=
  let d := lineOf s line
  match d.txn with
  | none => .next s
  | some t =>
    if t.forward != some die then .next s
    else if t.own then
      .next (settleTxn (modLine (l2Drop (answered s die line) die line) line fun x =>
        { x with txn := some { t with forward := none } }) line)
    else
      .next (l2Fill (modLine (answered s die line) line fun x =>
        { setMoesi (setMoesi (passCount x die) die (forwardedState (moesiOf x die))) t.die .shared with
          txn := none, holderVersion := mset x.holderVersion t.die (BitVec.ofNat 16 (lineVersion x)) }) t.die line false)

/-- 11 R267, R268: an invalidated die acknowledges. Its lease expiry stands in its tokens, from which the write's
completion time is taken (R255). -/
def execInvalidationAck (die line : Nat) (s : State) : Result :=
  .next (if (lineOf s line).acks.contains die then
    settleTxn (modLine (l2Drop (answered s die line) die line) line fun d => { d with acks := d.acks.filter (· != die) }) line
    else s)

/-- 11 R269: how far the version of a message lies from the receiver's own, modulo 2^16. -/
def versionGap (own msg : BitVec 16) : Nat := (msg - own).toNat

/-- 11 R269: data arrives at a die with a 16-bit version copy: an older message is dropped; where no version lies
in the window both copies are discarded and the line is read from the home again. -/
def execDataMessageReceipt (die line : Nat) (version : BitVec 16) (s : State) : Result :=
  let d := lineOf s line
  let take := modLine s line fun x => { x with holderVersion := mset x.holderVersion die version }
  match moesiOf d die, mget d.holderVersion die with
  | .invalid, _ => .next s
  | _, none => .next take
  | _, some own =>
    let gap := versionGap own version
    if gap < 2 ^ 15 then .next take
    else if gap = 2 ^ 15 then
      .next (readRequest (modLine s line fun x =>
        { setMoesi x die .invalid with holderVersion := merase x.holderVersion die }) die line)
    else .next s

/-- 11 R268: an entry is evicted: every holder is back-invalidated, and the line is transient until each has
answered. -/
def execSnoopFilterEviction (line : Nat) (s : State) : Result :=
  let d := lineOf s line
  .next (if canBegin s (homeDie line) line && !d.states.isEmpty then
    settleTxn (beginTxn s line { die := homeDie line, own := true } (sharersBut d [homeDie line])) line
    else s)

/-! ### Pages shared with hosts (R270, R271) -/

/-- The frame that holds a pool page, if one does. -/
def frameOfPool (s : State) (page : Nat) : Option Nat :=
  (s.frames.find? fun p => p.2.valid && p.2.pool == page && !p.2.pin && !p.2.lent).map Prod.fst

/-- R270 step 1: the frame begins its surrender. -/
def startSurrender (s : State) (f : Nat) : State :=
  holdLines (modFrame s f fun x => { x with hstate := 1 }) f

/-- 11 R270, 21 R490: a back-invalidation snoop for a pool page. A page the device does not hold, a package in deep sleep,
which the snoop wakes (22 R526), and a frame being evicted are answered without a surrender; a frame being filled surrenders
after its fill; a second snoop is answered with the first. -/
def execBackInvalidationSnoop (pool : Nat) (s : State) : Result :=
  match frameOfPool s pool with
  | none => .next { s with power := { s.power with asleep := false } }
  | some f =>
    let x := frameOf s f
    if s.power.asleep then .next { s with power := { s.power with asleep := false } }
    else if !x.shared || x.hstate != 0 || x.leaving then .next s
    else if x.mig then
      .next (if s.tables.surrenders.contains pool then s
        else { s with tables := { s.tables with surrenders := s.tables.surrenders ++ [pool] } })
    else .next (startSurrender s f)

/-- 11 R270 steps 2 to 5: copies recalled, dirty sectors written back, the last lease passed; the snoop is
answered. -/
def execPageSurrenderAnswer (frame : Nat) (s : State) : Result :=
  let x := frameOf s frame
  if x.hstate == 1 && x.lastLease ≤ s.dtime then
    let s1 := recallLines s frame
    .next (modFrame (writeBack s1 frame (dirtySectors s1 frame)) frame fun y =>
      { y with hstate := 2, valid := false, dirty := 0 })
  else .next s

/-- R271: a surrendered frame is brought back by block transfer and its waiting requests are served. -/
def refetchFrame (s : State) (f : Nat) : State :=
  let x := frameOf s f
  let s1 := fillFrame s f x.pool
  let s2 := freshLines (modFrame s1 f fun y => { y with valid := true, dirty := 0, ref := true, wanted := false }) f
  freeLines (reportUncovered s2 x.ctx (dieOfFrame f) x.pool) f

/-- 11 R271. -/
def execSurrenderedPageRefetch (frame : Nat) (s : State) : Result :=
  .next (if (frameOf s frame).hstate == 2 then refetchFrame s frame else s)

/-- R272: the lines of a home whose probes a die has let time out: 8 µs where the home's agent table marks the die's slice as
sleeping, 1 µs otherwise. -/
def lateProbes (s : State) (home die : Nat) : List Nat :=
  (s.lines.filter fun l => homeDie l.1 == home
    && (l.2.acks.contains die || (l.2.txn.bind LineTxn.forward) == some die)
    && decide (l.2.probedAt + (if !s.power.gatedUnits.isEmpty && s.power.gatedUnits.contains (sliceUnit die l.1) then 8000
        else 1000) ≤ s.dtime)).map Prod.fst

/-- 11 R272, 22 R509: a probe of a home times out and is sent again; the home's second timeout in turn treats the die as
lost. -/
def execSleepingProbeTimeout (home die : Nat) (s : State) : Result :=
  let late := lateProbes s home die
  if home < 4 && die < 4 && home != die && !(dieOf s die).lost && !late.isEmpty then
    let n := mgetD (dieOf s home).timeouts die 0 + 1
    let s1 := modDie s home fun d => { d with timeouts := mset d.timeouts die n }
    .next (if 2 ≤ n then loseDie s1 die
      else late.foldl (fun acc l => modLine acc l fun d => { d with probedAt := s.dtime }) s1)
  else .next s

end Sys2Proof.Machine
end

