-- ==== Sys2Proof/Machine/Rays.lean ====
section
/-!
DEFINITION. Scenes, ray slots and subtree queues (15 R354-R358, R363, R364): what the ray forms and the
Omnibus share.
-/

namespace Sys2Proof.Machine

/-! ### The scene descriptor (R355) -/

/-- R355: a scene descriptor. -/
structure Scene where
  pool : Nat
  nrays : Nat
  nsub : Nat
  subtab : Nat
  root : Nat
  nhit : Nat
  hittab : Nat
  upt : Nat
  starvRuns : Nat
  starvTime : Nat
  deriving DecidableEq, Repr

/-- R355: the fields of 64 bytes; 0 in the starvation fields means 64 runs and 200 µs. -/
def parseScene (b : List Byte) : Scene :=
  let runs := fieldOf b 42 2
  let time := fieldOf b 44 4
  { pool := fieldOf b 0 8, nrays := fieldOf b 8 4, nsub := fieldOf b 12 4, subtab := fieldOf b 16 8,
    root := fieldOf b 24 4, nhit := fieldOf b 28 4, hittab := fieldOf b 32 8, upt := fieldOf b 40 1,
    starvRuns := if runs = 0 then 64 else runs, starvTime := if time = 0 then 200 else time }

/-- R355: whether a descriptor is valid; its addresses are G addresses (09 R207). -/
def sceneValid (b : List Byte) : Bool :=
  let c := parseScene b
  decide (c.pool < 2 ^ 56 ∧ c.subtab < 2 ^ 56 ∧ c.hittab < 2 ^ 56) && c.pool % 128 == 0 && c.subtab % 32 == 0 && c.hittab % 16 == 0 && decide (1 ≤ c.nrays)
    && decide (1 ≤ c.nsub ∧ c.nsub ≤ 2 ^ 24) && decide (c.root < c.nsub) && decide (c.nhit ≤ 65535)
    && decide (c.upt ≤ 7) && decide (c.starvRuns ≤ 1024) && decide (c.starvTime ≤ 10000)
    && fieldOf b 41 1 == 0 && fieldOf b 48 16 == 0

/-- R355: the scene of a launch as a ray form finds it, or the fault and its address. -/
def sceneOf (s : State) (l : Nat) : Except (FaultCode × Nat) Scene :=
  match mget (launchOf s l).bank 15 with
  | none => .error (.protection, 0)
  | some (a, size) =>
    if size < 64 then .error (.protection, a)
    else match readVirtual s (launchOf s l).ctx a 64 with
      | .error e => .error e
      | .ok b => if sceneValid b then .ok (parseScene b) else .error (.protection, a)

/-- R354: the scene of a launch as the Omnibus holds it. -/
def heldScene (s : State) (l : Nat) : Option Scene := (sceneBytes s l).map parseScene

/-- R354: the Omnibus takes the scene descriptor of a launch at its first claim (log 76). -/
def noteScene (s : State) (l : Nat) : State :=
  match (mgetD s.work.rays l {}).scene with
  | some _ => s
  | none => modRays s l fun r => { r with scene := readScene s l }

/-- R355: a ray form's check of the scene for its participating lanes: the fault, precise at the clause, or the rest of the
form. With no participating lane `idle` is all it does (03 R61). -/
def withScene (s : State) (g : Guard) (idle : State) (go : Scene → State) : State :=
  if (activeLanes s g).isEmpty then idle
  else match sceneOf s (blockOf s s.cur.block).launch with
  | .ok c => go c
  | .error (code, a) =>
    deliver s { code := code, pos := s.cur.pos, addr := a,
                pages := if code = .pageAbsent then [(a / 4096, 0)] else [] }

/-! ### The subtree table (R356) -/

/-- R356: a subtree table entry. -/
structure Subtree where
  base : Nat
  size : Nat
  die : Nat
  deriving DecidableEq, Repr

/-- R356: what the Omnibus finds at an entry: the subtree, an invalid entry, poison, or a fault. -/
inductive SubtreeRead where
  | valid (t : Subtree)
  | invalid
  | poisoned
  | fault (code : FaultCode) (addr : Nat)
  deriving DecidableEq, Repr

/-- R356: an entry's bytes. -/
def parseSubtree (b : List Byte) : SubtreeRead :=
  let t : Subtree := { base := fieldOf b 0 8, size := fieldOf b 8 4, die := fieldOf b 12 1 }
  if t.base < 2 ^ 56 ∧ t.base % 128 = 0 ∧ t.size % 128 = 0 ∧ 128 ≤ t.size ∧ t.size ≤ 262144 ∧ t.die ≤ 3
      ∧ fieldOf b 13 19 = 0 then .valid t else .invalid

/-- 10 R229: whether a virtual range holds a poisoned byte. -/
def poisonedRange (s : State) (ctx va n : Nat) : Bool :=
  match byteSpots (fun a => translateWalk s ctx a { read := true }) va n with
  | .error _ => false
  | .ok ms => ms.any fun x => isPoisoned s x.1 (x.2 / 32)

/-- R356: the entry of subtree i of a launch's scene. -/
def readSubtree (s : State) (ctx : Nat) (c : Scene) (i : Nat) : SubtreeRead :=
  let va := c.subtab + 32 * i
  match readVirtual s ctx va 32 with
  | .error (code, a) => .fault code a
  | .ok b => if poisonedRange s ctx va 32 then .poisoned else parseSubtree b

/-- The clusters of the partition a context is resident in. -/
def ctxClusters (s : State) (ctx : Nat) : List Nat :=
  match s.tables.partitions.find? fun p => p.2.ctx == some ctx && p.2.state == 1 with
  | none => []
  | some p => (List.range 192).filter fun c => p.2.mask.getLsbD c

/-- R356: the die whose Omnibus runs a subtree: its own, or the lowest-numbered die of the partition. -/
def subtreeDie (s : State) (ctx die : Nat) : Nat :=
  let ds := (ctxClusters s ctx).map (· / 48)
  if ds.contains die then die else ds.headD die

/-! ### Ray slots (R357, R358) -/

/-- The virtual address of a ray's slot. -/
def Scene.slot (c : Scene) (id : Nat) : Nat := c.pool + 128 * id

/-- R364: the `STATE`, run stamp and filing time of a filing. -/
def filingWrites (s : State) (ctx va state stamp filed : Nat) : Option State :=
  (writeVirtual s ctx (va + 64) (leBytes 1 state)).bind fun s1 =>
    writeVirtual s1 ctx (va + 68) (leBytes 4 stamp ++ leBytes 8 filed)

/-- R357: the bytes of `RAYQ`'s record block: v(n) to v(n + 15), little-endian. -/
def recordBlock (t : Thread) (n : Nat) : List Byte :=
  (List.range 16).flatMap fun k => leBytes 4 (t.regs.get (n + k)).toNat

/-- An F32 pattern that is a NaN. -/
def isNanWord (x : Nat) : Bool := decide (0x7F800000 < x % 2 ^ 31)

/-- An F32 pattern that is a zero. -/
def isZeroWord (x : Nat) : Bool := x % 2 ^ 31 == 0

/-- The order of two F32 patterns that are not NaNs: whether the first is the greater. -/
def f32Above (x y : Nat) : Bool :=
  let key (w : Nat) : Int := if 2 ^ 31 ≤ w then -((w % 2 ^ 31 : Nat) : Int) else (w : Int)
  decide (key y < key x)

/-- R363: a degenerate ray record. -/
def degenerate (b : List Byte) : Bool :=
  let w (k : Nat) : Nat := fieldOf b (4 * k) 4
  ((List.range 8).any fun k => isNanWord (w k))
    || f32Above (w 3) (w 7)
    || (isZeroWord (w 4) && isZeroWord (w 5) && isZeroWord (w 6))

/-! ### Subtree queues (R364) -/

/-- A launch's queue of a subtree. -/
def rayQueueOf (s : State) (l i : Nat) : RayQueue := mgetD (mgetD s.work.rays l {}).queues i {}

/-- A subtree queue changed. -/
def modRayQueue (s : State) (l i : Nat) (f : RayQueue → RayQueue) : State :=
  modRays s l fun r => { r with queues := mset r.queues i (f (mgetD r.queues i {})) }

/-- R354: the identifiers in the Omnibus store of a die. -/
def rayStore (s : State) (die : Nat) : Nat :=
  ((s.work.rays.flatMap fun r => r.2.queues.map fun q => if q.2.home = die then q.2.die.length else 0)).foldl (· + ·) 0

/-- R354, R364: the most identifiers that a queue may hold on die: 128, within the 65 536 that the queues of its die share. -/
def queueCap (s : State) (die : Nat) (q : RayQueue) : Nat :=
  min 128 (65536 - (rayStore s die - if q.home = die then q.die.length else 0))

/-- R364: a filing at the tail of a queue of a die. -/
def RayQueue.push (cap die : Nat) (q : RayQueue) (e : RayEntry) : RayQueue :=
  let p := spillPush cap (q.die, q.ring) e
  { q with die := p.1, ring := p.2, home := die }

/-- R364: rays returned to the head, in order. -/
def RayQueue.unshift (cap : Nat) (q : RayQueue) (es : List RayEntry) : RayQueue :=
  { q with die := (es ++ q.die).take cap, ring := (es ++ q.die).drop cap ++ q.ring }

/-- R356: a table entry on an absent page: a subtree-load record of kind 1; the queue waits. -/
def holdSubtree (s : State) (l i die run addr : Nat) : State :=
  let ctx := (launchOf s l).ctx
  if (rayQueueOf s l i).waiting then s
  else
    takeRecord (modRayQueue s l i fun q => { q with waiting := true }) ctx
      { cause := 1, location := die, waits := 1, work := .ray (48 * die) l 1 i run 0 0 0,
        pages := [(addr / 4096, 5)], since := (ctxOf s ctx).ctime }

/-- R364: a ray filed at a subtree: its slot is marked, then it joins the queue. -/
def enterQueue (s : State) (l : Nat) (c : Scene) (i id die : Nat) : State :=
  let ctx := (launchOf s l).ctx
  let stamp := (dieOf s die).runCounter % 2 ^ 32
  let now := (ctxOf s ctx).ctime
  match rayFault s l id with
  | some .pageAbsent => holdRay s l id die (.file i)
  | some code => completeRay s l id die .faulted code true
  | none =>
    let s1 := (filingWrites s ctx (c.slot id) 1 stamp now).getD s
    modRayQueue s1 l i fun q => q.push (queueCap s1 die q) die { id := id, stamp := stamp, filed := now }

/-- R356, R364: a ray filed at subtree i of its launch's scene. -/
def fileRay (s : State) (l : Nat) (c : Scene) (i id : Nat) : State :=
  let ctx := (launchOf s l).ctx
  match readSubtree s ctx c i with
  | .valid t => enterQueue s l c i id (subtreeDie s ctx t.die)
  | .invalid => completeRay s l id 0 .faulted .protection false
  | .poisoned => completeRay s l id 0 .poisoned .none true
  | .fault .pageAbsent a =>
    let die := subtreeDie s ctx 0
    holdSubtree (enterQueue s l c i id die) l i die (dieOf s die).runCounter a
  | .fault code _ => completeRay s l id 0 .faulted code true

end Sys2Proof.Machine
end

