-- ==== Sys2Proof/Machine/Texture.lean ====
section
/-!
DEFINITION. The texture sampler (16 R394-R396): descriptors, unit program table slots (15 R359, 16 R384), taps,
texels and the samples of one lane.
-/

namespace Sys2Proof.Machine

/-! ### Unit program tables (16 R384) -/

/-- The image of a slot of a unit kind's table, if one is loaded. -/
def uptSlot (s : State) (ctx unit slot : Nat) : Option (List Byte) := mget (ctxOf s ctx).upt (8 * unit + slot)

/-- R384: a valid rasteriser slot. -/
def rasterSlotOk (b : List Byte) : Bool :=
  fieldOf b 0 1 == 2 && fieldOf b 1 1 == 1 && decide (fieldOf b 2 1 ≤ 1)
    && (fieldOf b 3 1 == 4 || fieldOf b 3 1 == 5) && fieldOf b 4 60 == 0

/-- R384: a valid sampler slot. -/
def samplerSlotOk (b : List Byte) : Bool :=
  fieldOf b 0 1 == 3 && fieldOf b 1 1 == 1 && (fieldOf b 2 1 == 6 || fieldOf b 2 1 == 8)
    && decide (fieldOf b 3 1 ≤ 1) && fieldOf b 4 60 == 0

/-! ### Descriptors (R394) -/

/-- R394: a texture descriptor. -/
structure TexDesc where
  base : Nat
  w : Nat
  h : Nat
  pitch : Nat
  fmt : Nat
  mode : Nat
  slot : Nat
  deriving DecidableEq, Repr

/-- R394: the fields of 32 bytes. -/
def parseTex (b : List Byte) : TexDesc :=
  { base := fieldOf b 0 8, w := fieldOf b 8 2 + 1, h := fieldOf b 10 2 + 1, pitch := fieldOf b 12 4,
    fmt := fieldOf b 16 1, mode := fieldOf b 17 1, slot := fieldOf b 18 1 }

/-- R394: the bytes of a texel. -/
def TexDesc.size (d : TexDesc) : Nat :=
  match d.fmt with
  | 2 => 8
  | 4 => 16
  | _ => 4

/-- R394: whether a descriptor is valid; its base is a G address (09 R207). -/
def texValid (b : List Byte) : Bool :=
  let d := parseTex b
  decide (d.base < 2 ^ 56) && d.base % 32 == 0 && d.pitch % 32 == 0 && decide (1 ≤ d.fmt ∧ d.fmt ≤ 4) && d.mode % 4 != 3
    && d.mode / 4 % 4 != 3 && d.mode / 32 == 0 && decide (d.slot ≤ 7) && decide (d.w * d.size ≤ d.pitch)
    && fieldOf b 19 13 == 0

/-- R394: the descriptor of an index, or the fault and its address. -/
def texDesc (s : State) (l i : Nat) : Except (FaultCode × Nat) TexDesc :=
  match mget (launchOf s l).bank 13 with
  | none => .error (.protection, 32 * i)
  | some (a, size) =>
    if size < 32 * i + 32 then .error (.protection, 32 * i)
    else
      match readVirtual s (launchOf s l).ctx (a + 32 * i) 32 with
      | .error e => .error e
      | .ok b => if texValid b then .ok (parseTex b) else .error (.protection, a + 32 * i)

/-- R398: the checks of one lane's descriptor; `TEXQ` does not read the sampler's slot. -/
def texPlan (s : State) (l i : Nat) (needSlot : Bool) : Plan :=
  match texDesc s l i with
  | .error (c, a) => .fails (checkOf c) c a (if c = .pageAbsent then [(a / 4096, 0)] else [])
  | .ok d =>
    if needSlot && !((uptSlot s (launchOf s l).ctx 3 d.slot).any samplerSlotOk) then
      .fails 2 .illegalEncoding (32 * i) []
    else .names .device []

/-! ### Taps (R395) -/

/-- The exact value of a finite F32 pattern. -/
def ratOf : FVal → Rat
  | .num neg m e =>
    let x : Rat := if 0 ≤ e then ((m * 2 ^ e.toNat : Nat) : Rat) else mkRat m (2 ^ (-e).toNat)
    if neg then -x else x
  | _ => 0

/-- R395: a coordinate along an axis of n texels: NaN, or the first texel and the weight numerator of the
second, of 2^wbits. Without `bilinear` the numerator is 0. -/
def axisTap (bilinear : Bool) (wbits n : Nat) (c : Word) : Option (Int × Nat) :=
  match readFmt .f32 c.toNat with
  | .nan => none
  | .inf neg => some (if neg then -(2 ^ 31) else 2 ^ 31,
      if bilinear then Config.texFraction c % (2 ^ wbits + 1) else 0)
  | v =>
    if bilinear then
      let x := ratOf v * (n : Rat) - 1 / 2
      let i := x.floor
      some (i, (((x - (i : Rat)) * ((2 ^ wbits : Nat) : Rat) + 1 / 2).floor).toNat)
    else some ((ratOf v * (n : Rat)).floor, 0)

/-- R395: an index under an address mode: the texel, or none for the border value. -/
def addressMode (mode n : Nat) (i : Int) : Option Nat :=
  match mode with
  | 0 => some (i % (n : Int)).toNat
  | 1 => some (max 0 (min i ((n : Int) - 1))).toNat
  | _ => if 0 ≤ i ∧ i < (n : Int) then some i.toNat else none

/-- R395: a tap: its texel's virtual address, or none for the border, and its weight numerator of
2^(2 × wbits). -/
abbrev Tap := Option Nat × Nat

/-- R395: a texel of a descriptor. -/
def texelAt (d : TexDesc) (i j : Int) : Option Nat :=
  match addressMode (d.mode % 4) d.w i, addressMode (d.mode / 4 % 4) d.h j with
  | some x, some y => some (d.base + y * d.pitch + x * d.size)
  | _, _ => none

/-- R395: the four taps of a bilinear sample in order, whatever their weights, or the one tap; none for a NaN
coordinate. -/
def tapsOf (d : TexDesc) (bilinear : Bool) (wbits : Nat) (u v : Word) : Option (List Tap) :=
  match axisTap bilinear wbits d.w u, axisTap bilinear wbits d.h v with
  | some (i, fx), some (j, fy) =>
    let one := 2 ^ wbits
    if bilinear then
      some [(texelAt d i j, (one - fx) * (one - fy)), (texelAt d (i + 1) j, fx * (one - fy)),
            (texelAt d i (j + 1), (one - fx) * fy), (texelAt d (i + 1) (j + 1), fx * fy)]
    else some [(texelAt d i j, one * one)]
  | _, _ => none

/-! ### Texels and samples (R395, R398) -/

/-- A non-negative rational n / m as an F32 pattern, rounded RN: its quotient to 64 bits with a sticky bit. -/
def ratioF32 (n m : Nat) : Nat :=
  let q := n * 2 ^ 64 / m
  let sticky := if n * 2 ^ 64 % m = 0 then 0 else 1
  roundVal .f32 .rn false (.num false (2 * q + sticky) (-65))

/-- R395: the four channels of a texel's bytes. -/
def texelChannels (fmt : Nat) (b : List Byte) : List FVal :=
  let f32 (x : Nat) : FVal := readFmt .f32 x
  match fmt with
  | 1 => (List.range 4).map fun k => f32 (ratioF32 (fieldOf b k 1) 255)
  | 2 => (List.range 4).map fun k => readFmt .h16 (fieldOf b (2 * k) 2)
  | 3 => [f32 (fieldOf b 0 4), .num false 0 0, .num false 0 0, .num false 1 0]
  | _ => (List.range 4).map fun k => f32 (fieldOf b (4 * k) 4)

/-- R384, R395: the channels of the border. -/
def borderChannels (border : Nat) : List FVal := [.num false 0 0, .num false 0 0, .num false 0 0, .num false border 0]

/-- The canonical NaN in four words. -/
def nanQuad : List Word := List.replicate 4 (0x7FC00000 : Word)

/-- A texel as the sampler of a core reads it: its channels, or the fault of its page. -/
def readTexel (s : State) (core ctx : Nat) (d : TexDesc) (border : Nat) : Option Nat → Except (FaultCode × Nat) (List FVal)
  | none => .ok (borderChannels border)
  | some a =>
    match readEngine s (.sampler core) ctx a d.size with
    | .error e => .error e
    | .ok b => .ok (texelChannels d.fmt b)

/-- R395: the weighted sum of one channel, rounded once. -/
def weigh (wbits : Nat) (xs : List (FVal × Nat)) : Word :=
  let ts := xs.map fun x => mulVal (.num false x.2 (-(2 * wbits : Nat))) x.1
  BitVec.ofNat 32 (roundVal .f32 .rn false (match ts with
    | [] => .num false 0 0
    | t :: r => r.foldl (addVal .rn) t))

/-- The values of a list of results, or the first error. -/
def collect {α ε : Type} : List (Except ε α) → Except ε (List α)
  | [] => .ok []
  | .error e :: _ => .error e
  | .ok x :: r => match collect r with
    | .error e => .error e
    | .ok xs => .ok (x :: xs)

/-- R395: a sample from the taps that count. -/
def sampleTaps (s : State) (core ctx : Nat) (d : TexDesc) (wbits border : Nat) (ts : List Tap) :
    Except (FaultCode × Nat) (List Word) :=
  let live := ts.filter fun t => t.2 != 0
  match collect (live.map fun t => readTexel s core ctx d border t.1) with
  | .error e => .error e
  | .ok cs => .ok ((List.range 4).map fun k =>
      weigh wbits ((cs.zip (live.map Prod.snd)).map fun x => (x.1.getD k .nan, x.2)))

/-- R398: `TEXG`: the chosen channel of the four taps. -/
def gatherTaps (s : State) (core ctx : Nat) (d : TexDesc) (border channel : Nat) (ts : List Tap) :
    Except (FaultCode × Nat) (List Word) :=
  match collect (ts.map fun t => readTexel s core ctx d border t.1) with
  | .error e => .error e
  | .ok cs => .ok (cs.map fun c => BitVec.ofNat 32 (roundVal .f32 .rn false (c.getD channel .nan)))

/-- The taps of a lane that are read: for `TEXS` those of weight above 0, for `TEXG` all four. -/
def lanTaps (op : Nat) (d : TexDesc) (wbits : Nat) (u v : Word) : Option (List Tap) :=
  match op with
  | 0x94 => (tapsOf d (d.mode.testBit 4) wbits u v).map fun ts => ts.filter fun t => t.2 != 0
  | 0x95 => tapsOf d true wbits u v
  | _ => some []

/-- R395, R398: one lane of a texture form: its four words, or the fault of a texel. -/
def texLane (s : State) (core ctx op channel : Nat) (d : TexDesc) (slot : List Byte) (x : TexLane) :
    Except (FaultCode × Nat) (List Word) :=
  let wbits := fieldOf slot 2 1
  let border := fieldOf slot 3 1
  match lanTaps op d wbits x.u x.v with
  | none => .ok nanQuad
  | some ts =>
    match op with
    | 0x94 => sampleTaps s core ctx d wbits border ts
    | 0x95 => gatherTaps s core ctx d border channel ts
    | _ => .ok [BitVec.ofNat 32 d.w, BitVec.ofNat 32 d.h, BitVec.ofNat 32 d.fmt, BitVec.ofNat 32 d.pitch]

end Sys2Proof.Machine
end

