-- ==== Sys2Proof/Machine/Visibility.lean ====
section
/-!
DEFINITION. The visibility pass (16 R383-R389): descriptors, the transform, coverage and interpolation of one
primitive in one view, exact over the rationals, and what one tile writes.
-/

namespace Sys2Proof.Machine

/-! ### Descriptors (R383) -/

/-- R383: a visibility descriptor. -/
structure VisDesc where
  vbuf : Nat
  w : Nat
  h : Nat
  views : Nat
  binner : Nat
  slot : Nat
  viewtab : Nat
  atlas : Nat
  abw : Nat
  ablocks : Nat
  agen : Nat
  deriving DecidableEq, Repr

/-- R383: the fields of 64 bytes. -/
def parseVis (b : List Byte) : VisDesc :=
  { vbuf := fieldOf b 0 8, w := fieldOf b 8 2 + 1, h := fieldOf b 10 2 + 1, views := fieldOf b 12 2,
    binner := fieldOf b 14 1, slot := fieldOf b 15 1, viewtab := fieldOf b 16 8, atlas := fieldOf b 24 8,
    abw := fieldOf b 32 4, ablocks := fieldOf b 36 4, agen := fieldOf b 40 4 }

/-- R383: whether a descriptor is valid. Its addresses are G addresses: 56 bits, the rest zero (09 R207). -/
def visValid (b : List Byte) : Bool :=
  let d := parseVis b
  decide (d.vbuf < 2 ^ 56 ∧ d.viewtab < 2 ^ 56 ∧ d.atlas < 2 ^ 56) && d.vbuf % 128 == 0 && decide (1 ≤ d.views ∧ d.views ≤ 128) && decide (d.binner ≤ 7) && decide (d.slot ≤ 7)
    && d.viewtab % 64 == 0 && d.atlas % 4 == 0 && decide (1 ≤ d.abw ∧ d.abw ≤ 8192)
    && decide (1 ≤ d.ablocks ∧ d.ablocks ≤ 2 ^ 26) && fieldOf b 44 20 == 0

/-- R383: the descriptor of a launch, or the fault and its address. -/
def visDesc (s : State) (l : Nat) : Except (FaultCode × Nat) VisDesc :=
  match mget (launchOf s l).bank 14 with
  | none => .error (.protection, 0)
  | some (a, size) =>
    if size < 64 then .error (.protection, a)
    else match readVirtual s (launchOf s l).ctx a 64 with
      | .error e => .error e
      | .ok b => if visValid b then .ok (parseVis b) else .error (.protection, a)

/-- R384: the depth comparison and tile size of a launch's rasteriser slot. -/
def rasterSlot (s : State) (ctx : Nat) (d : VisDesc) : Nat × Nat :=
  let b := (uptSlot s ctx 2 d.slot).getD []
  (fieldOf b 2 1, 2 ^ fieldOf b 3 1)

/-! ### The transform (R386) -/

/-- A clip-space vertex with its atlas coordinates. -/
structure ClipVert where
  x : Rat
  y : Rat
  z : Rat
  w : Rat
  ax : Rat
  ay : Rat
  deriving DecidableEq

/-- A projected vertex: x and y in 1/256 pixel, depth, 1/w and the atlas coordinates over w. -/
structure ScreenVert where
  x : Int
  y : Int
  z : Rat
  iw : Rat
  axw : Rat
  ayw : Rat
  deriving DecidableEq

/-- An F32 pattern that is a finite number. -/
def finiteWord (x : Nat) : Bool :=
  match readFmt .f32 x with
  | .num _ _ _ => true
  | _ => false

/-- The value of an F32 pattern. -/
def ratWord (x : Nat) : Rat := ratOf (readFmt .f32 x)

/-- R399: word i of a primitive's record block. -/
def BinPrim.word (p : BinPrim) (i : Nat) : Nat := (p.regs.getD i 0).toNat

/-- R386 step 1: vertex i by a matrix. -/
def clipVert (m : List Nat) (p : BinPrim) (i : Nat) : ClipVert :=
  let c (r : Nat) : Rat :=
    ratWord (m.getD (4 * r) 0) * ratWord (p.word (3 * i)) + ratWord (m.getD (4 * r + 1) 0) * ratWord (p.word (3 * i + 1))
      + ratWord (m.getD (4 * r + 2) 0) * ratWord (p.word (3 * i + 2)) + ratWord (m.getD (4 * r + 3) 0)
  let a := p.word (9 + i)
  { x := c 0, y := c 1, z := c 2, w := c 3, ax := ((a % 65536 : Nat) : Rat), ay := ((a / 65536 : Nat) : Rat) }

/-- R386: the near plane. -/
def nearW : Rat := mkRat 1 (2 ^ 20)

/-- R386 step 1: the point of an edge on the plane w = 2^-20. -/
def cutEdge (a b : ClipVert) : ClipVert :=
  let t := (nearW - a.w) / (b.w - a.w)
  let mix (x y : Rat) : Rat := x + t * (y - x)
  { x := mix a.x b.x, y := mix a.y b.y, z := mix a.z b.z, w := nearW, ax := mix a.ax b.ax, ay := mix a.ay b.ay }

/-- R386 step 1: what an edge from a to b contributes to the clipped polygon. -/
def clipEdge (a b : ClipVert) : List ClipVert :=
  match decide (nearW ≤ a.w), decide (nearW ≤ b.w) with
  | true, true => [b]
  | true, false => [cutEdge a b]
  | false, true => [cutEdge a b, b]
  | false, false => []

/-- R386 step 1: the polygon of a triangle on the kept side. -/
def clipTri (a b c : ClipVert) : List ClipVert := clipEdge a b ++ clipEdge b c ++ clipEdge c a

/-- A rational rounded to the nearest integer, ties to even. -/
def roundRat (x : Rat) : Int :=
  let f := x.floor
  let r := x - (f : Rat)
  if r < 1 / 2 then f else if 1 / 2 < r then f + 1 else if f % 2 = 0 then f else f + 1

/-- R386 step 2. -/
def project (d : VisDesc) (c : ClipVert) : ScreenVert :=
  { x := roundRat ((c.x / c.w + 1) * (d.w : Rat) / 2 * 256), y := roundRat ((1 - c.y / c.w) * (d.h : Rat) / 2 * 256),
    z := c.z / c.w, iw := 1 / c.w, axw := c.ax / c.w, ayw := c.ay / c.w }

/-- The triangles of a polygon about its vertex a, from the other vertices in order. -/
def fanFrom (a : ScreenVert) : List ScreenVert → List (ScreenVert × ScreenVert × ScreenVert)
  | b :: c :: r => (a, b, c) :: fanFrom a (c :: r)
  | _ => []

/-- A polygon as triangles about its first vertex. -/
def fan : List ScreenVert → List (ScreenVert × ScreenVert × ScreenVert)
  | a :: r => fanFrom a r
  | [] => []

/-- R386 step 3: twice the area of a triangle, in 1/65536 pixel. -/
def area (a b c : ScreenVert) : Int := (b.x - a.x) * (c.y - a.y) - (c.x - a.x) * (b.y - a.y)

/-- R386 step 3: whether a triangle is drawn under the cull flags. -/
def drawn (flags : Nat) (k : Int) : Bool :=
  k != 0 && !(decide (0 < k) && flags.testBit 0) && !(decide (k < 0) && flags.testBit 1)

/-- R386: the triangles of a primitive in a view, each turned so that its area is positive. -/
def trianglesOf (d : VisDesc) (m : List Nat) (p : BinPrim) : List (ScreenVert × ScreenVert × ScreenVert) :=
  ((fan ((clipTri (clipVert m p 0) (clipVert m p 1) (clipVert m p 2)).map (project d))).filter fun t =>
    drawn (p.word 13) (area t.1 t.2.1 t.2.2)).map fun t =>
      if area t.1 t.2.1 t.2.2 < 0 then (t.1, t.2.2, t.2.1) else t

/-- Whether every coordinate of a primitive and a matrix is a finite number. -/
def allFinite (m : List Nat) (p : BinPrim) : Bool := m.all finiteWord && (List.range 9).all fun i => finiteWord (p.word i)

/-! ### Coverage and interpolation (R386 steps 4 and 5) -/

/-- The edge function of a pixel centre, in 1/65536 pixel. -/
def edge (a b : ScreenVert) (x y : Nat) : Int :=
  (b.x - a.x) * (256 * (y : Int) + 128 - a.y) - (b.y - a.y) * (256 * (x : Int) + 128 - a.x)

/-- R386 step 4: inside an edge, or on a top or left one. -/
def insideEdge (a b : ScreenVert) (x y : Nat) : Bool :=
  let e := edge a b x y
  decide (0 < e) || (e == 0 && (decide (b.y < a.y) || (b.y == a.y && decide (a.x < b.x))))

/-- R386 step 4. -/
def covers (t : ScreenVert × ScreenVert × ScreenVert) (x y : Nat) : Bool :=
  insideEdge t.1 t.2.1 x y && insideEdge t.2.1 t.2.2 x y && insideEdge t.2.2 t.1 x y

/-- An exact value rounded RN to F32: its quotient to at least 64 bits with a sticky bit. -/
def ratF32 (q : Rat) : Word :=
  let neg := decide (q < 0)
  let n := q.num.natAbs
  let k : Nat := 200
  let t := n * 2 ^ k / q.den
  let sticky := if n * 2 ^ k % q.den = 0 then 0 else 1
  BitVec.ofNat 32 (roundVal .f32 .rn false (.num neg (2 * t + sticky) (-((k : Int) + 1))))

/-- R386 step 5: a value within 2^-20 relative error of the exact one: the proposed one where it keeps the bound
(log 14), else the exact one rounded. -/
def rasterWord (q : Rat) : Word :=
  let w := Config.rasterValue (ratF32 q)
  let v := ratWord w.toNat
  let gap := if v < q then q - v else v - q
  let bound := (if q < 0 then -q else q) / ((2 ^ 20 : Nat) : Rat)
  if finiteWord w.toNat = true ∧ gap ≤ bound then w else ratF32 q

/-- R386 step 5: depth, ax and ay at a pixel centre. -/
def interpolate (t : ScreenVert × ScreenVert × ScreenVert) (x y : Nat) : Word × Word × Word :=
  let k : Rat := ((area t.1 t.2.1 t.2.2 : Int) : Rat)
  let l0 : Rat := ((edge t.2.1 t.2.2 x y : Int) : Rat) / k
  let l1 : Rat := ((edge t.2.2 t.1 x y : Int) : Rat) / k
  let l2 : Rat := ((edge t.1 t.2.1 x y : Int) : Rat) / k
  let mix (f : ScreenVert → Rat) : Rat := l0 * f t.1 + l1 * f t.2.1 + l2 * f t.2.2
  let iw := mix ScreenVert.iw
  (rasterWord (mix ScreenVert.z), rasterWord (mix ScreenVert.axw / iw), rasterWord (mix ScreenVert.ayw / iw))

/-- R386: what a primitive offers a pixel of a view: the depth and atlas coordinates of each of its triangles
that covers it; for a coordinate that is no finite number, an open value (log 24). -/
def offers (d : VisDesc) (m : List Nat) (p : BinPrim) (view x y : Nat) : List (Word × Word × Word) :=
  if allFinite m p then ((trianglesOf d m p).filter fun t => covers t x y).map fun t => interpolate t x y
  else (Config.openPixel p.regs view x y).toList

/-! ### Entries (R385, R386 step 6) -/

/-- R386 step 6: the atlas block of a position, 0xFFFF_FFFF outside the atlas, and the position in it. -/
def atlasPlace (d : VisDesc) (ax ay : Word) : Nat × Nat × Nat :=
  let x := ratWord ax.toNat
  let y := ratWord ay.toNat
  let bx := (x / 8).floor
  let byy := (y / 8).floor
  let b := byy * (d.abw : Int) + bx
  let inside := decide (0 ≤ bx ∧ 0 ≤ byy ∧ bx < (d.abw : Int) ∧ b < (d.ablocks : Int))
  let pos (v : Rat) (k : Int) : Nat :=
    let q := v - 8 * (k : Rat)
    roundVal .h16 .rn false (.num false ((q * ((2 ^ 60 : Nat) : Rat)).floor).toNat (-60))
  (if inside then b.toNat else 0xFFFFFFFF, pos x bx, pos y byy)

/-- R385: the 16 bytes of an entry. -/
def entryBytes (d : VisDesc) (p : BinPrim) (o : Word × Word × Word) : List Byte :=
  let a := atlasPlace d o.2.1 o.2.2
  leBytes 4 o.1.toNat ++ leBytes 4 (p.word 12) ++ leBytes 4 a.1 ++ leBytes 2 a.2.1 ++ leBytes 2 a.2.2

/-- R383: the virtual address of a pixel's entry. -/
def pixelAddr (d : VisDesc) (view x y : Nat) : Nat := d.vbuf + 16 * ((view * d.h + y) * d.w + x)

/-- R386 step 5: whether a depth lies in [0, 1]. -/
def depthDrawn (new : Word) : Bool :=
  let n := readFmt .f32 new.toNat
  !n.isNan && !ltVal n (.num false 0 0) && !ltVal (.num false 1 0) n

/-- R386 step 6: whether a depth passes the comparison with the stored one. -/
def depthPasses (cmp : Nat) (new old : Word) : Bool :=
  let n := readFmt .f32 new.toNat
  let o := readFmt .f32 old.toNat
  if cmp = 0 then ltVal n o else ltVal n o || eqVal n o

/-! ### Tiles (R384, R388) -/

/-- The tiles of a row of a view. -/
def tilesAcross (d : VisDesc) (size : Nat) : Nat := (d.w + size - 1) / size

/-- The pixels of a tile that lie in the view, in row-major order. -/
def tilePixels (d : VisDesc) (size tile : Nat) : List (Nat × Nat) :=
  let tx := tile % tilesAcross d size
  let ty := tile / tilesAcross d size
  (((List.range size).flatMap fun j => (List.range size).map fun i => (tx * size + i, ty * size + j))).filter
    fun p => p.1 < d.w && p.2 < d.h

/-- A pixel coordinate in 1/256 pixel, clamped to an axis of n pixels. -/
def clampPixel (n : Nat) (x : Int) : Nat := (max 0 (min (x / 256) ((n : Int) - 1))).toNat

/-- The tiles of the bounding box of a triangle. -/
def boxTiles (d : VisDesc) (size : Nat) (t : ScreenVert × ScreenVert × ScreenVert) : List Nat :=
  let x0 := clampPixel d.w (min t.1.x (min t.2.1.x t.2.2.x)) / size
  let x1 := clampPixel d.w (max t.1.x (max t.2.1.x t.2.2.x)) / size
  let y0 := clampPixel d.h (min t.1.y (min t.2.1.y t.2.2.y)) / size
  let y1 := clampPixel d.h (max t.1.y (max t.2.1.y t.2.2.y)) / size
  (List.range (y1 + 1 - y0)).flatMap fun j => (List.range (x1 + 1 - x0)).map fun i =>
    (y0 + j) * tilesAcross d size + x0 + i

/-- The tiles of a view a primitive is binned to. -/
def primTiles (d : VisDesc) (size : Nat) (m : List Nat) (p : BinPrim) : List Nat :=
  if allFinite m p then ((trianglesOf d m p).flatMap (boxTiles d size)).dedup
  else List.range (tilesAcross d size * ((d.h + size - 1) / size))

/-- R382: the words of a view's matrix, or the fault of its page. -/
def viewMatrix (s : State) (ctx : Nat) (d : VisDesc) (view : Nat) : Except (FaultCode × Nat) (List Nat) :=
  match readVirtual s ctx (d.viewtab + 64 * view) 64 with
  | .error e => .error e
  | .ok b => .ok ((List.range 16).map fun k => fieldOf b (4 * k) 4)

/-- R386: the views of a primitive: bits of its mask below `VIEWS`. -/
def viewsOf (d : VisDesc) (p : BinPrim) : List Nat := (List.range d.views).filter fun k => p.mask.getLsbD k

/-- The bins of a primitive in a view whose matrix can be read. -/
def viewBins (s : State) (ctx : Nat) (d : VisDesc) (p : BinPrim) (k : Nat) : Option (List (Nat × Nat)) :=
  match viewMatrix s ctx d k with
  | .error _ => none
  | .ok m => some ((primTiles d (rasterSlot s ctx d).2 m p).map fun t => (k, t))

/-- R382: the bin references that a binner holds on die. -/
def Binner.dieRefs (x : Binner) : Nat := (x.all.map fun p => p.refs.length).foldl (· + ·) 0

/-- 13 R306: where references of a launch's primitive go: on die while there is room and the bin has nothing in its ring. -/
def splitRefs (x : Binner) (l : Nat) : Nat → List (Nat × Nat) → List (Nat × Nat) × List (Nat × Nat)
  | _, [] => ([], [])
  | room, t :: r =>
    if 0 < room ∧ (x.all.any fun p => p.launch == l && p.ringRefs.contains t) = false then
      let q := splitRefs x l (room - 1) r
      (t :: q.1, q.2)
    else
      let q := splitRefs x l room r
      (q.1, t :: q.2)

/-- A primitive with the references that its views give it now. -/
def binPrim (x : Binner) (p : BinPrim) (ts : List (Nat × Nat)) : BinPrim :=
  let q := splitRefs x p.launch (16384 - x.dieRefs) ts
  { p with refs := p.refs ++ q.1, ringRefs := p.ringRefs ++ q.2 }

end Sys2Proof.Machine
end

