-- ==== Sys2Proof/Machine/Graphics.lean ====
section
/-!
DEFINITION. The texture, atlas and primitive forms, opcodes 0x94 to 0x99 (16 R391, R392, R397-R399).
-/

namespace Sys2Proof.Machine

/-! ### Texture forms (R397, R398) -/

/-- R396: the lowest free entry of a core's operand buffer. -/
def freeTexEntry (c : Core) : Nat := ((List.range 16).find? fun i => c.texQ.all fun o => o.id != i).getD 16

/-- The register a quad destination names. -/
def quadReg (d : Dst) : Nat :=
  match d with
  | .reg n => n.toNat
  | .suppress => 0

/-- R396, R398: a texture form: the descriptors are checked, then the operation enters the sampler; the counters
rise (03 R62). It waits for a free entry of the operand buffer. -/
def texForm (s : State) (op : Nat) (f : FormA) : State :=
  let l := (blockOf s s.cur.block).launch
  let ps := activeLanes s f.x.guard
  match planFault s (ps.map fun p => texPlan s l (srcWord p.2 .b f.b).toNat (op != 0x96)) with
  | some s1 => s1
  | none =>
    if ps.isEmpty then s
    else
      let c := coreOf s s.cur.core
      let o : TexOp :=
        { id := freeTexEntry c, op := op, block := s.cur.block, channel := f.field 1 0, ctr := f.x.ctr.toNat,
          lanes := ps.map fun p =>
            { lane := p.2.ctl.lane, uid := p.1, dst := stepReg p.2.ctl .dst (quadReg f.dst),
              desc := (srcWord p.2 .b f.b).toNat, u := (srcPair p.2 .a f.a).setWidth 32,
              v := (srcPair p.2 .a f.a).extractLsb' 32 32 }
          after := s.nextAccess }
      let s1 := ps.foldl (fun acc p => modThread acc p.1 fun t => t.modRegs fun r => r.ctrUp o.ctr) s
      let s2 := { s1 with cur := { s1.cur with sampled := s1.cur.sampled ++ [o.id] }, nextAccess := s1.nextAccess + 1 }
      modCore (holdClause s2 (decide (16 ≤ c.texQ.length))) s.cur.core fun k => { k with texQ := k.texQ ++ [o] }

/-- R398. -/
def execTexs (f : FormA) (s : State) : Result := .next (texForm s 0x94 f)

/-- R398. -/
def execTexg (f : FormA) (s : State) : Result := .next (texForm s 0x95 f)

/-- R398. -/
def execTexq (f : FormA) (s : State) : Result := .next (texForm s 0x96 f)

/-! ### Atlas requests (R390-R392) -/

/-- R391, R399: a form's check of the visibility descriptor for its participating lanes: the fault, precise at the clause, or the
rest. With no participating lane nothing is checked (03 R61). -/
def withVis (s : State) (f : FormA) (go : VisDesc → State) : State :=
  if (activeLanes s f.x.guard).isEmpty then skipLanes s f.x.guard f.dst
  else match visDesc s (blockOf s s.cur.block).launch with
  | .ok d => go d
  | .error (code, a) =>
    deliver s { code := code, pos := s.cur.pos, addr := a,
                pages := if code = .pageAbsent then [(a / 4096, 0)] else [] }

/-- R391: the checks of one lane's block: its number, then its state word. -/
def atreqPlan (s : State) (d : VisDesc) (t : Thread) (b : Nat) : Plan :=
  if d.ablocks ≤ b then .fails 2 .protection b []
  else planG s t { read := true, write := true } ((d.atlas + 4 * b : Nat) : Int) 4

/-- R391: `ATREQ` by one lane: the state and its status. -/
def atreqLane (f : FormA) (d : VisDesc) (s : State) (_ : Nat) (t : Thread) : State × Word :=
  let ctx := ctxOfBlock s t.block
  let b := (srcWord t .a f.a).toNat
  let va := d.atlas + 4 * b
  if readVirtualNat s ctx va 4 = some d.agen then (s, Status.busy.word)
  else
    let s1 := (writeVirtual s ctx va (leBytes 4 d.agen)).getD s
    (modCtx s1 ctx fun c => { c with atlas := c.atlas.push 256 (leBytes 4 b) }, Status.done.word)

/-- R391. -/
def execAtreq (f : FormA) (s : State) : Result :=
  .next (withVis s f fun d =>
    match planFault s ((activeLanes s f.x.guard).map fun p => atreqPlan s d p.2 (srcWord p.2 .a f.a).toNat) with
    | some s1 => s1
    | none =>
      underQuota s (ctxOfBlock s s.cur.block)
        (eachLane (holdForRelease s f.x.guard .dev) f.x.guard f.dst (atreqLane f d)))

/-- R392: `ATGET` by one lane: the oldest entry, acquired, or 0xFFFF_FFFF. -/
def atgetLane (s : State) (u : Nat) (t : Thread) : State × Word :=
  let ctx := ctxOfBlock s t.block
  match (ctxOf s ctx).atlas.all with
  | [] => (s, 0xFFFFFFFF)
  | e :: _ =>
    (modThread (modCtx s ctx fun c => { c with atlas := c.atlas.pop }) u fun x =>
      x.modRegs fun r => { r with floor := max r.floor s.dtime }, BitVec.ofNat 32 (leNat e))

/-- R392. -/
def execAtget (f : FormA) (s : State) : Result := .next (eachLane s f.x.guard f.dst atgetLane)

/-! ### Primitives (R387, R388, R399) -/

/-- R399: the record block and the view mask of a lane. -/
def primOf (f : FormA) (t : Thread) (l seq : Nat) : BinPrim :=
  let n := match f.a with
    | .reg r => stepReg t.ctl .a r.toNat
    | _ => 0
  let m := match f.b with
    | .reg r => stepReg t.ctl .b r.toNat
    | _ => 0
  { seq := seq, launch := l, regs := (List.range 14).map fun k => t.regs.get (n + k)
    mask := (List.range 4).foldl (fun x k => x ||| (t.regs.get (m + k)).setWidth 128 <<< (32 * k)) 0 }

/-- R399: the checks of one lane. -/
def primPlan (s : State) (d : VisDesc) (f : FormA) (t : Thread) : Plan :=
  if 4 ≤ (primOf f t 0 0).word 13 then .fails 1 .protection (4 * d.slot) []
  else if !((uptSlot s (ctxOfBlock s t.block) 2 d.slot).any rasterSlotOk) then .fails 2 .illegalEncoding 0 []
  else .names .device []

/-- R387: the binner accepts a primitive with the next sequence number, files a reference to it in the bins of its tiles, and
spills what has no room on die (R382, 13 R306). A counter at 2^32 has passed its end: R388 restarts it. -/
def acceptPrim (s : State) (d : VisDesc) (p : BinPrim) : State :=
  let ctx := (launchOf s p.launch).ctx
  let vs := viewsOf d p
  let q := binPrim (binnerOf s d.binner) { p with unbinned := vs.filter fun k => (viewBins s ctx d p k).isNone }
    (vs.flatMap fun k => (viewBins s ctx d p k).getD [])
  modBinner (modLaunch s p.launch fun k => { k with primSeq := k.primSeq + 1 }) d.binner fun b =>
    let x := spillPush 4096 (b.prims, b.ring) q
    { b with prims := x.1, ring := x.2 }

/-- R399: `PRIM` by one lane. -/
def primLane (f : FormA) (d : VisDesc) (s : State) (_ : Nat) (t : Thread) : State × Word :=
  let l := (blockOf s t.block).launch
  if (launchOf s l).cancelled then (s, Status.cancelled.word)
  else (acceptPrim s d (primOf f t l (launchOf s l).primSeq), Status.done.word)

/-- R399: whether a primitive breaches the quota even where the binner has just flushed. -/
def primTooBig (s : State) (d : VisDesc) (p : BinPrim) : Bool :=
  let s0 := modBinner s d.binner fun b => { b with prims := [], ring := [] }
  quotaBreach s0 (acceptPrim s0 d p) (launchOf s p.launch).ctx

/-- R388, R399: the clause waits while the binner flushes, and has it flush where the quota or the sequence counter asks for it
(`Cur.flush`, which the step acts on). A primitive too big for the quota after a flush is the clause's fault; that flush
changes no result (R388). -/
def acceptOrFlush (s s1 : State) (f : FormA) (d : VisDesc) : State :=
  let l := (blockOf s s.cur.block).launch
  let wraps := decide (2 ^ 32 < (launchOf s1 l).primSeq)
  if (binnerOf s d.binner).flushing then holdClause s1 true
  else if !(launchOf s l).cancelled && (activeLanes s f.x.guard).any fun p => primTooBig s d (primOf f p.2 l 0) then
    faultAt s .quotaBreach s.cur.word
  else if quotaBreach s s1 (ctxOfBlock s s.cur.block) || wraps then
    { s1 with cur := { s1.cur with flush := d.binner :: s1.cur.flush, wraps := s1.cur.wraps || wraps } }
  else s1

/-- R399. -/
def execPrim (f : FormA) (s : State) : Result :=
  .next (withVis s f fun d =>
    match planFault s ((activeLanes s f.x.guard).map fun p => primPlan s d f p.2) with
    | some s1 => s1
    | none => acceptOrFlush s (eachLane s f.x.guard f.dst (primLane f d)) f d)

end Sys2Proof.Machine
end

