-- ==== Sys2Proof/Machine/EvGraphics.lean ====
section
/-!
DEFINITION. The rasteriser/binner and the texture sampler (16 R386-R389, R396) as device events. An event that cannot
happen leaves the state as it is (log 2).
-/

namespace Sys2Proof.Machine

/-! ### Tiles of a flush (R387, R388) -/

/-- The bins a primitive is still in: launch, view and tile. A view not binned yet stands as its tile 0. -/
def primDue (p : BinPrim) : List (Nat × Nat × Nat) :=
  (p.refs ++ p.ringRefs).map (fun t => (p.launch, t.1, t.2)) ++ p.unbinned.map fun k => (p.launch, k, 0)

/-- R388: the tiles a binner's flush still has to rasterise. -/
def tilesDue (s : State) (b : Nat) : List (Nat × Nat × Nat) := ((binnerOf s b).all.flatMap primDue).dedup

/-- The context of a launch that has a tile due. -/
def dueCtx (s : State) (t : Nat × Nat × Nat) : Nat := (launchOf s t.1).ctx

/-- R389: whether a binner is parked for a context that is on the device. -/
def binnerWaits (s : State) (b : Nat) : Bool := (binnerOf s b).parked.any fun c => (ctxOf s c).resident

/-- R387: the primitives of a launch in a bin, in ascending sequence. -/
def binOf (s : State) (b l view tile : Nat) : List BinPrim :=
  (binnerOf s b).all.filter fun p => p.launch == l && (p.refs ++ p.ringRefs).contains (view, tile)

/-- The references of a bin taken out: of one sequence position, or of all. -/
def dropRefs (s : State) (b l view tile : Nat) (seq : Option Nat) : State :=
  modBinner s b fun x => x.mapPrims fun p =>
    if p.launch = l ∧ seq.getD p.seq = p.seq then
      { p with refs := p.refs.filter (· != (view, tile)), ringRefs := p.ringRefs.filter (· != (view, tile)) }
    else p

/-- R387: the primitives of a launch that could not be binned in a view when they were accepted are binned now. -/
def binView (s : State) (b l view : Nat) (d : VisDesc) : State :=
  let ctx := (launchOf s l).ctx
  ((binnerOf s b).all.filter fun p => p.launch == l && p.unbinned.contains view).foldl (fun acc p =>
    let q := binPrim (binnerOf acc b) { p with unbinned := p.unbinned.filter (· != view) } ((viewBins acc ctx d p view).getD [])
    modBinner acc b fun x => x.mapPrims fun y => if y.launch = l ∧ y.seq = p.seq then q else y) s

/-- The pixels of a tile that a primitive offers an entry whose depth lies in [0, 1], with what it offers (R386 step 5). -/
def tileOffers (d : VisDesc) (size : Nat) (m : List Nat) (view tile : Nat) (p : BinPrim) :
    List (Nat × Nat × Word × Word × Word) :=
  (tilePixels d size tile).flatMap fun q =>
    ((offers d m p view q.1 q.2).filter fun o => depthDrawn o.1).map fun o => (q.1, q.2, o)

/-- The device lines that an engine finds some virtual ranges of G memory on. -/
def rangeLines (s : State) (x : Engine) (ctx : Nat) (rs : List (Nat × Nat)) : List Nat :=
  (rs.flatMap fun r => [r.1, r.1 + r.2 - 1].filterMap fun a => match translateEngine s x ctx a { read := true } with
    | .ok (.device pa) => some (pa / 128)
    | _ => none).dedup

/-- The stored depth of a pixel. -/
def storedDepth (s : State) (ctx va : Nat) : Word := BitVec.ofNat 32 ((readVirtualNat s ctx va 4).getD 0)

/-- R386 step 6, R389: the first fault of the entries that a primitive tests, and of those that it writes. -/
def pixelFault (s : State) (b ctx : Nat) (d : VisDesc) (cmp view : Nat) :
    List (Nat × Nat × Word × Word × Word) → Option (FaultCode × Nat)
  | [] => none
  | x :: r =>
    let va := pixelAddr d view x.1 x.2.1
    let write := depthPasses cmp x.2.2.1 (storedDepth s ctx va)
    match translateEngine s (.raster b) ctx va { read := true } with
    | .error c => some (c, va)
    | .ok _ => match translateEngine s (.raster b) ctx va { read := true, write := write } with
      | .error c => some (c, va)
      | .ok _ => pixelFault s b ctx d cmp view r

/-- R385: an entry written, as one write at its home; a poisoned sector keeps its poison and takes nothing (10 R229). -/
def writeEntry (s : State) (b ctx va : Nat) (bs : List Byte) : State :=
  match translateEngine s (.raster b) ctx va { write := true } with
  | .error _ => s
  | .ok p =>
    if isPoisoned s p.mem.1 (p.mem.2 / 32) then s
    else
      let ws := ((List.range 16).map (p.mem.2 + ·)).zip bs
      let done := writeCompletion s (b / 2) ws
      modBinner (homeWrite s ws) b fun x => { x with completion := max x.completion done }

/-- R386 step 6: one pixel's entry tested and written. -/
def drawPixel (s : State) (b ctx : Nat) (d : VisDesc) (cmp view : Nat) (p : BinPrim)
    (x : Nat × Nat × Word × Word × Word) : State :=
  let va := pixelAddr d view x.1 x.2.1
  let s1 := engineReads (engineUsed s (.raster b) ctx [(va, 16)]) (b / 2) (rangeLines s (.raster b) ctx [(va, 16)])
  if depthPasses cmp x.2.2.1 (storedDepth s ctx va) then writeEntry s1 b ctx va (entryBytes d p x.2.2) else s1

/-- R387, R389: primitives of a bin in ascending sequence, each with what it offers: one whose pages fail draws nothing, and
stands with the fault; those before it are drawn and leave the bin, so that no entry is written twice. -/
def drawPrims (s : State) (b ctx : Nat) (d : VisDesc) (cmp l view tile : Nat) :
    List (BinPrim × List (Nat × Nat × Word × Word × Word)) → State × Option (Nat × FaultCode × Nat)
  | [] => (s, none)
  | w :: r =>
    match pixelFault s b ctx d cmp view w.2 with
    | some e => (s, some (w.1.seq, e))
    | none =>
      drawPrims (dropRefs (w.2.foldl (fun a x => drawPixel a b ctx d cmp view w.1 x) s) b l view tile (some w.1.seq))
        b ctx d cmp l view tile r

/-- R389: a launch's rasterising fails: its final status, and an engine fault of the context. -/
def rasterFault (s : State) (b l : Nat) (code : FaultCode) (addr : Nat) : State :=
  engineFault (markLaunch s l (.faulted code)) (launchOf s l).ctx (b / 2) 7 (b / 2) 0xFF (launchOf s l).handle code addr

/-- R389, R415: a binner parks with a record that holds the tile and the sequence position; its stage is 0 before the tile's
first primitive. -/
def parkBinner (s : State) (b l view tile seq stage cause : Nat) (pages : List (Nat × Nat)) (code : FaultCode) (va : Nat) : State :=
  let ctx := (launchOf s l).ctx
  takeRecord (modBinner s b fun x => { x with parked := ctx :: x.parked.filter (· != ctx) }) ctx
    { cause := cause, location := b / 2, waits := pages.length, work := .raster b view stage tile seq (launchOf s l).handle
      pages := pages, code := code, kind := 3, addr := va, since := (ctxOf s ctx).ctime }

/-- R389: a fault of a tile: an absent page parks the binner; for another the rest of the tile is discarded. -/
def tileFault (s : State) (b l view tile seq stage : Nat) (code : FaultCode) (va : Nat) : State :=
  if code = .pageAbsent then parkBinner s b l view tile seq stage 1 [(va / 4096, if stage = 0 then 0 else 1)] code va
  else
    let s1 := modBinner (dropRefs s b l view tile none) b fun x => x.mapPrims fun p =>
      if p.launch = l ∧ stage = 0 then { p with unbinned := p.unbinned.filter (· != view) } else p
    rasterFault s1 b l code va

/-- R389: the sequence position that a tile of a launch has reached: of its first primitive not yet drawn. -/
def tilePosition (s : State) (b l view tile : Nat) : Nat :=
  (((binnerOf s b).all.filter fun p => p.launch == l
    && ((p.refs ++ p.ringRefs).contains (view, tile) || p.unbinned.contains view)).map BinPrim.seq).headD 0

/-- The primitives of a tile, each with what it offers. -/
def tileWork (s : State) (b l view tile : Nat) (d : VisDesc) (size : Nat) (m : List Nat) :
    List (BinPrim × List (Nat × Nat × Word × Word × Word)) :=
  (binOf s b l view tile).map fun p => (p, tileOffers d size m view tile p)

/-- The device lines of the entries that the primitives of a tile test. -/
def workLines (s : State) (b ctx : Nat) (d : VisDesc) (view : Nat)
    (w : List (BinPrim × List (Nat × Nat × Word × Word × Word))) : List Nat :=
  rangeLines s (.raster b) ctx (w.flatMap fun p => p.2.map fun x => (pixelAddr d view x.1 x.2.1, 16))

/-- R386, R387, R389: a tile of a launch. It waits while a line of its entries is in transition (11 R258). -/
def rasterTile (s : State) (b l view tile : Nat) : State :=
  let ctx := (launchOf s l).ctx
  match visDesc s l with
  | .error (code, va) => tileFault s b l view tile (tilePosition s b l view tile) 0 code va
  | .ok d => match viewMatrix s ctx d view with
    | .error (code, va) => tileFault s b l view tile (tilePosition s b l view tile) 0 code va
    | .ok m =>
      let s1 := binView s b l view d
      let slot := rasterSlot s1 ctx d
      let work := tileWork s1 b l view tile d slot.2 m
      let lines := workLines s1 b ctx d view work
      if engineWaits s1 (b / 2) true lines then askBack s1 lines else
      let q := drawPrims s1 b ctx d slot.1 l view tile work
      match q.2 with
      | none => q.1
      | some e => tileFault q.1 b l view tile e.1 1 e.2.1 e.2.2

/-- R386: `RASTERISE_TILE`: the tile of the first launch that has it due. -/
def execRasteriseTile (binner view tile : Nat) (s : State) : Result :=
  if 8 ≤ binner ∨ !(binnerOf s binner).flushing ∨ binnerWaits s binner then .next s
  else match (tilesDue s binner).find? fun t => t.2 == (view, tile) && (ctxOf s (dueCtx s t)).resident with
    | none => .next s
    | some t => .next (rasterTile s binner t.1 view tile)

/-- R388: the launches whose last step waited for a flush make it. -/
def releaseHeld (s : State) (l : Nat) : State :=
  if (launchOf s l).lastHeld && (binnersOf s l).isEmpty then
    launchSettled (modLaunch s l fun k => { k with lastHeld := false, counter := k.counter - 1 }) l
  else s

/-- R388: whether a flush is over: every tile of the contexts on the device is rasterised, and its writes are performed at
`.dev`. -/
def flushOver (s : State) (b : Nat) : Bool :=
  (binnerOf s b).flushing && !binnerWaits s b && decide ((binnerOf s b).completion ≤ s.dtime)
    && (tilesDue s b).all fun t => !(ctxOf s (dueCtx s t)).resident

/-- R388: `BINNER_FLUSH_DONE`: the store and the bins are empty, and the binner accepts again. What a switched-out context has
in them waits for its record (02 R44). -/
def execBinnerFlushDone (binner : Nat) (s : State) : Result :=
  if 8 ≤ binner ∨ !flushOver s binner then .next s
  else
    let empty (p : BinPrim) : Bool := (primDue p).isEmpty
    let ls := (((binnerOf s binner).all.filter empty).map BinPrim.launch).dedup
    .next (ls.foldl releaseHeld (modBinner s binner fun y => { y.keep (fun p => !empty p) with flushing := false }))

/-- 02 R44 step 2: a binner that rasterises for a context that leaves stops with a record at its next tile. -/
def parkRaster (s : State) (ctx b : Nat) : State :=
  if !(binnerOf s b).flushing || (binnerOf s b).parked.contains ctx then s
  else match (tilesDue s b).find? fun t => dueCtx s t == ctx with
    | none => s
    | some t =>
      let seq := ((binOf s b t.1 t.2.1 t.2.2).map BinPrim.seq).headD 0
      parkBinner s b t.1 t.2.1 t.2.2 seq 1 2 [] .none 0

/-! ### The texture sampler (R396) -/

/-- R396, 10 R233, R245, 11 R260, R261: whether a texture operation's texels may be read: its threads' earlier writes are applied,
their earlier G and K loads and texel reads and acquires have returned, and so has what a `FENCE` has put ahead. -/
def texReady (s : State) (o : TexOp) : Bool :=
  (s.pend.all fun a => !(decide (a.id < o.after)) || a.kind == .result
    || !(a.lanes.any fun r => o.lanes.any fun l => l.uid == r.uid)
    || (((a.kind == .load && !afterTexels a) || a.applied) && a.ordering != .acq))
  && (s.cores.all fun c => c.2.texQ.all fun x => !(decide (x.after < o.after))
    || !(x.lanes.any fun l => o.lanes.any fun k => k.uid == l.uid))
  && o.lanes.all fun l => ((threadOf s l.uid).map fun t => aheadOver s t o.after).getD true

/-- The lanes of quad q. -/
def quadLanes (o : TexOp) (q : Nat) : List TexLane := o.lanes.filter fun l => l.lane / 4 == q

/-- R396: the next quad of an operation: the lowest not completed that has lanes. -/
def nextQuad (o : TexOp) : Option Nat :=
  (List.range 8).find? fun q => o.done / 2 ^ q % 2 == 0 && !(quadLanes o q).isEmpty

/-- The faults of a quad's lanes; the worst stands (10 R227). -/
def worstFault (es : List (FaultCode × Nat)) : Option (FaultCode × Nat) :=
  es.foldl (fun acc e => match acc with
    | none => some e
    | some x => if checkOf e.1 < checkOf x.1 then some e else acc) none

/-- R396: a lane's result with every fault its taps meet. -/
def laneTaps (s : State) (core ctx l op channel : Nat) (x : TexLane) : Except (FaultCode × Nat) (List Word) :=
  match texDesc s l x.desc with
  | .error e => .error e
  | .ok d =>
    let slot := (uptSlot s ctx 3 d.slot).getD []
    let wbits := fieldOf slot 2 1
    let faults := ((lanTaps op d wbits x.u x.v).getD []).filterMap fun t =>
      match readTexel s core ctx d 0 t.1 with
      | .error e => some e
      | .ok _ => none
    match worstFault faults with
    | some e => .error e
    | none => texLane s core ctx op channel d slot x

/-- R396: the virtual ranges of the texels that a lane's taps read. -/
def tapRanges (s : State) (ctx l op : Nat) (x : TexLane) : List (Nat × Nat) :=
  match texDesc s l x.desc with
  | .error _ => []
  | .ok d => (((lanTaps op d (fieldOf ((uptSlot s ctx 3 d.slot).getD []) 2 1) x.u x.v).getD []).filterMap Prod.fst).map
      fun a => (a, d.size)

/-- R396: whether a lane's taps read a poisoned sector. -/
def laneMeetsPoison (s : State) (ctx l op : Nat) (x : TexLane) : Bool :=
  match texDesc s l x.desc with
  | .error _ => false
  | .ok d => ((lanTaps op d (fieldOf ((uptSlot s ctx 3 d.slot).getD []) 2 1) x.u x.v).getD []).any fun t =>
      match t.1 with
      | none => false
      | some a => poisonedRange s ctx a d.size

/-- A quad's lanes written (R398). -/
def writeQuad (s : State) (xs : List (TexLane × List Word)) : State :=
  xs.foldl (fun acc p => modThread acc p.1.uid fun t => t.modRegs fun r =>
    (List.range 4).foldl (fun m k => m.set (p.1.dst + k) (p.2.getD k 0)) r) s

/-- R396: the quad is over; the last one ends the operation and its counters fall (03 R62). -/
def quadOver (s : State) (core : Nat) (o : TexOp) (q : Nat) : State :=
  let o1 := { o with done := o.done + 2 ^ q }
  if (nextQuad o1).isNone then
    o.lanes.foldl (fun acc l => modThread acc l.uid fun t => t.modRegs fun r => r.ctrDown o.ctr)
      (modCore s core fun c => { c with texQ := c.texQ.filter fun x => x.id != o.id })
  else modCore s core fun c => { c with texQ := c.texQ.map fun x => if x.id = o.id then o1 else x }

/-- R396: a quad that meets an absent page parks the operation with a record. -/
def parkTexture (s : State) (core : Nat) (o : TexOp) (va : Nat) : State :=
  let ctx := ctxOfBlock s o.block
  takeRecord (modCore s core fun c =>
      { c with texQ := c.texQ.map fun x => if x.id = o.id then { x with parked := true } else x }) ctx
    { cause := 1, location := coreLocation core, waits := 1, slot := (blockOf s o.block).slot
      work := .texture core o.id o.done, pages := [(va / 4096, 0)], code := .pageAbsent, kind := 3, addr := va
      since := (ctxOf s ctx).ctime }

/-- R396: a quad decided by a fault: canonical NaN in every channel, and a report. -/
def failQuad (s : State) (core : Nat) (o : TexOp) (q : Nat) (code : FaultCode) (va : Nat) : State :=
  let s1 := quadOver (writeQuad s ((quadLanes o q).map fun x => (x, nanQuad))) core o q
  engineFault s1 (ctxOfBlock s o.block) (dieOfCore core) 6 (coreLocation core) (blockOf s o.block).slot
    (handleOfBlock s o.block) code va

/-- R396: quad q of an operation. It waits while a line of its texels is in transition (11 R258); what the core's L1 holds of the
lines may be older than the texels and leaves it (R260). -/
def sampleQuad (s : State) (core : Nat) (o : TexOp) (q : Nat) : State :=
  let l := (blockOf s o.block).launch
  let ctx := ctxOfBlock s o.block
  let die := dieOfCore core
  let rs := (quadLanes o q).map fun x => (x, laneTaps s core ctx l o.op o.channel x)
  let ranges := (quadLanes o q).flatMap (tapRanges s ctx l o.op)
  let lines := rangeLines s (.sampler core) ctx ranges
  let faults := rs.filterMap fun p => match p.2 with
    | .error e => some e
    | .ok _ => none
  match worstFault faults with
  | some (.pageAbsent, va) => parkTexture s core o va
  | some (code, va) => failQuad s core o q code va
  | none =>
    if engineWaits s die false lines then askBack s lines else
    let s0 := lines.foldl (fun acc n => dropCopy acc (l1Core s core n) n)
      (engineReads (engineUsed s (.sampler core) ctx ranges) die lines)
    let s1 := writeQuad s0 (rs.map fun p => (p.1, match p.2 with
      | .ok ws => ws
      | .error _ => nanQuad))
    let s2 := (quadLanes o q).foldl (fun acc x =>
      if laneMeetsPoison s ctx l o.op x then consumePoison acc x.uid o.block { addr := ranges.head?.elim 0 Prod.fst, unit := 6 } else acc) s1
    quadOver s2 core o q

/-- R396: `TEXTURE_QUAD_COMPLETE`. -/
def execTextureQuadComplete (core op : Nat) (s : State) : Result :=
  match (coreOf s core).texQ.find? fun o => o.id == op with
  | none => .next s
  | some o =>
    if o.parked || !texReady s o || !(ctxOf s (ctxOfBlock s o.block)).resident then .next s
    else match nextQuad o with
      | none => .next s
      | some q => .next (sampleQuad s core o q)

/-! ### Resolved pages (17 R416, R417) -/

/-- A sampler's operation goes on at its quad. -/
def replayTexture (s : State) (core op : Nat) : State :=
  modCore s core fun c => { c with texQ := c.texQ.map fun x => if x.id = op then { x with parked := false } else x }

/-- 17 R417: the quad's lanes receive NaN. -/
def failTexture (s : State) (core op : Nat) (code : FaultCode) (va : Nat) : State :=
  match (coreOf s core).texQ.find? fun o => o.id == op with
  | none => s
  | some o => match nextQuad o with
    | none => s
    | some q => failQuad (replayTexture s core op) core { o with parked := false } q code va

/-- A binner goes on for a context; a flush that ended without it begins again. -/
def replayRaster (s : State) (b ctx : Nat) : State :=
  startFlush (modBinner s b fun x => { x with parked := x.parked.filter (· != ctx) }) b

/-- R389, 17 R417: the tile a binner waited in is over. -/
def failRaster (s : State) (b ctx view tile : Nat) (code : FaultCode) (va : Nat) : State :=
  let s1 := replayRaster s b ctx
  match (tilesDue s1 b).find? fun t => t.2 == (view, tile) && dueCtx s1 t == ctx with
  | none => s1
  | some t => tileFault s1 b t.1 view tile 0 0 code va

end Sys2Proof.Machine
end

