-- ==== Sys2Proof/Machine/Traverse.lean ====
section
/-!
DEFINITION. What a ray meets in one subtree (15 R359-R362, R555), in exact arithmetic: boxes, primitives, nodes and
the visit. The subtree is the buffer of a run.
-/

namespace Sys2Proof.Machine

/-! ### The unit program table (R359) -/

/-- R359: the fields of a ray slot of the unit program table. -/
structure RayUpt where
  nodeLog : Nat
  arity : Nat
  boxEnc : Nat
  prim : Nat
  order : Nat
  ptrOff : Nat
  boxOff : Nat
  qOff : Nat
  primOff : Nat
  primStride : Nat
  deriving DecidableEq, Repr

/-- R359: the fields of 64 bytes. -/
def parseUpt (b : List Byte) : RayUpt :=
  { nodeLog := fieldOf b 2 1, arity := fieldOf b 3 1, boxEnc := fieldOf b 4 1, prim := fieldOf b 5 1
    order := fieldOf b 6 1, ptrOff := fieldOf b 8 2, boxOff := fieldOf b 10 2, qOff := fieldOf b 12 2
    primOff := fieldOf b 16 4, primStride := fieldOf b 20 2 }

/-- R360: the bytes of a child box. -/
def RayUpt.boxBytes (u : RayUpt) : Nat := if u.boxEnc = 0 then 24 else if u.boxEnc = 1 then 12 else 6

/-- Two byte ranges with no byte in common. -/
def apart (a n b m : Nat) : Bool := decide (a + n ≤ b ∨ b + m ≤ a)

/-- R359: a valid ray slot. -/
def rayUptOk (b : List Byte) : Bool :=
  let u := parseUpt b
  let node := 2 ^ u.nodeLog
  let np := 4 * u.arity
  let nb := u.arity * u.boxBytes
  fieldOf b 0 1 == 1 && fieldOf b 1 1 == 1 && (u.nodeLog == 6 || u.nodeLog == 7)
    && (u.arity == 2 || u.arity == 4 || u.arity == 8) && decide (u.boxEnc ≤ 2) && decide (u.prim ≤ 2)
    && decide (u.order ≤ 1) && (u.primStride == 64 || (u.primStride == 48 && u.prim == 0))
    && fieldOf b 7 1 == 0 && fieldOf b 14 2 == 0 && fieldOf b 22 42 == 0
    && decide (u.ptrOff + np ≤ node) && decide (u.boxOff + nb ≤ node) && apart u.ptrOff np u.boxOff nb
    && (u.boxEnc != 2 || (decide (u.qOff + 15 ≤ node) && apart u.qOff 15 u.ptrOff np && apart u.qOff 15 u.boxOff nb))

/-! ### Numbers -/

/-- A code of a format as a bound; a NaN has none. -/
def boundOf (f : Fmt) (code : Nat) : Option Bound :=
  match readFmt f code with
  | .nan => none
  | .inf neg => some (if neg then .low else .high)
  | v => some (.at (ratOf v))

/-- The order of bounds. -/
def Bound.le : Bound → Bound → Bool
  | .low, _ => true
  | _, .high => true
  | .at x, .at y => decide (x ≤ y)
  | _, _ => false

/-- The greater and the lesser of two bounds. -/
def Bound.sup (a b : Bound) : Bound := if a.le b then b else a
def Bound.inf (a b : Bound) : Bound := if a.le b then a else b

/-- A bound seen along a direction: (b − o) / d. -/
def Bound.along (o d : Rat) : Bound → Bound
  | .low => if d < 0 then .high else .low
  | .high => if d < 0 then .low else .high
  | .at b => .at ((b - o) / d)

/-- R357: the fields of a ray record. `finite` says that origin and direction have no infinite component. -/
structure RayRec where
  o : List Rat
  d : List Rat
  finite : Bool
  tmin : Word
  tmax : Word
  t : Word
  prim : Nat
  inst : Nat
  uv : Nat
  flags : Nat
  cull : Nat
  id : Nat
  deriving DecidableEq

/-- R357: a ray record of a slot's bytes. -/
def parseRay (b : List Byte) (id : Nat) : RayRec :=
  let w (k : Nat) : Nat := fieldOf b (4 * k) 4
  { o := [0, 1, 2].map fun k => ratWord (w k), d := [4, 5, 6].map fun k => ratWord (w k)
    finite := [0, 1, 2, 4, 5, 6].all fun k => isFiniteF32 (w k)
    tmin := BitVec.ofNat 32 (w 3), tmax := BitVec.ofNat 32 (w 7), t := BitVec.ofNat 32 (w 8)
    prim := w 9, inst := w 10, uv := w 11, flags := fieldOf b 56 1, cull := fieldOf b 57 1, id := id }

/-- A component of a vector. -/
def comp (v : List Rat) (i : Nat) : Rat := v.getD i 0

/-- The bound of an F32 word that is no NaN. -/
def wordBound (x : Word) : Bound := (boundOf .f32 x.toNat).getD .low

/-! ### Boxes (R360) -/

/-- A box: lower and upper bounds of the three axes. -/
abbrev Box := List (Bound × Bound)

/-- The interval in which a ray lies between two bounds of an axis; nothing where it never does. -/
def slab (o d : Rat) (x : Bound × Bound) : Option (Bound × Bound) :=
  if !x.1.le x.2 then none
  else if d = 0 then if x.1.le (.at o) && (Bound.at o).le x.2 then some (.low, .high) else none
  else if d < 0 then some (x.2.along o d, x.1.along o d)
  else some (x.1.along o d, x.2.along o d)

/-- The interval of a ray's line in a box. -/
def boxInterval (o d : List Rat) (b : Box) : Option (Bound × Bound) :=
  ((List.range 3).zip b).foldl (fun acc p =>
    match acc, slab (comp o p.1) (comp d p.1) p.2 with
    | some a, some i => let lo := a.1.sup i.1
                        let hi := a.2.inf i.2
                        if lo.le hi then some (lo, hi) else none
    | _, _ => none) (some (.low, .high))

/-- R360, R363: whether a ray meets a child's box in its interval, and the entry t; a box without exact extent is
met, and a ray with an infinite component meets every box. -/
def meets (r : RayRec) (b : Option Box) : Option Bound :=
  match b with
  | none => some .low
  | some x =>
    if !r.finite then some .low
    else match boxInterval r.o r.d x with
      | none => none
      | some i => if i.1.le (wordBound r.tmax) && (wordBound r.tmin).le i.2 then some i.1 else none

/-- R360: six values of a box, by axis. -/
def pairUp : List Bound → Box
  | a :: b :: r => (a, b) :: pairUp r
  | _ => []

/-- A list of options, if all are there. -/
def allSome {α : Type} : List (Option α) → Option (List α)
  | [] => some []
  | some x :: r => (allSome r).map (x :: ·)
  | none :: _ => none

/-- 2 to a whole power, as a rational. -/
def pow2 (e : Int) : Rat := if 0 ≤ e then ((2 ^ e.toNat : Nat) : Rat) else mkRat 1 (2 ^ (-e).toNat)

/-- R360: an axis of a quantised box. -/
def quantAxis (node : List Byte) (u : RayUpt) (box k : Nat) : Option (Bound × Bound) :=
  let e := fieldOf node (u.qOff + 12 + k) 1
  match boundOf .f32 (fieldOf node (u.qOff + 4 * k) 4) with
  | some (.at o) =>
    if e = 255 then none
    else
      let s := pow2 ((e : Int) - 127)
      some (.at (o + (fieldOf node (box + 2 * k) 1 : Nat) * s), .at (o + ((fieldOf node (box + 2 * k + 1) 1 + 1 : Nat) : Rat) * s))
  | _ => none

/-- R360: child i's box of a node; none where it has no exact extent. -/
def childBox (u : RayUpt) (node : List Byte) (i : Nat) : Option Box :=
  let at_ := u.boxOff + i * u.boxBytes
  match u.boxEnc with
  | 0 => (allSome ((List.range 6).map fun k => boundOf .f32 (fieldOf node (at_ + 4 * k) 4))).map pairUp
  | 1 => (allSome ((List.range 6).map fun k => boundOf .h16 (fieldOf node (at_ + 2 * k) 2))).map pairUp
  | _ => allSome ((List.range 3).map fun k => quantAxis node u at_ k)

/-! ### Primitives (R361) -/

/-- A hit as its exact test gives it: t, and u and v. -/
structure HitAt where
  t : Rat
  u : Rat := 0
  v : Rat := 0
  deriving DecidableEq

/-- The difference of two vectors. -/
def vsub (a b : List Rat) : List Rat := (List.range 3).map fun i => comp a i - comp b i

/-- The sum of a vector and a multiple of another. -/
def vmad (a : List Rat) (t : Rat) (b : List Rat) : List Rat := (List.range 3).map fun i => comp a i + t * comp b i

/-- The dot product. -/
def vdot (a b : List Rat) : Rat := comp a 0 * comp b 0 + comp a 1 * comp b 1 + comp a 2 * comp b 2

/-- The cross product. -/
def vcross (a b : List Rat) : List Rat :=
  [comp a 1 * comp b 2 - comp a 2 * comp b 1, comp a 2 * comp b 0 - comp a 0 * comp b 2,
   comp a 0 * comp b 1 - comp a 1 * comp b 0]

/-- The vector of three F32 words of a record. -/
def vec3 (b : List Byte) (lo : Nat) : List Rat := (List.range 3).map fun k => ratWord (fieldOf b (lo + 4 * k) 4)

/-- R361: a triangle met by a ray: edges and vertices belong to it. -/
def triangleHit (r : RayRec) (b : List Byte) : Option HitAt :=
  let v0 := vec3 b 0
  let e1 := vsub (vec3 b 12) v0
  let e2 := vsub (vec3 b 24) v0
  let p := vcross r.d e2
  let det := vdot e1 p
  if det = 0 then none
  else
    let s := vsub r.o v0
    let q := vcross s e1
    let u := vdot s p / det
    let v := vdot r.d q / det
    if 0 ≤ u ∧ 0 ≤ v ∧ u + v ≤ 1 then some { t := vdot e2 q / det, u := u, v := v } else none

/-- R361: whether a triangle faces the ray. -/
def frontFacing (r : RayRec) (b : List Byte) : Bool :=
  decide (vdot (vcross (vsub (vec3 b 12) (vec3 b 0)) (vsub (vec3 b 24) (vec3 b 0))) r.d < 0)

/-- R357: whether a culling flag removes a triangle. -/
def culled (r : RayRec) (b : List Byte) : Bool :=
  if frontFacing r b then r.flags / 4 % 2 == 1 else r.flags / 2 % 2 == 1

/-- The square root of a rational, truncated to 2^-96 of its scale. -/
def ratSqrt (q : Rat) : Rat :=
  let k := 2 * (96 + Nat.log2 q.den)
  mkRat (Nat.sqrt (q.num.toNat * 2 ^ k / q.den)) (2 ^ (k / 2))

/-- The first t at which a ray enters a sphere. -/
def sphereEntry (o d c : List Rat) (rad : Rat) : Option Rat :=
  let m := vsub o c
  let a := vdot d d
  let b := vdot m d
  let disc := b * b - a * (vdot m m - rad * rad)
  if a = 0 ∨ disc < 0 then none else some ((-b - ratSqrt disc) / a)

/-- The first t at which a ray enters an open cylinder about a chord, with the chord parameter there. -/
def cylinderEntry (o d p q : List Rat) (rad : Rat) : Option (Rat × Rat) :=
  let n := vsub q p
  let nn := vdot n n
  if nn = 0 then none
  else
    let m := vsub o p
    let dp := vmad d (-(vdot d n / nn)) n
    let mp := vmad m (-(vdot m n / nn)) n
    let a := vdot dp dp
    let b := vdot mp dp
    let disc := b * b - a * (vdot mp mp - rad * rad)
    if a = 0 ∨ disc < 0 then none
    else
      let t := (-b - ratSqrt disc) / a
      let w := (vdot m n + t * vdot d n) / nn
      if 0 ≤ w ∧ w ≤ 1 then some (t, w) else none

/-- A point of a cubic Bézier curve. -/
def bezier (b : List Byte) (x : Rat) : List Rat :=
  let y := 1 - x
  let c := [y * y * y, 3 * x * y * y, 3 * x * x * y, x * x * x]
  (List.range 3).map fun i => ((List.range 4).map fun k => comp (vec3 b (12 * k)) i * c.getD k 0).foldl (· + ·) 0

/-- R361: the entries into the capsule about chord k. -/
def capsuleHits (r : RayRec) (b : List Byte) (k : Nat) : List HitAt :=
  let p := bezier b (mkRat k 8)
  let q := bezier b (mkRat (k + 1) 8)
  let rad := ratWord (fieldOf b 48 4)
  let ends (c : List Rat) (w : Rat) : List HitAt :=
    (sphereEntry r.o r.d c rad).toList.map fun t => { t := t, u := w }
  ends p (mkRat k 8) ++ ends q (mkRat (k + 1) 8)
    ++ (cylinderEntry r.o r.d p q rad).toList.map fun x => { t := x.1, u := (k + x.2) / 8 }

/-- The least hit of a list by t. -/
def leastHit : List HitAt → Option HitAt
  | [] => none
  | h :: r => match leastHit r with
    | none => some h
    | some x => some (if x.t < h.t then x else h)

/-- R361: the nearest entry of a ray into a bounded curve, from `tmin` on; the entry into one capsule is the first of
its parts. -/
def curveHit (r : RayRec) (b : List Byte) : Option HitAt :=
  leastHit (((List.range 8).filterMap fun k => leastHit (capsuleHits r b k)).filter
    fun h => (wordBound r.tmin).le (.at h.t))

/-- R361: a ray in the object space of an instanced box. -/
def toObject (m : List Byte) (v : List Rat) (point : Bool) : List Rat :=
  (List.range 3).map fun i => vdot (vec3 m (16 * i)) v + (if point then ratWord (fieldOf m (16 * i + 12) 4) else 0)

/-- R361: the interval of a ray in an instanced box. -/
def instanceInterval (r : RayRec) (b : List Byte) : Option (Bound × Bound) :=
  boxInterval (toObject b r.o true) (toObject b r.d false) (List.replicate 3 (.at 0, .at 1))

/-! ### Hits (R361, R362) -/

/-- R361: the t that is reported for an exact t: the unit's own value where it lies within 2^-20 of it, with a floor
of 2^-126 (log 13). -/
def reportedT (id : Nat) (t : Rat) : Word :=
  let near := ratF32 t
  let x := Config.hitT near id
  let tol := max (|t| / 2 ^ 20) (mkRat 1 (2 ^ 126))
  if isFiniteF32 x.toNat && decide (|ratWord x.toNat - t| ≤ tol) then x else near

/-- R361: the hit t of an instanced box: the greater of tmin and the entry t. The manual does not order the IEEE operations
that give the entry t: the model rounds the exact one once (DESIGN CHOICE, log 13). -/
def instanceT (tmin : Word) (q : Rat) : Word :=
  let w := ratF32 q
  if f32Above tmin.toNat w.toNat || (isZeroWord w.toNat && isZeroWord tmin.toNat && w != 0) then tmin else w

/-- A rational rounded to a half. -/
def ratH16 (q : Rat) : Nat :=
  let n := q.num.natAbs
  let k : Nat := 64
  let t := n * 2 ^ k / q.den
  let sticky := if n * 2 ^ k % q.den = 0 then 0 else 1
  roundVal .h16 .rn false (.num (decide (q < 0)) (2 * t + sticky) (-((k : Int) + 1)))

/-- A hit a record offers: reported t, instance and primitive index, u and v. -/
structure Offer where
  t : Word
  inst : Nat
  prim : Nat
  uv : Nat
  deriving DecidableEq

/-- R361: the finite words of a record: every vertex, control point, radius or matrix element. -/
def recordFinite (n : Nat) (b : List Byte) : Bool := (List.range n).all fun k => isFiniteF32 (fieldOf b (4 * k) 4)

/-- R361: what a primitive record offers a ray, its mask and culling applied. -/
def offerOf (u : RayUpt) (r : RayRec) (b : List Byte) : Option Offer :=
  let mask (at_ : Nat) : Bool := (BitVec.ofNat 8 (fieldOf b at_ 1) &&& BitVec.ofNat 8 r.cull) != 0
  let give (h : HitAt) (inst prim : Nat) : Offer :=
    { t := reportedT r.id h.t, inst := inst, prim := prim, uv := ratH16 h.u + 2 ^ 16 * ratH16 h.v }
  if !r.finite then none
  else
    match u.prim with
    | 0 =>
      if mask 40 && recordFinite 9 b && !culled r b then
        (triangleHit r b).map fun h => give h 0xFFFFFFFF (fieldOf b 36 4)
      else none
    | 1 =>
      if mask 56 && recordFinite 13 b then (curveHit r b).map fun h => give h 0xFFFFFFFF (fieldOf b 52 4) else none
    | _ =>
      if mask 56 && recordFinite 12 b then
        match instanceInterval r b with
        | none => none
        | some i =>
          if !(wordBound r.tmin).le i.2 then none
          else
            let t := match i.1 with
              | .at q => instanceT r.tmin q
              | _ => r.tmin
            some { t := t, inst := fieldOf b 48 4, prim := fieldOf b 52 4, uv := 0 }
      else none

/-- R362: whether an offer is accepted against a ray's best hit. -/
def accepts (r : RayRec) (x : Offer) : Bool :=
  !f32Above r.tmin.toNat x.t.toNat && !f32Above x.t.toNat r.tmax.toNat
    && (f32Above r.t.toNat x.t.toNat
      || (!f32Above x.t.toNat r.t.toNat
        && decide (x.inst * 2 ^ 32 + x.prim < r.inst * 2 ^ 32 + r.prim)))

/-- R362: the ray with an accepted hit. -/
def RayRec.take (r : RayRec) (x : Offer) : RayRec := { r with t := x.t, inst := x.inst, prim := x.prim, uv := x.uv }

/-- R378, R362: whether a ray has a hit: `RAYQ` gives it +∞ and both indices 0xFFFF_FFFF, and no accepted hit has all three. -/
def RayRec.hit (r : RayRec) : Bool := r.t != 0x7F800000 || r.inst != 0xFFFFFFFF || r.prim != 0xFFFFFFFF

/-- R357: the ray ends at its first accepted hit. -/
def RayRec.first (r : RayRec) : Bool := r.flags % 2 == 1

/-! ### The visit (R360, R362, R555) -/

/-- What a visit has come to. -/
inductive VisitEnd where
  | going
  | stopped
  | faulted
  | poisoned
  deriving DecidableEq

/-- A visit under way: the ray, the exits reached in order with their entry t, and how it stands. -/
structure Visit where
  ray : RayRec
  exits : List (Nat × Bound) := []
  state : VisitEnd := .going
  deriving DecidableEq

/-- A subtree in its buffer with the numbers of its poisoned sectors, and the scene's subtree count. -/
structure Loaded where
  upt : RayUpt
  buffer : List Byte
  bad : List Nat
  nsub : Nat

/-- n bytes of the subtree at an offset, if they lie within it. -/
def Loaded.read (x : Loaded) (lo n : Nat) : Except VisitEnd (List Byte) :=
  if x.buffer.length < lo + n then .error .faulted
  else if x.bad.any fun k => decide (lo < 32 * k + 32 ∧ 32 * k < lo + n) then .error .poisoned
  else .ok ((x.buffer.drop lo).take n)

/-- R360: the records of a leaf in ascending order; `fuel` counts them. -/
def visitLeaf (x : Loaded) : Nat → Nat → Visit → Visit
  | 0, _, v => v
  | fuel + 1, k, v =>
    if v.state ≠ .going then v
    else match x.read (x.upt.primOff + k * x.upt.primStride) x.upt.primStride with
      | .error e => { v with state := e }
      | .ok b =>
        let v1 := match offerOf x.upt v.ray b with
          | none => v
          | some o =>
            if accepts v.ray o then
              { v with ray := v.ray.take o, state := if v.ray.first then .stopped else .going }
            else v
        visitLeaf x fuel (k + 1) v1

/-- A child whose box is met: its pointer, entry t and position. -/
structure Child where
  ptr : Nat
  entry : Bound
  deriving DecidableEq

/-- A child entered in ascending entry t, after its equals. -/
def insertChild (c : Child) : List Child → List Child
  | [] => [c]
  | x :: r => if x.entry.le c.entry then x :: insertChild c r else c :: x :: r

/-- R360: the children of a node whose boxes a ray meets, in the order of the slot. -/
def metChildren (x : Loaded) (r : RayRec) (node : List Byte) : List Child :=
  let cs := (List.range x.upt.arity).filterMap fun i =>
    let p := fieldOf node (x.upt.ptrOff + 4 * i) 4
    if p / 2 ^ 30 = 3 ∧ p % 2 ^ 30 = 0 then none
    else (meets r (childBox x.upt node i)).map fun e => { ptr := p, entry := e }
  if x.upt.order = 0 then cs.foldl (fun acc c => insertChild c acc) [] else cs

/-- R360: whether a followed exit pointer keeps the zeros its kind requires and names a subtree of the scene. -/
def exitOk (x : Loaded) (p : Nat) : Bool :=
  p / 2 ^ 30 == 2 && p / 2 ^ 24 % 64 == 0 && decide (p % 2 ^ 24 < x.nsub)

/-- R555: the traversal of what remains on the stack, depth first; `fuel` bounds the items, more than any tree of the
subtree has (log 33). -/
def visitStack (x : Loaded) : Nat → List Child → Visit → Visit
  | 0, _, v => v
  | _, [], v => v
  | fuel + 1, c :: rest, v =>
    if v.state ≠ .going then v
    else
      match c.ptr / 2 ^ 30 with
      | 0 =>
        match x.read (c.ptr % 2 ^ 30 * 2 ^ x.upt.nodeLog) (2 ^ x.upt.nodeLog) with
        | .error e => { v with state := e }
        | .ok node => visitStack x fuel (metChildren x v.ray node ++ rest) v
      | 1 => visitStack x fuel rest (visitLeaf x (c.ptr / 2 ^ 24 % 64 + 1) (c.ptr % 2 ^ 24) v)
      | _ =>
        if !exitOk x c.ptr then { v with state := .faulted }
        else visitStack x fuel rest { v with exits := v.exits ++ [(c.ptr % 2 ^ 24, c.entry)] }

/-- R555: one visit of a ray to a subtree, from node 0. -/
def visit (x : Loaded) (r : RayRec) : Visit := visitStack x (8 * 4097) [{ ptr := 0, entry := .low }] { ray := r }

/-- An exit entered by ascending entry t, ties by the lower subtree. -/
def insertExit (e : Nat × Bound) : List (Nat × Bound) → List (Nat × Bound)
  | [] => [e]
  | x :: r =>
    if x.2.le e.2 && (!e.2.le x.2 || decide (x.1 ≤ e.1)) then x :: insertExit e r else e :: x :: r

/-- R555: the pending exits after a visit. -/
def pendingExits (order : Nat) (old new : List (Nat × Bound)) : List (Nat × Bound) :=
  if order = 0 then new.foldl (fun acc e => insertExit e acc) old else old ++ new

/-- R555: the exits that can still improve the hit, from the first whose turn it is. -/
def dropExits (best : Word) : List (Nat × Bound) → List (Nat × Bound)
  | [] => []
  | e :: r => if e.2.le (wordBound best) then e :: r else dropExits best r

end Sys2Proof.Machine
end

