-- ==== Sys2Proof/Machine/EvRay.lean ====
section
/-!
DEFINITION. The Omnibus and the ray traversal units (15 R364-R375) as device events. An event that cannot happen
leaves the state as it is (log 2).
-/

namespace Sys2Proof.Machine

/-! ### Slots -/

/-- 17 R412: the location of a cluster's unit. -/
def rayLocation (cluster : Nat) : Nat := clusterLocation cluster

/-- R370: whether a ray's whole slot can be read and written, and the fault where it cannot. -/
def slotFault (s : State) (l id : Nat) : Option FaultCode := rayFault s l id

/-- R370, 17 R400: `slotFault` as the ray traversal unit of a cluster finds it, through its TLB. -/
def slotFaultAt (s : State) (cluster l id : Nat) : Option FaultCode :=
  match translateEngine s (.ray cluster) (launchOf s l).ctx (raySlot s l id + 64) { read := true, write := true } with
  | .error c => some c
  | .ok _ => none

/-- R364: a ray returned to its queue's head: its `STATE` is written; it keeps its stamp and filing time. -/
def returnRay (s : State) (l i loc : Nat) (e : RayEntry) : State :=
  let ctx := (launchOf s l).ctx
  match slotFault s l e.id with
  | some .pageAbsent => holdRay s l e.id loc (.back i e)
  | some code => completeRay s l e.id loc .faulted code true
  | none =>
    modRayQueue ((writeVirtual s ctx (raySlot s l e.id + 64) (leBytes 1 1)).getD s) l i fun q =>
      q.unshift (queueCap s q.home q) [e]

/-- R364: rays returned to the head in their order. -/
def returnRays (s : State) (l i loc : Nat) (es : List RayEntry) : State :=
  es.reverse.foldl (fun acc e => returnRay acc l i loc e) s

/-! ### Selection (R365) -/

/-- The runs under way. -/
def activeRuns (s : State) : List RayRun := s.clusters.filterMap fun c => c.2.run

/-- R365: whether a subtree of a launch is in a run. -/
def inRun (s : State) (l i : Nat) : Bool := (activeRuns s).any fun r => r.launch == l && r.subtree == i

/-- A queue's rays, oldest first. -/
def RayQueue.all (q : RayQueue) : List RayEntry := q.die ++ q.ring

/-- R365: the eligible subtrees of a launch on a die, with their queues. -/
def eligibleOf (s : State) (die l : Nat) : List (Nat × RayQueue) :=
  match heldScene s l with
  | none => []
  | some c => (mgetD s.work.rays l {}).queues.filter fun q =>
      !q.2.all.isEmpty && !q.2.waiting && !inRun s l q.1 &&
        match readSubtree s (launchOf s l).ctx c q.1 with
        | .valid t => subtreeDie s (launchOf s l).ctx t.die == die
        | _ => subtreeDie s (launchOf s l).ctx 0 == die

/-- A subtree the Omnibus may choose. -/
structure RayChoice where
  launch : Nat
  subtree : Nat
  waiting : Nat
  stamp : Nat
  filed : Nat
  starving : Bool
  deriving DecidableEq

/-- R365: a choice with what its head decides. -/
def rayChoice (s : State) (die l : Nat) (c : Scene) (q : Nat × RayQueue) : RayChoice :=
  let h := q.2.all.headD { id := 0, stamp := 0, filed := 0 }
  let age := ((dieOf s die).runCounter + 2 ^ 32 - h.stamp) % 2 ^ 32
  { launch := l, subtree := q.1, waiting := q.2.all.length, stamp := h.stamp, filed := h.filed
    starving := decide (c.starvRuns < age) || decide (1000 * c.starvTime < (ctxOf s (launchOf s l).ctx).ctime - h.filed) }

/-- R365: the order of choices; between launches, which the manual does not order, the older (log 34). -/
def RayChoice.before (a b : RayChoice) : Bool :=
  if a.starving != b.starving then a.starving
  else
    let key (x : RayChoice) : List Nat :=
      [if x.starving then 0 else 2 ^ 32 - x.waiting, x.filed, x.subtree, x.launch]
    decide (key a < key b)

/-- R365: the best of some choices. -/
def bestChoice : List RayChoice → Option RayChoice
  | [] => none
  | c :: r => match bestChoice r with
    | none => some c
    | some d => some (if d.before c then d else c)

/-- The launches of the context a cluster is resident for. -/
def clusterLaunches (s : State) (cluster : Nat) : List Nat :=
  s.work.launches.filterMap fun p =>
    if (ctxOf s p.2.ctx).resident ∧ (ctxClusters s p.2.ctx).contains cluster then some p.1 else none

/-- R365: what the Omnibus of a die selects for a unit. -/
def selectRun (s : State) (die cluster : Nat) : Option RayChoice :=
  bestChoice ((clusterLaunches s cluster).flatMap fun l =>
    match heldScene s l with
    | none => []
    | some c => (eligibleOf s die l).map (rayChoice s die l c))

/-! ### The start of a run (R366) -/

/-- An entry with its view index, entered after those of lower or equal view. -/
def insertView (e : Nat × RayEntry) : List (Nat × RayEntry) → List (Nat × RayEntry)
  | [] => [e]
  | x :: r => if x.1 ≤ e.1 then x :: insertView e r else e :: x :: r

/-- R366: one ray taken: its `STATE` becomes `RUNNING`, and its view index sorts it. A fault on its slot keeps it
out of the run (R370). -/
def takeRay (l i loc : Nat) (acc : State × List (Nat × RayEntry)) (e : RayEntry) : State × List (Nat × RayEntry) :=
  let s := acc.1
  let ctx := (launchOf s l).ctx
  match slotFault s l e.id with
  | some .pageAbsent => (holdRay s l e.id loc (.back i e), acc.2)
  | some code => (completeRay s l e.id loc .faulted code true, acc.2)
  | none =>
    let view := (readVirtualNat s ctx (raySlot s l e.id + 63) 1).getD 0
    ((writeVirtual s ctx (raySlot s l e.id + 64) (leBytes 1 2)).getD s, insertView (view, e) acc.2)

/-- The first n rays of a queue taken off it. -/
def RayQueue.drop (q : RayQueue) (n : Nat) : RayQueue :=
  { q with die := q.die.drop n, ring := q.ring.drop (n - q.die.length) }

/-- R354: the bytes of the slot a scene names, empty where they are not a valid slot. -/
def runUpt (s : State) (ctx : Nat) (c : Scene) : List Byte :=
  match uptSlot s ctx 1 c.upt with
  | none => []
  | some b => if rayUptOk b then b else []

/-- R365, R366: a run starts. -/
def startRun (s : State) (die cluster : Nat) (c : Scene) (x : RayChoice) : State :=
  let taken := (rayQueueOf s x.launch x.subtree).all.take 4096
  let s1 := countDieEvent (modDie s die fun d => { d with runCounter := (d.runCounter + 1) % 2 ^ 64 }) die 10 1
  let s2 := modRayQueue s1 x.launch x.subtree fun q => q.drop taken.length
  let p := taken.foldl (takeRay x.launch x.subtree (rayLocation cluster)) (s2, [])
  if p.2.isEmpty then p.1
  else
    modCluster p.1 cluster fun k =>
      { k with run := some { launch := x.launch, subtree := x.subtree, number := (dieOf s1 die).runCounter
                             rays := p.2.map Prod.snd, taken := p.2.length, upt := runUpt s (launchOf s x.launch).ctx c
                             startedAt := (ctxOf s (launchOf s x.launch).ctx).ctime }
               gated := false }

/-- R356, R369: every ray of a queue, and those of its run, complete with a status. -/
def failQueue (s : State) (l i loc : Nat) (run : List RayEntry) (st : Status) (code : FaultCode) (report : Bool) : State :=
  let rest := (rayQueueOf s l i).all
  (run ++ rest).foldl (fun acc e => completeRay acc l e.id loc st code report)
    (modRayQueue s l i fun q => { q with die := [], ring := [] })

/-- R356, R365: the Omnibus acts on its choice: a run starts, but for an entry that is not valid, of which the rays complete or
wait for the entry's page. -/
def startChoice (s : State) (die cluster : Nat) (c : Scene) (x : RayChoice) : State :=
  let fail (st : Status) (code : FaultCode) (report : Bool) : State := failQueue s x.launch x.subtree die [] st code report
  match readSubtree s (launchOf s x.launch).ctx c x.subtree with
  | .valid _ => startRun s die cluster c x
  | .fault .pageAbsent va => holdSubtree s x.launch x.subtree die (dieOf s die).runCounter va
  | .fault code _ => fail .faulted code true
  | .poisoned => fail .poisoned .none true
  | .invalid => fail .faulted .protection false

/-- R365: `OMNIBUS_RUN_START`. -/
def execOmnibusRunStart (die cluster : Nat) (s : State) : Result :=
  if cluster / 48 ≠ die ∨ 4 ≤ die ∨ (clusterOf s cluster).run.isSome then .next s
  else match selectRun s die cluster with
    | none => .next s
    | some x => match heldScene s x.launch with
      | none => .next s
      | some c => .next (startChoice s die cluster c x)

/-! ### Loading (R356, R366, R369) -/

/-- A cluster's run ended. -/
def endRun (s : State) (cluster : Nat) : State := modCluster s cluster fun c => { c with run := none }

/-- R369: every ray of a run and of its queue completes with a status. -/
def failSubtree (s : State) (r : RayRun) (loc : Nat) (st : Status) (code : FaultCode) (report : Bool) : State :=
  failQueue s r.launch r.subtree loc r.rays st code report

/-- 17 R409, R419: the hint of a load that stopped at an address: the last node below it. The arity stands in three bits, 8 as 0
(log 84). -/
def nodeHint (u : Option RayUpt) (base va : Nat) : Option Nat :=
  match u with
  | none => none
  | some x =>
    let n := 2 ^ x.nodeLog
    if va < base + n then none
    else
      let node := base + ((va - base) / n - 1) * n
      some (node / 64 % 2 ^ 50 + x.arity % 8 * 2 ^ 50 + (x.nodeLog - 6) * 2 ^ 53)

/-- R359: the slot a scene names, where it is valid. -/
def raySlotTable (s : State) (ctx : Nat) (c : Scene) : Option RayUpt :=
  match uptSlot s ctx 1 c.upt with
  | none => none
  | some b => if rayUptOk b then some (parseUpt b) else none

/-- R354: the unit program that a run uses, as its start found it. -/
def runTable (r : RayRun) : Option RayUpt := if r.upt.isEmpty then none else some (parseUpt r.upt)

/-- R369: an absent page ends the run; the subtree waits for it with a record of kind 1. -/
def missLoad (s : State) (cluster : Nat) (r : RayRun) (u : Option RayUpt) (base va : Nat) : State :=
  let ctx := (launchOf s r.launch).ctx
  let s1 := returnRays (endRun s cluster) r.launch r.subtree (rayLocation cluster) r.rays
  takeRecord (modRayQueue s1 r.launch r.subtree fun q => { q with waiting := true }) ctx
    { cause := 1, location := rayLocation cluster, waits := 1
      work := .ray cluster r.launch 1 r.subtree r.number 0 r.taken 0
      pages := [(va / 4096, 5)], hint := nodeHint u base va, since := (ctxOf s ctx).ctime }

/-- The sectors of a virtual range that are poisoned, numbered from its start. -/
def badSectors (s : State) (ctx va n : Nat) : List Nat :=
  match byteSpots (fun a => translateWalk s ctx a { read := true }) va n with
  | .error _ => []
  | .ok ms => ((List.range (n / 32)).zip ((List.range (n / 32)).map fun k => ms[32 * k]?)).filterMap fun p =>
      match p.2 with
      | some x => if isPoisoned s x.1 (x.2 / 32) then some p.1 else none
      | none => none

/-- R366, R369: the run's subtree is loaded whole into the buffer. -/
def loadSubtree (s : State) (cluster : Nat) (r : RayRun) : State :=
  let ctx := (launchOf s r.launch).ctx
  let loc := rayLocation cluster
  match heldScene s r.launch with
  | none => s
  | some c =>
    let u := runTable r
    match readSubtree s ctx c r.subtree with
    | .fault .pageAbsent va => missLoad s cluster r u va va
    | .fault e _ => failSubtree (endRun s cluster) r loc .faulted e true
    | .poisoned => failSubtree (endRun s cluster) r loc .poisoned .none true
    | .invalid => failSubtree (endRun s cluster) r loc .faulted .protection false
    | .valid t =>
      match readEngine s (.ray cluster) ctx t.base t.size with
      | .error (.pageAbsent, va) => missLoad s cluster r u t.base va
      | .error (e, _) => failSubtree (endRun s cluster) r loc .faulted e true
      | .ok bs => modCluster (engineUsed s (.ray cluster) ctx [(t.base, t.size)]) cluster fun k =>
          { k with run := some { r with loaded := true, buffer := bs, bad := badSectors s ctx t.base t.size } }

/-- R366: `SUBTREE_LOAD_COMPLETE`. -/
def execSubtreeLoadComplete (cluster : Nat) (s : State) : Result :=
  match (clusterOf s cluster).run with
  | none => .next s
  | some r => .next (if r.loaded || !(ctxOf s (launchOf s r.launch).ctx).resident then s else loadSubtree s cluster r)

/-! ### Hit blocks (R373, R374) -/

/-- R373: the most rays of a hit block of a launch. -/
def hitBlockSize (s : State) (l : Nat) : Nat := 32 * (launchOf s l).desc.gangs

/-- R373: a ray as it joins a hit block: shader index, user key, identifier and entry address. -/
structure HitRay where
  shader : Nat
  key : Nat
  id : Nat
  entry : Nat
  deriving DecidableEq

/-- R373: the order of the threads of a hit block. -/
def insertHit (h : HitRay) : List HitRay → List HitRay
  | [] => [h]
  | x :: r => if [x.shader, x.key, x.id] < [h.shader, h.key, h.id] then x :: insertHit h r else h :: x :: r

/-- R370: a ray held for another page than its slot's, with the same record. -/
def holdRayAt (s : State) (l id loc va : Nat) (act : RayAct) : State :=
  let ctx := (launchOf s l).ctx
  takeRecord (modRays s l fun r => { r with held := r.held ++ [(id, act)] }) ctx
    { cause := 1, location := loc, waits := 1, work := .ray (loc / 4 % 64 + 48 * (loc % 4)) l 2 0 0 0 0 id
      pages := [(va / 4096, 0)], since := (ctxOf s ctx).ctime }

/-- R373: one ray of a hit list read for its block; one with an illegal shader completes. -/
def joinHit (c : Scene) (l die : Nat) (acc : State × List HitRay) (id : Nat) : State × List HitRay :=
  let s := acc.1
  let ctx := (launchOf s l).ctx
  match readVirtual s ctx (c.slot id + 58) 5 with
  | .error (.pageAbsent, va) => (holdRayAt s l id die va .shade, acc.2)
  | .error (e, _) => (completeRay s l id die .faulted e true, acc.2)
  | .ok b =>
    let h := fieldOf b 0 2
    if c.nhit ≤ h then (completeRay s l id die .faulted .protection false, acc.2)
    else match readVirtual s ctx (c.hittab + 16 * h) 8 with
      | .error (.pageAbsent, va) => (holdRayAt s l id die va .shade, acc.2)
      | .error (e, _) => (completeRay s l id die .faulted e true, acc.2)
      | .ok e =>
        let entry := leNat e
        if entry % 4 ≠ 0 ∨ 2 ^ 56 ≤ entry then (completeRay s l id die .faulted .protection false, acc.2)
        else (s, insertHit { shader := h, key := fieldOf b 2 2, id := id, entry := entry } acc.2)

/-- R373: the rays of a die's hit list of a launch, oldest first, each with its arrival. -/
def hitListOf (s : State) (l die : Nat) : List (Nat × Nat) := mgetD (mgetD s.work.rays l {}).hits die []

/-- R373: a hit block is formed. -/
def formHitBlock (s : State) (l die : Nat) : State :=
  match heldScene s l with
  | none => s
  | some c =>
    let list := hitListOf s l die
    let n := hitBlockSize s l
    let s1 := modRays s l fun r => { r with hits := mset r.hits die (list.drop n) }
    let p := ((list.take n).map Prod.fst).foldl (joinHit c l die) (s1, [])
    if p.2.isEmpty then p.1
    else
      modLaunch p.1 l fun k =>
        let e : SpawnEntry := { first := k.nextIndex, index := k.nextIndex, count := 1, params := k.params
                                rays := p.2.map fun h => (h.id, h.entry, h.key), die := some die }
        joinBarriers { k with nextIndex := k.nextIndex + 1, counter := k.counter + 1, hitQ := k.hitQ ++ [e] } 1

/-- R373: whether a hit block is due on a die. -/
def hitBlockDue (s : State) (l die : Nat) : Bool :=
  match hitListOf s l die with
  | [] => false
  | h :: r => decide (hitBlockSize s l ≤ r.length + 1) || decide (2000 ≤ (ctxOf s (launchOf s l).ctx).ctime - h.2)

/-- R373: `HIT_LIST_AGE_EXPIRY`: the list is long enough, or its oldest ray has waited 2 µs. -/
def execHitListAgeExpiry (launch die : Nat) (s : State) : Result :=
  .next (if hitBlockDue s launch die && (ctxOf s (launchOf s launch).ctx).resident then formHitBlock s launch die else s)

/-! ### Retirement (R366, R555) -/

/-- 15 R358: bytes 80 to 127 of a slot get content that is not architected: fresh free values. -/
def scribble (s : State) (ctx va : Nat) : State :=
  let bs := (List.range 12).flatMap fun k => leBytes 4 (Config.freeWord (s.draws + k)).toNat
  { (writeVirtual s ctx (va + 80) bs).getD s with draws := s.draws + 12 }

/-- R366: bytes 32 to 47 written where the hit improved. -/
def writeHit (s : State) (ctx va : Nat) (old new : RayRec) : State :=
  if old.t = new.t ∧ old.prim = new.prim ∧ old.inst = new.inst then s
  else (writeVirtual s ctx (va + 32)
    (leBytes 4 new.t.toNat ++ leBytes 4 new.prim ++ leBytes 4 new.inst ++ leBytes 4 new.uv)).getD s

/-- A launch's pending exits of a ray. -/
def exitsOf (s : State) (l id : Nat) : List (Nat × Bound) := mgetD (mgetD s.work.rays l {}).exits id []

/-- The pending exits of a ray written; an empty list is not kept. -/
def setExits (s : State) (l id : Nat) (es : List (Nat × Bound)) : State :=
  if es.isEmpty && (mget (mgetD s.work.rays l {}).exits id).isNone then s
  else modRays s l fun r => { r with exits := if es.isEmpty then merase r.exits id else mset r.exits id es }

/-- R366: a ray with a hit is appended to a die's hit list. -/
def enterHits (s : State) (l die id : Nat) : State :=
  let now := (ctxOf s (launchOf s l).ctx).ctime
  modRays s l fun r => { r with hits := mset r.hits die (mgetD r.hits die [] ++ [(id, now)]) }

/-- R366: what a visited ray does at its retirement. -/
def retireVisited (s : State) (r : RayRun) (c : Scene) (loc id : Nat) (old : RayRec) (order : Nat) (v : Visit) : State :=
  let l := r.launch
  let ctx := (launchOf s l).ctx
  let va := c.slot id
  let fails (st : Status) (code : FaultCode) (report : Bool) : State :=
    completeRay (setExits s l id []) l id loc st code report
  match v.state with
  | .faulted => fails .faulted .protection false
  | .poisoned =>
    if 10 < (exitsOf s l id).length + v.exits.length then fails .faulted .protection false else fails .poisoned .none true
  | st =>
    let all := pendingExits order (exitsOf s l id) v.exits
    let pending := if st = .stopped then [] else dropExits v.ray.t all
    if 10 < all.length then fails .faulted .protection false
    else
      let s1 := writeHit s ctx va old v.ray
      match pending with
      | e :: rest => fileRay (scribble (setExits s1 l id rest) ctx va) l c e.1 id
      | [] =>
        let s2 := setExits s1 l id []
        if v.ray.hit && v.ray.flags / 8 % 2 == 0 then
          enterHits ((writeVirtual s2 ctx (va + 64) (leBytes 1 3)).getD s2) l (loc % 4) id
        else completeRay s2 l id loc .done .none false

/-- R366, R370: the first ray of a run makes its visit and retires. -/
def retireRay (s : State) (cluster : Nat) (r : RayRun) (e : RayEntry) : State :=
  let l := r.launch
  let ctx := (launchOf s l).ctx
  let loc := rayLocation cluster
  match heldScene s l with
  | none => returnRay s l r.subtree loc e
  | some c =>
    match slotFaultAt s cluster l e.id with
    | some .pageAbsent => holdRay s l e.id loc (.back r.subtree e)
    | some code => completeRay s l e.id loc .faulted code true
    | none =>
      let s1 := engineUsed s (.ray cluster) ctx [(c.slot e.id, 128)]
      if poisonedRange s ctx (c.slot e.id) 128 then completeRay s1 l e.id loc .poisoned .none true
      else match runTable r, readEngine s (.ray cluster) ctx (c.slot e.id) 64 with
        | none, _ => completeRay s1 l e.id loc .faulted .illegalEncoding false
        | some _, .error (code, _) => completeRay s1 l e.id loc .faulted code true
        | some u, .ok b =>
          let old := parseRay b e.id
          retireVisited s1 r c loc e.id old u.order
            (visit { upt := u, buffer := r.buffer, bad := r.bad, nsub := c.nsub } old)

/-- R367: whether a run has gone on for 20 µs. -/
def runOver (s : State) (r : RayRun) : Bool := decide (20000 ≤ (ctxOf s (launchOf s r.launch).ctx).ctime - r.startedAt)

/-- R366, R367: `RAY_RETIRE`: past the run's 20 µs the ray whose visit was under way retires, and the run ends at that ray
boundary. A hit list that becomes long enough forms a block at its own event (R373). -/
def execRayRetire (cluster : Nat) (s : State) : Result :=
  match (clusterOf s cluster).run with
  | none => .next s
  | some r =>
    if !r.loaded || !(ctxOf s (launchOf s r.launch).ctx).resident then .next s
    else match r.rays with
      | [] => .next (endRun s cluster)
      | e :: rest =>
        let held := slotFaultAt s cluster r.launch e.id = some .pageAbsent
        let s1 := modCluster s cluster fun c =>
          { c with run := if rest.isEmpty || runOver s r then none
                          else some { r with rays := rest, out := if held then r.out + 1 else r.out } }
        let s2 := retireRay s1 cluster r e
        .next (if runOver s r then returnRays s2 r.launch r.subtree (rayLocation cluster) rest else s2)

/-- R367: `RUN_TIME_LIMIT`. -/
def execRunTimeLimit (cluster : Nat) (s : State) : Result :=
  match (clusterOf s cluster).run with
  | none => .next s
  | some r =>
    if runOver s r then
      .next (returnRays (endRun s cluster) r.launch r.subtree (rayLocation cluster) r.rays)
    else .next s

/-! ### Resolved pages (R356, R369, R370) -/

/-- R370: what a held ray does once its page is in. -/
def resumeHeld (s : State) (l id loc : Nat) (a : RayAct) : State :=
  match a with
  | .file i => match heldScene s l with
    | some c => fileRay s l c i id
    | none => completeRay s l id loc .faulted .protection true
  | .back i e => returnRay s l i loc e
  | .shade => enterHits s l (loc % 4) id
  | .complete st code report => completeRay s l id loc st code report

/-- The first held act of a ray of a launch, taken. -/
def takeHeld (s : State) (l id : Nat) : Option (RayAct × State) :=
  ((mgetD s.work.rays l {}).held.find? fun p => p.1 == id).map fun p =>
    (p.2, modRays s l fun r => { r with held := r.held.erase p })

/-- 17 R416: a ray record replays: a subtree is eligible again, or a held ray goes on. -/
def replayRay (s : State) (l kind subtree id loc : Nat) : State :=
  match kind with
  | 1 => modRayQueue s l subtree fun q => { q with waiting := false }
  | 2 => match takeHeld s l id with
    | none => s
    | some (a, s1) => resumeHeld s1 l id loc a
  | _ => s

/-- 17 R417: a ray record failed: the ray, or every ray of the subtree's queue, completes `FAULTED`. -/
def failRay (s : State) (l kind subtree id loc : Nat) (code : FaultCode) : State :=
  match kind with
  | 1 =>
    let es := (rayQueueOf s l subtree).all
    let s1 := modRayQueue s l subtree fun q => { q with waiting := false, die := [], ring := [] }
    es.foldl (fun acc e => completeRay acc l e.id loc .faulted code true) s1
  | 2 => match takeHeld s l id with
    | none => s
    | some (_, s1) =>
      if slotFault s1 l id ≠ some .pageAbsent then completeRay s1 l id loc .faulted code true
      else
      let s2 := modLaunch s1 l fun k => { k with rayCount := k.rayCount + 1 }
      engineFault (launchDown s2 l) (launchOf s l).ctx (loc % 4) 5 loc 0xFF (launchOf s l).handle code id
  | _ => s

end Sys2Proof.Machine
end

