-- ==== Sys2Proof/Machine/EvRecord.lean ====
section
/-!
DEFINITION. Command queues, records, graphs and queue reset (13 R306-R323) as device events. An event that cannot
happen leaves the state as it is (log 2).
-/

namespace Sys2Proof.Machine

/-! ### Queues and doorbells -/

/-- R308: a command queue of a context, if the supervisor has created it. -/
def cmdQueueOf (s : State) (ctx q : Nat) : Option CmdQueue := mget (ctxOf s ctx).queues q

/-- A command queue changed, if it exists. -/
def modCmdQueue (s : State) (ctx q : Nat) (f : CmdQueue → CmdQueue) : State :=
  modCtx s ctx fun c => { c with queues := mmod c.queues q f }

/-- 21 R487: the class code of the package. -/
def classCode : Nat := 0x120000

/-- 21 R487: the device identifier of the package. -/
def deviceIdentifier : Nat := 0x9800

/-- 21 R487: the doorbell page, and the offset in it, that an offset of BAR0 names; none in the management window. -/
def bar0Place (a : Nat) : Option (Nat × Nat) :=
  if 0x1000000 ≤ a ∧ a < 0x1000000 + 0x1000 * 4096 then some ((a - 0x1000000) / 0x1000, a % 0x1000) else none

/-- 21 R487: the doorbell page, and the offset in it, that an offset of a virtual function's BAR0 of 1 MiB names: pages from 4096
on are the functions', 256 each (log 88). -/
def functionPlace (fn a : Nat) : Option (Nat × Nat) :=
  if a < 2 ^ 20 then some (4096 + 256 * fn + a / 0x1000, a % 0x1000) else none

/-- 21 R487: the context of a doorbell page: its own number in the package's BAR0; what the supervisor has bound in a virtual
function's. -/
def pageContext (s : State) (page : Nat) : Option Nat :=
  if page < 4096 then some page else mget s.tables.functions (page - 4096)

/-- 21 R488: what a host reads of a doorbell page: 0 where no doorbell stands. -/
def doorbellRead (offset : Nat) : Option Word :=
  if (offset < 0x400 ∧ offset % 4 = 0) ∨ offset = 0x800 ∨ offset = 0xC00 then none else some 0

/-- 21 R488: a write to an offset of a context's doorbell page. -/
def ringDoorbell (s : State) (ctx offset value : Nat) : State :=
  let c := ctxOf s ctx
  if (mget s.ctxs ctx).isNone then s
  else if offset < 0x400 ∧ offset % 4 = 0 then
    match cmdQueueOf s ctx (offset / 4) with
    | none => s
    | some q => if value < q.size then modCmdQueue s ctx (offset / 4) fun x => { x with writeIdx := value } else s
  else if offset = 0x800 ∧ value < c.f.svcrSize then modCtx s ctx fun x => { x with svcrWrite := value }
  else if offset = 0xC00 ∧ value < c.f.xfrSize then modCtx s ctx fun x => { x with xfrWrite := value }
  else s

/-- R308, 21 R488: `DOORBELL_WRITE`. A sleeping package wakes (22 R526). -/
def execDoorbellWrite (ctx offset : Nat) (value : Word) (s : State) : Result :=
  .next (if hostReach s then
    { ((pageContext s ctx).map fun c => ringDoorbell s c offset value.toNat).getD s with power := { s.power with asleep := false } }
    else s)

/-! ### The reader's memory accesses -/

/-- 17 R409, R412: the reader of a die enters an absent page, without a replay record. -/
def enterReader (s : State) (die ctx vpn : Nat) : State :=
  enterFault (countDieEvent s die 7 1) die
    { ctx := ctx, vpn := vpn, access := 0, unit := 8, location := die, pageSize := pageSizeCode s ctx vpn }

/-- Whether a reader's entry for a page stands in some fault path. -/
def readerWaits (s : State) (ctx vpn : Nat) : Bool :=
  s.dies.any fun d =>
    (d.2.fault.queue ++ d.2.fault.ring).any (fun e => e.ctx == ctx && e.vpn == vpn && e.unit == 8)
      || d.2.fault.merge.any (fun m => m.ctx == ctx && m.vpn == vpn && !m.reader.isEmpty)

/-- R308: whether a ring base is legal. -/
def CmdQueue.legalBase (v : Nat) : Bool := v % 64 == 0 && decide (v < 2 ^ 56)

/-- R308: the sizes of a ring. -/
def CmdQueue.legalSize (v : Nat) : Bool := (List.range 11).any fun k => v == 2 ^ (6 + k)

/-- R308: whether a tag is free for a queue. Tag 0, the reset value, is free for every queue (DESIGN CHOICE, log 60). -/
def tagFree (s : State) (ctx q tag : Nat) : Bool :=
  decide (tag < 4096) && s.ctxs.all fun c => c.2.queues.all fun x => (c.1 == ctx && x.1 == q) || x.2.tag != tag || tag == 0

/-- The place of a G or H word (R309). -/
def wordPlace (s : State) (ctx va : Nat) (w : Bool) : Except FaultCode Place :=
  match translateWalk s ctx va { read := !w, write := w } with
  | .error .protection => translateWalk s ctx va { read := !w, write := w, hc := true }
  | r => r

/-- The 64-bit word at a G or H address, and whether it is poisoned. -/
def readWord64 (s : State) (ctx va : Nat) : Except FaultCode (Nat × Bool) :=
  match wordPlace s ctx va false with
  | .error c => .error c
  | .ok p =>
    let m := p.mem
    .ok (readBytes s m.1 ((List.range 8).map (m.2 + ·)), isPoisoned s m.1 (m.2 / 32))

/-- A 64-bit word written at a G or H address. -/
def writeWord64 (s : State) (ctx va x : Nat) : Except FaultCode State :=
  match wordPlace s ctx va true with
  | .error c => .error c
  | .ok (.device pa) => .ok (homeWrite s (byteWrites pa 8 x))
  | .ok (.host pa) => .ok (writeBytes s .host (byteWrites pa 8 x))

/-- Whether a virtual range can be read: the first page that cannot be, with its fault. -/
def mappedRange (s : State) (ctx va n : Nat) : Except (FaultCode × Nat) Unit :=
  match spans (fun a => translateWalk s ctx a { read := true }) (n / 4096 + 2) va n with
  | .error e => .error e
  | .ok _ => .ok ()

/-! ### Checks of a record (R312) -/

/-- A check that must hold. -/
def require (b : Bool) (c : FaultCode) : Except (FaultCode × Nat) Unit := if b then .ok () else .error (c, 0)

/-- 04 R92: the fields of a descriptor's 64 bytes. -/
def parseDesc (b : List Byte) : LaunchDesc :=
  let f := fieldOf b 15 1
  { entry := fieldOf b 0 8, allot := fieldOf b 8 1, gangs := fieldOf b 9 1, rows := fieldOf b 10 2
    l1Banks := fieldOf b 12 1, spadBanks := fieldOf b 13 1, tobBanks := fieldOf b 14 1
    fuse := f % 2 == 1, shadow := f / 2 % 2 == 1, group := f / 4 % 2 == 1, ageLimit := fieldOf b 16 2
    gangBars := fieldOf b 18 1, blockBars := fieldOf b 19 1, groupBars := fieldOf b 20 1
    launchBars := fieldOf b 21 1, paramBytes := fieldOf b 24 4, constBytes := fieldOf b 28 4
    constAddr := fieldOf b 32 8 }

/-- 04 R89, R92: the ranges of the fields, the bin age limit apart. -/
def LaunchDesc.inRange (d : LaunchDesc) : Bool :=
  d.entry % 4 == 0 && decide (d.entry < 2 ^ 56)
    && decide (8 ≤ d.allot ∧ d.allot ≤ 128) && d.allot % 8 == 0
    && decide (1 ≤ d.gangs ∧ d.gangs ≤ 32) && decide (d.gangs * 32 ≤ 65536 / max 1 d.allot)
    && d.l1Banks + d.spadBanks + d.tobBanks == 32 && decide (d.rows ≤ 64 * d.spadBanks)
    && (!d.fuse || decide (1 ≤ d.l1Banks))
    && decide (d.gangBars ≤ 4 ∧ d.blockBars ≤ 16 ∧ d.groupBars ≤ 8 ∧ d.launchBars ≤ 4)
    && decide (d.paramBytes ≤ 4096) && d.paramBytes % 8 == 0
    && decide (d.constBytes ≤ 65536) && (d.constAddr != 0 || d.constBytes == 0)

/-- 09 R216: whether the best core of the partition has the rows a launch declares. -/
def rowsPossible (s : State) (ctx : Nat) (d : LaunchDesc) : Bool :=
  (List.range 768).any fun g => inPartition s ctx g
    && decide (d.rows ≤ capacityWith s g (rolesFor s g d.l1Banks d.tobBanks) d.tobBanks (planVs s))

/-- R309: bank b of a K bank table: its address and size. -/
def tableBank (s : State) (ctx table b : Nat) : Except (FaultCode × Nat) (Nat × Nat) :=
  match readVirtual s ctx (table + 16 * (b - 2)) 16 with
  | .error e => .error e
  | .ok bs => .ok (fieldOf bs 0 8, fieldOf bs 8 4)

/-- The banks a mask binds from a table, each mapped and of a legal size. -/
def tableBanks (s : State) (ctx table : Nat) : List Nat → Except (FaultCode × Nat) (SMap (Nat × Nat))
  | [] => .ok []
  | b :: r => do
    require (table != 0) .protection
    let x ← tableBank s ctx table b
    require (decide (1 ≤ x.2 ∧ x.2 ≤ 65536)) .illegalEncoding
    mappedRange s ctx x.1 x.2
    let m ← tableBanks s ctx table r
    return (b, x) :: m

/-- The banks 2 to 15 that a mask names. -/
def maskBanks (mask : Nat) : List Nat := (List.range 14).filterMap fun i =>
  if mask / 2 ^ (i + 2) % 2 = 1 then some (i + 2) else none

/-- R312: the checks of a launch: its descriptor and the banks it reads through (09 R211). Where several fail, the first in
this order gives the code, and `SIGADDR` comes after them (log 65). -/
def checkLaunch (s : State) (ctx descAddr params table mask : Nat) :
    Except (FaultCode × Nat) (LaunchDesc × SMap (Nat × Nat)) := do
  let b ← readVirtual s ctx descAddr 64
  let d := parseDesc b
  require d.inRange .illegalEncoding
  require (params % 64 == 0) .alignment
  mappedRange s ctx params (if params = 0 then 0 else d.paramBytes)
  mappedRange s ctx d.constAddr d.constBytes
  let m ← tableBanks s ctx table (maskBanks mask)
  require (rowsPossible s ctx d) .scratchCapacity
  let k0 : SMap (Nat × Nat) := if d.constAddr = 0 then [] else [(0, (d.constAddr, d.constBytes))]
  let k1 : SMap (Nat × Nat) := if params = 0 then [] else [(1, (params, d.paramBytes))]
  return (d, k0 ++ k1 ++ m)

/-- R312: the check of `SIGADDR`. -/
def checkSignal (s : State) (ctx : Nat) (r : Record) : Except (FaultCode × Nat) Unit :=
  if r.signal || r.kind == 3 then
    if r.sigAddr % 8 ≠ 0 then .error (.alignment, r.sigAddr)
    else match wordPlace s ctx r.sigAddr true with
      | .error c => .error (c, r.sigAddr)
      | .ok _ => .ok ()
  else .ok ()

/-- R312: the check of a wait's word. -/
def checkWord (s : State) (ctx : Nat) (r : Record) : Except (FaultCode × Nat) Unit :=
  if r.addr1 % 8 ≠ 0 then .error (.alignment, r.addr1)
  else match wordPlace s ctx r.addr1 false with
    | .error c => .error (c, r.addr1)
    | .ok _ => .ok ()

/-! ### A record's outcome -/

/-- A record's status fixed before its completion writes. -/
def setDue (s : State) (ctx h : Nat) (st : Status) (code : FaultCode) : State :=
  modRecord s ctx h fun r => { r with due := some (st, code), page := none }

/-- R312: a check failed: the page is brought in, or the record completes `FAULTED` with nothing begun. -/
def checkFailed (s : State) (ctx die : Nat) (r : Record) (e : FaultCode × Nat) : State :=
  if e.1 = .pageAbsent then
    enterReader (modRecord s ctx r.handle fun x => { x with page := some (e.2 / 4096) }) die ctx (e.2 / 4096)
  else setDue s ctx r.handle .faulted e.1

/-- R312: a fault of the reader outside the checks is an engine fault of the context. -/
def readerFault (s : State) (ctx die handle : Nat) (code : FaultCode) (addr : Nat) : State :=
  engineFault s ctx die 8 die 0xFF handle code addr

/-- R312: a page the reader needs after the record has begun is absent: it is brought in, once. -/
def readerMisses (s : State) (ctx die : Nat) (r : Record) (va : Nat) : State :=
  if r.page = some (va / 4096) && readerWaits s ctx (va / 4096) then s
  else enterReader (modRecord s ctx r.handle fun x => { x with page := some (va / 4096) }) die ctx (va / 4096)

/-! ### Beginning a record (R310) -/

/-- R313, 02 R33: the launch of a checked descriptor with its seed block pending. -/
def newLaunch (s : State) (ctx handle descAddr params priority powerCap : Nat) (graph : Option Nat)
    (d : LaunchDesc) (banks : SMap (Nat × Nat)) : State :=
  let k : Launch :=
    { ctx := ctx, handle := handle, descAddr := descAddr, desc := d, bank := banks, params := params
      priority := priority, powerCap := powerCap, graph := graph, record := some handle
      spawnQ := [{ first := 0, index := 0, count := 1, entry := d.entry, params := params }] }
  modWork s fun w => { w with launches := mset w.launches w.nextLaunch (joinBarriers k 1)
                              nextLaunch := w.nextLaunch + 1 }

/-- The die of a record's queue and its priority and power cap (R308, R311). -/
def queueOfRecord (s : State) (ctx : Nat) (r : Record) : CmdQueue := (cmdQueueOf s ctx r.queue).getD {}

/-- R310 kind 1. -/
def beginLaunch (s : State) (ctx : Nat) (r : Record) : State :=
  let q := queueOfRecord s ctx r
  let check : Except (FaultCode × Nat) (LaunchDesc × SMap (Nat × Nat)) := do
    let x ← checkLaunch s ctx r.addr1 r.addr2 r.addr3 r.banks
    checkSignal s ctx r
    return x
  match check with
  | .error e => checkFailed s ctx q.die r e
  | .ok (d, banks) =>
    modRecord (newLaunch s ctx r.handle r.addr1 r.addr2 q.prio q.powerCap none d banks) ctx r.handle
      fun x => { x with begun := true, page := none, launch := some s.work.nextLaunch }

/-- R310 kind 3: the signal is written at completion. -/
def beginSignal (s : State) (ctx : Nat) (r : Record) : State :=
  match checkSignal s ctx r with
  | .error e => checkFailed s ctx (queueOfRecord s ctx r).die r e
  | .ok _ => modRecord s ctx r.handle fun x => { x with begun := true, page := none }

/-- R310 kind 4: the reader reads the word; the deadline is now an absolute context time. A poisoned word ends the
wait `POISONED`, as 10 R237 ends a wait that meets poison (log 32). -/
def waitEval (s : State) (ctx : Nat) (r : Record) : State :=
  let die := (queueOfRecord s ctx r).die
  let now := (ctxOf s ctx).ctime
  match readWord64 s ctx r.addr1 with
  | .error .pageAbsent =>
    if r.deadline ≤ now then setDue s ctx r.handle .timeout .none else readerMisses s ctx die r r.addr1
  | .error c => readerFault (setDue s ctx r.handle .faulted c) ctx die r.handle c r.addr1
  | .ok (x, bad) =>
    if bad then setDue s ctx r.handle .poisoned .none
    else if r.value ≤ x then setDue s ctx r.handle .done .none
    else if r.deadline ≤ now then setDue s ctx r.handle .timeout .none
    else s

/-- R309, 02 R48: the deadline of a record in context time. -/
def recordDeadline (s : State) (ctx us : Nat) : Nat := (ctxOf s ctx).ctime + min (1000 * us) (maxWait s ctx)

/-- R310 kind 4, when it begins. -/
def beginWait (s : State) (ctx : Nat) (r : Record) : State :=
  let check : Except (FaultCode × Nat) Unit := do
    checkWord s ctx r
    checkSignal s ctx r
  match check with
  | .error e => checkFailed s ctx (queueOfRecord s ctx r).die r e
  | .ok _ =>
    let dl := recordDeadline s ctx r.deadline
    let s1 := modRecord s ctx r.handle fun x => { x with begun := true, page := none, deadline := dl }
    waitEval s1 ctx { r with begun := true, page := none, deadline := dl }

/-- R310 kind 5: the phase is closed; the next record opens another. -/
def beginMark (s : State) (ctx : Nat) (r : Record) : State :=
  match checkSignal s ctx r with
  | .error e => checkFailed s ctx (queueOfRecord s ctx r).die r e
  | .ok _ =>
    modCmdQueue (modRecord s ctx r.handle fun x => { x with begun := true, page := none }) ctx r.queue
      fun q => { q with phaseNo := r.phase + 1 }

/-- R310, R321 kind 6: the named level is cancelled. -/
def beginCancel (s : State) (ctx : Nat) (r : Record) : State :=
  match checkSignal s ctx r with
  | .error e => checkFailed s ctx (queueOfRecord s ctx r).die r e
  | .ok _ =>
    setDue (cancelHandle (modRecord s ctx r.handle fun x => { x with begun := true, page := none }) ctx 2
      (r.addr1 % 2 ^ 32)) ctx r.handle .done .none

/-! ### Graph replays (R316-R318) -/

/-- R316: a checked graph header. -/
structure GraphHead where
  nodes : Nat
  size : Nat
  slots : Nat
  signal : Nat
  deriving DecidableEq, Repr

/-- R316, R317: the header of a graph object, checked. -/
def graphHead (s : State) (ctx g : Nat) : Except (FaultCode × Nat) GraphHead := do
  let b ← readVirtual s ctx g 64
  let h : GraphHead := { nodes := fieldOf b 0 2, size := fieldOf b 4 4, slots := fieldOf b 8 8, signal := fieldOf b 16 8 }
  require (decide (1 ≤ h.nodes ∧ h.nodes ≤ 256) && h.size % 64 == 0 && decide (h.size ≤ 16384)
    && h.slots % 64 == 0 && h.signal % 8 == 0) .illegalEncoding
  if h.signal = 0 then .ok () else
    match wordPlace s ctx h.signal true with
    | .error c => .error (c, h.signal)
    | .ok _ => .ok ()
  return h

/-- R316: a node of a graph with its descriptor, banks and successor mask. -/
structure GraphEntry where
  desc : LaunchDesc
  descAddr : Nat
  banks : SMap (Nat × Nat)
  params : Nat
  succ : Nat
  deriving DecidableEq, Repr

/-- R316: node i of a graph with its slot, checked. The parameter block lies in the slot; one that reaches past it faults with
`ILLEGAL_ENCODING` (DESIGN CHOICE, log 86). -/
def graphNode (s : State) (ctx g : Nat) (h : GraphHead) (slot i : Nat) : Except (FaultCode × Nat) GraphEntry := do
  let b ← readVirtual s ctx (g + 64 + 64 * i) 64
  let off := fieldOf b 16 4
  let succ := fieldOf b 32 32
  require (off % 64 == 0 && succ % 2 ^ (i + 1) == 0 && fieldOf b 20 2 % 4 == 0) .illegalEncoding
  let params := h.slots + slot * h.size + off
  let x ← checkLaunch s ctx (fieldOf b 0 8) params (fieldOf b 8 8) (fieldOf b 20 2)
  require (decide (off + x.1.paramBytes ≤ h.size)) .illegalEncoding
  return { desc := x.1, descAddr := fieldOf b 0 8, banks := x.2, params := params, succ := succ }

/-- The nodes of a graph from number i up; `fuel` counts those left. -/
def graphNodes (s : State) (ctx g : Nat) (h : GraphHead) (slot : Nat) :
    Nat → Nat → Except (FaultCode × Nat) (List GraphEntry)
  | 0, _ => .ok []
  | fuel + 1, i => do
    let x ← graphNode s ctx g h slot i
    let r ← graphNodes s ctx g h slot fuel (i + 1)
    return x :: r

/-- R317: the nodes of a replay: the predecessors of node j are the nodes whose masks name it. -/
def replayNodes (es : List GraphEntry) : List GraphNode :=
  (List.range es.length).zip es |>.map fun p =>
    { desc := p.2.desc, descAddr := p.2.descAddr, banks := p.2.banks, params := p.2.params
      preds := BitVec.ofNat 256 ((List.range p.1).foldl (fun n i =>
        n + (if ((es[i]?).map fun e => e.succ / 2 ^ p.1 % 2).getD 0 = 1 then 2 ^ i else 0)) 0) }

/-- R318: the slots of a graph object that are free. -/
def freeSlots (s : State) (ctx g : Nat) : List Nat :=
  (List.range 4).filter fun n => !((moreOf s ctx).replays.any fun r => r.graph == g && r.slot == n)

/-- R317: the snapshot copied into the slot: every byte in one act. -/
def copySnapshot (s : State) (ctx src dst n : Nat) : Except (FaultCode × Nat) State :=
  match readVirtual s ctx src n with
  | .error e => .error e
  | .ok bs =>
    match byteSpots (fun a => translateWalk s ctx a { write := true }) dst n with
    | .error e => .error e
    | .ok ms => .ok (homeWrite s ((ms.zip bs).map fun x => (x.1.2, x.2)))

/-- R317: a replay begins in a slot. -/
def startReplay (s : State) (ctx : Nat) (r : Record) (slot : Nat) : Except (FaultCode × Nat) State := do
  let h ← graphHead s ctx r.addr1
  let es ← graphNodes s ctx r.addr1 h slot h.nodes 0
  checkSignal s ctx r
  let s1 ← copySnapshot s ctx r.addr2 (h.slots + slot * h.size) h.size
  let x : Replay := { graph := r.addr1, slot := slot, handle := r.handle, nodes := replayNodes es,
                      counter := h.nodes, signal := h.signal }
  return modMore s1 ctx fun m => { m with replays := m.replays ++ [x] }

/-- R312: the checks of a replay record that finds no slot: its graph object, its signal's address and its snapshot. -/
def checkReplay (s : State) (ctx : Nat) (r : Record) : Except (FaultCode × Nat) Unit := do
  let h ← graphHead s ctx r.addr1
  let _ ← graphNodes s ctx r.addr1 h 0 h.nodes 0
  checkSignal s ctx r
  mappedRange s ctx r.addr2 h.size

/-- R318: a replay whose record passes its checks finds a slot and begins, waits for one, or completes `BUSY` at its
deadline. -/
def beginReplay (s : State) (ctx : Nat) (r : Record) : State :=
  match freeSlots s ctx r.addr1 with
  | [] =>
    match checkReplay s ctx r with
    | .error e => checkFailed s ctx (queueOfRecord s ctx r).die r e
    | .ok _ => if r.deadline ≤ (ctxOf s ctx).ctime then setDue s ctx r.handle .busy .none else s
  | slot :: _ =>
    match startReplay s ctx r slot with
    | .error e => checkFailed s ctx (queueOfRecord s ctx r).die r e
    | .ok s1 => modRecord s1 ctx r.handle fun x => { x with begun := true, page := none }

/-- R312: the checks of a record, by its kind. -/
def checkRecord (s : State) (ctx : Nat) (r : Record) : Except (FaultCode × Nat) Unit :=
  match r.kind with
  | 1 => do
    let _ ← checkLaunch s ctx r.addr1 r.addr2 r.addr3 r.banks
    checkSignal s ctx r
  | 2 => checkReplay s ctx r
  | 4 => do
    checkWord s ctx r
    checkSignal s ctx r
  | _ => checkSignal s ctx r

/-- R312, R327: a record that a cancel has marked is checked as every record is, and completes `CANCELLED` without
starting. -/
def dropBegun (s : State) (ctx : Nat) (r : Record) : State :=
  match checkRecord s ctx r with
  | .error e => checkFailed s ctx (queueOfRecord s ctx r).die r e
  | .ok _ => setDue s ctx r.handle .cancelled .none

/-- R310: a record that is read, or whose page has come, begins where its checks allow. -/
def beginRecord (s : State) (ctx : Nat) (r : Record) : State :=
  if r.drop then dropBegun s ctx r else
  match r.kind with
  | 1 => beginLaunch s ctx r
  | 2 => beginReplay s ctx r
  | 3 => beginSignal s ctx r
  | 4 => beginWait s ctx r
  | 5 => beginMark s ctx r
  | _ => beginCancel s ctx r

/-! ### Reading a record (R309-R312) -/

/-- R309: whether the reserved bytes and bits of a record, and those the host must write as 0, are 0, and its kind
is legal. A record whose bytes 2 to 7 are not 0 faults like one with a reserved bit set (DESIGN CHOICE, log 86). -/
def recordOk64 (b : List Byte) : Bool :=
  decide (1 ≤ fieldOf b 0 1 ∧ fieldOf b 0 1 ≤ 6) && decide (fieldOf b 1 1 < 4) && fieldOf b 2 6 == 0
    && fieldOf b 32 2 % 4 == 0 && fieldOf b 34 2 == 0 && fieldOf b 56 8 == 0

/-- R309: a record of a queue from its 64 bytes. -/
def parseRecord (b : List Byte) (ctxQueue handle addr phase : Nat) : Record :=
  { handle := handle, queue := ctxQueue, addr := addr, kind := fieldOf b 0 1, serial := fieldOf b 1 1 % 2 == 1
    signal := fieldOf b 1 1 / 2 % 2 == 1, addr1 := fieldOf b 8 8, addr2 := fieldOf b 16 8, addr3 := fieldOf b 24 8
    banks := fieldOf b 32 2, deadline := fieldOf b 36 4, sigAddr := fieldOf b 40 8, value := fieldOf b 48 8
    phase := phase }

/-- The records of a queue that have not completed. -/
def openRecords (s : State) (ctx q : Nat) : List Record :=
  (ctxOf s ctx).records.filter fun r => r.queue == q && r.ended.isNone

/-- R310, R312, R318: whether a record that has been read and has not completed holds back those after it: a wait until it
completes, any other until it begins. -/
def Record.holdsBack (r : Record) : Bool := r.kind == 4 || (r.due.isNone && !r.begun)

/-- R311: whether a queue's reader may read its next record. -/
def readerMay (s : State) (ctx q : Nat) (c : CmdQueue) : Bool :=
  !c.reset && !c.stopped && c.readIdx != c.writeIdx && (ctxOf s ctx).resident && !s.power.asleep
    && !((openRecords s ctx q).any Record.holdsBack)

/-- R309: the address of a queue's next record. -/
def CmdQueue.head (c : CmdQueue) : Nat := c.base + 64 * c.readIdx

/-- The next record of a queue, which the device reads and writes: absent until its page is in, or what stops the queue
(R309, R311). -/
def headBytes (s : State) (ctx : Nat) (c : CmdQueue) : Except FaultCode (List Byte) :=
  match readVirtual s ctx c.head 64, translateWalk s ctx c.head { write := true } with
  | .error (e, _), _ => .error e
  | .ok _, .error e => .error e
  | .ok b, .ok _ => if poisonedRange s ctx c.head 64 then .error .poisonConsumed else .ok b

/-- R310: whether the head record of a queue may begin beside the queue's open records: one with `SERIAL`, or of kind 3,
waits for every earlier record. -/
def serialOk (s : State) (ctx q : Nat) (b : List Byte) : Bool :=
  !((fieldOf b 1 1 % 2 == 1 || fieldOf b 0 1 == 3) && !(openRecords s ctx q).isEmpty)

/-- R311: whether the reader could serve a queue now: its head record is there and may begin, or its page must be
entered. -/
def queueReadable (s : State) (ctx q : Nat) (c : CmdQueue) : Bool :=
  readerMay s ctx q c && match headBytes s ctx c with
    | .error .pageAbsent => !readerWaits s ctx (c.head / 4096)
    | .error _ => true
    | .ok b => serialOk s ctx q b

/-- The queues of a die's record reader that it could serve, by context and number, with their priorities. -/
def readableQueues (s : State) (die : Nat) : List ((Nat × Nat) × Nat) :=
  s.ctxs.flatMap fun c => (c.2.queues.filter fun q => q.2.die == die && queueReadable s c.1 q.1 q.2).map fun q =>
    ((c.1, q.1), q.2.prio)

/-- Whether one queue stands after another in the order of context and number. -/
def queueAfter (a b : Nat × Nat) : Bool := decide (b.1 < a.1) || (a.1 == b.1 && decide (b.2 < a.2))

/-- R311: the queue that a die's record reader serves next: of the highest priority, in rotation after the one last served.
The greater number is the higher priority (log 61). -/
def servedQueue (s : State) (die : Nat) : Option (Nat × Nat) :=
  let xs := readableQueues s die
  let top := xs.foldl (fun m x => max m x.2) 0
  let ys := (xs.filter fun x => x.2 == top).map Prod.fst
  match (dieOf s die).lastQueue with
  | none => ys.head?
  | some l => match ys.find? fun y => queueAfter y l with
    | some y => some y
    | none => ys.head?

/-- R311: a queue whose ring cannot be read stops. -/
def stopQueue (s : State) (ctx q : Nat) (c : CmdQueue) (code : FaultCode) : State :=
  readerFault (modCmdQueue s ctx q fun x => { x with stopped := true }) ctx c.die 0 code c.head

/-- The bytes of `HANDLE` of the record at the head of a queue. -/
def CmdQueue.handle (c : CmdQueue) (q : Nat) : Nat := q * 2 ^ 24 + c.seq % 2 ^ 24



/-- R309, R320, R49: a record is read: its handle is written, the read index and the counters move. A level marked
ahead by a cancel completes `CANCELLED` without starting (R327), and a phase whose mark was marked is cancelled; `stop` is
the outcome of one that the firmware drops (22 R519). -/
def takeHeadAs (stop : Option (Status × FaultCode)) (s : State) (ctx q : Nat) (c : CmdQueue) (b : List Byte) : State :=
  let h := c.handle q
  let r0 := parseRecord b q h c.head c.phaseNo
  let key := phaseKey q c.phaseNo
  let dropped := c.marks.contains (c.seq % 2 ^ 24) || (phaseOf s ctx key).cancelled
  let r : Record :=
    if stop.isSome then { r0 with due := stop }
    else if !recordOk64 b then { r0 with due := some (.faulted, .illegalEncoding) }
    else { r0 with drop := dropped && r0.kind != 5 }
  let r1 := if r.kind = 2 then { r with deadline := recordDeadline s ctx r.deadline } else r
  let s1 := (writeVirtual s ctx (c.head + 4) (leBytes 4 h)).getD s
  let s2 := modCmdQueue s1 ctx q fun x =>
    { x with readIdx := (x.readIdx + 1) % max 1 x.size, seq := (x.seq + 1) % 2 ^ 24
             marks := x.marks.filter (· != c.seq % 2 ^ 24) }
  let s3 := modCtx s2 ctx fun x => { x with records := r1 :: x.records }
  let s4 := modMore s3 ctx fun m => { m with jobCounter := m.jobCounter + 1 }
  let s5 := if r.kind ≠ 5 then modPhase s4 ctx key fun p => { p with counter := p.counter + 1 }
    else if c.marks.contains (c.seq % 2 ^ 24) then cancelMarked s4 ctx key else s4
  if r1.due.isSome then s5 else beginRecord s5 ctx r1

/-- R309: a record is read, and begins where it may. -/
def takeHead (s : State) (ctx q : Nat) (c : CmdQueue) (b : List Byte) : State := takeHeadAs none s ctx q c b

/-- R310, R311: the reader of a queue's die serves the queue, if it is the queue's turn: it reads the head record where its
kind is one of `kind`, enters its page, or stops the queue. -/
def readHead (kind : Nat → Bool) (ctx queue : Nat) (s : State) : State :=
  match cmdQueueOf s ctx queue with
  | none => s
  | some c =>
    if servedQueue s c.die ≠ some (ctx, queue) then s
    else
      let s1 := modDie s c.die fun d => { d with lastQueue := some (ctx, queue) }
      match headBytes s ctx c with
      | .error .pageAbsent => enterReader s1 c.die ctx (c.head / 4096)
      | .error e => stopQueue s1 ctx queue c e
      | .ok b => if kind (fieldOf b 0 1) then takeHead s1 ctx queue c b else s

/-- R310: `LAUNCH_RECORD`; a record of an illegal kind is read here too. -/
def execLaunchRecord (ctx queue : Nat) (s : State) : Result :=
  .next (readHead (fun k => k == 1 || k == 0 || decide (6 < k)) ctx queue s)

/-- R317, R318: the replay of a queue that waits for a slot. -/
def waitingReplay (s : State) (ctx queue : Nat) : Option Record :=
  (openRecords s ctx queue).find? fun r => r.kind == 2 && !r.begun && r.due.isNone && r.page.isNone

/-- R317: `GRAPH_REPLAY_RECORD`: a replay that waits for a slot takes one that is free, or the next record is
read. -/
def execGraphReplayRecord (ctx queue : Nat) (s : State) : Result :=
  match waitingReplay s ctx queue with
  | some r => .next (if (freeSlots s ctx r.addr1).isEmpty || !(ctxOf s ctx).resident then s else beginReplay s ctx r)
  | none => .next (readHead (· == 2) ctx queue s)

/-- R310: `SIGNAL_RECORD`. -/
def execSignalRecord (ctx queue : Nat) (s : State) : Result := .next (readHead (· == 3) ctx queue s)

/-- R310: `WAIT_RECORD`. -/
def execWaitRecord (ctx queue : Nat) (s : State) : Result := .next (readHead (· == 4) ctx queue s)

/-- R310: `PHASE_MARK_RECORD`. -/
def execPhaseMarkRecord (ctx queue : Nat) (s : State) : Result := .next (readHead (· == 5) ctx queue s)

/-- R310, R321: `CANCEL_RECORD`. -/
def execCancelRecord (ctx queue : Nat) (s : State) : Result := .next (readHead (· == 6) ctx queue s)

/-- R310: `WAIT_RECORD_REREAD`. -/
def execWaitRecordReread (ctx handle : Nat) (s : State) : Result :=
  match recordOf s ctx handle with
  | some r =>
    if r.kind = 4 ∧ r.begun ∧ r.due.isNone ∧ r.ended.isNone ∧ (ctxOf s ctx).resident then
      .next (waitEval s ctx r)
    else .next s
  | none => .next s

/-- Whether a page is no longer met as absent by the reader (R312). -/
def readerPresent (s : State) (ctx vpn : Nat) : Bool :=
  match translateWalk s ctx (4096 * vpn) { read := true } with
  | .error .pageAbsent => false
  | _ => true

/-- R312: `RECORD_PAGE_RESOLVED`: the record of a queue that waits for a page is checked again. -/
def execRecordPageResolved (ctx queue : Nat) (s : State) : Result :=
  let waits (r : Record) : Bool := !r.begun && r.due.isNone && match r.page with
    | some v => readerPresent s ctx v
    | none => false
  if !(ctxOf s ctx).resident then .next s else
  match (openRecords s ctx queue).find? waits with
  | some r => .next (beginRecord (modRecord s ctx r.handle fun x => { x with page := none }) ctx { r with page := none })
  | none => .next s

/-! ### Completion (R310, R317) -/

/-- R310: the status of a record whose work has ended. -/
def recordResult (s : State) (ctx : Nat) (r : Record) : Option (Status × FaultCode) :=
  match r.due with
  | some x => some x
  | none =>
    if !r.begun then none
    else
      match r.kind, r.launch with
      | 1, some l => if (launchOf s l).counter = 0 then some (launchOf s l).state.status else none
      | 2, _ => match replayOf s ctx r.handle with
        | some x => if x.counter = 0 then some (replayStatus s ctx x) else none
        | none => some (.done, .none)
      | 3, _ => some (.done, .none)
      | 5, _ =>
        let p := phaseOf s ctx (phaseKey r.queue r.phase)
        if p.counter = 0 then some (if p.cancelled then .cancelled else .done, .none) else none
      | _, _ => none

/-- R317: the value of a graph's completion signal. -/
def graphSignal (h : Nat) (st : Status × FaultCode) : Nat :=
  h + st.1.code * 2 ^ 32 + (if st.1 = .faulted then st.2.byte * 2 ^ 40 else 0)

/-- The writes that precede a record's status: each address with its value (R310, R317). -/
def signalWrites (s : State) (ctx : Nat) (r : Record) (st : Status × FaultCode) : List (Nat × Nat) :=
  let g := match r.kind, replayOf s ctx r.handle with
    | 2, some x => if x.signal = 0 then [] else [(x.signal, graphSignal r.handle st)]
    | _, _ => []
  let failed := !r.begun && (r.due.map Prod.fst) == some .faulted
  let own := if (r.signal && !failed) || (r.kind == 3 && r.begun) then [(r.sigAddr, r.value)] else []
  (g ++ own).drop r.wrote

/-- The writes made in order, each counted in the record; the first that cannot be made stops them, and those before it
stand. -/
def writeSignals (ctx h : Nat) : List (Nat × Nat) → State → State × Option (FaultCode × Nat)
  | [], s => (s, none)
  | w :: r, s =>
    match writeWord64 s ctx w.1 w.2 with
    | .error c => (s, some (c, w.1))
    | .ok s1 => writeSignals ctx h r (modRecord s1 ctx h fun x => { x with wrote := x.wrote + 1 })

/-- R310, R328: a record leaves its phase: a phase mark that began ends it (one whose checks failed closed nothing), and any other
is counted out of it. -/
def leavePhase (s : State) (ctx : Nat) (r : Record) (st : Status) : State :=
  if r.kind = 5 then
    if r.begun then modPhase s ctx (phaseKey r.queue r.phase) fun p => { p with ended := some st } else s
  else modPhase s ctx (phaseKey r.queue r.phase) fun p => { p with counter := p.counter - 1 }

/-- R49: the record has completed: its levels count it out, its replay slot is free. -/
def countOut (s : State) (ctx : Nat) (r : Record) (st : Status × FaultCode) : State :=
  let s2 := modRecord s ctx r.handle fun x => { x with ended := some st, due := none, page := none }
  let s3 := modMore s2 ctx fun m =>
    { m with jobCounter := m.jobCounter - 1, replays := m.replays.filter fun x => x.handle != r.handle }
  leavePhase s3 ctx r st.1

/-- R310, R311: `STATUS` and `FAULT` are written in the record's ring and it has completed; an absent page of the ring is
brought in first, and a ring that cannot be written stops the queue. -/
def finishRecord (s : State) (ctx : Nat) (r : Record) (st : Status × FaultCode) : State :=
  let q := queueOfRecord s ctx r
  let code := if st.1 = .faulted then st.2.byte else 0
  match translateWalk s ctx r.addr { write := true } with
  | .error .pageAbsent => readerMisses (modRecord s ctx r.handle fun x => { x with due := some st }) ctx q.die r r.addr
  | .error c => stopQueue (countOut s ctx r st) ctx r.queue q c
  | .ok _ => countOut ((writeVirtual s ctx (r.addr + 2) (leBytes 1 st.1.code ++ leBytes 1 code)).getD s) ctx r st

/-- R310: `RECORD_COMPLETION`. A signal that fails translation completes the record `FAULTED` (R312); where it is the graph's
own (R317), the record's `SIGNAL` is not written after it (DESIGN CHOICE, log 86). After a queue reset nothing of its records is
written (R323). -/
def execRecordCompletion (ctx handle : Nat) (s : State) : Result :=
  match recordOf s ctx handle with
  | none => .next s
  | some r =>
    let die := (queueOfRecord s ctx r).die
    if r.ended.isSome || !(ctxOf s ctx).resident then .next s
    else
      match recordResult s ctx r with
      | none => .next s
      | some st =>
        match writeSignals ctx handle (signalWrites s ctx r st) s with
        | (s1, none) => .next (finishRecord s1 ctx r st)
        | (s1, some (.pageAbsent, va)) => .next (readerMisses s1 ctx die r va)
        | (s1, some (c, va)) =>
          .next (readerFault (finishRecord (modRecord s1 ctx handle fun x => { x with wrote := 2 }) ctx { r with signal := false } (.faulted, c)) ctx die r.handle c va)

/-- R317: whether every predecessor of a node has completed. -/
def nodeReady (x : Replay) (n : GraphNode) : Bool :=
  !n.begun && (List.range x.nodes.length).all fun i =>
    !n.preds.getLsbD i || ((x.nodes[i]?).map GraphNode.ended).getD true

/-- R317: `GRAPH_NODE_BEGIN`. -/
def execGraphNodeBegin (ctx handle node : Nat) (s : State) : Result :=
  match replayOf s ctx handle, recordOf s ctx handle with
  | some x, some r =>
    match x.nodes[node]? with
    | some n =>
      if nodeReady x n && x.state == .running && (ctxOf s ctx).resident then
        let q := queueOfRecord s ctx r
        let l := s.work.nextLaunch
        let s1 := newLaunch s ctx handle n.descAddr n.params q.prio q.powerCap (some handle) n.desc n.banks
        .next (modReplay s1 ctx handle fun y =>
          { y with nodes := y.nodes.modify node fun z => { z with begun := true, launch := some l } })
      else .next s
    | none => .next s
  | _, _ => .next s

/-- R318: `REPLAY_SLOT_DEADLINE`. -/
def execReplaySlotDeadline (ctx queue : Nat) (s : State) : Result :=
  match waitingReplay s ctx queue with
  | some r =>
    if r.deadline ≤ (ctxOf s ctx).ctime ∧ (freeSlots s ctx r.addr1).isEmpty then
      .next (setDue s ctx r.handle .busy .none)
    else .next s
  | none => .next s

/-! ### Queue reset (R323) -/

/-- R323 steps 1 to 3: `QUEUE_RESET`. No signal or status of the queue's records is written any more. The reset cancels the
queue's phases and begins none: a record read after it stands in the cancelled phase until the next phase mark (DESIGN CHOICE,
log 86). -/
def execQueueReset (ctx queue : Nat) (s : State) : Result :=
  match cmdQueueOf s ctx queue with
  | none => .next s
  | some c =>
    if c.reset then .next s
    else
      .next (onContext (modCmdQueue s ctx queue fun q => { q with reset := true, resetDone := false }) ctx fun s1 =>
        cancelRecords ((mkeys (ctxOf s ctx).phases).foldl
          (fun acc k => if k / 2 ^ 24 = queue then cancelPhase acc ctx k else acc) s1) ctx fun r => r.queue == queue)

/-- R323: whether every level begun from a record has ended. -/
def recordSettled (s : State) (ctx : Nat) (r : Record) : Bool :=
  r.ended.isSome || r.due.isSome
    || (match r.kind, r.launch with
        | 1, some l => (launchOf s l).counter == 0
        | 2, _ => ((replayOf s ctx r.handle).map fun x => x.counter == 0).getD true
        | _, _ => true)

/-- R323: the records of a queue dropped with their places in the counters. -/
def dropRecord (s : State) (ctx : Nat) (r : Record) : State :=
  let st := ((recordResult s ctx r).map Prod.fst).getD .cancelled
  let s1 := modRecord s ctx r.handle fun x => { x with ended := some (st, .none), due := none, page := none }
  let s2 := modMore s1 ctx fun m =>
    { m with jobCounter := m.jobCounter - 1, replays := m.replays.filter fun x => x.handle != r.handle }
  leavePhase s2 ctx r st

/-- R323 steps 4 and 5: `QUEUE_RESET_DONE`. -/
def execQueueResetDone (ctx queue : Nat) (s : State) : Result :=
  match cmdQueueOf s ctx queue with
  | none => .next s
  | some c =>
    if c.reset && !c.resetDone && (openRecords s ctx queue).all (recordSettled s ctx) then
      .next (modCmdQueue ((openRecords s ctx queue).foldl (fun acc r => dropRecord acc ctx r) s) ctx queue
        fun q => { q with resetDone := true, readIdx := q.writeIdx, seq := (q.seq + q.unread.length) % 2 ^ 24 })
    else .next s

/-! ### Spill and power -/

/-- R305, R306: the ring's head entries refill the on-die part, of whose entries each die holds `cap`; `fuel` counts the
ring. -/
def refillFrom {α : Type} (home : α → Nat) (cap : Nat) : List α → List α → List α × List α
  | die, [] => (die, [])
  | die, x :: r =>
    if (die.filter fun y => home y == home x).length < cap then refillFrom home cap (die ++ [x]) r else (die, x :: r)

/-- `refillFrom` on a pair. -/
def refillHome {α : Type} (home : α → Nat) (cap : Nat) (q : List α × List α) : List α × List α :=
  refillFrom home cap q.1 q.2

/-- R305, R306: a hardware queue of several dies refilled. -/
def HwQueue.refillFor (home : List Byte → Nat) (cap : Nat) (q : HwQueue) : HwQueue :=
  let p := refillHome home cap (q.die, q.ring)
  { q with die := p.1, ring := p.2 }

/-- R306: a hardware queue's on-die part refilled from its ring. -/
def HwQueue.refill (cap : Nat) (q : HwQueue) : HwQueue :=
  let p := spillRefillPair cap (q.die, q.ring)
  { q with die := p.1, ring := p.2 }

/-- 16 R382: the bins of a binner with references in their spill rings: launch, view and tile. -/
def ringBins (x : Binner) : List (Nat × Nat × Nat) :=
  (x.all.flatMap fun p => p.ringRefs.map fun t => (p.launch, t.1, t.2)).dedup

/-- A reference of a primitive comes back from its bin's ring. -/
def BinPrim.unspill (p : BinPrim) (t : Nat × Nat) : BinPrim :=
  { p with refs := p.refs ++ [t], ringRefs := p.ringRefs.filter (· != t) }

/-- R306, 16 R382: a binner's primitive store refills from its ring, and bin n of those with a ring takes the reference at its
ring's head where there is room on die. -/
def refillBinner (x : Binner) (n : Nat) : Binner :=
  let p := spillRefillPair 4096 (x.prims, x.ring)
  let y := { x with prims := p.1, ring := p.2 }
  match (ringBins y)[n]? with
  | none => y
  | some (l, t) =>
    match y.all.find? fun q => q.launch == l && q.ringRefs.contains t with
    | none => y
    | some h => if y.dieRefs < 16384 then y.mapPrims fun q => if q.launch = l ∧ q.seq = h.seq then q.unspill t else q else y

/-- R306: `SPILL_REFILL`. -/
def execSpillRefill (q : QueueId) (s : State) : Result :=
  match q with
  | .message ctx n => .next (if (mget s.ctxs ctx).isSome then modMsg s ctx n (HwQueue.refill 256) else s)
  | .spawn l => .next (modLaunch s l fun k =>
      let p := refillHome SpawnEntry.home 64 (k.spawnQ, k.spawnRing)
      { k with spawnQ := p.1, spawnRing := p.2 })
  | .subtree l i => .next (if (mget (mgetD s.work.rays l {}).queues i).isSome then
      modRayQueue s l i fun x =>
        let p := spillRefillPair (queueCap s x.home x) (x.die, x.ring)
        { x with die := p.1, ring := p.2 }
      else s)
  | .bin b n => .next (if b < 8 then modBinner s b fun x => refillBinner x n else s)
  | .atlas ctx => .next (if (mget s.ctxs ctx).isSome then
      modCtx s ctx fun c => { c with atlas := c.atlas.refill 256 } else s)
  | .fault die => .next (if die < 4 then
      modDie s die fun d =>
        let p := spillRefillPair 256 (d.fault.queue, d.fault.ring)
        { d with fault := { d.fault with queue := p.1, ring := p.2 } }
      else s)
  | .svc ctx => .next (if (mget s.ctxs ctx).isSome then
      modCtx s ctx fun c => { c with svcQ := c.svcQ.refillFor callHome 32 } else s)

/-- R322: `POWER_BUDGET_EVAL`: the issue rate in eighths that its budget leaves a queue's blocks; it rises again by a step
while the sum is within the budget (log 31). -/
def execPowerBudgetEval (ctx queue watts : Nat) (s : State) : Result :=
  .next (if (cmdQueueOf s ctx queue).isNone then s else modCmdQueue s ctx queue fun q =>
    if q.powerCap = 0 then { q with throttle := 8 }
    else if q.powerCap < watts then { q with throttle := max 1 (q.throttle - 1) }
    else { q with throttle := min 8 (q.throttle + 1) })

end Sys2Proof.Machine
end

