-- ==== Sys2Proof/Machine/Dray.lean ====
section
/-!
DEFINITION. Dray (17 R410, R416-R426): how entries resolve and fail, how frames are found and evicted, and how pages
migrate. The device events are in EvDray.
-/

namespace Sys2Proof.Machine

/-! ### Pages of a leaf -/

/-- R401: the 4 KiB pages of the leaf of a virtual page: the first, and how many. -/
def pageGroup (s : State) (ctx vpn : Nat) : Nat × Nat :=
  match walk s ctx (4096 * vpn) with
  | none => (vpn, 1)
  | some (e, level, _) =>
    if level = 1 then (vpn / 2 ^ 18 * 2 ^ 18, 2 ^ 18)
    else if level = 2 then (vpn / 512 * 512, 512)
    else if dbit e 8 then (vpn / 16 * 16, 16)
    else (vpn, 1)

/-- A leaf's `LOC` and `ADDR` written at the home slice (R402, R421, R422). -/
def setLeaf (s : State) (at_ : Nat) (e : DWord) (loc : Bool) (addr : Nat) : State :=
  homeWrite s (byteWrites at_ 8 (dbits e 63 52 * 2 ^ 52 + addr % 2 ^ 40 * 2 ^ 12 + dbits e 11 0
    - (if dbit e 9 then 2 ^ 9 else 0) + (if loc then 2 ^ 9 else 0)))

/-- R405, R421 step 2: every translation of a page range, of the cores and of the engines, is dropped. -/
def dropTlb (s : State) (ctx vpn n : Nat) : State :=
  let keep (es : List TlbEntry) : List TlbEntry :=
    es.filter fun e => !(e.ctx == ctx && decide (vpn ≤ e.vpn ∧ e.vpn < vpn + n))
  { s with cores := s.cores.map fun c => (c.1, { c.2 with tlb := keep c.2.tlb })
           engineTlb := s.engineTlb.map fun e => (e.1, keep e.2) }

/-! ### Records that are resolved or fail (R416, R417) -/

/-- R416: Dray decrements `WAITS` of a record, in its slot too. -/
def decWaits (s : State) (ctx slot : Nat) : State :=
  match mget (moreOf s ctx).replay slot with
  | none => s
  | some r =>
    let n := r.waits - 1
    let s1 := modMore s ctx fun m => { m with replay := mset m.replay slot { r with waits := n } }
    (writeVirtual s1 ctx (replayAddr s ctx slot + 4) (leBytes 2 n)).getD s1

/-- R417: a core record that failed: the fault is delivered at the clause to every thread of it. -/
def failCore (s : State) (threads : List Nat) (words : Nat) (r : ReplayRecord) (code : FaultCode) (va : Nat) : State :=
  let us := threads.filter fun u => match threadOf s u with
    | some t => t.ctl.run == .faultWait
    | none => false
  match us with
  | [] => s
  | u :: _ =>
    let b := u / 1024
    trapThreads s b us r.addr words r.addr { code := code, pos := r.pos, addr := va, kind := 1 }

/-- R417: what a record's unit does when an entry of it has failed. -/
def failWork (s : State) (ctx : Nat) (r : ReplayRecord) (code : FaultCode) (va : Nat) : State :=
  match r.work with
  | .core _ words threads => failCore s threads words r code va
  | .coachman g _ =>
    let c := coachOf s g
    if !c.held then s
    else
      appendEvent (modCoach s g fun k => { k with running := false, held := false, stack := [], npc := none, wait := none })
        (dieOfCore g)
        { ctx := ctx, kind := 2, code := code, pos := r.pos, location := coreLocation g, slot := r.slot
          handle := handleOfBlock s c.block, addr := r.addr, detail := va, unit := 2 }
  | .copy g t => match copyOf s g t with
    | none => s
    | some c => completeCopy s c .faulted code va
  | .matrix c e _ t => match mget (clusterOf s c).table e with
    | none => s
    | some x => if x.cmd.ticket = t ∧ x.stage = .parked then completeMatrix s c e .faulted code va else s
  | .ray _ l kind subtree _ _ _ id => failRay s l kind subtree id r.location code
  | .texture g op _ => failTexture s g op code va
  | .raster b view _ tile _ _ => failRaster s b ctx view tile code va

/-- R417: a record fails: its slot is freed and its unit completes. -/
def failRecord (s : State) (ctx slot : Nat) (code : FaultCode) (va : Nat) : State :=
  match mget (moreOf s ctx).replay slot with
  | none => s
  | some r => onContext (freeRecord s ctx slot) ctx fun x => failWork x ctx r code va

/-- 13 R311, R312, 21 R500: a page of the record reader failed: the records, queues and transfers that wait for it. -/
def failReader (s : State) (ctx vpn : Nat) (code : FaultCode) : State :=
  let inPage (v : Nat) : Bool := (pageGroup s ctx v).1 == (pageGroup s ctx vpn).1
  let s0 := modMore s ctx fun m =>
    { m with xferAsk := m.xferAsk.map fun a => if inPage a.1 then (a.1, some code) else a }
  let s1 := ((ctxOf s ctx).records.filter fun r => r.ended.isNone && r.page.any inPage).foldl (fun acc r =>
    if r.begun && (recordResult acc ctx r).isSome then finishRecord acc ctx r (.faulted, code)
    else setDue acc ctx r.handle .faulted code) s0
  (ctxOf s ctx).queues.foldl (fun acc q =>
    if !q.2.stopped && q.2.readIdx != q.2.writeIdx && inPage (q.2.head / 4096) then stopQueue acc ctx q.1 q.2 code
    else acc) s1

/-! ### Requests whose page went with a lost die (22 R510) -/

/-- 21 R491, 22 R510, 10 R229: the lanes of a load read poison: 0 in their registers. -/
def poisonLoad (s : State) (a : Access) : State :=
  let s1 := a.lanes.foldl (fun acc r =>
    let s2 := modThread acc r.uid fun t => t.modRegs fun x => putLoaded a.size false r.dst 0 x
    consumeRequest s2 a true r) s
  dropAccess (countDown s1 a) a.id

/-- 21 R491, 22 R510: a request that is not served: a read is poison, a write is lost. -/
def loseAccess (s : State) (a : Access) : State :=
  if a.kind = .store ∨ a.kind = .reduction ∨ a.kind = .result then dropAccess (countDown s a) a.id else poisonLoad s a

/-- 22 R510, 21 R493: a request in flight whose page has left its frame waits for the page, which Dray is asked for at a die. -/
def sendAway (s : State) (die : Nat) (a : Access) : State :=
  let x := frameOf s (frameOfLine a.line)
  let s1 := modLine s a.line fun d => { d with persistent := d.persistent.filter (· != a.id) }
  let s2 := countEvent s1 a.core 7 1
  enterFault (modAccess s2 a.id fun y => { y with away := some x.vpn, persistent := false }) die
    { ctx := x.ctx, vpn := x.vpn, access := if a.kind = .load then 0 else if a.kind = .store then 1 else 2, unit := 1
      location := coreLocation a.core, pageSize := pageSizeCode s x.ctx x.vpn }

/-- A request's bytes in another page of device memory. -/
def Access.moveTo (pa : Nat) (a : Access) : Access :=
  { a with line := pa / 128 + a.line % 32, away := none, refusals := 0
           lanes := a.lanes.map fun r => { r with addrs := r.addrs.map fun x => pa + x % 4096
                                                  writes := r.writes.map fun w => (pa + w.1 % 4096, w.2) } }

/-- The requests that wait for a page of a group, each with its own page. -/
def awayIn (s : State) (ctx base n : Nat) : List (Access × Nat) :=
  s.pend.filterMap fun a => match a.away with
    | some v => if a.ctx = ctx ∧ base ≤ v ∧ v < base + n then some (a, v) else none
    | none => none

/-- R510 step 5: the requests that wait for a page resume where it is present now. -/
def returnAway (s : State) (ctx base n : Nat) : State :=
  (awayIn s ctx base n).foldl (fun acc p =>
    match walk acc ctx (4096 * p.2) with
    | some (e, level, _) => match dbit e 9, leafPlace e level (4096 * p.2) with
      | false, .device pa => modAccess acc p.1.id (Access.moveTo pa)
      | _, _ => acc
    | none => acc) s

/-- R510, R422: the page is not brought in: the requests that wait for it are lost. -/
def failAway (s : State) (ctx base n : Nat) : State :=
  (awayIn s ctx base n).foldl (fun acc p => loseAccess acc p.1) s

/-! ### The merge table -/

/-- A die's fault path changed. -/
def modFault (s : State) (die : Nat) (f : DieFault → DieFault) : State :=
  modDie s die fun d => { d with fault := f d.fault }

/-- A page of a merge table. -/
def mergeOf (s : State) (die ctx vpn : Nat) : Option MergePage :=
  (dieOf s die).fault.merge.find? fun m => m.ctx == ctx && m.vpn == vpn

/-- A page of a merge table changed. -/
def modMerge (s : State) (die ctx vpn : Nat) (f : MergePage → MergePage) : State :=
  modFault s die fun d => { d with merge := d.merge.map fun m => if m.ctx = ctx ∧ m.vpn = vpn then f m else m }

/-- A page out of a merge table. -/
def dropMerge (s : State) (die ctx vpn : Nat) : State :=
  modFault s die fun d => { d with merge := d.merge.filter fun m => !(m.ctx == ctx && m.vpn == vpn) }

/-- R416, R424: a page is resolved: each of its waiting entries is. -/
def resolvePage (s : State) (die : Nat) (m : MergePage) : State :=
  let s1 := returnAway (dropMerge s die m.ctx m.vpn) m.ctx m.vpn (pageGroup s m.ctx m.vpn).2
  m.waiters.foldl (fun acc w => decWaits acc m.ctx w) s1

/-- R417: a page fails: each of its waiting entries does; without one it is dropped. -/
def failPage (s : State) (die : Nat) (m : MergePage) (code : FaultCode) : State :=
  let s0 := failAway (dropMerge s die m.ctx m.vpn) m.ctx m.vpn (pageGroup s m.ctx m.vpn).2
  let s1 := m.waiters.foldl (fun acc w => failRecord acc m.ctx w code (4096 * m.vpn)) s0
  if m.reader.isEmpty then s1 else failReader s1 m.ctx m.vpn code

/-- R425, 25 R545: the entry with which a page is passed to the pager; a predicted page has a prefetch entry. -/
def MergePage.passed (m : MergePage) : FaultEntry :=
  m.entry.getD { ctx := m.ctx, vpn := m.vpn, access := 4, unit := 0 }

/-- R425: an entry written to the pager's request ring, whose field gives its base in bits 55:0 and the power of two of its
entries in bits 63:56 (DESIGN CHOICE, log 83). -/
def writeRequest (s : State) (ring : Nat) (bs : List Byte) : State :=
  let n := 2 ^ (ring / 2 ^ 56 % 17)
  let a := ring % 2 ^ 56 + 32 * (s.tables.pagerSent % n)
  homeWrite { s with tables := { s.tables with pagerSent := s.tables.pagerSent + 1 } } (((List.range 32).zip bs).map fun x => (a + x.1, x.2))

/-- R425, R426: a page that only the pager resolves: passed to it, or failed where none is installed. -/
def toPager (s : State) (die : Nat) (m : MergePage) (zero : Bool) : State :=
  match s.tables.pagerReq with
  | some ring => modMerge (writeRequest s ring (m.passed.bytes s)) die m.ctx m.vpn fun x =>
      { x with toPager := true, pagerSince := s.dtime, inBatch := false }
  | none => failPage s die m (if zero then .poolExhausted else .protection)

/-! ### Eviction (R420, R421) -/

/-- Whether a page of a merge table is a prediction or a prefetch: no record and no reader waits for it. -/
def MergePage.early (m : MergePage) : Bool := m.waiters.isEmpty && m.reader.isEmpty

/-- 21 R493: whether a pool page lies in an extent that is releasing. -/
def releasing (s : State) (page : Nat) : Bool := (extentAt s (4096 * page)).any fun x => x.2.state == 2

/-- R420, R421: the frames of the page a frame holds. -/
def framesOfPage (s : State) (f : Nat) : List Nat :=
  let x := frameOf s f
  match walk s x.ctx (4096 * x.vpn) with
  | some (e, 2, _) => (List.range 512).map (dbits e 51 12 / 512 * 512 + ·)
  | some (e, 3, _) => if dbit e 8 then (List.range 16).map (f / 16 * 16 + ·) else [f]
  | _ => [f]

/-- Whether a frame holds part of a 1 GiB page. -/
def inGiantPage (s : State) (f : Nat) : Bool :=
  let x := frameOf s f
  match walk s x.ctx (4096 * x.vpn) with
  | some (_, 1, _) => true
  | _ => false

/-- R421 step 1: the leaf of a frame's page names the pool again. -/
def leafToPool (s : State) (f : Nat) : State :=
  let x := frameOf s f
  match walk s x.ctx (4096 * x.vpn) with
  | some (e, level, at_) =>
    if dbit e 9 ∨ (level = 2 ∧ dbits e 51 12 ≠ f) ∨ (level = 3 ∧ !dbit e 8 ∧ dbits e 51 12 ≠ f) then s
    else setLeaf s at_ e true x.pool
  | none => s

/-- R421 steps 1 to 3 of one frame. -/
def evictFrame (s : State) (f : Nat) : State :=
  let x := frameOf s f
  holdLines (modFrame (dropTlb (leafToPool s f) x.ctx x.vpn 1) f fun y => { y with mig := true, leaving := true }) f

/-- 09 R205: whether a page stays in the page cache: one of its frames is pinned or lent. -/
def pageStays (s : State) (f : Nat) : Bool := (framesOfPage s f).any fun g => (frameOf s g).pin || (frameOf s g).lent

/-- R421: a page's eviction begins. -/
def evictPage (s : State) (f : Nat) : State :=
  if pageStays s f then s
  else ((framesOfPage s f).filter fun g => (frameOf s g).valid && !(frameOf s g).leaving).foldl evictFrame s

/-- R420: whether the clock passes over a frame. -/
def passesOver (s : State) (f : Nat) : Bool :=
  let x := frameOf s f
  !x.valid || x.pin || x.lent || x.mig || x.hstate != 0 || inGiantPage s f
    || pageStays s f

/-- R420: the clock over some frames in turn: `REF` bits are cleared until one is chosen. -/
def clockTurn : State → List Nat → State × Option Nat
  | s, [] => (s, none)
  | s, f :: r =>
    if passesOver s f then clockTurn s r
    else if (frameOf s f).ref then clockTurn (modFrame s f fun x => { x with ref := false }) r
    else (s, some f)

/-- R420: the next victim of a die's clock, after up to two turns from its hand. -/
def clockChoose (s : State) (die : Nat) : State × Option Nat :=
  let hand := (dieOf s die).fault.hand
  let fs := mkeys s.frames
  let turn := fs.filter (hand ≤ ·) ++ fs.filter (· < hand)
  let p := clockTurn s (turn ++ turn)
  match p.2 with
  | none => p
  | some f => (modFault p.1 die fun d => { d with hand := (f + 1) % totalFrames }, some f)

/-- R421: the frames on their way out. -/
def leavingFrames (s : State) : Nat := (s.frames.filter fun p => p.2.leaving).length

/-- R420: evictions until enough frames are free or on their way; `fuel` bounds the victims. -/
def evictUntil (s : State) (die need : Nat) : Nat → State
  | 0 => s
  | fuel + 1 =>
    if need ≤ freeFrames s + leavingFrames s then s
    else match clockChoose s die with
      | (s1, none) => s1
      | (s1, some f) => evictUntil (evictPage s1 f) die need fuel

/-! ### Migration (R418, R420, R422, R423) -/

/-- R422 step 1: a frame takes a page. -/
def enterFrame (s : State) (f ctx vpn key pool : Nat) (zero : Bool) : State :=
  let x : Frame :=
    { (frameOf s f) with mig := true, valid := true, ref := true, key := key, ctx := ctx, vpn := vpn, pool := pool
                         dirty := if zero then BitVec.allOnes 128 else 0, shared := poolShared s (4096 * pool)
                         lastLease := 0, leaving := false, hstate := 0 }
  { s with frames := mset s.frames f x }

/-- The pool page of the i-th 4 KiB page of a group: its own entry's, or that of the large leaf. -/
def poolPageOf (s : State) (ctx base i : Nat) (e : DWord) (level : Nat) : Nat :=
  if level = 2 then dbits e 51 12 + i
  else match walk s ctx (4096 * (base + i)) with
    | some (x, _, _) => dbits x 51 12
    | none => dbits e 51 12

/-- R421, R418.7: whether a page of a group is still on its way out. -/
def groupLeaving (s : State) (ctx base n : Nat) : Bool :=
  s.frames.any fun p => p.2.leaving && p.2.ctx == ctx && decide (base ≤ p.2.vpn ∧ p.2.vpn < base + n)

/-- R418, R420: the frames for a page of n frames. -/
def frameFor (s : State) (die n : Nat) : Option Nat :=
  if n = 1 then takeFrame s die
  else if n = 16 then takeSixteen s die
  else takeRun s n n (2 * s.frames.length + 4) 0

/-- R422 step 1 of every frame of a page. -/
def startMigration (s : State) (die : Nat) (m : MergePage) (f n : Nat) (e : DWord) (level : Nat) (zero : Option Nat) : State :=
  let s1 := (List.range n).foldl (fun acc i =>
    enterFrame acc (f + i) m.ctx (m.vpn + i) (dbits e 63 52)
      (match zero with
        | some p => p
        | none => poolPageOf s m.ctx m.vpn i e level) zero.isSome) s
  modMerge s1 die m.ctx m.vpn fun x => { x with frame := some f }

/-- R423: the head of a context's `POOLFREE` ring taken. -/
def takePoolPage (s : State) (ctx : Nat) : Option (Nat × State) :=
  match (moreOf s ctx).poolFree with
  | [] => none
  | p :: r => some (p / 4096, modMore s ctx fun m => { m with poolFree := r })

/-- A page that stands present: its surrendered frames are brought back (11 R271), then its entries resolve. A frame
still surrendering is waited for. -/
def servePresent (s : State) (die : Nat) (m : MergePage) (e : DWord) (level n : Nat) : State :=
  match leafPlace e level (4096 * m.vpn) with
  | .host _ => resolvePage s die m
  | .device pa =>
    let fs := (List.range n).map (pa / 4096 + ·)
    if fs.any fun f => (frameOf s f).hstate == 1 || (frameOf s f).hstate == 2 && releasing s (frameOf s f).pool then s
    else resolvePage ((fs.filter fun f => (frameOf s f).hstate == 2).foldl refetchFrame s) die m

/-- What becomes of a page of a closed batch that has no frame yet (R418, R420, R422, R423, R425, 21 R493). -/
def assignPage (s : State) (die : Nat) (m : MergePage) : State :=
  match walk s m.ctx (4096 * m.vpn) with
  | none => toPager s die m false
  | some (e, level, _) =>
    let zero := dbits e 51 12 == 0
    let n := (pageGroup s m.ctx m.vpn).2
    if !dbit e 9 then servePresent s die m e level n
    else if dbit e 6 || !keyOk s m.ctx (dbits e 63 52) then toPager s die m false
    else if poolGone s (4096 * dbits e 51 12) && !zero then failPage s die m .extentGone
    else if level = 1 || (zero && n != 1) || (zero && (moreOf s m.ctx).poolFree.isEmpty) then toPager s die m zero
    else if releasing s (dbits e 51 12) && !zero then (if m.early then dropMerge s die m.ctx m.vpn else s)
    else if groupLeaving s m.ctx m.vpn n then s
    else match frameFor s die n with
      | none => s
      | some f =>
        if zero then
          match takePoolPage s m.ctx with
          | some (p, s1) => startMigration s1 die m f n e level (some p)
          | none => s
        else startMigration s die m f n e level none

/-- R420: the pages of a die's closed batches that wait, in order. -/
def waitingPages (s : State) (die : Nat) : List MergePage :=
  (dieOf s die).fault.merge.filter fun m => !m.inBatch && m.frame.isNone && !m.toPager

/-- R420: every waiting page of a die is tried again. -/
def assignWaiting (s : State) (die : Nat) : State :=
  (waitingPages s die).foldl (fun acc m =>
    match mergeOf acc die m.ctx m.vpn with
    | some x => assignPage acc die x
    | none => acc) s

/-- R420: whether a waiting page lacks frames, and waits for nothing else. A predicted page makes no dirty frame leave
(R419). -/
def lacksFrames (s : State) (die : Nat) (m : MergePage) : Bool :=
  match walk s m.ctx (4096 * m.vpn) with
  | none => false
  | some (e, _, _) =>
    m.entry.isSome && dbit e 9 && (frameFor s die (pageGroup s m.ctx m.vpn).2).isNone
      && !(dbits e 51 12 != 0 && releasing s (dbits e 51 12))

/-- R420: the frames that must be free or on their way out: `FREEMIN`, and what a die's pages lack. Where enough are
free and they only lie apart, more must leave. -/
def framesNeeded (s : State) (die : Nat) : Nat :=
  let lack := ((waitingPages s die).filter (lacksFrames s die)).map fun m => (pageGroup s m.ctx m.vpn).2
  let n := lack.foldl (· + ·) 0
  max s.tables.freeMin (if n ≠ 0 ∧ leavingFrames s = 0 then freeFrames s + n else n)

/-- R420: while frames are lacking, a die's Dray evicts. -/
def evictLacking (s : State) (die : Nat) : State :=
  let need := framesNeeded s die
  evictUntil s die need (need - (freeFrames s + leavingFrames s))

/-- R420: every Dray tries its waiting pages: a frame has been freed or unpinned. What is still lacking is evicted. -/
def assignAll (s : State) : State :=
  [0, 1, 2, 3].foldl (fun acc d => if (dieOf acc d).lost then acc else evictLacking acc d)
    ([0, 1, 2, 3].foldl assignWaiting s)

/-- R422 step 3: the leaves of a page name its frames. -/
def leavesPresent (s : State) (m : MergePage) (f n : Nat) : State :=
  (List.range n).foldl (fun acc i =>
    match walk acc m.ctx (4096 * (m.vpn + i)) with
    | some (e, level, at_) => if dbit e 9 then setLeaf acc at_ e false (if level = 2 then f else f + i) else acc
    | none => acc) s

/-- R422 steps 2 to 4 of one frame. A surrender that a snoop asked for meanwhile starts now (21 R490). -/
def finishFrame (s : State) (die f : Nat) (zero : Bool) : State :=
  let x := frameOf s f
  let s1 := if zero then zeroFrame s f else reportUncovered (fillFrame s f x.pool) x.ctx die x.pool
  let s2 := freshLines (modFrame s1 f fun y => { y with mig := false }) f
  if s2.tables.surrenders.contains x.pool then
    startSurrender { s2 with tables := { s2.tables with surrenders := s2.tables.surrenders.filter (· != x.pool) } } f
  else s2

/-- R422 steps 2 to 5 of a page. -/
def finishMigration (s : State) (die : Nat) (m : MergePage) (f : Nat) : State :=
  let n := (pageGroup s m.ctx m.vpn).2
  let zero := (frameOf s f).dirty != 0
  let s1 := leavesPresent s m f n
  resolvePage ((List.range n).foldl (fun acc i => finishFrame acc die (f + i) zero) s1) die m

end Sys2Proof.Machine
end

