-- ==== Sys2Proof/Machine/EvDray.lean ====
section
/-!
DEFINITION. The device events of translation and Dray (17 R405, R410, R416, R418-R426). An event that cannot happen
leaves the state as it is (log 2).
-/

namespace Sys2Proof.Machine

/-! ### Translation and forwarding -/

/-- R405: a core's TLB takes a leaf that is valid and present; it holds 256 entries. -/
def fillTlb (s : State) (core ctx vpn : Nat) : State :=
  match walk s ctx (4096 * vpn) with
  | none => s
  | some (e, level, _) =>
    if dbit e 9 ∨ !keyOk s ctx (dbits e 63 52) then s
    else modCore s core fun c =>
      let rest := c.tlb.filter fun x => !(x.ctx == ctx && x.vpn == vpn)
      { c with tlb := ({ ctx := ctx, vpn := vpn, leaf := e, level := level } :: rest).take 256 }

/-- R401, R405: `TLB_MISS_WALK`: a core's walk for a page its TLB does not hold. -/
def execTlbMissWalk (core ctx vpn : Nat) (s : State) : Result :=
  if 768 ≤ core ∨ ((coreOf s core).tlb.any fun x => x.ctx == ctx && x.vpn == vpn) then .next s
  else .next (fillTlb s core ctx vpn)

/-- R410: the page an entry is for. -/
def entryPage (s : State) (e : FaultEntry) : Nat := (pageGroup s e.ctx e.vpn).1

/-- A die's fault queue without an entry. -/
def dropEntry (s : State) (die : Nat) (e : FaultEntry) : State :=
  modFault s die fun d => { d with queue := d.queue.erase e }

/-- R410: `FAULT_ENTRY_FORWARD`: the first entry that the die does not own goes to the page's owner. -/
def execFaultEntryForward (die : Nat) (s : State) : Result :=
  match (dieOf s die).fault.queue.find? fun e => ownerDie s (entryPage s e) != die with
  | none => .next s
  | some e =>
    if 4 ≤ die ∨ (dieOf s die).lost then .next s
    else .next (enterFault (dropEntry s die e) (ownerDie s (entryPage s e)) e)

/-! ### Taking entries (R418) -/

/-- R418: what a page counts in a table or batch: as the pages it migrates as; one for a 1 GiB page, which only the
pager moves. -/
def pageWeight (n : Nat) : Nat := if n ≤ 512 then n else 1

/-- R418: how many pages a merge table holds. -/
def mergePages (s : State) (ms : List MergePage) : Nat :=
  (ms.map fun m => pageWeight (pageGroup s m.ctx m.vpn).2).foldl (· + ·) 0

/-- R419: the last three demand pages of a unit location. -/
def noteStride (s : State) (die loc vpn : Nat) : State :=
  modFault s die fun d => { d with strides := mset d.strides loc ((vpn :: mgetD d.strides loc []).take 3) }

/-- R416: an entry that is resolved as it is taken. -/
def resolveEntry (s : State) (e : FaultEntry) : State :=
  let g := pageGroup s e.ctx e.vpn
  let s1 := returnAway s e.ctx g.1 g.2
  match e.record with
  | some w => decWaits s1 e.ctx w
  | none => s1

/-- R417: an entry that fails as it is taken. -/
def failEntry (s : State) (e : FaultEntry) (code : FaultCode) : State :=
  let g := pageGroup s e.ctx e.vpn
  let s := failAway s e.ctx g.1 g.2
  match e.record with
  | some w => failRecord s e.ctx w code (4096 * e.vpn)
  | none => if e.unit = 8 then failReader s e.ctx e.vpn code else s

/-- R418: an entry joins a page that is in the merge table. -/
def joinPage (s : State) (die : Nat) (e : FaultEntry) (m : MergePage) : State :=
  if e.record.isNone && e.unit != 8 then dropEntry s die e
  else if 16 ≤ m.waiters.length + m.reader.length then s
  else modMerge (noteStride (dropEntry s die e) die e.location e.vpn) die m.ctx m.vpn fun x =>
    match e.record with
    | some w => { x with waiters := x.waiters ++ [w] }
    | none => { x with reader := x.reader ++ [e.location % 4] }

/-- R418: an entry's page joins the open batch, or opens one; a 2 MiB page has a batch of its own. -/
def openPage (s : State) (die : Nat) (e : FaultEntry) (base n : Nat) : State :=
  let d := (dieOf s die).fault
  let prefetch := e.record.isNone && e.access == 4
  if 1024 < mergePages s d.merge + pageWeight n then (if prefetch then dropEntry s die e else s)
  else if d.batchOpened.isSome && (d.batchBig || n = 512) then s
  else if 512 < mergePages s (d.merge.filter MergePage.inBatch) + pageWeight n then s
  else
    let m : MergePage := { ctx := e.ctx, vpn := base, waiters := e.record.toList, entry := some e
                           reader := if e.unit = 8 then [e.location % 4] else [] }
    let s1 := if prefetch then dropEntry s die e else noteStride (dropEntry s die e) die e.location e.vpn
    modFault s1 die fun f =>
      { f with merge := f.merge ++ [m], batchOpened := some (f.batchOpened.getD s.dtime), batchBig := n == 512 }

/-- R418, R422: an entry at the head of the owner's queue. -/
def takeEntry (s : State) (die : Nat) (e : FaultEntry) : State :=
  let g := pageGroup s e.ctx e.vpn
  match mergeOf s die e.ctx g.1, walk s e.ctx (4096 * e.vpn) with
  | some m, _ => joinPage s die e m
  | none, some (l, level, _) =>
    if !dbit l 9 then
      match leafPlace l level (4096 * e.vpn) with
      | .device pa =>
        let x := frameOf s (pa / 4096)
        if x.hstate = 1 then s
        else if x.hstate = 2 ∧ releasing s x.pool then
          (if e.record.isNone && e.access == 4 then dropEntry s die e else openPage s die e g.1 g.2)
        else if x.hstate = 2 then resolveEntry (dropEntry (refetchFrame s (pa / 4096)) die e) e
        else resolveEntry (dropEntry s die e) e
      | .host _ => resolveEntry (dropEntry s die e) e
    else if dbits l 51 12 != 0 && poolGone s (leafPool l level (4096 * e.vpn)) then failEntry (dropEntry s die e) e .extentGone
    else if dbits l 51 12 != 0 && releasing s (dbits l 51 12) && e.record.isNone && e.access == 4 then dropEntry s die e
    else openPage s die e g.1 g.2
  | none, none => openPage s die e g.1 g.2

/-- R418: `DRAY_ENTRY_TAKE`. -/
def execDrayEntryTake (die : Nat) (s : State) : Result :=
  match (dieOf s die).fault.queue.find? fun e => ownerDie s (entryPage s e) == die with
  | none => .next s
  | some e => if 4 ≤ die ∨ (dieOf s die).lost then .next s else .next (takeEntry s die e)

/-! ### Closing a batch (R419, R420) -/

/-- The records that wait on a page, with a node hint. -/
def hintsOf (s : State) (m : MergePage) : List (ReplayRecord × Nat) :=
  m.waiters.filterMap fun w => (mget (moreOf s m.ctx).replay w).bind fun r => r.hint.map fun h => (r, h)

/-- R360, R419: the first pages of the subtrees that the exit pointers of the hinted node name, if its page is
present. -/
def exitPages (s : State) (die ctx l : Nat) (hint : Nat) : List Nat :=
  let va := hint % 2 ^ 50 * 64
  match heldScene s l with
  | none => []
  | some c => match raySlotTable s ctx c with
    | none => []
    | some u => match readEngine s (.dray die) ctx va (2 ^ u.nodeLog) with
      | .error _ => []
      | .ok node => (List.range u.arity).filterMap fun i =>
          let p := fieldOf node (u.ptrOff + 4 * i) 4
          if p / 2 ^ 30 = 2 ∧ p % 2 ^ 30 < c.nsub then
            match readSubtree s ctx c (p % 2 ^ 24) with
            | .valid t => some (t.base / 4096)
            | _ => none
          else none

/-- R419: the pages topology predicts for a record. -/
def topologyPages (s : State) (die ctx : Nat) (r : ReplayRecord) (hint : Nat) : List Nat :=
  match r.work with
  | .ray _ l _ subtree _ _ _ _ =>
    let own := match heldScene s l with
      | none => []
      | some c => match readSubtree s ctx c subtree with
        | .valid t => (List.range ((t.base + t.size + 4095) / 4096 - t.base / 4096)).map (t.base / 4096 + ·)
        | _ => []
    own ++ exitPages s die ctx l hint
  | _ => []

/-- R419: the pages a location's last three demand pages predict. -/
def stridePages : List Nat → List Nat
  | [c, b, a] =>
    let d : Int := (c : Int) - b
    if d = (b : Int) - a ∧ 1 ≤ d.natAbs ∧ d.natAbs ≤ 16 then
      [1, 2, 3, 4].filterMap fun (k : Int) => if 0 ≤ (c : Int) + k * d then some ((c : Int) + k * d).toNat else none
    else []
  | _ => []

/-- R419: what a batch's entries predict: topology first, then strides; each page with its context. -/
def predictions (s : State) (die : Nat) (batch : List MergePage) : List (Nat × Nat) :=
  let topo := batch.flatMap fun m => (hintsOf s m).flatMap fun h =>
    (topologyPages s die m.ctx h.1 h.2).map fun v => (m.ctx, v)
  let locs := (batch.flatMap fun m => m.waiters.filterMap fun w =>
    (mget (moreOf s m.ctx).replay w).map fun r => (m.ctx, r.location)).dedup
  topo ++ locs.flatMap fun p => (stridePages (mgetD (dieOf s die).fault.strides p.2 [])).map fun v => (p.1, v)

/-- R419, 21 R493: whether a page may be predicted: of 4 or 64 KiB (a 2 MiB page has a batch of its own, R418),
valid, in the pool, not demand-zero, not merged, and its extent not releasing. -/
def predictable (s : State) (die ctx vpn : Nat) : Bool :=
  match walk s ctx (4096 * vpn) with
  | some (e, level, _) =>
    level == 3 && dbit e 9 && !dbit e 6 && dbits e 51 12 != 0 && keyOk s ctx (dbits e 63 52)
      && (mergeOf s die ctx vpn).isNone && !((extentAt s (4096 * dbits e 51 12)).any fun x => x.2.state != 1)
  | none => false

/-- R419, R420: clean pages that the clock chooses, until a predicted page of n frames and the pages that wait before it have
frames, free or on their way out; none where a chosen page is dirty. `fuel` bounds the victims. -/
def cleanVictims (die n : Nat) : Nat → State → Option State
  | 0, _ => none
  | fuel + 1, s =>
    if mergePages s (waitingPages s die) + n ≤ freeFrames s + leavingFrames s then some s
    else match clockChoose s die with
      | (_, none) => none
      | (s1, some f) =>
        if (framesOfPage s1 f).all fun g => (frameOf s1 g).dirty == 0 then cleanVictims die n fuel (evictPage s1 f) else none

/-- R419, R420: a predicted page enters the merge table where that has room and the page can take frames without a dirty
write-back. -/
def addPrediction (s : State) (die ctx vpn n : Nat) : State :=
  let add (x : State) : State := modFault x die fun d =>
    { d with merge := d.merge ++ [{ ctx := ctx, vpn := vpn, inBatch := false }] }
  if 1024 < mergePages s (dieOf s die).fault.merge + n then s
  else if mergePages s (waitingPages s die) + n ≤ freeFrames s && (n == 1 || (frameFor s die n).isSome) then add s
  else match cleanVictims die n (n + 1) s with
    | none => s
    | some s1 => add s1

/-- R419: one candidate: predicted here, or sent to its owner as a prefetch entry. The counts are of the predictions that the
batch has made and of those that have joined it; a 64 KiB page counts as the 16 pages it migrates as (R418). -/
def predictOne (die room : Nat) (acc : State × Nat × Nat) (p : Nat × Nat) : State × Nat × Nat :=
  let s := acc.1
  let g := pageGroup s p.1 p.2
  let owner := ownerDie s g.1
  if 64 < acc.2.1 + g.2 ∨ !predictable s owner p.1 g.1 then acc
  else if owner ≠ die then
    (enterFault s owner { ctx := p.1, vpn := g.1, access := 4, unit := 0, location := die }, acc.2.1 + g.2, acc.2.2)
  else if room < acc.2.2 + g.2 then acc
  else
    let s1 := addPrediction s die p.1 g.1 g.2
    if (mergeOf s1 die p.1 g.1).isSome then (s1, acc.2.1 + g.2, acc.2.2 + g.2) else (s1, acc.2)

/-- R418-R420: the batch is closed: its demand pages take frames, then the predicted ones; the clock evicts what is
lacking. -/
def closeBatch (s : State) (die : Nat) : State :=
  let batch := (dieOf s die).fault.merge.filter MergePage.inBatch
  let n := mergePages s batch
  let s1 := modFault s die fun d =>
    { d with batchOpened := none, batchBig := false, merge := d.merge.map fun m => { m with inBatch := false } }
  let s2 := batch.foldl (fun acc m => engineUsed acc (.dray die) m.ctx ((hintsOf s m).map fun h => (h.2 % 2 ^ 50 * 64, 64)))
    (assignWaiting s1 die)
  let s3 := ((predictions s die batch).foldl (predictOne die (512 - n)) (s2, 0, 0)).1
  evictLacking (assignWaiting s3 die) die

/-- R418: `DRAY_BATCH_CLOSE`. -/
def execDrayBatchClose (die : Nat) (s : State) : Result :=
  let d := (dieOf s die).fault
  match d.batchOpened with
  | none => .next s
  | some t =>
    if t + 2000 ≤ s.dtime ∨ 512 ≤ mergePages s (d.merge.filter MergePage.inBatch) then .next (closeBatch s die)
    else .next s

/-! ### Evictions and transfers (R421, R422) -/

/-- 21 R494: whether a frame's dirty sectors are lost: its extent's release has been forced. -/
def writeLost (s : State) (pool : Nat) : Bool := (extentAt s (4096 * pool)).any fun x => x.2.forced

/-- 21 R494: the context of a frame whose dirty sectors a forced release drops is told, once. -/
def tellLoser (s : State) (f : Nat) : State :=
  let x := frameOf s f
  match extentAt s (4096 * x.pool) with
  | none => s
  | some (i, e) =>
    if e.told.contains x.ctx then s
    else drayFault { s with tables := { s.tables with extents := mset s.tables.extents i { e with told := e.told ++ [x.ctx] } } }
      x.ctx (dieOfFrame f) .extentGone e.base

/-- R421 steps 3 to 6. What readers have written at lines in transition (11 R258) comes before the write-back. -/
def freeEvicted (s : State) (f : Nat) : State :=
  let s1 := recallLines ((linesOf f).foldl applyHeld s) f
  let x := frameOf s1 f
  let s2 :=
    if x.dirty = 0 then s1
    else if writeLost s1 x.pool then tellLoser s1 f
    else reportUncovered (writeBack s1 f (if x.shared then dirtySectors s1 f else List.range 128)) x.ctx (dieOfFrame f) x.pool
  assignAll (freeLines (modFrame s2 f fun y => { y with valid := false, dirty := 0, mig := false, leaving := false }) f)

/-- 21 R493, 11 R271: a surrendered frame of an extent that is released: its page is in the pool, and the requests that wait at its
lines wait for the page. -/
def freeSurrendered (s : State) (f : Nat) : State :=
  let x := frameOf s f
  let waiting := s.pend.filter fun a => onLine a && frameOfLine a.line == f && !a.applied && a.kind != .result && a.away.isNone
  let s1 := waiting.foldl (fun acc a => sendAway acc (ownerDie s x.vpn) a) (dropTlb (leafToPool s f) x.ctx x.vpn 1)
  assignAll (freeLines (modFrame s1 f fun y => { y with hstate := 0, wanted := false, dirty := 0 }) f)

/-- R421: `EVICTION_FRAME_FREE`. -/
def execEvictionFrameFree (frame : Nat) (s : State) : Result :=
  let x := frameOf s frame
  if x.leaving && !frameBusy s frame && decide (x.lastLease ≤ s.dtime) then .next (freeEvicted s frame) else .next s

/-- R422: `MIGRATION_TRANSFER_DONE`. -/
def execMigrationTransferDone (die ctx vpn : Nat) (s : State) : Result :=
  match mergeOf s die ctx vpn with
  | none => .next s
  | some m => match m.frame with
    | none => .next s
    | some f => .next (finishMigration s die m f)

/-! ### Replay (R411, R416) -/

/-- The unit a record belongs to, for the order of replay. -/
def ReplayRecord.unit (r : ReplayRecord) : Nat × Nat × Nat :=
  (r.work.unitKind, r.location, match r.work with
    | .raster b _ _ _ _ _ => b
    | _ => 0)

/-- R416: whether an earlier record of the same unit still waits. -/
def earlierRecord (s : State) (ctx : Nat) (r : ReplayRecord) : Bool :=
  (moreOf s ctx).replay.any fun p =>
    p.2.cause != 3 && p.2.unit == r.unit && decide (p.2.order < r.order)

/-- R416: what a replayed record resumes. -/
def replayWork (s : State) (ctx : Nat) (r : ReplayRecord) : State :=
  match r.work with
  | .core _ _ threads => fileThreads s (threads.filter fun u => match threadOf s u with
      | some t => t.ctl.run == .faultWait
      | none => false)
  | .coachman g _ => modCoach s g fun c => { c with held := false }
  | .copy g t => resumeCopy s g t
  | .matrix c e _ t => match mget (clusterOf s c).table e with
    | none => s
    | some x =>
      if x.cmd.ticket = t ∧ x.stage = .parked then modEntry s c e fun y => { y with stage := .posted } else s
  | .ray _ l kind subtree _ _ _ id => replayRay s l kind subtree id r.location
  | .texture g op _ => replayTexture s g op
  | .raster b _ _ _ _ _ => replayRaster s b ctx

/-- 09 R219: whether the work of a record belongs to a block that is parked. -/
def unitParked (s : State) : ReplayWork → Bool
  | .copy g t => (coreOf s g).copyQ.any fun c => c.ticket == t && (blockOf s c.block).parked
  | .texture g op _ => (coreOf s g).texQ.any fun o => o.id == op && (blockOf s o.block).parked
  | _ => false

/-- R416: a record's slot is freed for its replay; a replay that faults again finds it. -/
def replayRecord (s : State) (ctx slot : Nat) (r : ReplayRecord) : State :=
  replayWork (modMore (freeRecord s ctx slot) ctx fun m => { m with replayed := mset m.replayed slot r.work }) ctx r

/-- R416: `RECORD_REPLAY`. -/
def execRecordReplay (ctx slot : Nat) (s : State) : Result :=
  match mget (moreOf s ctx).replay slot with
  | none => .next s
  | some r =>
    if r.cause = 3 ∨ r.waits ≠ 0 ∨ !(ctxOf s ctx).resident ∨ earlierRecord s ctx r ∨ unitParked s r.work then .next s
    else .next (replayRecord s ctx slot r)

/-- R411: the first waiting record takes a slot. -/
def placeWaiting (s : State) (ctx : Nat) : State :=
  match (moreOf s ctx).replayWaiting with
  | [] => s
  | r :: rest => match freeReplaySlot s ctx r.work with
    | none => s
    | some n =>
      match placeRecord (modMore s ctx fun m => { m with replayWaiting := rest }) ctx n r with
      | some s1 => s1
      | none => structureFailed s ctx (replayAddr s ctx n)

/-- R411: `REPLAY_SLOT_FREED`. A write that fails is retried at its own event (20 R554). -/
def execReplaySlotFreed (ctx : Nat) (s : State) : Result :=
  .next (if (moreOf s ctx).retryAt.isSome then s else onContext s ctx fun x => placeWaiting x ctx)

/-! ### The pager (R425, R426) -/

/-- R425: what the request ring holds unanswered of a die's Dray, as 32-byte entries. -/
def pagerRequests (s : State) (die : Nat) : List (List Byte) :=
  ((dieOf s die).fault.merge.filter (·.toPager)).map fun m => m.passed.bytes s

/-- R425, 25 R545: the page of a die that is passed to the pager with the entry a reply names. -/
def repliedPage (s : State) (die : Nat) (r : PagerReply) : Option MergePage :=
  (dieOf s die).fault.merge.find? fun m =>
    m.toPager && m.ctx == r.ctx && m.passed.vpn % 2 ^ 32 == r.vpn % 2 ^ 32
      && ((m.passed.record.map (replayAddr s m.ctx)).getD 0 == r.record)

/-- R425, 25 R545: Dray takes the page again as though its first entry had just arrived: it joins the open batch or
opens one. Where the open batch cannot take it (R418), it waits and is assigned with the next. -/
def retryPage (s : State) (die : Nat) (m : MergePage) : State :=
  let f := (dieOf s die).fault
  let n := (pageGroup s m.ctx m.vpn).2
  let full := f.batchOpened.isSome
    && (f.batchBig || n == 512 || decide (512 < mergePages s (f.merge.filter MergePage.inBatch) + pageWeight n))
  let s1 := modMerge s die m.ctx m.vpn fun x => { x with toPager := false, inBatch := !full }
  if full then s1
  else modFault s1 die fun d =>
    { d with batchOpened := some (d.batchOpened.getD s.dtime), batchBig := d.batchBig || n == 512 }

/-- R425: the codes a reply of action 2 may carry. -/
def pagerCode (c : BitVec 8) : Option FaultCode :=
  if c = 0x11 then some .protection
  else if c = 0x12 then some .extentGone
  else if c = 0x13 then some .poolExhausted
  else none

/-- R425: a failure that is reported too. -/
def failReported (s : State) (die : Nat) (m : MergePage) : State :=
  drayFault (failPage s die m .protection) m.ctx die .protection (4096 * m.vpn)

/-- R425: a reply that matches a page. -/
def takeReply (s : State) (die : Nat) (m : MergePage) (r : PagerReply) : State :=
  match r.action.toNat with
  | 0 => match walk s m.ctx (4096 * m.vpn) with
    | some (e, _, _) => if dbit e 9 then retryPage s die m else resolvePage s die m
    | none => retryPage s die m
  | 1 => retryPage s die m
  | 2 => match pagerCode r.code with
    | some c => failPage s die m c
    | none => failReported s die m
  | _ => failReported s die m

/-- R425: `PAGER_REPLY`; one that matches nothing is reported. -/
def execPagerReply (die : Nat) (reply : PagerReply) (s : State) : Result :=
  if 4 ≤ die ∨ (mget s.ctxs reply.ctx).isNone then .next s
  else match repliedPage s die reply with
    | some m => .next (takeReply s die m reply)
    | none => .next (drayFault s reply.ctx die .protection reply.record)

/-- R426: `PAGERLIMIT_EXPIRY`. -/
def execPagerlimitExpiry (die ctx vpn : Nat) (s : State) : Result :=
  match mergeOf s die ctx vpn with
  | none => .next s
  | some m =>
    if m.toPager && decide (m.pagerSince + 1000 * s.tables.pagerLimit ≤ s.dtime) then .next (failReported s die m)
    else .next s

end Sys2Proof.Machine
end

