-- ==== Sys2Proof/Machine/EvContext.lean ====
section
/-!
DEFINITION. The device events of contexts: traps (20 R463, R464), calls (R469), rollback (R481), events (R460, R554),
partitions (02 R44, 22 R514), and the mailbox commands that name a context (17 R405, 15 R359). An event that cannot
happen leaves the state as it is (log 2).
-/

namespace Sys2Proof.Machine

/-! ### The mailbox (22 R513, R514) -/

/-- R511, R513, R515: whether a die's mailbox takes a command: the device has booted, a host reaches its management window, and
no command runs there. -/
def mailOpen (s : State) (die : Nat) : Bool :=
  decide (die < 4) && !(dieOf s die).lost && !(dieOf s die).mailBusy && s.security.booted == 3 && !s.power.asleep && hostReach s

/-- R513: the response of a command: 0 done, 2 refused with a reason, 3 illegal. -/
def mailReply (s : State) (die status reason : Nat) : State :=
  modDie s die fun d => { d with mailBusy := false, mailStatus := status, mailReason := reason }

/-- R513: a command at a mailbox that takes it. -/
def onMail (s : State) (die : Nat) (f : State) : State := if mailOpen s die then f else s

/-- R514: a command with an operand out of its range has no effect. -/
def illegalCommand (s : State) (die : Nat) : State := mailReply s die 3 0

/-- R514: an image lies 64-byte aligned in a pinned frame. -/
def imageOk (s : State) (a : Nat) : Bool := a % 64 == 0 && (frameOf s (a / 4096)).pin

/-! ### Traps (20 R464) -/

/-- R463: the threads that a trap record still holds. A second consumption holds every trapped thread of the block
that no other record lists (R482). -/
def trapped (s : State) (ctx slot : Nat) (r : ReplayRecord) : List Nat :=
  let isTrapped (u : Nat) : Bool := ((threadOf s u).map fun t => t.ctl.run == .trapped).getD false
  match r.work with
  | .core _ _ ts =>
    match r.kind, ts with
    | 9, u :: _ =>
      let others := (moreOf s ctx).replay.flatMap fun p => match p.2.work with
        | .core _ _ xs => if p.1 = slot then [] else xs
        | _ => []
      ((threadsOfBlock s (u / 1024)).map Prod.fst).filter fun x => isTrapped x && !others.contains x
    | _, _ => ts.filter isTrapped
  | _ => []

/-- R464, R463: the trap record of a slot that the supervisor can name: held for it, its event written. -/
def trapRecord (s : State) (ctx slot : Nat) : Option ReplayRecord :=
  match mget (moreOf s ctx).replay slot with
  | none => none
  | some r =>
    let waits := s.dies.any fun d => d.2.fault.held.any fun e => e.ctx == ctx && e.record == replayAddr s ctx slot
    if r.cause = 3 ∧ !waits then some r else none

/-- R464: the resume address and the clause length of a record. -/
def resumePoint (r : ReplayRecord) : Nat × Nat :=
  match r.work with
  | .core resume words _ => (resume, words)
  | _ => (0, 0)

/-- R464 action 0: the clause runs whole again. -/
def trapRetry (s : State) (ctx slot : Nat) (r : ReplayRecord) : State :=
  fileThreads (freeRecord s ctx slot) (trapped s ctx slot r)

/-- R464 action 1, 08 R172: the threads go on after the clause; after an escalation at the resume point. -/
def trapSkip (s : State) (ctx slot : Nat) (r : ReplayRecord) : State :=
  let us := trapped s ctx slot r
  let p := resumePoint r
  let s1 := us.foldl (fun acc u => modThread acc u fun t =>
    if r.kind = 6 then t.modCtl fun c => { c with pc := p.1 } else passEnd (p.1 + 4 * p.2) t) (freeRecord s ctx slot)
  fileThreads s1 us

/-- R464 action 2: the threads end; the launch is `FAULTED` with the event's code. -/
def trapEnd (s : State) (ctx slot : Nat) (r : ReplayRecord) : State :=
  let us := trapped s ctx slot r
  match us with
  | [] => freeRecord s ctx slot
  | u :: _ =>
    let s1 := us.foldl (fun acc x => exitThreadWith acc x .faulted r.code)
      (markLaunch (freeRecord s ctx slot) (blockOf s (u / 1024)).launch (.faulted r.code))
    s1

/-- R464 action 3: the launch of the block is cancelled. -/
def trapCancel (s : State) (ctx slot : Nat) (r : ReplayRecord) : State :=
  match trapped s ctx slot r with
  | [] => freeRecord s ctx slot
  | u :: _ => freeRecord (cancelLaunch s (blockOf s (u / 1024)).launch) ctx slot

/-- R464: an action not allowed for the kind acts as action 2; a retry of an escalation as action 1. -/
def trapAction (s : State) (ctx slot : Nat) (r : ReplayRecord) (action : Nat) : State :=
  match action with
  | 0 => if r.kind = 1 then trapRetry s ctx slot r else if r.kind = 6 then trapSkip s ctx slot r else trapEnd s ctx slot r
  | 1 =>
    if r.kind = 1 ∨ r.kind = 4 ∨ r.kind = 5 ∨ r.kind = 6 then trapSkip s ctx slot r else trapEnd s ctx slot r
  | 2 => trapEnd s ctx slot r
  | _ => trapCancel s ctx slot r

/-- R464: a resume command; one whose trap is over has no effect. -/
def resumeTrap (s : State) (die ctx slot action : Nat) : State :=
  onMail s die <|
    if 4096 ≤ ctx then illegalCommand s die
    else
      match trapRecord s ctx slot with
      | none => mailReply s die 0 0
      | some r => mailReply (onContext s ctx fun x => trapAction x ctx slot r action) die 0 0

/-- R464. -/
def execTrapResumeRetry (die ctx slot : Nat) (s : State) : Result := .next (resumeTrap s die ctx slot 0)

/-- R464. -/
def execTrapResumeSkip (die ctx slot : Nat) (s : State) : Result := .next (resumeTrap s die ctx slot 1)

/-- R464. -/
def execTrapResumeEnd (die ctx slot : Nat) (s : State) : Result := .next (resumeTrap s die ctx slot 2)

/-- R464. -/
def execTrapResumeCancel (die ctx slot : Nat) (s : State) : Result := .next (resumeTrap s die ctx slot 3)

/-- R464: whether a trap has been held for `TRAPLIMIT` µs of context time. -/
def trapOverdue (s : State) (ctx : Nat) (r : ReplayRecord) : Bool :=
  decide (r.since + max 1 (ctxOf s ctx).f.trapLimit * 1000 ≤ (ctxOf s ctx).ctime)

/-- R464. -/
def execTraplimitExpiry (ctx slot : Nat) (s : State) : Result :=
  match trapRecord s ctx slot with
  | none => .next s
  | some r =>
    .next (if (ctxOf s ctx).resident && trapOverdue s ctx r then trapEnd s ctx slot r else s)

/-! ### Replies to calls (20 R469) -/

/-- R469: the block and slot key of the outstanding call that a reply names. -/
def replyTarget (s : State) (ctx tag location slot : Nat) : Option Nat :=
  (s.work.sync.find? fun p =>
    let b := blockOf s p.1
    (mget s.work.blocks p.1).isSome && ctxOfBlock s p.1 == ctx && b.slot == slot
      && coreLocation (b.core.getD 0) == location
      && ((mget p.2.calls (tag % 4)).map fun c => c.tag == tag && c.state == 1).getD false).map Prod.fst

/-- The call record of a tag of a block's place. -/
def isCallRecord (tag location slot : Nat) (e : List Byte) : Bool :=
  fieldOf e 0 4 == tag && fieldOf e 14 2 == location && fieldOf e 16 1 == slot

/-- 13 R305: the records that the supervisor has read leave the supervisor-call queue in the order of their entry: the reply
to a call shows that its record, and those before it, have been read (log 62). -/
def dropCall (q : HwQueue) (tag location slot : Nat) : HwQueue :=
  match q.all.findIdx? fun e => isCallRecord tag location slot e with
  | none => q
  | some i => { q with die := q.die.drop (i + 1), ring := q.ring.drop (i + 1 - q.die.length) }

/-- R469: one entry of the reply ring. -/
def takeReplyEntry (s : State) (ctx : Nat) (e : List Byte) : State :=
  let tag := fieldOf e 0 4
  let location := fieldOf e 6 2
  let slot := fieldOf e 8 1
  match (if fieldOf e 4 2 = ctx then replyTarget s ctx tag location slot else none) with
  | none => appendEvent s (location % 4) { ctx := ctx, kind := 10, location := location, slot := slot }
  | some b =>
    let s1 := modSync s b fun y =>
      { y with calls := mmod y.calls (tag % 4) fun c => { c with state := 2, reply := (e.drop 128).take 128 } }
    modCtx s1 ctx fun c => { c with svcQ := dropCall c.svcQ tag location slot }

/-- R469: `SVC_REPLY`: replies are taken in ring order. -/
def execSvcReply (ctx : Nat) (s : State) : Result :=
  let c := ctxOf s ctx
  if (mget s.ctxs ctx).isNone ∨ c.svcrRead = c.svcrWrite then .next s
  else
    match readVirtual s ctx (c.f.svcrBase + 256 * c.svcrRead) 256 with
    | .error _ => .next s
    | .ok e =>
      .next (takeReplyEntry (modCtx s ctx fun x => { x with svcrRead := (c.svcrRead + 1) % max 1 c.f.svcrSize }) ctx e)

/-! ### Rollback (20 R481) -/

/-- R481 step 2: whether the block's accesses in flight have drained. A rollback that is due when its partition begins to drain is
made before its state is saved (R478). -/
def rollbackReady (s : State) (b : Nat) : Bool :=
  (syncOf s b).rollbackDue && ((ctxOf s (ctxOfBlock s b)).resident || !hasSaved s (ctxOfBlock s b)) && (s.pend.all fun a => a.block != b)
    && s.cores.all fun c => c.2.texQ.all fun o => o.block != b

/-- R481: the core records of a block's threads are over. -/
def dropThreadRecords (s : State) (ctx b : Nat) : State :=
  let mine (w : ReplayWork) : Bool := match w with
    | .core _ _ (u :: _) => u / 1024 == b
    | _ => false
  dropWorks s ctx mine

/-- R481 step 3, R484: a thread as its checkpoint holds it, with no operation in flight. Its slot and the frames it has
stored to stand. -/
def restoreThread (now : Thread) (img : Thread) : Thread :=
  { img with
    slot := now.slot, frames := now.frames
    regs := { img.regs with ctr := [] }
    ctl := { img.ctl with run := if img.ctl.run = .exited then .exited else .runnable, wait := none, npc := none
                          refile := false, leaving := false, trapDue := none } }

/-- R481: the bound commands that no register of the checkpoint binds complete unposted. -/
def dropLateBounds (s : State) (b : Nat) (kregs : SMap KReg) : State :=
  ((mkeys (syncOf s b).bound).filter fun t => !(kregs.any fun k => k.2.command == some t)).foldl
    (fun acc t => dropBound acc b t .cancelled) s

/-- 15 R375: a hit-shader thread that has exited since the checkpoint lives again, and its ray is `SHADING`: one whose completion
waits for its slot completes no more, one that has completed goes back, and its launch counts it as it did (log 90). -/
def reviveRay (l : Nat) (s : State) (p : Nat × Thread) : State :=
  match p.2.hitRay, threadOf s p.1 with
  | some id, some now =>
    let ctx := (launchOf s l).ctx
    if now.ctl.run ≠ .exited ∨ p.2.ctl.run = .exited then s
    else
      let r := mgetD s.work.rays l {}
      let s1 := modRays s l fun x =>
        { x with closing := x.closing.filter (·.id != id), held := x.held.filter (·.1 != id) }
      if r.closing.any (·.id == id) || r.held.any (·.1 == id) then s1
      else match readVirtual s ctx (raySlot s l id + 64) 1 with
        | .ok [4] => modLaunch ((writeVirtual s ctx (raySlot s l id + 64) (leBytes 1 3)).getD s) l fun k =>
            { k with rayCount := k.rayCount - 1, counter := k.counter + 1 }
        | _ => s
  | _, _ => s

/-- R481, 09 R219: the rows of a parked block are restored where they lie, in the parked-row region. -/
def reparkRows (s : State) (b : Nat) : State :=
  let k := blockOf s b
  let ctx := ctxOfBlock s b
  match k.core, k.parkRow with
  | some core, some r => holdWrite s (saveArea (.ok s) ctx (parkAddr s ctx core r)
      ((List.range (launchOfBlock s b).desc.rows).flatMap (rowBytes k.scratch)))
  | _, _ => s

/-- R481 steps 2 to 4. -/
def rollBack (s : State) (b : Nat) (img : Image) : State :=
  let y := syncOf s b
  let ctx := ctxOfBlock s b
  let core := (blockOf s b).core.getD 0
  let us := img.threads.map Prod.fst
  let late (e : MatEntry) : Bool := decide (e.cmd.seq < y.checkPosts)
  let s1 := cancelCopies (cancelMatrix (dropLateBounds s b y.checkKregs) b late) b fun c => decide (c.seq < y.checkPosts)
  let s2 := dropRecords (dropThreadRecords (img.threads.foldl (reviveRay (blockOf s b).launch) (unfile s1 core us)) ctx b) ctx b
  let s3 := img.threads.foldl (fun acc p => modThread acc p.1 fun t => restoreThread t p.2) s2
  let s4 := modBlock s3 b fun k =>
    { k with scratch := img.rows, gangBars := img.gangBars, blockBars := img.blockBars }
  let s5 := modSync s4 b fun k =>
    { k with kregs := y.checkKregs, bound := y.checkBound, rollbackUsed := true, rollbackDue := false, checkpointDue := false }
  let s6 := appendEvent (reparkRows s5 b) (dieOfCore core) (consumedEvent s5 b 0 8 .poisonConsumed y.consumed)
  fileThreads s6 ((img.threads.filter fun p => p.2.ctl.run != .exited).map Prod.fst)

/-- R481: `ROLLBACK`. -/
def execRollback (block : Nat) (s : State) : Result :=
  match (syncOf s block).checkpoint with
  | none => .next s
  | some img => .next (if rollbackReady s block then rollBack s block img else s)

/-! ### Events (19 R453, 20 R460, R554, 21 R488) -/

/-- 19 R453: `INTERVAL` of `%chk`, in µs. -/
def checkInterval (t : Thread) : Nat := t.regs.chk.toNat / 65536

/-- 19 R453: whether a sticky bit of a live thread is due for its report. -/
def intervalDue (s : State) (t : Thread) (bit : Nat) : Bool :=
  decide (bit < 2) && checkInterval t != 0 && t.regs.chk.getLsbD bit && !t.chkReported.getLsbD bit
    && t.ctl.run != .exited && (ctxOf s (ctxOfBlock s t.block)).resident
    && decide (mgetD t.chkSet bit 0 + checkInterval t * 1000 ≤ ctimeOf s t.block)

/-- 19 R453: `CHECK_INTERVAL_REPORT`. -/
def execCheckIntervalReport (thread bit : Nat) (s : State) : Result :=
  match threadOf s thread with
  | none => .next s
  | some t =>
    let core := (blockOf s t.block).core.getD 0
    .next (if intervalDue s t bit then
      appendEvent (modThread s thread fun x => { x with chkReported := x.chkReported ||| BitVec.ofNat 2 (2 ^ bit) })
        (dieOfCore core)
        { ctx := ctxOfBlock s t.block, kind := 7, location := coreLocation core, slot := (blockOf s t.block).slot
          handle := handleOfBlock s t.block, detail := 2 ^ bit + t.tid * 2 ^ 32, extra := mgetD t.chkSet bit 0 }
      else s)

/-- R460: the first held entry of a die, each context's in order, that its ring has room for. -/
def heldEntry (s : State) (die : Nat) : Option EventEntry :=
  (dieOf s die).fault.held.find? fun e => eventRoom s e.ctx && (moreOf s e.ctx).retryAt.isNone

/-- R460, R554: a held entry is written, or its write fails. -/
def writeHeld (s : State) (die : Nat) (e : EventEntry) : State :=
  match writeEvent (modDie s die fun d => { d with fault := { d.fault with held := d.fault.held.erase e } }) die e with
  | some s1 => s1
  | none => structureFailedOn s die e.ctx (eventSlot s e.ctx)

/-- R460: `EVENT_HELD_WRITE`. -/
def execEventHeldWrite (die : Nat) (s : State) : Result :=
  match heldEntry s die with
  | none => .next s
  | some e => .next (writeHeld s die e)

/-- 21 R488: `NOTIFICATION_MESSAGE`: at most one on the context's vector in 1 µs. -/
def execNotificationMessage (ctx : Nat) (s : State) : Result :=
  let m := moreOf s ctx
  let free := match mget s.tables.vectors m.vector with
    | none => true
    | some t => decide (t + 1000 ≤ s.dtime)
  .next (if m.notifyPending && free then
    modMore { s with tables := { s.tables with vectors := mset s.tables.vectors m.vector s.dtime } } ctx fun x =>
      { x with notifyPending := false, notified := x.notified + 1 }
    else s)

/-- The first held entry of a context on some die. -/
def heldFor (s : State) (ctx : Nat) : Option (Nat × EventEntry) :=
  [0, 1, 2, 3].findSome? fun d => ((dieOf s d).fault.held.find? fun e => e.ctx == ctx).map fun e => (d, e)

/-- R554: the failed writes of a context's structures are made again: a waiting record, then a held entry. -/
def retryStructures (s : State) (ctx : Nat) : State :=
  let s1 := onContext s ctx fun x => placeWaiting x ctx
  match heldFor s1 ctx with
  | none => s1
  | some (d, e) => if eventRoom s1 ctx then writeHeld s1 d e else s1

/-- R554: `STRUCTURE_WRITE_RETRY`: once in every 1 ms. -/
def execStructureWriteRetry (ctx : Nat) (s : State) : Result :=
  match (moreOf s ctx).retryAt with
  | none => .next s
  | some t =>
    .next (if t ≤ s.dtime then retryStructures (modMore s ctx fun m => { m with retryAt := none, failed := [] }) ctx else s)

/-! ### Mailbox commands 1 and 3 -/

/-- 17 R405: whether every access of a context is performed at `.dev`: none is in flight, no thread's write, engine's write or
ray's slot is yet to be. -/
def ctxPerformed (s : State) (ctx : Nat) : Bool :=
  (s.pend.all fun a => a.ctx != ctx)
    && (s.work.threads.all fun t => ctxOfBlock s t.2.block != ctx || decide (t.2.regs.wh ≤ s.dtime))
    && (s.cores.all fun g => g.2.copyQ.all fun c => c.ctx != ctx || decide (c.completion ≤ s.dtime))
    && (s.clusters.all fun c => c.2.table.all fun e => e.2.cmd.ctx != ctx || decide (e.2.completion ≤ s.dtime))
    && s.work.rays.all fun r => (launchOf s r.1).ctx != ctx || r.2.closing.isEmpty

/-- 17 R405: `TRANSLATION_INVALIDATE`: the translations are dropped at once; where an access of the context is yet to be performed,
the command stays at the mailbox (`settleInvalidates`). -/
def execTranslationInvalidate (die ctx vpn count : Nat) (s : State) : Result :=
  .next (onMail s die <|
    if 4096 ≤ ctx ∨ 2 ^ 44 ≤ vpn ∨ count = 0 ∨ 2 ^ 44 < count then illegalCommand s die
    else
      let s1 := dropTlb s ctx vpn count
      if ctxPerformed s ctx then mailReply s1 die 0 0
      else modDie s1 die fun d => { d with mailBusy := true, invalidating := some (ctx, vpn, count) })

/-- 17 R405: the invalidates whose accesses are performed by now complete: what was cached meanwhile is dropped too. -/
def settleInvalidates (s : State) : State :=
  s.dies.foldl (fun acc d => match d.2.invalidating with
    | none => acc
    | some (ctx, vpn, n) =>
      if ctxPerformed acc ctx then
        mailReply (modDie (dropTlb acc ctx vpn n) d.1 fun x => { x with invalidating := none }) d.1 0 0
      else acc) s

/-- 15 R359, 16 R384: `UPT_LOAD`. -/
def execUptLoad (die ctx unit slot image : Nat) (s : State) : Result :=
  .next (onMail s die <|
    if (mget s.ctxs ctx).isNone ∨ unit = 0 ∨ 3 < unit ∨ 7 < slot ∨ !imageOk s image then illegalCommand s die
    else
      mailReply (modCtx s ctx fun c => { c with upt := mset c.upt (8 * unit + slot) (cellsFrom s.mem.device image 64) }) die 0 0)

/-! ### Partitions (02 R44, 20 R474, R478, 22 R514) -/

/-- 17 R400: an entry of the partition table; an empty one is not listed. -/
def partOf (s : State) (i : Nat) : Partition := mgetD s.tables.partitions i {}

/-- An entry of the partition table written. -/
def setPart (s : State) (i : Nat) (p : Partition) : State :=
  { s with tables := { s.tables with partitions := mset s.tables.partitions i p } }

/-- R514: `PARTITION_DEFINE`. -/
def execPartitionDefine (die index mask : Nat) (s : State) : Result :=
  .next (onMail s die <|
    if 16 ≤ index ∨ 2 ^ 192 ≤ mask then illegalCommand s die
    else
      let m := BitVec.ofNat 192 mask
      if (partOf s index).state ≠ 0 ∨ s.tables.partitions.any fun p => p.2.state != 0 && (p.2.mask &&& m) != 0 then
        mailReply s die 2 4
      else mailReply (setPart s index { mask := m, state := 2 }) die 0 0)

/-- R514: `PARTITION_FREE`. -/
def execPartitionFree (die index : Nat) (s : State) : Result :=
  .next (onMail s die <|
    if 16 ≤ index then illegalCommand s die
    else if (partOf s index).ctx.isSome ∨ (partOf s index).state = 3 then mailReply s die 2 4
    else mailReply { s with tables := { s.tables with partitions := merase s.tables.partitions index } } die 0 0)

/-- The clusters of a partition. -/
def Partition.clusters (p : Partition) : List Nat := (List.range 192).filter fun c => p.mask.getLsbD c

/-- The cores of a partition. -/
def Partition.cores (p : Partition) : List Nat := p.clusters.flatMap fun c => [4 * c, 4 * c + 1, 4 * c + 2, 4 * c + 3]

/-- R476: whether what a context has saved lies on the clusters of a partition. -/
def savedIn (s : State) (ctx : Nat) (p : Partition) : Bool :=
  ((moreOf s ctx).savedClusters.all fun x => p.mask.getLsbD x.1)
    && (moreOf s ctx).savedCores.all fun x => p.mask.getLsbD (clusterOfCore x.1)

/-- R514: whether the context a switch names may come in (log 38). -/
def mayEnter (s : State) (ctx : Nat) (p : Partition) : Bool :=
  ctx == 0xFFFF || (!(ctxOf s ctx).resident && savedIn s ctx p
    && s.tables.partitions.all fun q => q.2.ctx != some ctx && q.2.next != some ctx)

/-- R44 step 1: issue stops, the outgoing context's time stops. -/
def startSwitch (s : State) (die index ctx : Nat) (p : Partition) : State :=
  let s1 := match p.ctx with
    | none => s
    | some c => modCtx s c fun x => { x with resident := false }
  modDie (setPart s1 index { p with state := 3, next := if ctx = 0xFFFF then none else some ctx
                                    step := if p.ctx.isSome then 2 else 4, mail := die })
    die fun d => { d with mailBusy := true, mailStatus := 1, mailReason := 0 }

/-- R514: a switch whose mailbox has taken it. -/
def trySwitch (s : State) (die index ctx : Nat) : State :=
  let p := partOf s index
  if p.state = 3 then mailReply s die 2 4
  else if p.state = 0 ∨ !mayEnter s ctx p then mailReply s die 2 2
  else startSwitch s die index ctx p

/-- R478: whether a rollback of a block of a partition's context is under way. -/
def rollbackRuns (s : State) (index : Nat) : Bool :=
  match (partOf s index).ctx with
  | none => false
  | some c => s.work.sync.any fun y => y.2.rollbackDue && ctxOfBlock s y.1 == c

/-- R44, R514: `PARTITION_SWITCH`; during a step of the operating point it waits for the end of the step (09 R220), during a
rollback for the end of the rollback (20 R478). -/
def execPartitionSwitch (die index ctx : Nat) (s : State) : Result :=
  .next (onMail s die <|
    if 16 ≤ index ∨ (ctx ≠ 0xFFFF ∧ (mget s.ctxs ctx).isNone) then illegalCommand s die
    else if s.power.target.isSome || rollbackRuns s index then
      modDie { s with tables := { s.tables with switches := s.tables.switches ++ [(die, index, ctx)] } } die fun d =>
        { d with mailBusy := true, mailStatus := 1, mailReason := 0 }
    else trySwitch s die index ctx)

/-- R44 step 2: whether the operations in flight of the outgoing context have drained: its accesses, but for what waits with a
release (11 R273), and the granted passes; and no rollback runs (20 R478). -/
def switchDrained (s : State) (ctx : Nat) (p : Partition) : Bool :=
  (s.pend.all fun a => a.ctx != ctx || (!a.applied && behindRelease s a))
    && (p.clusters.all fun c => (clusterOf s c).granted.isNone)
    && s.work.sync.all fun y => !(y.2.rollbackDue && ctxOfBlock s y.1 == ctx)

/-- R44 step 1: a core's bundles and bins are undone: its threads are runnable again at their next clause, inside a pass
at its start (08 R189). -/
def unbundle (s : State) (core : Nat) : State :=
  let us := (coreOf s core).blocks.flatMap fun b => (threadsOfBlock s b).map Prod.fst
  us.foldl (fun acc u => modThread acc u fun t =>
    if t.ctl.run = .bundled ∨ t.ctl.run = .runnable then
      t.modCtl fun c => { c with run := .runnable, pc := restartPc t c.pc }
    else t) (unfile s core us)

/-- 15 R371: a run stops at a ray boundary: its rays go back to their queue, with a record of kind 0. -/
def parkRun (s : State) (cluster : Nat) : State :=
  match (clusterOf s cluster).run with
  | none => s
  | some r =>
    let ctx := (launchOf s r.launch).ctx
    let loc := rayLocation cluster
    let s1 := returnRays (modCluster s cluster fun c => { c with run := none }) r.launch r.subtree loc r.rays
    takeRecord s1 ctx
      { cause := 2, location := loc
        work := .ray cluster r.launch 0 r.subtree r.number (r.taken - r.rays.length - r.out) r.taken 0
        since := (ctxOf s ctx).ctime }



/-- 02 R44 step 2 on one cluster: its ray run and its transfers. -/
def parkCluster (s : State) (cluster : Nat) : State :=
  let s1 := parkRun s cluster
  (clusterOf s1 cluster).table.foldl (parkTransfer cluster) s1

/-- R44 step 2 on one core. -/
def parkCore (s : State) (core : Nat) : State :=
  let s1 := (coreOf s core).copyQ.foldl parkSwitched (unbundle s core)
  (coreOf s1 core).texQ.foldl (fun acc o => parkSampler acc core o) s1

/-- R474: the TLBs of a partition's engines invalidated. -/
def dropEngines (s : State) (p : Partition) : State :=
  let ks := (p.cores.flatMap fun g => [Engine.key (.copy g), Engine.key (.sampler g)])
    ++ (p.cores.map clusterOfCore).dedup.flatMap fun c => [Engine.key (.matrix c), Engine.key (.ray c)]
  { s with engineTlb := s.engineTlb.filter fun e => !ks.contains e.1 }

/-- R474: the structures that a context leaves; L1 and TLBs are invalidated. -/
def saveStructures (s : State) (ctx : Nat) (p : Partition) : State :=
  let s1 := p.cores.foldl (fun acc g =>
    if (mget acc.cores g).isSome then modCore (flushL1 acc g) g fun c => { c with tlb := [] } else acc) (dropEngines s p)
  let s2 := modMore s1 ctx fun m =>
    { m with savedCores := (s1.cores.filter fun c => p.mask.getLsbD (clusterOfCore c.1)).map fun c => (c.1, {})
             savedCoaches := (s1.coaches.filter fun c => p.mask.getLsbD (clusterOfCore c.1)).map fun c => (c.1, {})
             savedClusters := (s1.clusters.filter fun c => p.mask.getLsbD c.1).map fun c => (c.1, {}) }
  swapSaved s2 ctx

/-- R44 steps 2 to 4: what cannot finish is parked, then the state is saved; a write that fails holds the switch
(20 R554). -/
def drainEnd (s : State) (index ctx : Nat) (p : Partition) : State :=
  let s1 := (List.range 8).foldl (fun acc b => parkRaster acc ctx b) (p.clusters.foldl parkCluster (p.cores.foldl parkCore s))
  match saveImages s1 ctx index p with
  | .error a => structureFailed s a.1 a.2
  | .ok s2 => setPart (saveStructures s2 ctx p) index { p with step := 4 }

/-- R44: `PARTITION_DRAIN_END`. -/
def execPartitionDrainEnd (part : Nat) (s : State) : Result :=
  let p := partOf s part
  match p.ctx with
  | none => .next s
  | some ctx =>
    .next (if p.state = 3 ∧ p.step = 2 ∧ switchDrained s ctx p ∧ (moreOf s ctx).retryAt.isNone then
      drainEnd s part ctx p else s)

/-- 19 R458: the black-box entry of a switch (log 35). -/
def switchRecorded (s : State) (p : Partition) : State :=
  blackBoxAdd s { time := 0, seq := 0, kind := 4, die := p.mail, ctx := (p.next.getD (p.ctx.getD 0)) }

/-- 14 R329: the cores of a partition that a context takes up for the first time start from its `CPSEED`. -/
def seedCores (s : State) (ctx : Nat) (p : Partition) : State :=
  let fresh := p.cores.filter fun g =>
    (mget (moreOf s ctx).savedCores g).isNone && (coreOf s g).cpSeed != (ctxOf s ctx).cpSeed
  fresh.foldl (fun acc g => modCore acc g fun c => { c with cpSeed := (ctxOf s ctx).cpSeed }) s

/-- R215: the rows of the blocks of a context on a core that a switch in restores. -/
def rowsOver (s : State) (core : Nat) : Bool :=
  let rows := ((rowBlocks s core).map fun b => (launchOfBlock s b).desc.rows).foldl (· + ·) 0
  decide (capacityWith s core (coreOf s core).roles (roleBanks (coreOf s core) 2).length (planVs s) < rows)

/-- R215, R219: a block that a restored core has no rows for: its rows go from their bank images to the parked-row
region. -/
def parkRestored (q : Except Held State) (b : Nat) : Except Held State :=
  match refillBanks q b with
  | .error a => .error a
  | .ok s => match parkRows s b with
    | .error a => .error a
    | .ok s1 => .ok (leaveRows s1 b)

/-- R215: the blocks that a restored core has no rows for at the current point are parked, the latest placed first. -/
def parkExcess (q : Except Held State) (core : Nat) : Except Held State :=
  match q with
  | .error a => .error a
  | .ok s =>
    if !rowsOver s core then .ok s
    else
      let s1 := selectOn core (planVs s) 64 s
      (((coreOf s1 core).blocks.filter fun b => (blockOf s1 b).selected && !(blockOf s1 b).parked)).foldl parkRestored (.ok s1)

/-- R220: the rows of a restored core that lie in unusable places move to free usable ones. -/
def settleRows (s : State) (core : Nat) : State := moveTobRows (moveBlockRows s core (planVs s)) core (planVs s)

/-- R475: what the incoming blocks need to issue is read back: thread records, accumulator images, their banks. -/
def readBack (s : State) (ctx : Nat) (p : Partition) : Except Held State :=
  match loadThreads s ctx with
  | .error a => .error a
  | .ok s1 =>
    match p.cores.foldl (refillTob ctx) (p.cores.foldl parkExcess (loadTiles s1 ctx p.clusters)) with
    | .error a => .error a
    | .ok s2 =>
      match ((s2.work.blocks.filter fun b =>
          ctxOfBlock s2 b.1 == ctx && !b.2.evicted && !b.2.parked && !b.2.ended).map Prod.fst).foldl refillBanks (.ok s2) with
      | .error a => .error a
      | .ok s3 => .ok (p.cores.foldl settleRows s3)

/-- 11 R273, 02 R44: a `FENCE` in progress when issue stopped is issued again: its sets and its `%wh` are those of now. -/
def reissueFence (s : State) (u : Nat) (t : Thread) : Thread :=
  t.modCtl fun c => { c with wait := c.wait.map fun w => match w.kind with
    | .fence classes scope _ _ _ _ =>
      { w with kind := .fence classes scope (threadStores s u) (blockCommands s t.block)
                        (migrationsOf s (ctxOfBlock s t.block)) t.regs.wh }
    | _ => w }

/-- `reissueFence` on every thread of a context. -/
def reissueFences (s : State) (ctx : Nat) : State :=
  modWork s fun w => { w with threads := w.threads.map fun p =>
    (p.1, if ctxOfBlock s p.2.block = ctx then reissueFence s p.1 p.2 else p.2) }

/-- 09 R202, R203: an L1 of a partition whose bank roles or fusion a restore has changed is invalidated. -/
def clearChanged (old s : State) (p : Partition) : State :=
  p.cores.foldl (fun acc g =>
    if (coreOf old g).roles = (coreOf acc g).roles ∧ (clusterOf old (clusterOfCore g)).fused = (clusterOf acc (clusterOfCore g)).fused
    then acc else flushL1 acc g) s

/-- R475: the saved structures of a context stand again. -/
def restoreContext (s0 : State) (ctx : Nat) (p : Partition) : Except Held State :=
  let s := seedCores s0 ctx p
  let s1 := modMore (clearChanged s (swapSaved s ctx) p) ctx fun m =>
    { m with savedCores := [], savedCoaches := [], savedClusters := [], savedPoison := [] }
  match readBack (modCtx s1 ctx fun c => { c with resident := true }) ctx p with
  | .error a => .error a
  | .ok s2 =>
    let us := s2.work.threads.filter fun t => t.2.ctl.run == .runnable && ctxOfBlock s2 t.2.block == ctx
    .ok (reissueFences (fileThreads (dropShadow s2 ctx) (us.map Prod.fst)) ctx)

/-- R220, R478: the step orders and switches that waited for the end of a step, a switch or a rollback: the switches first
(log 59). -/
def takeWaiting (s : State) : State :=
  match s.tables.switches with
  | [] => takeOrders s.power.queued.length s
  | x :: r =>
    if s.power.target.isSome || rollbackRuns s x.2.1 then s
    else trySwitch { s with tables := { s.tables with switches := r } } x.1 x.2.1 x.2.2

/-- 09 R218 step 7: the core rail reaches the new supply; the step is over. -/
def execRailSlewDone (s : State) : Result := .next (if s.power.phase = 3 then takeWaiting (railDone s) else s)

/-- R44 step 5: a switch is over: its partition holds the incoming context, or none. -/
def endSwitch (s : State) (part : Nat) (p : Partition) : State :=
  takeWaiting (mailReply (switchRecorded (setPart s part
    { p with ctx := p.next, next := none, step := 0, state := if p.next.isSome then 1 else 2 }) p) p.mail 0 0)

/-- R44 step 5, R514: `PARTITION_RESTORE`: the incoming context's time resumes; the command is done. State that cannot be
read back holds the restore (20 R554). -/
def execPartitionRestore (part : Nat) (s : State) : Result :=
  let p := partOf s part
  if p.state = 3 ∧ p.step = 4 then
    match p.next with
    | none => .next (endSwitch s part p)
    | some c =>
      if (moreOf s c).retryAt.isSome then .next s
      else match restoreContext s c p with
        | .error a => .next (structureFailed s a.1 a.2)
        | .ok s1 => .next (endSwitch s1 part p)
  else .next s

/-! ### Creation and destruction (02 R47, 13 R325, 20 R459) -/

/-- R459, 17 R400, R411, 21 R499: a field of a context, of the width and the values its chapter gives it; a value that the rule
does not admit leaves the field as it is (log 60). -/
def CtxFields.put (c : CtxFields) (f : CtxField) (v : Nat) : CtxFields :=
  let based (align : Nat) (x : CtxFields) : CtxFields := if v % align = 0 ∧ v < 2 ^ 56 then x else c
  let sized (x : CtxFields) : CtxFields := if CmdQueue.legalSize v then x else c
  match f with
  | .ptRoot => if v % 2 ^ 20 = 0 ∧ v < 2 ^ 52 then { c with ptRoot := v } else c
  | .maxWait => { c with maxWait := v % 2 ^ 64 }
  | .escLimit => { c with escLimit := v % 2 ^ 4 }
  | .lease => { c with lease := v % 2 ^ 8 }
  | .matAge => { c with matAge := v % 2 ^ 16 }
  | .ovfQuota => { c with ovfQuota := v % 2 ^ 32 }
  | .trapLimit => { c with trapLimit := v % 2 ^ 32 }
  | .lpBase => { c with lpBase := v % 2 ^ 56 }
  | .lpLog => { c with lpLog := v }
  | .lpFrames => { c with lpFrames := v }
  | .saveBase => based (2 ^ 24) { c with saveBase := v }
  | .evtBase => { c with evtBase := v % 2 ^ 56 }
  | .evtSize => sized { c with evtSize := v }
  | .svcrBase => { c with svcrBase := v % 2 ^ 56 }
  | .svcrSize => sized { c with svcrSize := v }
  | .rplBase => based 64 { c with rplBase := v }
  | .rplSlots => if 256 ≤ v ∧ v ≤ 65536 then { c with rplSlots := v } else c
  | .poolSize => sized { c with poolSize := v }
  | .xfrBase => based 64 { c with xfrBase := v }
  | .xfrSize => sized { c with xfrSize := v }
  | .movBase => based 16 { c with movBase := v }
  | .evtRead | .svcrWrite | .cpSeed | .traceOn | .poolFree | .notifyVector | .movTab _ => c

/-- R459: the fields the supervisor gives at creation. -/
def createdFields (p : ContextParams) : CtxFields :=
  [(CtxField.ptRoot, p.ptRoot), (.saveBase, p.saveBase), (.evtBase, p.evtBase), (.evtSize, p.evtSize), (.svcrBase, p.svcrBase),
   (.svcrSize, p.svcrSize), (.rplBase, p.rplBase), (.rplSlots, p.rplSlots), (.lpBase, p.lpBase), (.lpLog, p.lpLog),
   (.lpFrames, p.lpFrames)].foldl (fun c q => c.put q.1 q.2) {}

/-- R47: `CONTEXT_CREATION`: context time 0, empty queues, `CPSEED` and tickets at their resets, not resident. -/
def execContextCreation (ctx : Nat) (p : ContextParams) (s : State) : Result :=
  if 4096 ≤ ctx ∨ (mget s.ctxs ctx).isSome then .next s
  else
    .next { s with ctxs := mset s.ctxs ctx { f := createdFields p, resident := false }
                   more := mset s.more ctx { trace := p.trace } }

/-- The work of a context, gone. -/
def forgetWork (s : State) (ctx : Nat) : State :=
  let ofBlock (b : Nat) : Bool := ctxOfBlock s b == ctx && (mget s.work.blocks b).isSome
  let ofLaunch (l : Nat) : Bool := ((mget s.work.launches l).map fun k => k.ctx == ctx).getD false
  modWork s fun w =>
    { w with
      threads := w.threads.filter fun t => !ofBlock t.2.block
      blocks := w.blocks.filter fun b => !ofBlock b.1
      sync := w.sync.filter fun b => !ofBlock b.1
      groups := w.groups.filter fun g => !ofLaunch g.2.launch
      rays := w.rays.filter fun r => !ofLaunch r.1
      bundles := w.bundles.filter fun b => !ofBlock b.block
      launches := w.launches.filter fun l => l.2.ctx != ctx }

/-- 14 R329: the copy state of a core as a context's creation leaves it. -/
def Core.noCopies (c : Core) : Core :=
  { c with
    tbs := [], cbufs := [], copyQ := [], copyTicket := 0, copyWrapped := false, copyRing := [], cpSeed := 1 }

/-- What a core holds of a context, gone: its copy state where the core is the context's. -/
def forgetCore (s : State) (ctx core : Nat) (c0 : Core) : Core :=
  let c := if s.tables.partitions.any fun p =>
      p.2.ctx == some ctx && p.2.state == 1 && p.2.mask.getLsbD (clusterOfCore core) then c0.noCopies else c0
  let mine (b : Nat) : Bool := ctxOfBlock s b == ctx && (mget s.work.blocks b).isSome
  let rest := c.blocks.filter fun b => !mine b
  let emptied := rest.isEmpty && !c.blocks.isEmpty
  { c with
    bins := c.bins.filter fun b => !mine b.2.block
    fileQ := c.fileQ.filter fun u => !mine (u / 1024)
    tlb := c.tlb.filter fun t => t.ctx != ctx
    blocks := rest
    copyQ := c.copyQ.filter fun x => x.ctx != ctx
    texQ := c.texQ.filter fun o => !mine o.block
    tobLaunch := if emptied then none else c.tobLaunch
    tobPlace := if emptied then [] else c.tobPlace }

/-- What a Coachman holds of a context, gone. -/
def forgetCoach (s : State) (ctx : Nat) (c : Coach) : Coach :=
  let mine (b : Nat) : Bool := ctxOfBlock s b == ctx && (mget s.work.blocks b).isSome
  { c with starts := c.starts.filter fun x => !mine x.block
           running := c.running && !mine c.block, held := c.held && !mine c.block
           stack := if mine c.block then [] else c.stack
           wait := if mine c.block then none else c.wait }

/-- What a cluster holds of a context, gone; the tiles of its number read +0 to the next context of it (12 R274). -/
def forgetCluster (s : State) (ctx : Nat) (c : Cluster) : Cluster :=
  let mine (i : Nat) : Bool := ((mget c.table i).map fun e => e.cmd.ctx == ctx).getD false
  let old := (c.lastCtx.filter fun t => t.2 == ctx).map Prod.fst
  { c with
    tiles := c.tiles.filter fun t => !old.contains t.1
    lastCtx := c.lastCtx.filter fun t => t.2 != ctx
    owners := c.owners.filter fun o => match o.2 with
      | .block b => ctxOfBlock s b != ctx
      | .group g => (launchOf s (groupOf s g).launch).ctx != ctx
    table := c.table.filter fun e => e.2.cmd.ctx != ctx
    granted := if (c.granted.map mine).getD false then none else c.granted
    run := c.run.filter fun r => (launchOf s r.launch).ctx != ctx }

/-- What a die holds of a context, gone: its primitives, fault entries and held events (R554). -/
def forgetDie (s : State) (ctx : Nat) (d : Die) : Die :=
  let f := d.fault
  { d with
    binners := d.binners.map fun b =>
      (b.1, { b.2.keep (fun p => (launchOf s p.launch).ctx != ctx) with parked := b.2.parked.filter (· != ctx) })
    fault := { f with queue := f.queue.filter fun e => e.ctx != ctx, ring := f.ring.filter fun e => e.ctx != ctx
                      merge := f.merge.filter fun m => m.ctx != ctx, held := f.held.filter fun e => e.ctx != ctx } }

/-- R325: every piece of a context's work and its structures are gone. -/
def forgetContext (s : State) (ctx : Nat) : State :=
  let s1 := forgetWork s ctx
  { s1 with
    cores := s.cores.map fun p => (p.1, forgetCore s ctx p.1 p.2)
    coaches := s.coaches.map fun p => (p.1, forgetCoach s ctx p.2)
    clusters := s.clusters.map fun p => (p.1, forgetCluster s ctx p.2)
    dies := s.dies.map fun p => (p.1, forgetDie s ctx p.2)
    pend := s.pend.filter fun a => a.ctx != ctx
    engineTlb := s.engineTlb.map fun e => (e.1, e.2.filter fun t => t.ctx != ctx)
    ctxs := merase s.ctxs ctx
    more := merase s.more ctx
    tables := { s.tables with partitions := s.tables.partitions.map fun p =>
      (p.1, if p.2.ctx = some ctx ∧ p.2.state = 1 then { p.2 with ctx := none, state := 2 } else p.2) } }

/-- R325: `CONTEXT_DESTRUCTION`; a switch of its partition under way ends first. -/
def execContextDestruction (ctx : Nat) (s : State) : Result :=
  let switching := s.tables.partitions.any fun p => p.2.state == 3 && (p.2.ctx == some ctx || p.2.next == some ctx)
  .next (if (mget s.ctxs ctx).isNone || switching then s else forgetContext s ctx)

end Sys2Proof.Machine
end

