-- ==== Sys2Proof/Machine/EvHost.lean ====
section
/-!
DEFINITION. The device events of hosts, extents, lent memory, transfers and links (11 R252, 21 R491-R500). An event
that cannot happen leaves the state as it is (log 2).
-/

namespace Sys2Proof.Machine

/-! ### Host accesses (11 R252, 21 R491) -/

/-- R252: an H access completed by its host: a load or store at once, an atomic with its line held exclusively
(10 R243). -/
def hostComplete (s : State) (a : Access) : State :=
  if a.space != .hostH || !canPerform s a || (hostPort s (dieOfCore a.core)).isNone then s
  else
    match a.kind with
    | .load => finishLoad s a none
    | .store => finishStore s a
    | .atomic =>
      let s1 := serveAtomic s a
      match accessOf s1 a.id with
      | none => s1
      | some b => finishAtomic s1 b
    | _ => s

/-- R252: `HOST_ACCESS_COMPLETE`. -/
def execHostAccessComplete (access : Nat) (s : State) : Result := .next (onAccess s access (hostComplete s))

/-- R491: a host request that was not completed in 1 ms ends: reads are poison, writes are dropped; Dray reports
it. -/
def hostTimeout (s : State) (a : Access) : State :=
  drayFault (loseAccess s a) a.ctx (dieOfCore a.core) .protection (((a.lanes.head?.bind fun r => r.addrs.head?)).getD 0)

/-- R491: `HOST_ACCESS_TIMEOUT`. -/
def execHostAccessTimeout (access : Nat) (s : State) : Result :=
  .next (onAccess s access fun a =>
    if a.space == .hostH && a.issued && decide (a.since + 1000000 ≤ s.dtime) then hostTimeout s a else s)

/-! ### Extents (R493, R494) -/

/-- R492: an entry of the extent table. -/
def extentOf (s : State) (i : Nat) : Extent := mgetD s.tables.extents i {}

/-- R492: an entry written. -/
def setExtent (s : State) (i : Nat) (x : Extent) : State :=
  { s with tables := { s.tables with extents := mset s.tables.extents i x } }

/-- R493: the drain deadline of a request made now. -/
def drainDeadline (s : State) : Nat := s.dtime + max 1 s.tables.extDrain * 1000

/-- R493: the frames whose pool page lies in an extent; a page with a frame that is pinned or lent is not evicted (09 R205). -/
def extentFrames (s : State) (x : Extent) : List Nat :=
  (s.frames.filter fun p => (p.2.valid || p.2.hstate == 2) && !pageStays s p.1
    && decide (x.base ≤ 4096 * p.2.pool ∧ 4096 * p.2.pool < x.base + x.len)).map Prod.fst

/-- R493 step 3: every page of an extent that is present begins its eviction; a frame that has been surrendered, whose data lies
in the pool already (11 R270), is freed. -/
def evictExtent (s : State) (x : Extent) : State :=
  (extentFrames s x).foldl (fun acc f =>
    let y := frameOf acc f
    if y.hstate = 2 then freeSurrendered acc f
    else if y.valid && !y.mig && !y.leaving && y.hstate == 0 then evictPage acc f else acc) s

/-- R493: `EXTENT_RELEASE_REQUEST`. -/
def execExtentReleaseRequest (extent : Nat) (s : State) : Result :=
  let x := extentOf s extent
  if x.state = 1 ∧ x.kind = 0 then
    .next (evictExtent (setExtent s extent { x with state := 2, deadline := drainDeadline s }) x)
  else .next s

/-- R497 step 5: a lent extent's frames are zero and back in the page cache, and its entry is free. -/
def endLoan (s : State) (i : Nat) (x : Extent) : State :=
  let fs := (List.range (x.len / 4096)).map (x.firstFrame + ·)
  let s1 := fs.foldl (fun acc f => modFrame (zeroFrame acc f) f fun y => { y with lent := false }) s
  assignAll { s1 with tables := { s1.tables with extents := merase s1.tables.extents i } }

/-- R493 step 5: the extent is gone; what waited for it fails. -/
def extentGone (s : State) (i : Nat) (x : Extent) : State := assignAll (setExtent s i { x with state := 3 })

/-- R493, R494, R497: `EXTENT_RELEASE_DONE`: pages that have come in meanwhile are evicted; then step 5. -/
def execExtentReleaseDone (extent : Nat) (s : State) : Result :=
  let x := extentOf s extent
  if x.kind = 1 ∧ x.state = 5 then .next (endLoan s extent x)
  else if x.kind = 0 ∧ (x.state = 2 ∨ x.state = 3) then
    let s1 := evictExtent s x
    .next (if x.state = 2 && (extentFrames s1 x).isEmpty then extentGone s1 extent x else s1)
  else .next s

/-- R494: a forced release. Each context is told of its dirty sectors where they are dropped (`freeEvicted`). -/
def forceRelease (s : State) (i : Nat) (x : Extent) : State :=
  let y := { x with forced := true }
  let s1 := evictExtent (setExtent s i y) y
  extentGone (blackBoxAdd s1 { time := 0, seq := 0, kind := 7, code := FaultCode.extentGone.byte, detail := x.base }) i y

/-- R494, R497: `EXTENT_DRAIN_DEADLINE`. -/
def execExtentDrainDeadline (extent : Nat) (s : State) : Result :=
  let x := extentOf s extent
  if x.deadline ≤ s.dtime ∧ x.kind = 0 ∧ x.state = 2 then .next (forceRelease s extent x)
  else if x.deadline ≤ s.dtime ∧ x.kind = 1 ∧ x.state = 5 then .next (endLoan s extent x)
  else .next s

/-- R494: `EXTENT_FORCED_RELEASE`. -/
def execExtentForcedRelease (extent : Nat) (s : State) : Result :=
  let x := extentOf s extent
  if x.kind = 0 ∧ (x.state = 1 ∨ x.state = 2) then .next (forceRelease s extent x) else .next s

/-- R496: what maps a lent extent: bit 0 an HDM decoder of the upstream port, bit 1 the Budun link. -/
def lentMap (s : State) (i : Nat) : Nat := mgetD s.tables.lentMaps i 0

/-- R497: `EXTENT_RECLAIM`: the mapping of the extent ends. -/
def execExtentReclaim (extent : Nat) (s : State) : Result :=
  let x := extentOf s extent
  if x.kind = 1 ∧ x.state = 4 then
    .next { setExtent s extent { x with state := 5, deadline := drainDeadline s } with
      tables := { (setExtent s extent { x with state := 5, deadline := drainDeadline s }).tables with
        lentMaps := merase s.tables.lentMaps extent } }
  else .next s

/-- R496: whether a request to a lent extent names 64 bytes of it. -/
def lentNames (x : Extent) (offset : Nat) : Bool := x.kind == 1 && offset % 64 == 0 && decide (offset + 64 ≤ x.len)

/-- R496, R497: a request of a host or a peer to lent memory is answered. -/
def answerLent (s : State) (a : LentAnswer) : State := { s with tables := { s.tables with lentAnswer := some a } }

/-- R496, R497: `LENT_MEMORY_REQUEST`: 64 bytes of a mapped lent extent, read or written in the step the request arrives in
(log 88); a request that comes after the extent's reclaim has begun is answered with poison. -/
def execLentMemoryRequest (extent offset : Nat) (data : Option (List Byte)) (s : State) : Result :=
  let x := extentOf s extent
  let a := 4096 * x.firstFrame + offset
  if !lentNames x offset then .next s
  else if x.state = 5 then .next (answerLent s { extent := extent, offset := offset, poison := true })
  else if x.state ≠ 4 ∨ lentMap s extent = 0 then .next s
  else match data with
    | none => .next (answerLent s { extent := extent, offset := offset, data := cellsFrom s.mem.device a 64
                                    poison := isPoisoned s .device (a / 32) || isPoisoned s .device (a / 32 + 1) })
    | some bs =>
      if bs.length = 64 then
        .next (answerLent (writeBytes s .device (((List.range 64).map (a + ·)).zip bs)) { extent := extent, offset := offset })
      else .next s

/-! ### Transfers (R499, R500) -/

/-- R499: a transfer record's fields. -/
structure Xfer where
  kind : Nat
  serial : Bool
  signal : Bool
  local_ : Nat
  remote : Nat
  target : Nat
  pages : Nat
  sigAddr : Nat
  value : Nat
  legal : Bool
  deriving DecidableEq, Repr

/-- R499: the 64 bytes of a record; its reserved fields are ignored (00 R6). -/
def parseXfer (b : List Byte) : Xfer :=
  let f := fieldOf b 1 1
  let kind := fieldOf b 0 1
  let pages := fieldOf b 28 4
  let target := fieldOf b 24 2
  { kind := kind, serial := f % 2 == 1, signal := f / 2 % 2 == 1
    local_ := fieldOf b 8 8, remote := fieldOf b 16 8, target := target, pages := pages
    sigAddr := fieldOf b 32 8, value := fieldOf b 40 8
    legal := (kind == 1 || kind == 2) && fieldOf b 8 8 % 4096 == 0 && fieldOf b 16 8 % 4096 == 0 && (target == 0xFFFF || decide (target < 256))
      && decide (1 ≤ pages ∧ pages ≤ 262144) && (f / 2 % 2 == 0 || fieldOf b 32 8 % 8 == 0) }

/-- R499: the address of a record of the transfer ring. -/
def xferAddr (s : State) (ctx i : Nat) : Nat := (ctxOf s ctx).f.xfrBase + 64 * i

/-- R500: the next record to begin. -/
def nextXfer (s : State) (ctx : Nat) : Option Xfer :=
  let c := ctxOf s ctx
  if (mget s.ctxs ctx).isNone || c.xfrRead == c.xfrWrite then none
  else match readVirtual s ctx (xferAddr s ctx c.xfrRead) 64 with
    | .error _ => none
    | .ok b => some (parseXfer b)

/-- R500: a record has begun and its outcome is known: status, fault and the time its writes are performed. -/
def xferOutcome (s : State) (ctx : Nat) (x : Status × FaultCode × Nat) : State :=
  let c := ctxOf s ctx
  modMore (modCtx s ctx fun y => { y with xfrRead := (c.xfrRead + 1) % max 1 c.f.xfrSize }) ctx fun m =>
    { m with xfers := mset m.xfers c.xfrRead x, xferAsk := none }

/-- R500: the local pages of a record: the first that cannot be used, with its fault. -/
def localPages (s : State) (ctx : Nat) (x : Xfer) : Except (FaultCode × Nat) (List Nat) :=
  let n : Need := if x.kind = 1 then { write := true } else { read := true }
  (List.range x.pages).foldr (fun i acc =>
    match translateWalk s ctx (x.local_ + 4096 * i) n with
    | .error c => .error (c, x.local_ + 4096 * i)
    | .ok p => match acc with
      | .error e => .error e
      | .ok ps => .ok (p.mem.2 :: ps)) (.ok [])

/-- R500: an absent page is asked of Dray, once; `fail` is what follows where it cannot be brought in. -/
def askPage (s : State) (ctx va : Nat) (fail : FaultCode → State) : State :=
  match (moreOf s ctx).xferAsk with
  | some (v, some c) => if v = va / 4096 then fail c else s
  | _ =>
    if readerWaits s ctx (va / 4096) then s
    else enterReader (modMore s ctx fun m => { m with xferAsk := some (va / 4096, none) }) (ownerDie s (va / 4096)) ctx (va / 4096)

/-- R500: whether a record's remote range lies in active extents of the pool, or in what the peer says that it lends
(log 54). -/
def remoteActive (s : State) (x : Xfer) : Bool :=
  (List.range x.pages).all fun i =>
    if x.target = 0xFFFF then (extentAt s (x.remote + 4096 * i)).any fun e => e.2.state == 1
    else Config.peerLends x.target (x.remote + 4096 * i) s.dtime

/-- R500: whether a record's remote pages can be reached: decoders cover them, or a link is up to the peer
(R489, R498). -/
def remoteUp (s : State) (x : Xfer) : Bool :=
  if x.target = 0xFFFF then (List.range x.pages).all fun i => poolCovered s (x.remote + 4096 * i)
  else s.tables.links.any fun l => !(dieOf s (l.1 / 2)).lost && (mget l.2 x.target).isSome

/-- Address and byte pairs for a page. -/
def pageWrites (pa : Nat) (bs : List Byte) : List (Nat × Byte) := ((List.range 4096).map (pa + ·)).zip bs

/-- R500: the bytes of a remote page and its poisoned sectors; a peer's bytes are free values. -/
def remotePage (s : State) (x : Xfer) (i : Nat) : List Byte × List Nat :=
  let a := x.remote + 4096 * i
  if x.target = 0xFFFF then
    (cellsFrom s.mem.pool a 4096, (List.range 128).filter fun k => isPoisoned s .pool (a / 32 + k))
  else ((List.range 1024).flatMap fun k => leBytes 4 (Config.freeWord (s.draws + k)).toNat, [])

/-- R500: one page fetched: each sector an engine write; poison travels. -/
def fetchPage (x : Xfer) (q : State × Bool × Nat) (p : Nat × Nat) : State × Bool × Nat :=
  let s := q.1
  let r := remotePage s x p.1
  let ws := pageWrites p.2 r.1
  let done := max q.2.2 (writeCompletion s (dieOfFrame (p.2 / 4096)) ws)
  let s1 := homeWrite s ws
  let s2 := r.2.foldl (fun acc k => addPoison acc .device (p.2 / 32 + k)) s1
  ({ s2 with draws := if x.target = 0xFFFF then s2.draws else s2.draws + 1024 }, q.2.1 || !r.2.isEmpty, done)

/-- R500: one page pushed: to the pool, or out over the link. -/
def pushPage (x : Xfer) (q : State × Bool) (p : Nat × Nat) : State × Bool :=
  let s := q.1
  let bad := (List.range 128).any fun k => isPoisoned s .device (p.2 / 32 + k)
  if x.target = 0xFFFF then
    ((List.range 128).foldl (fun acc k =>
      moveSector acc .device .pool (p.2 / 32 + k) ((x.remote + 4096 * p.1) / 32 + k)) s, q.2 || bad)
  else (s, q.2 || bad)

/-- R500: the data of a record moves. -/
def moveXfer (s : State) (ctx : Nat) (x : Xfer) (ps : List Nat) : State :=
  let pages := (List.range x.pages).zip ps
  if x.kind = 1 then
    let q := pages.foldl (fetchPage x) (s, false, s.dtime)
    xferOutcome q.1 ctx (if q.2.1 then .poisoned else .done, .none, q.2.2)
  else
    let q := pages.foldl (pushPage x) (s, false)
    xferOutcome q.1 ctx (if q.2 then .poisoned else .done, .none, s.dtime)

/-- R500: a record begins: its checks in order, then its data. -/
def beginXfer (s : State) (ctx : Nat) (x : Xfer) : State :=
  let fail (s1 : State) (st : Status) (code : FaultCode) : State := xferOutcome s1 ctx (st, code, s.dtime)
  if x.serial && !(moreOf s ctx).xfers.isEmpty then s
  else if !x.legal then fail s .faulted .protection
  else if !remoteActive s x then fail s .faulted .extentGone
  else match localPages s ctx x with
    | .error (.pageAbsent, va) => askPage s ctx va fun c => fail s .faulted c
    | .error (.extentGone, _) => fail s .faulted .extentGone
    | .error _ => fail s .faulted .protection
    | .ok ps =>
      if !remoteUp s x then
        fail (if x.target = 0xFFFF then drayFault s ctx 0 .protection x.remote else s) .poisoned .none
      else moveXfer s ctx x ps

/-- R500: `XFER_FETCH`: the next record of the ring, unless it is a push. -/
def execXferFetch (ctx : Nat) (s : State) : Result :=
  match nextXfer s ctx with
  | none => .next s
  | some x => .next (if x.kind = 2 then s else beginXfer s ctx x)

/-- R500: `XFER_PUSH`: the next record of the ring, if it is a push. -/
def execXferPush (ctx : Nat) (s : State) : Result :=
  match nextXfer s ctx with
  | none => .next s
  | some x => .next (if x.kind = 2 then beginXfer s ctx x else s)

/-- R500: a record's `STATUS` and `FAULT` written; it is over. A write that fails is recorded and tried again (20 R554). -/
def endXfer (s : State) (ctx i : Nat) (st : Status) (code : FaultCode) : State :=
  match writeVirtual s ctx (xferAddr s ctx i + 2) (leBytes 1 st.code ++ leBytes 1 code.byte) with
  | none => structureFailed s ctx (xferAddr s ctx i + 2)
  | some s1 => modMore s1 ctx fun m => { m with xfers := merase m.xfers i, xferAsk := none }

/-- R500: the completion writes: the signal as a `.sys` release, then `STATUS` and `FAULT`. An absent page of the signal is
brought in first. -/
def finishXfer (s : State) (ctx i : Nat) (x : Xfer) (st : Status) (code : FaultCode) : State :=
  if x.signal && x.legal then
    match writeWord64 s ctx x.sigAddr x.value with
    | .ok s2 => endXfer s2 ctx i st code
    | .error .pageAbsent => askPage s ctx x.sigAddr fun c => endXfer s ctx i .faulted c
    | .error .extentGone => endXfer s ctx i .faulted .extentGone
    | .error _ => endXfer s ctx i .faulted .protection
  else endXfer s ctx i st code

/-- R500: `XFER_COMPLETE`: a begun record whose writes have been performed at `.dev`. -/
def execXferComplete (ctx record : Nat) (s : State) : Result :=
  match mget (moreOf s ctx).xfers record with
  | none => .next s
  | some (st, code, t) =>
    if s.dtime < t ∨ (mget s.ctxs ctx).isNone then .next s
    else
      let x := match readVirtual s ctx (xferAddr s ctx record) 64 with
        | .ok b => parseXfer b
        | .error _ => parseXfer []
      .next (finishXfer s ctx record x st code)

/-! ### Links (R498) -/

/-- R498, 22 R518: `BUDUN_LINK_BRINGUP`: the supervisor numbers a peer of a port, one of several where a Budun switch stands
there, and the security cores agree a key. -/
def execBudunLinkBringup (port device key : Nat) (s : State) : Result :=
  if 256 ≤ device ∨ 8 ≤ port ∨ (dieOf s (port / 2)).lost ∨ (securityDie s).isNone then .next s
  else .next { s with tables := { s.tables with
    links := mset s.tables.links port (mset (mgetD s.tables.links port []) device key) } }

end Sys2Proof.Machine
end

