-- ==== Sys2Proof/Machine/EvDevice.lean ====
section
/-!
DEFINITION. The device events of reliability, security and power (22 R503-R526, 19 R457). An event that cannot happen
leaves the state as it is (log 2).
-/

namespace Sys2Proof.Machine

/-! ### Stored data (22 R504-R508) -/

/-- R503: one bit through the register of the polynomial 0x8BB7, the register's top bit out first (log 69). -/
def crcBit (c : BitVec 16) (b : Bool) : BitVec 16 := if c.msb ^^ b then (c <<< 1) ^^^ 0x8BB7#16 else c <<< 1

/-- R503: a sector through the register: bytes ascending, each from its bit 7 down (log 69). -/
def crcFrom (c : BitVec 16) (x : BitVec 256) : BitVec 16 :=
  (List.range 256).foldl (fun c i => crcBit c (x.getLsbD (8 * (i / 8) + 7 - i % 8))) c

/-- R503: the check value of a sector's 32 bytes of ciphertext. -/
def crc16 (x : BitVec 256) : BitVec 16 := crcFrom 0xFFFF x



/-- R518: the ciphertext of a sector as GDDR-7 holds it. -/
def cipherOf (s : State) (sector : Nat) : BitVec 256 :=
  Config.xtsSector (frameKey s (sector / 128)) (sector / 4) (sector % 4)
    (BitVec.ofNat 256 (leNat (cellsFrom s.mem.device (32 * sector) 32)))

/-- R503: the check value stored with a sector. -/
def sectorCheck (s : State) (sector : Nat) : BitVec 16 := crc16 (cipherOf s sector)

/-- What a read of a line got wrong in one of its 64 symbols: the events give symbols and their error bits. -/
def symbolError (wrong : List (Nat × Nat)) (j : Nat) : BitVec 16 :=
  (wrong.filter fun w => w.1 == j).foldl (fun e w => e ^^^ BitVec.ofNat 16 w.2) 0

/-- The error bits of sector k of a line. -/
def sectorError (wrong : List (Nat × Nat)) (k : Nat) : BitVec 256 :=
  (List.range 16).foldl (fun e i => e ^^^ ((symbolError wrong (16 * k + i)).setWidth 256 <<< (16 * i))) 0

/-- R503: whether the check value recomputed over a sector read with error bits `e` differs from the stored one. The CRC is
linear, so this does not depend on the sector (`crcMismatch_iff`). -/
def crcMismatch (e : BitVec 256) : Bool := crcFrom 0 e != 0

/-- R504: the correction parity of a line: eight symbols over its 64, always those of what the frame holds, since each write-back
updates them (log 89). -/
def lineParity (s : State) (line : Nat) : BitVec 128 :=
  Config.lineParity ((List.range 4).foldl (fun x k => x ^^^ ((cipherOf s (4 * line + k)).setWidth 1024 <<< (256 * k))) 0)

/-- R504, R505: a line of GDDR-7 read with some of its 64 symbols wrong. The parity is read only after a mismatch; it corrects
up to four wrong symbols; with more, each sector whose CRC mismatches is poisoned and recorded. -/
def correctLine (s : State) (line : Nat) (wrong : List (Nat × Nat)) : State :=
  let bad := (List.range 4).filter fun k => crcMismatch (sectorError wrong k)
  let die := homeDie line
  if bad.isEmpty then s
  else if ((List.range 64).filter fun j => symbolError wrong j != 0).length ≤ 4 then
    modDie s die fun d => { d with corrections := d.corrections + 1 }
  else bad.foldl (fun acc k =>
    blackBoxAdd (addPoison acc .device (4 * line + k))
      { time := 0, seq := 0, kind := 1, die := die, ctx := (frameOf s (frameOfLine line)).ctx
        code := FaultCode.poisonConsumed.byte, detail := 128 * line + 32 * k }) s

/-- R505: `CRC_CORRECTION_DONE`: the requests that reached the line meanwhile see it after this: its steps are one event at their
end (log 89). -/
def execCrcCorrectionDone (line : Nat) (wrong : List (Nat × Nat)) (s : State) : Result :=
  .next (if (lineOf s line).transient then s else correctLine s line wrong)

/-- R508: `PATROL_SCRUB`: every line of a valid frame; `wrong` gives line, symbol and error bits. -/
def execPatrolScrub (frame : Nat) (wrong : List (Nat × Nat × Nat)) (s : State) : Result :=
  if (frameOf s frame).valid then
    .next ((linesOf frame).foldl (fun acc l =>
      correctLine acc l ((wrong.filter fun w => w.1 == l % 32).map Prod.snd))
      (modFrame s frame fun x => { x with scrubbed := s.dtime }))
  else .next s

/-- R508: whether the patrol scrubber is to read a frame: 24 hours of device time after it last did. -/
def scrubDue (s : State) (x : Frame) : Bool := x.valid && decide (x.scrubbed + 86400000000000 ≤ s.dtime)

/-! ### Loss of a die (22 R509-R511) -/

/-- R509: `WATCHDOG_BEAT_MISS`: the fourth consecutive beat of 1 ms. -/
def execWatchdogBeatMiss (die : Nat) (s : State) : Result :=
  if 4 ≤ die ∨ (dieOf s die).lost then .next s
  else
    let d := dieOf s die
    let n := if d.missed = 0 ∨ s.dtime < d.missedAt + 2000000 then d.missed + 1 else 1
    let s1 := modDie s die fun x => { x with missed := n, missedAt := s.dtime }
    .next (if 4 ≤ n then loseDie s1 die else s1)

/-- R509: `DIE_LOSS`: the die's rail or links report a fatal error. -/
def execDieLoss (die : Nat) (s : State) : Result := .next (if 4 ≤ die then s else loseDie s die)

/-- R510 step 2: whether a line of a lost frame is held modified or owned on a die that survives. -/
def savedLine (s : State) (l : Nat) : Bool := ((ownerOf (lineOf s l)).map fun d => !(dieOf s d).lost).getD false

/-- R510 steps 2 and 3 of one frame: what survives goes to the pool, a dirty sector that is lost is poisoned there;
the page is in the pool again. -/
def sweepFrame (s : State) (f : Nat) : State :=
  let x := frameOf s f
  let kept := (List.range 128).filter fun k => savedLine s (32 * f + k / 4)
  let lost := (dirtySectors s f).filter fun k => !kept.contains k
  let s1 := writeBack s f kept
  let s2 := if poolReachable s x.pool then lost.foldl (fun acc k => addPoison acc .pool (128 * x.pool + k)) s1 else s1
  let s3 := recallLines (dropTlb (leafToPool s2 f) x.ctx x.vpn 1) f
  let s4 := modFrame s3 f fun y => { y with valid := false, dirty := 0, mig := false, leaving := false, hstate := 0 }
  if lost.isEmpty then s4 else drayFault s4 x.ctx (buddy s (dieOfFrame f)) .poisonConsumed (4096 * x.vpn)

/-- The frames of pages on a die. -/
def framesOn (s : State) (die : Nat) : List Nat :=
  (s.frames.filter fun p => p.2.valid && !p.2.pin && dieOfFrame p.1 == die).map Prod.fst

/-- R510 step 4: the launches with a block or an engine command on a die. -/
def launchesOn (s : State) (die : Nat) : List Nat :=
  let blocks := s.work.blocks.filterMap fun b =>
    if (b.2.core.map fun g => dieOfCore g == die).getD false then some b.2.launch else none
  let mats := s.clusters.flatMap fun c =>
    if c.1 / 48 = die then
      c.2.table.map (fun e => (blockOf s e.2.cmd.block).launch) ++ (c.2.run.map (·.launch)).toList
    else []
  let prims := [2 * die, 2 * die + 1].flatMap fun b => (binnerOf s b).all.map (·.launch)
  (blocks ++ mats ++ prims).dedup

/-- Whether a request needs a die. -/
def needsDie (die : Nat) (a : Access) : Bool :=
  dieOfCore a.core == die || (onLine a && homeDie a.line == die)

/-- R510 steps 1 and 5: a request in flight that needs a lost die. One of a surviving core that is not served yet waits for
its page, which the sweep makes absent, and Dray is asked for the page; of any other a read is poison and a write is
lost (log 42). -/
def displace (die : Nat) (s : State) (a : Access) : State :=
  let x := frameOf s (frameOfLine a.line)
  if dieOfCore a.core = die ∨ a.applied = true ∨ x.vpn = 0 ∨ x.pin = true then loseAccess s a
  else sendAway s (buddy s die) a

/-- R510: the samplers of a core of a lost die complete nothing more. -/
def loseSamplers (s : State) (core : Nat) : State :=
  (coreOf s core).texQ.foldl (fun acc o =>
    o.lanes.foldl (fun a l => modThread a l.uid fun t => t.modRegs fun r => r.ctrDown o.ctr)
      (modCore acc core fun c => { c with texQ := c.texQ.filter fun x => x.id != o.id })) s

/-- R510 step 1: what a lost die's fault path held is the buddy's. -/
def passFaults (s : State) (die : Nat) : State :=
  let f := (dieOf s die).fault
  let b := buddy s die
  let s1 := modDie s die fun d => { d with fault := {} }
  modDie s1 b fun d =>
    let g := d.fault
    { d with fault := { g with ring := g.ring ++ f.queue ++ f.ring, held := g.held ++ f.held
                               merge := g.merge ++ f.merge.map fun m => { m with inBatch := false, frame := none } } }

/-- R510 step 4: a launch with work on the die completes `FAULTED`; its other work is cancelled. -/
def faultLaunch (s : State) (l : Nat) : State := cancelLaunch (markLaunch s l (.faulted .poisonConsumed)) l

/-- R510: a line homed on a die that survives, of which the lost die held the latest data: its writes not yet passed on are
lost, so the line's dirty sectors are poison (log 42); what the lost die's slices held is gone. -/
def loseHeld (die : Nat) (s : State) (l : Nat) : State :=
  let d := lineOf s l
  let lost := homeDie l != die && mgetD d.counts die 0 != 0
  let s1 := if lost then ((dirtySectors s (frameOfLine l)).filter fun k => k / 4 == l % 32).foldl (fun acc k =>
    addPoison acc .device (128 * frameOfLine l + k)) s else s
  modLine s1 l fun x => { setMoesi x die .invalid with counts := merase x.counts die, held := merase x.held die }

/-- R510: the census sweep from the lost die's homes to the launches it ends. -/
def sweepDie (s : State) (die : Nat) : State :=
  let ls := launchesOn s die
  let s1 := { s with clusters := s.clusters.map fun c => (c.1, if c.1 / 48 = die then { c.2 with granted := none } else c.2) }
  let s2 := (mkeys s1.lines).foldl (loseHeld die) ((framesOn s1 die).foldl sweepFrame s1)
  let s3 := (s2.pend.filter (needsDie die)).foldl (displace die) s2
  let s4 := (((mkeys s3.cores).filter fun g => dieOfCore g == die)).foldl loseSamplers s3
  let s5 := passFaults (ls.foldl faultLaunch s4) die
  assignAll (blackBoxAdd (modDie s5 die fun d => { d with census := false }) { time := 0, seq := 0, kind := 6, die := die })

/-- R510: `CENSUS_SWEEP_DONE`. -/
def execCensusSweepDone (die : Nat) (s : State) : Result :=
  .next (if die < 4 && (dieOf s die).census then sweepDie s die else s)

/-! ### Keys and operating points by mailbox (17 R406, 22 R514, R518, R524) -/

/-- R511, R517: whether requests of an SPDM session of a number are served: it stands, a security core is left (01 R13), and the
host reaches it. A session open when D0 is lost goes on at the security core of D1, with its finished state (DESIGN CHOICE,
log 85: 01 R13 gives D1 the same keys and does not speak of the session). -/
def sessionOk (s : State) (n : Nat) : Bool :=
  s.security.spdm.session == some n && s.security.spdm.finished && (securityDie s).isSome && hostReach s

/-- R518: the 72 bytes of a wrapped key pair at an image address. -/
def wrappedPair (s : State) (image : Nat) : BitVec 576 := BitVec.ofNat 576 (leNat (cellsFrom s.mem.device image 72))

/-- R518: `KEY_LOAD`. -/
def execKeyLoad (die ctx index session image : Nat) (s : State) : Result :=
  .next (onMail s die <|
    if 4096 ≤ ctx ∨ index = 0 ∨ 4096 ≤ index ∨ !imageOk s image then illegalCommand s die
    else if !sessionOk s session then mailReply s die 2 3
    else if (mgetD s.tables.keys index {}).valid then mailReply s die 2 1
    else if s.security.state = .returnMaterial then mailReply s die 2 2
    else mailReply { s with tables := { s.tables with
      keys := mset s.tables.keys index { valid := true, ctx := ctx, bits := Config.unwrapKey session (wrappedPair s image) } } } die 0 0)

/-- 17 R406: `KEY_INVALIDATE`. -/
def execKeyInvalidate (die index : Nat) (s : State) : Result :=
  .next (onMail s die <|
    if index = 0 ∨ 4096 ≤ index then illegalCommand s die
    else mailReply { s with tables := { s.tables with keys := merase s.tables.keys index } } die 0 0)

/-- R524: whether no limit is exceeded. -/
def limitsHold (s : State) : Bool :=
  s.power.excessSince.isNone && [0, 1, 2, 3].all fun d => decide ((dieOf s d).hottest < 100)

/-- R524: a step towards a requested point, up only while the limits hold. -/
def stepTo (s : State) (n : Nat) : State :=
  if s.power.vs < n then orderStepDown s n false else if n < s.power.vs ∧ limitsHold s = true then stepUp s n else s

/-- R524: `OP_POINT_REQUEST`. -/
def execOpPointRequest (die point : Nat) (s : State) : Result :=
  .next (onMail s die <|
    if 5 < point then illegalCommand s die
    else if point < s.power.vsMax ∨ s.power.vsMin < point then mailReply s die 2 2
    else mailReply (stepTo { s with power := { s.power with requested := some point } } point) die 0 0)

/-! ### Deep sleep (22 R526, 11 R272) -/

/-- R526: whether deep sleep may be entered: no partition resident, no unread record, no unit halted (R521). -/
def maySleep (s : State) : Bool :=
  (s.tables.partitions.all fun p => p.2.state != 1 && p.2.state != 3)
    && (s.ctxs.all fun c => c.2.queues.all fun q => q.2.readIdx == q.2.writeIdx)
    && s.security.haltedUnits.isEmpty

/-- 11 R272: the frames shared with hosts that the device still holds. -/
def heldShared (s : State) : List Nat :=
  (s.frames.filter fun p => p.2.shared && p.2.hstate != 2 && (p.2.valid || p.2.mig)).map Prod.fst

/-- R526 step 1: caches are written back and invalidated. -/
def flushCaches (s : State) : State :=
  { s with engineTlb := []
           cores := s.cores.map fun c => (c.1, { clearL1 c.2 with tlb := [] })
           lines := s.lines.map fun l => (l.1, { passOthers l.2 4 with states := [], tokens := [], held := [] }) }

/-- R526: `DEEP_SLEEP_ENTRY`: the pages shared with hosts are surrendered first (11 R270); the package sleeps when
none is left. The trace buffers are flushed out of the device first (R521). -/
def execDeepSleepEntry (die : Nat) (s : State) : Result :=
  .next (onMail s die <|
    if !maySleep s then mailReply s die 2 2
    else
      let fs := heldShared s
      if fs.isEmpty then
        let s1 := mailReply (flushCaches s) die 0 0
        { s1 with power := { s1.power with asleep := true }, security := { s1.security with trace := [] } }
      else (fs.filter fun f => (frameOf s f).hstate == 0 && !(frameOf s f).mig && !(frameOf s f).leaving).foldl
        startSurrender s)

/-- The package awake. -/
def wake (s : State) : State := { s with power := { s.power with asleep := false } }

/-- R526: `DEEP_SLEEP_WAKE`: a doorbell, an SPDM request or a snoop, alike. -/
def execDeepSleepWake (cause : WakeCause) (s : State) : Result :=
  match cause with
  | .doorbell => .next (wake s)
  | .spdm => .next (wake s)
  | .snoop => .next (wake s)

/-! ### Supervisor fields (22 R512; log 30) -/

/-- 14 R329: the supervisor's write of `CPSEED`: every core of the context holds it, those it has on the hardware and
those it has saved, and those it takes up later. -/
def writeSeed (s : State) (ctx : Nat) (v : DWord) : State :=
  let mine (core : Nat) : Bool := s.tables.partitions.any fun p => p.2.ctx == some ctx && p.2.mask.getLsbD (clusterOfCore core)
  let s1 := modCtx s ctx fun c => { c with cpSeed := v }
  let s2 := modMore s1 ctx fun m => { m with savedCores := m.savedCores.map fun c => (c.1, { c.2 with cpSeed := v }) }
  if hasSaved s ctx then s2
  else ((List.range 768).filter mine).foldl (fun acc g => modCore acc g fun c => { c with cpSeed := v }) s2

/-- A context's field. A page beyond the size of the `POOLFREE` ring is not taken (17 R400), nor a vector beyond 2 047 (21 R488). -/
def setCtxField (s : State) (ctx : Nat) (f : CtxField) (v : Nat) : State :=
  match f with
  | .evtRead => modCtx s ctx fun c => { c with evtRead := v }
  | .svcrWrite => modCtx s ctx fun c => { c with svcrWrite := v }
  | .cpSeed => writeSeed s ctx (BitVec.ofNat 64 v)
  | .traceOn => modMore s ctx fun m => { m with trace := v != 0 }
  | .poolFree => modMore s ctx fun m =>
    if m.poolFree.length < (ctxOf s ctx).f.poolSize then { m with poolFree := m.poolFree ++ [v] } else m
  | .ptRoot | .maxWait | .escLimit | .lease | .matAge | .ovfQuota | .trapLimit | .lpBase | .lpLog | .lpFrames | .saveBase
  | .evtBase | .evtSize | .svcrBase | .svcrSize | .rplBase | .rplSlots | .poolSize | .xfrBase | .xfrSize | .movBase =>
    modCtx s ctx fun c => { c with f := c.f.put f v }
  | .notifyVector => if v < 2048 then modMore s ctx fun m => { m with vector := v } else s
  | .movTab i =>
    if (ctxOf s ctx).f.movBase = 0 then s else (writeVirtual s ctx ((ctxOf s ctx).f.movBase + 16 * i) (leBytes 16 v)).getD s

/-- 19 R456: a counter of a core. -/
def setCounter (s : State) (core i : Nat) (f : PerfCounter → PerfCounter) : State :=
  modCore s core fun c => { c with perf := mset c.perf i (f (mgetD c.perf i {})) }

/-- 19 R456: a counter of a die. -/
def setDieCounter (s : State) (die i : Nat) (f : PerfCounter → PerfCounter) : State :=
  modDie s die fun d => { d with perf := mset d.perf i (f (mgetD d.perf i {})) }

/-- A queue descriptor's field; the supervisor's first write makes the queue (13 R308). -/
def setQueue (s : State) (ctx q : Nat) (f : CmdQueue → CmdQueue) : State :=
  modCtx s ctx fun c => { c with queues := mset c.queues q (f (mgetD c.queues q {})) }

/-- 21 R489: the bytes that the other decoders cover. -/
def coveredElse (s : State) (i : Nat) : Nat :=
  ((s.tables.hdm.filter fun p => p.1 != i).map fun p => p.2.2.1).foldl (· + ·) 0

/-- 21 R489: a setting that Dray reports to the supervisor: by the first context, or, where there is none, by the black-box ring
alone (log 28). -/
def reportSetting (s : State) (detail : Nat) : State :=
  match s.ctxs with
  | [] => blackBoxAdd s { time := 0, seq := 0, kind := 1, code := FaultCode.protection.byte, detail := detail }
  | c :: _ => drayFault s c.1 0 .protection detail

/-- 21 R489: a decoder; one whose range would take the total above 12 288 GB (00 R3: 10^9 bytes each) is not enabled and is
reported. -/
def setHdm (s : State) (i : Nat) (x : Nat × Nat × Nat) : State :=
  let put (y : Nat × Nat × Nat) : State := { s with tables := { s.tables with hdm := mset s.tables.hdm i y } }
  if 12288 * 10 ^ 9 < coveredElse s i + x.2.1 then reportSetting (put (x.1, 0, x.2.2)) x.1 else put x

/-- 21 R486: a port's mode, set once after a boot (log 88); a setting that breaks the rules is ignored. A setting of port 0 of D0
does nothing: `portModeOf` reads it as upstream. -/
def setPort (s : State) (die port mode : Nat) : State :=
  let bad := decide (2 < mode) || (mode == 1 && [0, 1, 2].any fun p => p != port && portModeOf s die p == 1)
  if bad || (mget (dieOf s die).portMode port).isSome then s
  else modDie s die fun x => { x with portMode := mset x.portMode port mode }

/-- 21 R492: the 32 bytes of an extent table entry. -/
def extentBytes (v : Nat) : Extent :=
  let f (lo n : Nat) : Nat := v / 256 ^ lo % 256 ^ n
  { base := f 0 8 % 2 ^ 52 / 2 ^ 21 * 2 ^ 21, len := f 8 4 * 2 ^ 21, state := f 12 1, kind := f 13 1, tag := f 14 2
    deadline := f 16 8, firstFrame := if f 13 1 = 1 then f 24 8 else 0 }

/-- 21 R492: whether an entry is one that the table admits; another leaves the entry as it is (log 60). -/
def Extent.legal (x : Extent) : Bool :=
  x.len != 0 && decide (x.state ≤ 5) && decide (x.kind ≤ 1) && x.firstFrame % 512 == 0

/-- A frame-table entry changed by the supervisor, listed if it was not. -/
def setFrame (s : State) (f : Nat) (g : Frame → Frame) : State := { s with frames := mset s.frames f (g (frameOf s f)) }

/-- 19 R456, 00 R6: the bits of a counter's control word that are not reserved. -/
def counterMask : Word := 0xCFFF00FF

/-- R512, log 30: one supervisor write. `SHADOWWAYS` above 8 acts as 8 (log 64); what the reserved ways then hold beyond their
room goes to the save areas (09 R204). A value that a queue's descriptor does not admit leaves its field (log 60). Once a
reset is done, `RESET` is cleared and the queue is read again (13 R311, R323). -/
def writeField (s : State) (field : SupField) (v : Nat) : State :=
  let p := s.power
  match field with
  | .dispRamp d => modDie s d fun x => { x with dispRamp := max 1 (v % 4096) }
  | .shadowWays d => l2Trim (trimShadow (modDie s d fun x => { x with shadowWays := min 8 v }) d) d
  | .evacLimit => { s with power := { p with evacLimit := v % 65536 } }
  | .extDrain => { s with tables := { s.tables with extDrain := v % 65536 } }
  | .freeMin => assignAll { s with tables := { s.tables with freeMin := v % 2 ^ 32 } }
  | .pagerLimit => { s with tables := { s.tables with pagerLimit := v % 65536 } }
  | .holdLimit => { s with power := { p with holdLimit := v % 65536 } }
  | .vsMin => { s with power := { p with vsMin := min 5 v } }
  | .vsMax => { s with power := { p with vsMax := min 5 v } }
  | .pkgLimit => { s with power := { p with pkgLimit := v } }
  | .ctx i f => if (mget s.ctxs i).isNone then s else setCtxField s i f v
  | .coreCounterCtl g i => setCounter s g i fun c => { c with control := BitVec.ofNat 32 v &&& counterMask }
  | .dieCounterCtl d i => setDieCounter s d i fun c => { c with control := BitVec.ofNat 32 v &&& counterMask }
  | .coreCounterValue g i => setCounter s g i fun c => { c with value := BitVec.ofNat 48 v }
  | .dieCounterValue d i => setDieCounter s d i fun c => { c with value := BitVec.ofNat 48 v }
  | .portMode d i => setPort s d i v
  | .hdmBase i => setHdm s i (v, (mgetD s.tables.hdm i (0, 0, 0)).2)
  | .hdmSize i => setHdm s i ((mgetD s.tables.hdm i (0, 0, 0)).1, v, (mgetD s.tables.hdm i (0, 0, 0)).2.2)
  | .hdmPort i => setHdm s i ((mgetD s.tables.hdm i (0, 0, 0)).1, (mgetD s.tables.hdm i (0, 0, 0)).2.1, v)
  | .extent i =>
    if (extentBytes v).state = 0 then { s with tables := { s.tables with extents := merase s.tables.extents i } }
    else if (extentBytes v).legal then setExtent s i (extentBytes v) else s
  | .pagerRequestRing => { s with tables := { s.tables with pagerReq := if v = 0 then none else some v } }
  | .pagerCore => { s with tables := { s.tables with pagerCore := v } }
  | .pagerReplyRing => { s with tables := { s.tables with pagerRep := if v = 0 then none else some v } }
  | .powerCap c q => setQueue s c q fun x => { x with powerCap := v % 4096 }
  | .queueBase c q => setQueue s c q fun x => if CmdQueue.legalBase v then { x with base := v } else x
  | .queueSize c q => setQueue s c q fun x => if CmdQueue.legalSize v then { x with size := v } else x
  | .queueTag c q => setQueue s c q fun x => if tagFree s c q v then { x with tag := v } else x
  | .queuePrio c q => setQueue s c q fun x => if v < 4 then { x with prio := v } else x
  | .queueDie c q => setQueue s c q fun x => if v < 4 then { x with die := v } else x
  | .queueReset c q => modCmdQueue s c q fun x => if x.resetDone then { x with reset := false, resetDone := false, stopped := false } else x
  | .framePin f => assignAll (setFrame s f fun x =>
      if v != 0 && !x.valid then { x with pin := true, vpn := 0, pool := 0 } else { x with pin := v != 0 })
  | .frameLend f => if (frameOf s f).free then assignAll (setFrame s f fun x => { x with lent := v != 0 }) else s
  | .lentMap i => { s with tables := { s.tables with lentMaps := mset s.tables.lentMaps i (v % 4) } }
  | .functionPage k =>
    let fs := if v < 4096 then mset s.tables.functions k v else merase s.tables.functions k
    { s with tables := { s.tables with functions := fs } }
  | .linkNumber => if v < 256 then { s with tables := { s.tables with number := v } } else s
  | .deviceWord a => homeWrite s (byteWrites a 8 v)
  | .hostWord a => writeBytes s .host (byteWrites a 8 v)
  | .poolWord a => writeBytes s .pool (byteWrites a 8 v)

/-- R512: whether a field exists. -/
def fieldExists (s : State) : SupField → Bool
  | .dispRamp d => decide (d < 4)
  | .shadowWays d => decide (d < 4)
  | .coreCounterCtl g i => decide (g < 768 ∧ i < 8)
  | .dieCounterCtl d i => decide (d < 4 ∧ i < 16)
  | .coreCounterValue g i => decide (g < 768 ∧ i < 8)
  | .dieCounterValue d i => decide (d < 4 ∧ i < 16)
  | .portMode d i => decide (d < 4 ∧ i < 3)
  | .hdmBase i => decide (i < 16)
  | .hdmSize i => decide (i < 16)
  | .hdmPort i => decide (i < 16)
  | .extent i => decide (i < 4096)
  | .lentMap i => decide (i < 4096)
  | .powerCap c q => (mget s.ctxs c).isSome && decide (q < 256)
  | .queueBase c q => (mget s.ctxs c).isSome && decide (q < 256)
  | .queueSize c q => (mget s.ctxs c).isSome && decide (q < 256)
  | .queueTag c q => (mget s.ctxs c).isSome && decide (q < 256)
  | .queuePrio c q => (mget s.ctxs c).isSome && decide (q < 256)
  | .queueDie c q => (mget s.ctxs c).isSome && decide (q < 256)
  | .queueReset c q => (mget s.ctxs c).isSome && decide (q < 256)
  | .ctx _ (.movTab i) => decide (i < 64)
  | .framePin f => decide (f < cacheFrames)
  | .frameLend f => decide (f < cacheFrames)
  | _ => true

/-- R512: `SUPERVISOR_FIELD_WRITE`. -/
def execSupervisorFieldWrite (field : SupField) (value : Nat) (s : State) : Result :=
  .next (if fieldExists s field then writeField s field value else s)

/-! ### Boot and attestation (22 R515-R520) -/

/-- R515: the images of layers 1 to 3, as far as they verify in order. -/
def bootedImages (images : List BootImage) : List BootImage := (images.take 3).takeWhile fun x => x.signed

/-- R520: the code of a security state in an identity (log 69). -/
def SecState.code : SecState → Nat
  | .productionLocked => 0
  | .debugAuthorised => 1
  | .returnMaterial => 2

/-- R516: the key pairs that layer `n` derives from its identifier; its certificate carries both signatures of the layer below. -/
def layerId (n : Nat) (identifier : BitVec 384) (below : Option LayerId) : LayerId :=
  let e := Config.edKeys identifier
  let m := Config.mlKeys identifier
  let c := below.map fun b => Config.signCert b.edSecret b.mlSecret e.2 m.2
  { layer := n, edPublic := e.2, mlPublic := m.2, edSecret := e.1, mlSecret := m.1
    edCert := c.map Prod.fst, mlCert := c.map Prod.snd }

/-- R516: the chain from a layer's identifier through the images after it: the identifier of the last layer, which alone is
left (each layer erases its own before the next runs), and the identity of each. -/
def deriveLayers (st : SecState) : Nat → BitVec 384 → Option LayerId → List BootImage → (Nat × BitVec 384) × List LayerId
  | n, x, b, [] => ((n, x), [layerId n x b])
  | n, x, b, i :: r =>
    let q := deriveLayers st (n + 1) (Config.hkdf x i.hash st.code) (some (layerId n x b)) r
    (q.1, layerId n x b :: q.2)

/-- R518: key 0, from the identifier of layer 1; without a layer 1 it has no value. -/
def bootKey (st : SecState) : List BootImage → KeyEntry
  | [] => { valid := true }
  | i :: _ => { valid := true, bits := Config.deviceKey (Config.hkdf (Config.deviceSecret.setWidth 384) i.hash st.code) }

/-- R520: the security state of the next boot. -/
def nextSecurity (x : Security) : SecState :=
  if x.fuseBurned then .returnMaterial else if x.pendingToken then .debugAuthorised else .productionLocked

/-- R520: to return-material: the pinned frames are cleared before the boot (log 40). -/
def clearPinned (s : State) : State :=
  ((s.frames.filter fun p => p.2.pin).map Prod.fst).foldl zeroFrame s

/-- R515, R516, 19 R457: `BOOT`: the state after reset, with what outlives it: memories outside the package's power, fuses,
fused row maps, and the black-box ring, which records the reset. Device time restarts at 0. -/
def execBoot (images : List BootImage) (s : State) : Result :=
  let st := nextSecurity s.security
  let run := bootedImages images
  let ids := deriveLayers st 0 (Config.deviceSecret.setWidth 384) none run
  let s1 := if st = .returnMaterial then clearPinned s else s
  let s2 : State :=
    { State.reset with
      inputs := s.inputs, ticks := s.ticks, yields := s.yields, draws := s.draws
      mem := s1.mem
      dies := s.dies.map fun d => (d.1, { ({} : Die) with rowMap := d.2.rowMap })
      tables := { State.reset.tables with keys := [(0, bootKey st run)] }
      security := { booted := run.length, measurements := run.map (·.hash), identifier := some ids.1, layers := ids.2
                    state := st, fuseBurned := s.security.fuseBurned, deviceId := s.security.deviceId }
      blackBox := s.blackBox }
  .next (blackBoxAdd s2 { time := 0, seq := 0, kind := 8 })

/-- R517: an SPDM request wakes the package (R526). It needs a security core and a port to the host (01 R13, R511). -/
def onSpdm (s : State) (f : Spdm → Option Spdm) : State :=
  if (securityDie s).isNone || !hostReach s then s else
  let s1 := wake s
  match f s1.security.spdm with
  | none => s1
  | some x => { s1 with security := { s1.security with spdm := x } }

/-- R517: a response sent: the request's place in the list of R517 and its argument. -/
def Spdm.reply (x : Spdm) (code arg : Nat) : Spdm := { x with responses := x.responses ++ [(code, arg)] }

/-- R517: whether the connection has been negotiated (log 41). -/
def Spdm.ready (x : Spdm) : Bool := x.version && x.capabilities && x.algorithms.isSome

/-- R517: `GET_VERSION` begins a connection. -/
def execGetVersion (s : State) : Result :=
  .next (onSpdm s fun x => some (({ responses := x.responses, version := true } : Spdm).reply 0 0))

/-- R517: `GET_CAPABILITIES`. -/
def execGetCapabilities (s : State) : Result :=
  .next (onSpdm s fun x => if x.version then some ({ x with capabilities := true }.reply 1 0) else none)

/-- R517: `NEGOTIATE_ALGORITHMS`: the base algorithm is EdDSA Ed25519 and the hash SHA-384. -/
def execNegotiateAlgorithms (algos : Nat) (s : State) : Result :=
  .next (onSpdm s fun x =>
    if x.version && x.capabilities then some ({ x with algorithms := some algos }.reply 2 algos) else none)

/-- R517: `GET_DIGESTS`. -/
def execGetDigests (s : State) : Result := .next (onSpdm s fun x => if x.ready then some (x.reply 3 0) else none)

/-- R517: `GET_CERTIFICATE`. -/
def execGetCertificate (slot : Nat) (s : State) : Result :=
  .next (onSpdm s fun x => if x.ready then some (x.reply 4 slot) else none)

/-- R517: `CHALLENGE`. -/
def execChallenge (nonce : Nat) (s : State) : Result :=
  .next (onSpdm s fun x => if x.ready then some ({ x with challenge := some nonce }.reply 5 nonce) else none)

/-- R517: `GET_MEASUREMENTS`: measurements 1 to 6. -/
def execGetMeasurements (index : Nat) (s : State) : Result :=
  .next (onSpdm s fun x => if x.ready then some (x.reply 6 index) else none)

/-- R517: `KEY_EXCHANGE` opens a session. -/
def execKeyExchange (session : Nat) (s : State) : Result :=
  .next (onSpdm s fun x =>
    if x.ready && x.session.isNone then some ({ x with session := some session, finished := false }.reply 7 session)
    else none)

/-- R517: `FINISH`. -/
def execFinishSession (session : Nat) (s : State) : Result :=
  .next (onSpdm s fun x =>
    if x.session = some session then some ({ x with finished := true }.reply 8 session) else none)

/-- R517: `END_SESSION`. -/
def execEndSession (session : Nat) (s : State) : Result :=
  .next (onSpdm s fun x =>
    if x.session = some session then some ({ x with session := none, finished := false }.reply 9 session) else none)

/-- R517: the ML-DSA-65 chain and a signature over the same transcript. -/
def execMlDsaVendorRequest (session : Nat) (s : State) : Result :=
  .next (onSpdm s fun x => if x.ready then some (x.reply 10 session) else none)

/-- R520: whether a token names this device, signed with both algorithms. -/
def tokenOk (s : State) (t : Token) : Bool := t.signed && t.device == s.security.deviceId

/-- R520: `DEBUG_AUTH_TOKEN`: it takes effect at the next reset. -/
def execDebugAuthToken (session : Nat) (token : Token) (s : State) : Result :=
  .next (if sessionOk s session && tokenOk s token then { s with security := { s.security with pendingToken := true } } else s)

/-- R520: `RETURN_MATERIAL_TOKEN` burns the fuse. -/
def execReturnMaterialToken (session : Nat) (token : Token) (s : State) : Result :=
  .next (if sessionOk s session && tokenOk s token then { s with security := { s.security with fuseBurned := true } } else s)

/-! ### The debug state (22 R520, R521) -/

/-- R521: the contexts of the partitions that hold a halted core. -/
def haltedCtxs (s : State) : List Nat :=
  s.tables.partitions.filterMap fun p =>
    if p.2.state = 1 ∧ s.security.haltedUnits.any (fun u => match u with
        | .core g => p.2.mask.getLsbD (clusterOfCore g)
        | .coachman g => p.2.mask.getLsbD (clusterOfCore g)
        | _ => false) then p.2.ctx else none

/-- R521: every halted unit runs again. -/
def resumeUnits (s : State) : State :=
  let cs := haltedCtxs s
  let s1 := { s with
    security := { s.security with haltedUnits := [] }
    cores := s.cores.map fun c => (c.1, { c.2 with halted := false }) }
  cs.foldl (fun acc c => if (mget acc.ctxs c).isSome then modCtx acc c fun x => { x with resident := true } else acc) s1

/-- R521: `DEBUG_STATE_SET`: production-locked refuses halt. -/
def execDebugStateSet (session : Nat) (d : DebugMode) (s : State) : Result :=
  if !sessionOk s session || (d == .halt && s.security.state == .productionLocked) then .next s
  else
    let s1 := if d = .halt then s else resumeUnits s
    .next { s1 with security := { s1.security with debug := d } }

/-- R521: what a unit's halt does: its gated clock wakes, a core stops, and the time of its partition's context. -/
def haltUnit (s : State) (u : UnitId) : State :=
  let s1 := { s with security := { s.security with haltedUnits := s.security.haltedUnits ++ [u] }
                     power := { s.power with gatedUnits := s.power.gatedUnits.filter (· != u) } }
  let s2 := match u with
    | .core g => modCore s1 g fun c => { c with halted := true, gated := false }
    | _ => s1
  (haltedCtxs s2).foldl (fun acc c => if (mget acc.ctxs c).isSome then modCtx acc c fun x => { x with resident := false } else acc) s2

/-- 01 R12, R13: the die a unit lies on: four service cores on D0 and four on D1, a security core on each of the two, four
fixed-function units a die. -/
def dieOfUnit : UnitId → Nat
  | .core g => dieOfCore g
  | .coachman g => dieOfCore g
  | .serviceCore i => i / 4
  | .clusterUnit c => c / 48
  | .l2Slice i => i / 384
  | .fixedUnit i => i / 4
  | .securityCore i => i

/-- 01 R12, R13: whether the package has a unit, on a die that is not lost. -/
def unitExists (s : State) (u : UnitId) : Bool :=
  (match u with
    | .core g => decide (g < 768)
    | .coachman g => decide (g < 768)
    | .serviceCore i => decide (i < 8)
    | .clusterUnit c => decide (c < 192)
    | .l2Slice i => decide (i < 1536)
    | .fixedUnit i => decide (i < 16)
    | .securityCore i => decide (i < 2)) && !(dieOf s (dieOfUnit u)).lost

/-- R521: the units a debug-authorised device may halt; return-material halts every unit. -/
def mayHalt (s : State) (u : UnitId) : Bool :=
  unitExists s u && match u with
    | .core _ => true
    | .coachman _ => true
    | .serviceCore _ => true
    | _ => s.security.state == .returnMaterial

/-- R521: `HALT_COMMAND`; in deep sleep it wakes the package first. -/
def execHaltCommand (session : Nat) (unit : UnitId) (s : State) : Result :=
  if sessionOk s session && s.security.debug == .halt && mayHalt s unit && !s.security.haltedUnits.contains unit then
    .next (haltUnit (wake s) unit)
  else .next s

/-! ### Power and heat (22 R522-R526) -/

/-- R523: a step down of one point, never delayed beyond 1 ms. -/
def forcedStep (s : State) : State := orderStepDown s (s.power.vs + 1) true

/-- R523: the package is above a limit: the issue rate falls by 1/8; after 100 µs a step down is ordered. -/
def overLimit (s : State) : State :=
  let p := s.power
  let since := p.excessSince.getD s.dtime
  let s1 := { s with power := { p with issueEighths := max 1 (p.issueEighths - 1), excessSince := some since, calmSince := none } }
  if since + 100000 ≤ s.dtime then forcedStep { s1 with power := { s1.power with excessSince := some s.dtime } } else s1

/-- R524: whether heat holds the issue rate down. -/
def heatThrottled (s : State) : Bool :=
  s.power.vs == 5 && [0, 1, 2, 3].any fun d => decide (110 ≤ (dieOf s d).hottest)

/-- R524: whether every limit holds with a margin of 10 %. -/
def calm (s : State) (watts amps : Nat) : Bool :=
  decide (10 * watts ≤ 9 * s.power.pkgLimit ∧ 10 * amps ≤ 9 * 2600)
    && [0, 1, 2, 3].all fun d => decide ((dieOf s d).hottest ≤ 90)

/-- R523, R524: the package is within its limits: the rate rises by 1/8 (log 31); after 10 ms with a margin a step up
of one point. -/
def withinLimit (s : State) (watts amps : Nat) : State :=
  let p := s.power
  let rate := if heatThrottled s then p.issueEighths else min 8 (p.issueEighths + 1)
  let since := if calm s watts amps then some (p.calmSince.getD s.dtime) else none
  let s1 := { s with power := { p with issueEighths := rate, excessSince := none, calmSince := since } }
  match since with
  | none => s1
  | some t =>
    if t + 10000000 ≤ s.dtime ∧ p.requested.getD p.vsMax < p.vs ∧ p.vsMax < p.vs then
      stepUp { s1 with power := { s1.power with calmSince := some s.dtime } } (p.vs - 1)
    else s1

/-- R523: `PACKAGE_POWER_EVAL`. -/
def execPackagePowerEval (watts amps : Nat) (s : State) : Result :=
  .next (if s.power.pkgLimit < watts ∨ 2600 < amps then overLimit s else withinLimit s watts amps)

/-- R524: thermal shutdown. -/
def shutDown (s : State) (die : Nat) : State :=
  let s1 := blackBoxAdd s { time := 0, seq := 0, kind := 8, die := die }
  { s1 with power := { s1.power with off := true } }

/-- R524: a hot die orders a step down every 1 ms; at VS5 the issue rate is 1/8. -/
def heatStep (s : State) (celsius : Nat) : State :=
  if s.power.vs = 5 then (if 110 ≤ celsius then { s with power := { s.power with issueEighths := 1 } } else s)
  else if (s.power.lastThermal = 0 ∨ s.power.lastThermal + 1000000 ≤ s.dtime) ∧ s.power.target.isNone then
    forcedStep { s with power := { s.power with lastThermal := s.dtime } }
  else s

/-- R524: `THERMAL_EVAL`: the hottest reading of a die. -/
def execThermalEval (die celsius : Nat) (s : State) : Result :=
  if 4 ≤ die then .next s
  else
    let s1 := modDie s die fun d => { d with hottest := celsius }
    .next (if 120 ≤ celsius then shutDown s1 die else if 100 ≤ celsius then heatStep s1 celsius else s1)

/-- R522: whether a unit has had no work for 2 µs; only a core keeps the time of its last work. The gating of emptied
cores follows the ramp of `DISPRAMP` (02 R36). -/
def unitIdle (s : State) : UnitId → Bool
  | .core g => (coreOf s g).blocks.isEmpty && !(coreOf s g).halted && decide ((coreOf s g).idleSince + 2000 ≤ s.dtime)
      && decide ((coreOf s g).gateFrom ≤ s.dtime)
  | .coachman g => !(coachOf s g).running && (coachOf s g).starts.isEmpty
  | .clusterUnit c => (clusterOf s c).table.isEmpty && (clusterOf s c).run.isNone
  | _ => true

/-- R522, 11 R272: a unit's clock gated; a core invalidates its L1 first. -/
def gateUnit (s : State) : UnitId → State
  | .core g => modCore (flushL1 s g) g fun c => { c with gated := true }
  | .clusterUnit c => modCluster s c fun x => { x with gated := true }
  | u => { s with power := { s.power with gatedUnits := u :: s.power.gatedUnits.filter (· != u) } }

/-- R522: `CLOCK_GATE`. -/
def execClockGate (unit : UnitId) (s : State) : Result :=
  .next (if unitExists s unit && unitIdle s unit then gateUnit s unit else s)

/-- R522: a unit's clock runs. -/
def wakeUnit (s : State) : UnitId → State
  | .core g => modCore s g fun c => { c with gated := false }
  | .clusterUnit c => modCluster s c fun x => { x with gated := false }
  | u => { s with power := { s.power with gatedUnits := s.power.gatedUnits.filter (· != u) } }

/-- R522: `UNIT_WAKE`. -/
def execUnitWake (unit : UnitId) (s : State) : Result := .next (if unitExists s unit then wakeUnit s unit else s)

/-! ### Capabilities (22 R519) -/

/-- R519: what the firmware was reading is dropped; a record completes `FAULTED` with `PROTECTION`. -/
def dropItem (s : State) (ctx : Nat) : FirmwareItem → State
  | .record q =>
    match cmdQueueOf s ctx q with
    | none => s
    | some c =>
      if !readerMay s ctx q c then s
      else match headBytes s ctx c with
        | .error _ => s
        | .ok b => takeHeadAs (some (.faulted, .protection)) s ctx q c b
  | .ringEntry =>
    let c := ctxOf s ctx
    if c.svcrRead ≠ c.svcrWrite then modCtx s ctx fun x => { x with svcrRead := (c.svcrRead + 1) % max 1 c.f.svcrSize }
    else if c.xfrRead ≠ c.xfrWrite then xferOutcome s ctx (.faulted, .protection, s.dtime)
    else s
  | .packet _ => s

/-- R519: `CAPABILITY_FAULT`. -/
def execCapabilityFault (ctx : Nat) (target : FirmwareItem) (s : State) : Result :=
  if (mget s.ctxs ctx).isNone then .next s
  else .next (blackBoxAdd (dropItem s ctx target)
    { time := 0, seq := 0, kind := 1, ctx := ctx, code := FaultCode.protection.byte })

end Sys2Proof.Machine
end

