-- ==== Sys2Proof/Machine/Ray.lean ====
section
/-!
DEFINITION. The ray forms, opcodes 0x90 to 0x93 (15 R377-R381).
-/

namespace Sys2Proof.Machine

/-! ### Checks -/

/-- R378, R380: the plan of a ray's slot: the access checks on its bytes, then the identifier. -/
def slotPlanRay (s : State) (t : Thread) (c : Scene) (n : Need) (id part size : Nat) : Plan :=
  if c.nrays ≤ id then .fails 2 .protection (c.slot id + part) []
  else planG s t n ((c.slot id + part : Nat) : Int) size

/-! ### RAYQ (R378) -/

/-- R378: the first register of a `RAYQ` record block. -/
def blockReg (f : FormA) (t : Thread) : Nat :=
  match f.b with
  | .reg n => stepReg t.ctl .b n.toNat
  | _ => 0

/-- R378 check 2 on the record: flags and hit-shader index. -/
def recordOk (c : Scene) (b : List Byte) : Bool :=
  fieldOf b 56 1 / 16 == 0 && (dbit (BitVec.ofNat 64 (fieldOf b 56 1)) 3 || decide (fieldOf b 58 2 < c.nhit))

/-- R378: the checks of one lane, in order. -/
def rayqPlan (s : State) (f : FormA) (c : Scene) (t : Thread) : Plan :=
  let id := (srcWord t .a f.a).toNat
  match planG s t { write := true } ((c.slot id : Nat) : Int) 128 with
  | .fails k e a ps => .fails k e a ps
  | .names m as =>
    if c.nrays ≤ id ∨ recordOk c (recordBlock t (blockReg f t)) = false then .fails 2 .protection (c.slot id) []
    else .names m as

/-- R378: the record's bytes as `RAYQ` writes them: bytes 0 to 31 and 48 to 63 from the block, no hit. -/
def freshRecord (b : List Byte) : List Byte :=
  b.take 32 ++ leBytes 4 0x7F800000 ++ leBytes 4 0xFFFFFFFF ++ leBytes 4 0xFFFFFFFF ++ leBytes 4 0 ++ b.drop 48

/-- R378: whether an earlier lane of the position names the identifier too. -/
def rayNamedBefore (s : State) (f : FormA) (u id : Nat) : Bool :=
  ((activeLanes s f.x.guard).takeWhile (·.1 != u)).any fun p => (srcWord p.2 .a f.a).toNat == id

/-- R378: `STATE` as a claim reads it at the slot's home: the page need only be one that `STG` may write. -/
def claimState (s : State) (ctx va : Nat) : Nat :=
  match translateWalk s ctx va { write := true } with
  | .ok p => (readByte s p.mem.1 p.mem.2).toNat
  | .error _ => 0

/-- R378: `RAYQ` by one lane: the claim, the record, the spawn tree, the filing. `s0` is the state before the
position: a later lane with an identifier that an earlier one claimed gets `BUSY`. -/
def rayqLane (s0 : State) (f : FormA) (c : Scene) (s : State) (u : Nat) (t : Thread) :
    Except FaultCode (State × Word) :=
  let l := (blockOf s t.block).launch
  let ctx := (launchOf s l).ctx
  let id := (srcWord t .a f.a).toNat
  let state := claimState s ctx (c.slot id + 64)
  if 5 ≤ state then .error .protection
  else if (state = 1 ∨ state = 2 ∨ state = 3) ∨ rayNamedBefore s0 f u id = true then .ok (s, Status.busy.word)
  else
    let b := recordBlock t (blockReg f t)
    let s1 := clearExits (noteScene ((writeVirtual s ctx (c.slot id) (freshRecord b ++ leBytes 3 1)).getD s) l) l id
    let s2 := modLaunch s1 l fun k => { k with counter := k.counter + 1 }
    .ok (if degenerate b then completeRay s2 l id 0 .done .none false else fileRay s2 l c c.root id, Status.done.word)

/-- R378. -/
def execRayq (f : FormA) (s : State) : Result :=
  .next (withScene s f.x.guard (skipLanes s f.x.guard f.dst) fun c =>
    match planFault s ((activeLanes s f.x.guard).map fun p => rayqPlan s f c p.2) with
    | some s1 => s1
    | none =>
      match eachLaneChecked (holdForRelease s f.x.guard .dev) f.x.guard f.dst (rayqLane s f c) with
      | .error e => faultAt s e s.cur.word
      | .ok s1 => underQuota s (ctxOfBlock s s.cur.block) s1)

/-! ### RAYW (R379) -/

/-- R379: a status by its code. -/
def statusOf (n : Nat) : Status :=
  match n with
  | 1 => .timeout
  | 2 => .withdrawn
  | 3 => .cancelled
  | 4 => .stalePhase
  | 5 => .partialDone
  | 6 => .faulted
  | 7 => .poisoned
  | 8 => .busy
  | _ => .done

/-- R379: what a slot's three bytes `STATE`, `RSTATUS`, `RFAULT` come to. -/
def slotResult (b : List Byte) : Option (Status × Nat) :=
  match fieldOf b 0 1 with
  | 0 => some (.busy, 0)
  | 4 => some (statusOf (fieldOf b 1 1), if fieldOf b 1 1 = 6 then fieldOf b 2 1 else 0)
  | _ => none

/-- R379: the condition of a wait on a ray: its status and fault byte once it ends. -/
def rayResult (s : State) (l id : Nat) : Option (Status × Nat) :=
  let ctx := (launchOf s l).ctx
  match heldScene s l with
  | none => none
  | some c =>
    let va := c.slot id + 64
    match readVirtual s ctx va 3 with
    | .error (.pageAbsent, _) => none
    | .error (e, _) => some (.faulted, e.byte)
    | .ok b => if poisonedRange s ctx va 3 then some (.poisoned, 0) else slotResult b

/-- R379: the condition of a wait on the completion counter. -/
def rayCountResult (s : State) (l n : Nat) : Option (Status × Nat) :=
  if n ≤ (launchOf s l).rayCount then some (.done, 0) else none

/-- R379: the wait of one lane. -/
def raywKind (s : State) (f : FormW) (t : Thread) : WaitKind :=
  let l := (blockOf s t.block).launch
  if f.field 0 0 = 1 then .rayCount l (srcPair t .a f.a).toNat
  else .ray (ctxOfBlock s t.block) l (srcWord t .a f.a).toNat

/-- R379: what a ray wait comes to now. -/
def raywResult (s : State) : WaitKind → Option (Status × Nat)
  | .ray _ l id => rayResult s l id
  | .rayCount l n => rayCountResult s l n
  | _ => none

/-- R379: `RAYW` by one lane at issue. -/
def raywLane (f : FormW) (s : State) (u : Nat) (t : Thread) : State :=
  match raywResult s (raywKind s f t) with
  | some (st, code) =>
    endAtIssue s u f.dst f.x.deadline f.x.esc st (statusWord st code) (st == .done) fun r => r
  | none => blockOrExpire s u t f.dst f.x.deadline f.x.esc (raywKind s f t) .timeout Status.timeout.word

/-- R379: the checks of a wait on rays, then the waits. -/
def raywForm (s : State) (f : FormW) (plans : List Plan) : State :=
  match planFault s plans with
  | some s1 => s1
  | none => (activeLanes s f.x.guard).foldl (fun acc p => raywLane f acc p.1 p.2) s

/-- R379. -/
def execRayw (f : FormW) (s : State) : Result :=
  .next (withScene s f.x.guard s fun c =>
    raywForm s f (if f.field 0 0 = 1 then [] else (activeLanes s f.x.guard).map fun p =>
      slotPlanRay s p.2 c { read := true } (srcWord p.2 .a f.a).toNat 64 1))

/-! ### RAYR and HITX (R380, R381) -/

/-- R377: the byte offset of a part in a slot. -/
def partOffset (part : Nat) : Nat :=
  match part with
  | 0 => 32
  | 1 => 48
  | 2 => 0
  | _ => 16

/-- R380, R381: a quad read of a part of each participating lane's slot, as a load of 16 bytes. -/
def readPart (s : State) (f : FormA) (ord : Ordering3) (plan : Thread → Plan) : State :=
  let ps := (activeLanes s f.x.guard).map fun p => (p.1, p.2, plan p.2)
  match planFault s (ps.map fun p => p.2.2) with
  | some s1 => s1
  | none =>
    let n := match f.dst with
      | .reg r => r.toNat
      | .suppress => 0
    issueRequests s
      { id := 0, kind := .load, space := .globalG, core := s.cur.core, ctx := ctxOfBlock s s.cur.block,
        block := s.cur.block, scope := .dev, ordering := ord, size := .b16, ctr := f.x.ctr.toNat }
      (ps.map fun p =>
        match p.2.2 with
        | .names m as => { uid := p.1, dst := stepReg p.2.1.ctl .dst n, mem := m, addrs := as }
        | .fails _ _ _ _ => { uid := p.1 })

/-- R380. -/
def execRayr (f : FormA) (s : State) : Result :=
  .next (withScene s f.x.guard s fun c => readPart s f .plain fun t =>
    slotPlanRay s t c { read := true } (srcWord t .a f.a).toNat (partOffset (f.field 1 0)) 16)

/-- R381: the plan of a hit-shader thread's own ray. -/
def hitPlan (s : State) (c : Scene) (part : Nat) (t : Thread) : Plan :=
  match t.hitRay with
  | none => .fails 2 .protection 0 []
  | some id => slotPlanRay s t c { read := true } id part 16

/-- R381: `HITX.id`: a thread's ray identifier; no latch (R377). -/
def hitId (s : State) (f : FormA) : State :=
  if (activeLanes s f.x.guard).any fun p => p.2.hitRay.isNone then faultAt s .protection s.cur.word
  else forLanes s fun _ t =>
    if guardOn f.x.guard t.regs then t.modRegs fun r => match f.dst with
      | .reg n => r.set (stepReg t.ctl .dst n.toNat) (BitVec.ofNat 32 (t.hitRay.getD 0))
      | .suppress => r
    else t

/-- R381. -/
def execHitx (f : FormA) (s : State) : Result :=
  .next (withScene s f.x.guard s fun c =>
    if f.bit 2 then hitId s f else readPart s f .acq (hitPlan s c (partOffset (f.field 1 0))))

end Sys2Proof.Machine
end

