-- ==== Sys2Proof/Machine/System.lean ====
section
/-!
DEFINITION. Supervisor calls, traps, breakpoints, the sticky check bits and the special registers, opcodes 0xB0
to 0xB6 (19 R455, 20 R465-R472).
-/

namespace Sys2Proof.Machine

/-! ### Supervisor calls (R466-R470) -/

/-- R466: whether a call slot of a block is live. -/
def slotLive (y : BlockSync) (k : Nat) : Bool := (mget y.calls k).isSome

/-- R466: the next tag of a block whose slot is free; the step past 2^32 - 1
skips tag 0, so seven steps are enough. -/
def nextTag (y : BlockSync) : Nat → Nat → Nat
  | 0, t => t
  | fuel + 1, t =>
    let u := if t = 2 ^ 32 - 1 then 1 else t + 1
    if slotLive y (u % 4) then nextTag y fuel u else u

/-- R467: the call record. -/
def callRecord (s : State) (f : FormA) (tag : Nat) (ps : List (Nat × Thread)) : List Byte :=
  let b := s.cur.block
  let shared := match ps with
    | p :: _ => (srcPair p.2 .b f.b).toNat
    | [] => 0
  leBytes 4 tag ++ leBytes 2 (f.field 11 0) ++ leBytes 1 ps.length ++ leBytes 1 0
  ++ leBytes 4 (handleOfBlock s b) ++ leBytes 2 (ctxOfBlock s b) ++ leBytes 2 (coreLocation s.cur.core)
  ++ leBytes 1 (blockOf s b).slot ++ leBytes 7 0 ++ leBytes 8 s.cur.addr ++ leBytes 8 shared
  ++ leBytes 40 (threadFields (ps.map Prod.fst)) ++ leBytes 48 0
  ++ (List.range 32).flatMap fun k => leBytes 4 (((ps[k]?).map fun p => (srcWord p.2 .a f.a).toNat).getD 0)

/-- R466: the call taken: counter, slot and queue. -/
def postCall (s : State) (f : FormA) (tag : Nat) (ps : List (Nat × Thread)) : State :=
  let us := ps.map Prod.fst
  let rec0 := callRecord s f tag ps
  let s1 := modSync s s.cur.block fun y =>
    { y with callCounter := tag
             calls := mset y.calls (tag % 4) { tag := tag, state := 1, threads := us, waiting := us } }
  modCtx s1 (ctxOfBlock s s.cur.block) fun c => { c with svcQ := c.svcQ.pushCall rec0 }

/-- R466. -/
def execSvc (f : FormA) (s : State) : Result :=
  let ps := activeLanes s f.x.guard
  let y := syncOf s s.cur.block
  if ps.isEmpty then .next (eachLane s f.x.guard f.dst fun acc _ _ => (acc, 0))
  else if (List.range 4).all (slotLive y) then .next (eachLane s f.x.guard f.dst fun acc _ _ => (acc, 0))
  else
    let tag := nextTag y 7 y.callCounter
    .next (underQuota s (ctxOfBlock s s.cur.block)
      (eachLane (postCall (holdUntilSettled s f.x.guard .dev) f tag ps) f.x.guard f.dst fun acc _ _ =>
        (acc, BitVec.ofNat 32 tag)))

/-- R470: the slot a lane's tag names, where it exists. -/
def callSlot (s : State) (b tag : Nat) : Option CallSlot :=
  match mget (syncOf s b).calls (tag % 4) with
  | none => none
  | some c => if c.tag = tag then some c else none

/-- R470: a thread's word of a reply vector. -/
def replyWord (c : CallSlot) (u : Nat) : Word := BitVec.ofNat 32 (leNat ((c.reply.drop (4 * c.threads.idxOf u)).take 4))

/-- R470: `SVCW` by one lane at issue. `s0` is the state at the clause, whose call slot the lane's tag names. -/
def svcwLane (f : FormW) (s0 s : State) (u : Nat) (t : Thread) : State :=
  let tag := (srcWord t .a f.a).toNat
  let reply := f.field 9 2
  let finish (s1 : State) (g : Regs → Regs) : State :=
    endAtIssue s1 u f.dst f.x.deadline f.x.esc .done Status.done.word true g
  if tag = 0 then finish s fun r => r
  else
    match callSlot s0 t.block tag with
    | none => s
    | some c =>
      if !c.threads.contains u then finish s fun r => r.set reply 0
      else if c.state = 2 then finish (collectCall s t.block (tag % 4) u) fun r => r.set reply (replyWord c u)
      else blockOrExpire s u t f.dst f.x.deadline f.x.esc (.svc t.block tag reply) .timeout Status.timeout.word

/-- R470: a tag that names no live call faults, precisely at the clause. -/
def execSvcw (f : FormW) (s : State) : Result :=
  let ps := activeLanes s f.x.guard
  if ps.any fun p => (srcWord p.2 .a f.a).toNat != 0 && (callSlot s p.2.block (srcWord p.2 .a f.a).toNat).isNone then
    .next (faultAt s .protection s.cur.word)
  else .next (ps.foldl (fun acc p => svcwLane f s acc p.1 p.2) s)

/-! ### TRAP and BKPT (R471) -/

/-- R471: the threads whose guard is true trap; the others go on. -/
def trapForm (s : State) (f : FormA) (code : FaultCode) (kind trapCode arg : Nat) : State :=
  trapThreads s s.cur.block ((activeLanes s f.x.guard).map Prod.fst) s.cur.addr ((s.cur.stop - s.cur.addr) / 4)
    s.cur.addr { code := code, pos := s.cur.pos, addr := arg, kind := kind, trapCode := trapCode }

/-- R471. -/
def execTrap (f : FormA) (s : State) : Result :=
  let arg := match activeLanes s f.x.guard with
    | p :: _ => (srcWord p.2 .a f.a).toNat
    | [] => 0
  .next (trapForm s f .userTrap 4 (f.field 11 0) arg)

/-- R471. -/
def execBkpt (f : FormA) (s : State) : Result := .next (trapForm s f .breakpoint 5 0 0)

/-! ### CHKE (19 R455) -/

/-- 19 R455: whether a thread's loads, atomics, reads and texture forms have all returned. -/
def readsReturned (s : State) (u : Nat) : Bool :=
  (s.pend.all fun a => s.cur.created.contains a.id || !(a.kind == .load || a.kind == .atomic)
      || !(a.lanes.any fun r => r.uid == u))
    && s.cores.all fun c => c.2.texQ.all fun o => !(o.lanes.any fun l => l.uid == u)

/-- 19 R455: the word `CHKE` writes. -/
def chkeWord (t : Thread) : Word :=
  (t.regs.chk &&& 3) ||| ((t.chkReported.setWidth 32) <<< 2)

/-- 19 R455: sticky bits cleared with their reported flags. -/
def clearSticky (m : BitVec 2) (t : Thread) : Thread :=
  { t with regs := { t.regs with chk := t.regs.chk &&& ~~~(m.setWidth 32) }, chkReported := t.chkReported &&& ~~~m }

/-- 19 R455. -/
def execChke (f : FormA) (s : State) : Result :=
  let wait := (activeLanes s f.x.guard).any fun p => !readsReturned s p.1
  .next (eachLane (holdClause s wait) f.x.guard f.dst fun acc u t =>
    (modThread acc u (clearSticky ((srcWord t .a f.a).setWidth 2)), chkeWord t))

/-! ### Special registers (R471, R472, 05 R97) -/

/-- 05 R97: a 32-bit special register of a thread. -/
def specialWord (s : State) (t : Thread) (sel : Nat) : Word :=
  let bd := bdOf (ctxOf s (ctxOfBlock s t.block)) (sel - 48)
  let core := s.cur.core
  match sel with
  | 0 => BitVec.ofNat 32 t.tid
  | 1 => BitVec.ofNat 32 t.ctl.lane
  | 2 => BitVec.ofNat 32 (t.tid / 32)
  | 3 => BitVec.ofNat 32 (blockOf s t.block).index
  | 4 => BitVec.ofNat 32 (coreIndex core)
  | 5 => BitVec.ofNat 32 (coreIndex core / 4)
  | 6 => BitVec.ofNat 32 (dieOfCore core)
  | 10 => t.regs.chk
  | 11 => BitVec.ofNat 32 s.power.vs
  | 12 => BitVec.ofNat 32 (scapOf s core s.power.vs)
  | 13 => t.regs.status
  | _ => bd.2.2.setWidth 32

/-- 05 R97, R471: a 64-bit special register. -/
def specialPair (s : State) (t : Thread) (sel : Nat) : DWord :=
  let c := ctxOf s (ctxOfBlock s t.block)
  match sel with
  | 7 => BitVec.ofNat 64 s.dtime
  | 8 => BitVec.ofNat 64 c.ctime
  | 9 => BitVec.ofNat 64 t.regs.wh
  | _ =>
    let bd := bdOf c (sel - 32)
    bd.2.1.append bd.1

/-- 14 R331: what `RDS` reads on the Coachman, 64 bits. -/
def coachSpecial (s : State) (sel : Nat) : Nat :=
  let core := s.cur.core
  match sel with
  | 3 => (blockOf s s.cur.block).index
  | 4 => coreIndex core
  | 5 => coreIndex core / 4
  | 6 => dieOfCore core
  | 7 => s.dtime
  | 8 => (ctxOf s (ctxOfBlock s s.cur.block)).ctime
  | 11 => s.power.vs
  | 12 => scapOf s core s.power.vs
  | 13 => (coachOf s core).status
  | _ => 0

/-- R472, 14 R331. -/
def execRds (f : FormA) (s : State) : Result :=
  let sel := f.field 5 0
  match s.cur.agent with
  | .core =>
    if selectWide sel then .next (writePair s f.x.guard f.dst fun _ t => specialPair s t sel)
    else .next (writeWord s f.x.guard f.dst fun _ t => specialWord s t sel)
  | .coachman => .next (writeCoach s f.x.guard f.dst fun _ => BitVec.ofNat 64 (coachSpecial s sel))

/-- 05 R98: `WRS` of `%chk`: sticky bits written 1 are cleared with their reported flags, `INTERVAL` is
written. -/
def writeChk (x : Word) (t : Thread) : Thread :=
  let t1 := clearSticky (x.setWidth 2) t
  t1.modRegs fun r => { r with chk := (x &&& 0xFFFF0000) ||| (r.chk &&& 0xFFFF) }

/-- R472: a bound register written by one lane. -/
def writeBound (s : State) (f : FormA) (sel : Nat) (t : Thread) : State :=
  modCtx s (ctxOfBlock s t.block) fun c =>
    if sel < 48 then
      let b := bdOf c (sel - 32)
      let x := srcPair t .a f.a
      { c with bounds := mset c.bounds (sel - 32) (x.setWidth 32, x.extractLsb' 32 32, b.2.2) }
    else
      let b := bdOf c (sel - 48)
      { c with bounds := mset c.bounds (sel - 48) (b.1, b.2.1, (srcWord t .a f.a).setWidth 2) }

/-- R472, 05 R98: the lanes act in ascending order, so the highest one's bound stands. -/
def execWrs (f : FormA) (s : State) : Result :=
  let sel := f.field 5 0
  if sel = 10 then
    .next (forLanes s fun _ t => if guardOn f.x.guard t.regs then writeChk (srcWord t .a f.a) t else t)
  else .next ((activeLanes s f.x.guard).foldl (fun acc p => writeBound acc f sel p.2) s)

end Sys2Proof.Machine
end

