-- ==== Sys2Proof/Machine/EvWait.lean ====
section
/-!
DEFINITION. Device events of scheduling and waits (02 R28-R31, R40, 08 R193): draws, the filing queue, the ends
of waits, the block-level check.
-/

namespace Sys2Proof.Machine

/-! ### Draws (02 R28, R29) -/

/-- R29: a bin drawn, where it is the source that applies and its block can issue. -/
def drawDue (s : State) (core bin : Nat) : State :=
  match drawChoice s core with
  | none => s
  | some (i, b) => if i = bin ∧ blockRuns s b.block ∧ !(coreOf s core).halted then drawBin s core i b else s

/-- 02 R29. -/
def execBundleDraw (core bin : Nat) (s : State) : Result := .next (drawDue s core bin)

/-- 02 R29, R30: a bin whose oldest thread has waited longer than the age limit is drawn in its turn. -/
def execBinAgeLimitExpiry (core bin : Nat) (s : State) : Result :=
  match mget (coreOf s core).bins bin with
  | none => .next s
  | some b => .next (if binAged s (coreOf s core) b then drawDue s core bin else s)

/-- 02 R28. -/
def execFilingQueueDrain (core : Nat) (s : State) : Result := .next (drainQueue s core)

/-! ### The end of a thread's wait (02 R40) -/

/-- 13 R325: whether a waiter's turn has come: an entry is there and no older waiter has a claim on it. -/
def turnCome (s : State) (ctx q turn : Nat) : Bool :=
  let older := (queueWaiters s ctx q).filter fun n => decide (n < turn)
  decide (older.length < (msgQueue s ctx q).all.length)

/-- What ends a thread's wait as it stands: the state with the wait ended, where its condition holds. -/
def conditionMet (s : State) (u : Nat) (t : Thread) (w : Wait) : Option State :=
  let ends (st : Status) (x : Word) : State := endWait s u w st x (st == .done) fun r => r
  match w.kind with
  | .barrier id phase _ =>
    let now := (barrierOf s id).phase
    (phaseResult now phase).map fun st => ends st (statusWord st (barrierField w now))
  | .tb core i phase => ((tbOf s core i).result phase).map fun st => ends st st.word
  | .cbuf core i seq => ((cbufOf s core i).result seq).map fun p => ends p.1 p.2
  | .copy core ticket all => (copyResult s core ticket all).map fun p => ends p.1 (ticketWord p.1 p.2)
  | .matrix block ticket all => (matrixResult s block ticket all).map fun p => ends p.1 (ticketWord p.1 p.2)
  | .queue ctx q acq data turn =>
    if turnCome s ctx q turn then
      some (endWait (takeMsg s ctx q) u w .done Status.done.word false
        (gotEntry s.dtime data (queueHead s ctx q) acq))
    else none
  | .ray .. | .rayCount .. => (raywResult s w.kind).map fun p => ends p.1 (statusWord p.1 p.2)
  | .svc block tag reply =>
    match callSlot s block tag with
    | none => none
    | some c =>
      if c.state = 2 then
        some (endWait (collectCall s block (tag % 4) u) u w .done Status.done.word true
          fun r => r.set reply (replyWord c u))
      else none
  | .fence classes scope accesses engines pages wh =>
    let m := fenceMask s t.block classes scope accesses engines pages t.frames (max wh t.regs.wh)
    if m = classes then
      some (endWait (orderAhead s u t.block classes scope m) u w .done (statusWord .done m) true fun r => r)
    else none
  | .blockingLoad sp va req _ _ acq _ _ =>
    if ownPending s u sp req then none
    else match rereadPlace s (ctxOfBlock s t.block) sp va req with
      | .error .pageAbsent => none
      | .error _ => some (rereadLane s u t w)
      | .ok r =>
        let core := (blockOf s t.block).core.getD 0
        let line := r.addrs.headD 0 / 128
        if blockedByLine (if r.mem = .device then dropCopy s (l1Core s core line) line else s) core acq [] r then none
        else if lanePoison s none r || laneValue s none r != req.cmp.toNat then some (rereadLane s u t w) else none

/-- 02 R40, 18 R438: what a wait writes when its deadline passes: a fence ends `PARTIAL`, a blocking load
writes the last value, any other wait ends `TIMEOUT`. -/
def expiredRegs (s : State) (u : Nat) (t : Thread) (w : Wait) : State :=
  match w.kind with
  | .barrier id _ _ =>
    endWaitRegs s u w .timeout (statusWord .timeout (barrierField w (barrierOf s id).phase)) false fun r => r
  | .fence classes scope accesses engines pages wh =>
    let m := fenceMask s t.block classes scope accesses engines pages t.frames (max wh t.regs.wh)
    endWaitRegs (orderAhead s u t.block classes scope m) u w .partialDone (statusWord .partialDone m) true fun r => r
  | .blockingLoad _ _ _ size sx _ dst last =>
    endWaitRegs s u w .timeout (blockedLow size sx last.toNat) false (blockedHigh size dst last.toNat)
  | _ => endWaitRegs s u w .timeout Status.timeout.word false fun r => r

/-- 10 R236: whether a wait may end by its deadline: a blocking load only once it has read the value it compares, its thread's
own accesses before it performed. -/
def mayExpire (s : State) (u : Nat) (w : Wait) : Bool :=
  match w.kind with
  | .blockingLoad sp _ req _ _ _ _ last =>
    !unread s (((threadOf s u).bind fun t => (blockOf s t.block).core).getD 0) u sp req && last == req.cmp
  | _ => true

/-- 02 R39, 26 R552: whether a thread's wait began in the bundle of `w`, by the same form, and expires with it
(log 10). -/
def expiresWith (s : State) (u : Nat) (w : Wait) (p : Nat × Thread) : Bool :=
  match p.2.ctl.wait with
  | none => false
  | some x =>
    p.1 != u && p.2.ctl.run == .blocked && x.site == w.site && x.deadline == w.deadline && x.resume == w.resume
      && x.esc == w.esc && x.poll == w.poll && x.since == w.since && x.lead == w.lead && (conditionMet s p.1 p.2 x).isNone && mayExpire s p.1 x

/-- 02 R40, 18 R442: one thread whose wait has expired is filed, or traps together with those that escalate with it. -/
def settleExpired (us : List Nat) (w : Wait) (s : State) (u : Nat) : State :=
  match trapDueOf s u with
  | some q => escalate s (u / 1024) (us.filter fun x => trapDueOf s x == some q) w.resume w.site q
  | none => if ((threadOf s u).map fun t => t.ctl.run == .runnable).getD false then fileThread s u else s

/-- 02 R40: a wait's deadline passes, and with it those of its bundle. -/
def deadlinePassed (s : State) (u : Nat) (t : Thread) (w : Wait) : State :=
  let ps := (threadsOfBlock s t.block).filter (expiresWith s u w)
  let s1 := ps.foldl (fun acc p => expiredRegs acc p.1 p.2 (p.2.ctl.wait.getD w)) (expiredRegs s u t w)
  let us := ((threadsOfBlock s t.block).filter fun p => p.1 == u || expiresWith s u w p).map Prod.fst
  us.foldl (settleExpired us w) s1

/-! ### The end of a Coachman's wait (14 R332) -/

/-- What ends a Coachman's wait as it stands, where its condition holds. -/
def coachConditionMet (s : State) (core : Nat) (c : Coach) (w : Wait) : Option State :=
  let ends (st : Status) (x : Word) : State := endCoachWait s core w st (x.setWidth 64) fun k => k
  match w.kind with
  | .tb g i phase => ((tbOf s g i).result phase).map fun st => ends st st.word
  | .copy g ticket all => (copyResult s g ticket all).map fun p => ends p.1 (ticketWord p.1 p.2)
  | .queue ctx q _ data turn =>
    if turnCome s ctx q turn then
      some (endCoachWait (takeMsg s ctx q) core w .done (Status.done.word.setWidth 64)
        fun k => k.set data (queueHead s ctx q))
    else none
  | .fence classes _ _ engines _ _ =>
    if (blockCopies s c.block).all fun n => !engines.contains n then some (ends .done (statusWord .done classes))
    else none
  | _ => none

/-- What a Coachman's wait writes when its deadline passes. -/
def coachDeadlinePassed (s : State) (core : Nat) (w : Wait) : State :=
  match w.kind with
  | .fence classes .. =>
    endCoachWait s core w .partialDone ((statusWord .partialDone (classes % 2 + classes / 4 * 4)).setWidth 64) fun k => k
  | _ => endCoachWait s core w .timeout (Status.timeout.word.setWidth 64) fun k => k

/-! ### The events -/

/-- A state change by the wait of an agent whose context is resident (02 R40, 20 R478). -/
def onWait (s : State) (x : Waiter) (thread : Nat → Thread → Wait → State) (coach : Nat → Coach → Wait → State) :
    State :=
  match x with
  | .thread u =>
    match threadOf s u with
    | none => s
    | some t =>
      match t.ctl.wait with
      | none => s
      | some w =>
        if t.ctl.run == .blocked && (ctxOf s (ctxOfBlock s t.block)).resident then thread u t w else s
  | .coachman g =>
    let c := coachOf s g
    match c.wait with
    | none => s
    | some w => if c.running && (ctxOf s (ctxOfBlock s c.block)).resident then coach g c w else s

/-- 15 R375: a hit-shader thread that has executed `EXIT` ends once its stores are performed at `.dev`. -/
def exitSettled (s : State) (w : Waiter) : Option State :=
  match w with
  | .coachman _ => none
  | .thread u =>
    match threadOf s u with
    | none => none
    | some t => if t.ctl.run == .exiting && settledBut s [] [] .dev u then some (exitThreadNow s u) else none

/-- 02 R40: a blocked wait whose condition holds ends; and a thread whose exit waits for its stores (15 R375). -/
def execWaitConditionMet (w : Waiter) (s : State) : Result :=
  .next ((exitSettled s w).getD (onWait s w (fun u t x => (conditionMet s u t x).getD s)
    (fun g c x => (coachConditionMet s g c x).getD s)))

/-- 02 R40: a wait's deadline has passed in context time; a condition that holds at the same evaluation ends
it first. -/
def execWaitDeadlineExpiry (w : Waiter) (s : State) : Result :=
  .next (onWait s w
    (fun u t x =>
      if x.deadline ≤ (ctxOf s (ctxOfBlock s t.block)).ctime then
        (conditionMet s u t x).getD (if mayExpire s u x then deadlinePassed s u t x else s)
      else s)
    (fun g c x =>
      if x.deadline ≤ (ctxOf s (ctxOfBlock s c.block)).ctime then
        (coachConditionMet s g c x).getD (coachDeadlinePassed s g x)
      else s))

/-- 08 R193: the periodic check of a resident block. -/
def execBlockLevelCheck (block : Nat) (s : State) : Result :=
  .next (if blockRuns s block then blockCheck s block else s)

end Sys2Proof.Machine
end

