-- ==== Sys2Proof/Machine/Dispatch.lean ====
section
/-!
DEFINITION. One arm per instruction: the call of its meaning.
-/

namespace Sys2Proof.Machine

def exec (i : Instr) (s : State) : Host.Outcome State Fault Refusal :=
  match i with
  | .iadd f => Sys2Proof.Machine.execIadd f s
  | .iadd3 f => Sys2Proof.Machine.execIadd3 f s
  | .isub f => Sys2Proof.Machine.execIsub f s
  | .addc f => Sys2Proof.Machine.execAddc f s
  | .imul f => Sys2Proof.Machine.execImul f s
  | .imulh f => Sys2Proof.Machine.execImulh f s
  | .imad f => Sys2Proof.Machine.execImad f s
  | .imadw f => Sys2Proof.Machine.execImadw f s
  | .imin f => Sys2Proof.Machine.execImin f s
  | .imax f => Sys2Proof.Machine.execImax f s
  | .iabs f => Sys2Proof.Machine.execIabs f s
  | .ineg f => Sys2Proof.Machine.execIneg f s
  | .andL f => Sys2Proof.Machine.execAnd f s
  | .orL f => Sys2Proof.Machine.execOr f s
  | .xorL f => Sys2Proof.Machine.execXor f s
  | .notL f => Sys2Proof.Machine.execNot f s
  | .logt f => Sys2Proof.Machine.execLogt f s
  | .shl f => Sys2Proof.Machine.execShl f s
  | .shr f => Sys2Proof.Machine.execShr f s
  | .sar f => Sys2Proof.Machine.execSar f s
  | .fsh f => Sys2Proof.Machine.execFsh f s
  | .rotl f => Sys2Proof.Machine.execRotl f s
  | .bfx f => Sys2Proof.Machine.execBfx f s
  | .bfi f => Sys2Proof.Machine.execBfi f s
  | .popc f => Sys2Proof.Machine.execPopc f s
  | .clz f => Sys2Proof.Machine.execClz f s
  | .ctz f => Sys2Proof.Machine.execCtz f s
  | .brev f => Sys2Proof.Machine.execBrev f s
  | .bsel f => Sys2Proof.Machine.execBsel f s
  | .iset f => Sys2Proof.Machine.execIset f s
  | .sel f => Sys2Proof.Machine.execSel f s
  | .mov f => Sys2Proof.Machine.execMov f s
  | .movi f => Sys2Proof.Machine.execMovi f s
  | .movh f => Sys2Proof.Machine.execMovh f s
  | .lea f => Sys2Proof.Machine.execLea f s
  | .leaw f => Sys2Proof.Machine.execLeaw f s
  | .plop f => Sys2Proof.Machine.execPlop f s
  | .fadd f => Sys2Proof.Machine.execFadd f s
  | .fsub f => Sys2Proof.Machine.execFsub f s
  | .fmul f => Sys2Proof.Machine.execFmul f s
  | .ffma f => Sys2Proof.Machine.execFfma f s
  | .fmin f => Sys2Proof.Machine.execFmin f s
  | .fmax f => Sys2Proof.Machine.execFmax f s
  | .fset f => Sys2Proof.Machine.execFset f s
  | .frnd f => Sys2Proof.Machine.execFrnd f s
  | .fclass f => Sys2Proof.Machine.execFclass f s
  | .f2i f => Sys2Proof.Machine.execF2i f s
  | .i2f f => Sys2Proof.Machine.execI2f f s
  | .f2f f => Sys2Proof.Machine.execF2f f s
  | .hadd2 f => Sys2Proof.Machine.execHadd2 f s
  | .hmul2 f => Sys2Proof.Machine.execHmul2 f s
  | .hfma2 f => Sys2Proof.Machine.execHfma2 f s
  | .hmin2 f => Sys2Proof.Machine.execHmin2 f s
  | .hmax2 f => Sys2Proof.Machine.execHmax2 f s
  | .badd2 f => Sys2Proof.Machine.execBadd2 f s
  | .bmul2 f => Sys2Proof.Machine.execBmul2 f s
  | .bfma2 f => Sys2Proof.Machine.execBfma2 f s
  | .shfl f => Sys2Proof.Machine.execShfl f s
  | .vote f => Sys2Proof.Machine.execVote f s
  | .redux f => Sys2Proof.Machine.execRedux f s
  | .pscan f => Sys2Proof.Machine.execPscan f s
  | .matchLanes f => Sys2Proof.Machine.execMatch f s
  | .frcp f => Sys2Proof.Machine.execFrcp f s
  | .frsq f => Sys2Proof.Machine.execFrsq f s
  | .fsqrt f => Sys2Proof.Machine.execFsqrt f s
  | .fex2 f => Sys2Proof.Machine.execFex2 f s
  | .flg2 f => Sys2Proof.Machine.execFlg2 f s
  | .fsin f => Sys2Proof.Machine.execFsin f s
  | .fcos f => Sys2Proof.Machine.execFcos f s
  | .ftanh f => Sys2Proof.Machine.execFtanh f s
  | .cvt8 f => Sys2Proof.Machine.execCvt8 f s
  | .cvt4 f => Sys2Proof.Machine.execCvt4 f s
  | .cvtl f => Sys2Proof.Machine.execCvtl f s
  | .scv f => Sys2Proof.Machine.execScv f s
  | .ldl f => Sys2Proof.Machine.execLdl f s
  | .stl f => Sys2Proof.Machine.execStl f s
  | .lds f => Sys2Proof.Machine.execLds f s
  | .sts f => Sys2Proof.Machine.execSts f s
  | .ldc f => Sys2Proof.Machine.execLdc f s
  | .ldcBlock f => Sys2Proof.Machine.execLdcBlock f s
  | .stc f => Sys2Proof.Machine.execStc f s
  | .ldk f => Sys2Proof.Machine.execLdk f s
  | .ldg f => Sys2Proof.Machine.execLdg f s
  | .ldgBlock f => Sys2Proof.Machine.execLdgBlock f s
  | .stg f => Sys2Proof.Machine.execStg f s
  | .ldh f => Sys2Proof.Machine.execLdh f s
  | .ldhBlock f => Sys2Proof.Machine.execLdhBlock f s
  | .sth f => Sys2Proof.Machine.execSth f s
  | .ats f => Sys2Proof.Machine.execAts f s
  | .atc f => Sys2Proof.Machine.execAtc f s
  | .atg f => Sys2Proof.Machine.execAtg f s
  | .ath f => Sys2Proof.Machine.execAth f s
  | .reds f => Sys2Proof.Machine.execReds f s
  | .redg f => Sys2Proof.Machine.execRedg f s
  | .fence f => Sys2Proof.Machine.execFence f s
  | .pref f => Sys2Proof.Machine.execPref f s
  | .cpy f => Sys2Proof.Machine.execCpy f s
  | .cps f => Sys2Proof.Machine.execCps f s
  | .cpx f => Sys2Proof.Machine.execCpx f s
  | .cpg f => Sys2Proof.Machine.execCpg f s
  | .cpc f => Sys2Proof.Machine.execCpc f s
  | .cpw f => Sys2Proof.Machine.execCpw f s
  | .mmal6 f => Sys2Proof.Machine.execMmal6 f s
  | .mmae2 f => Sys2Proof.Machine.execMmae2 f s
  | .mmaf8a f => Sys2Proof.Machine.execMmaf8a f s
  | .mmaf8b f => Sys2Proof.Machine.execMmaf8b f s
  | .mmab16 f => Sys2Proof.Machine.execMmab16 f s
  | .mmai8 f => Sys2Proof.Machine.execMmai8 f s
  | .rsv f => Sys2Proof.Machine.execRsv f s
  | .rls f => Sys2Proof.Machine.execRls f s
  | .accz f => Sys2Proof.Machine.execAccz f s
  | .accld f => Sys2Proof.Machine.execAccld f s
  | .accst f => Sys2Proof.Machine.execAccst f s
  | .accrd f => Sys2Proof.Machine.execAccrd f s
  | .mwait f => Sys2Proof.Machine.execMwait f s
  | .kdecl f => Sys2Proof.Machine.execKdecl f s
  | .sign f => Sys2Proof.Machine.execSign f s
  | .bra f => Sys2Proof.Machine.execBra f s
  | .brx f => Sys2Proof.Machine.execBrx f s
  | .call f => Sys2Proof.Machine.execCall f s
  | .callx f => Sys2Proof.Machine.execCallx f s
  | .ret => Sys2Proof.Machine.execRet s
  | .exitThread => Sys2Proof.Machine.execExitThread s
  | .reform f => Sys2Proof.Machine.execReform f s
  | .repeatLoop f => Sys2Proof.Machine.execRepeatLoop f s
  | .nop => Sys2Proof.Machine.execNop s
  | .yieldThread => Sys2Proof.Machine.execYieldThread s
  | .rayq f => Sys2Proof.Machine.execRayq f s
  | .rayw f => Sys2Proof.Machine.execRayw f s
  | .rayr f => Sys2Proof.Machine.execRayr f s
  | .hitx f => Sys2Proof.Machine.execHitx f s
  | .texs f => Sys2Proof.Machine.execTexs f s
  | .texg f => Sys2Proof.Machine.execTexg f s
  | .texq f => Sys2Proof.Machine.execTexq f s
  | .atreq f => Sys2Proof.Machine.execAtreq f s
  | .atget f => Sys2Proof.Machine.execAtget f s
  | .prim f => Sys2Proof.Machine.execPrim f s
  | .bara f => Sys2Proof.Machine.execBara f s
  | .barw f => Sys2Proof.Machine.execBarw f s
  | .bars f => Sys2Proof.Machine.execBars f s
  | .barx f => Sys2Proof.Machine.execBarx f s
  | .tbi f => Sys2Proof.Machine.execTbi f s
  | .tba f => Sys2Proof.Machine.execTba f s
  | .tbe f => Sys2Proof.Machine.execTbe f s
  | .tbw f => Sys2Proof.Machine.execTbw f s
  | .qsend f => Sys2Proof.Machine.execQsend f s
  | .qrecv f => Sys2Proof.Machine.execQrecv f s
  | .spawn f => Sys2Proof.Machine.execSpawn f s
  | .cancel f => Sys2Proof.Machine.execCancel f s
  | .cmpl f => Sys2Proof.Machine.execCmpl f s
  | .cbget f => Sys2Proof.Machine.execCbget f s
  | .cbput f => Sys2Proof.Machine.execCbput f s
  | .cbputInit f => Sys2Proof.Machine.execCbputInit f s
  | .svc f => Sys2Proof.Machine.execSvc f s
  | .svcw f => Sys2Proof.Machine.execSvcw f s
  | .trap f => Sys2Proof.Machine.execTrap f s
  | .bkpt f => Sys2Proof.Machine.execBkpt f s
  | .chke f => Sys2Proof.Machine.execChke f s
  | .rds f => Sys2Proof.Machine.execRds f s
  | .wrs f => Sys2Proof.Machine.execWrs f s
  | .clauseFetch => Sys2Proof.Machine.execClauseFetch s
  | .bundleDraw core bin => Sys2Proof.Machine.execBundleDraw core bin s
  | .binAgeLimitExpiry core bin => Sys2Proof.Machine.execBinAgeLimitExpiry core bin s
  | .filingQueueDrain core => Sys2Proof.Machine.execFilingQueueDrain core s
  | .waitConditionMet w => Sys2Proof.Machine.execWaitConditionMet w s
  | .waitDeadlineExpiry w => Sys2Proof.Machine.execWaitDeadlineExpiry w s
  | .blockPlacement target core => Sys2Proof.Machine.execBlockPlacement target core s
  | .blockEnd block => Sys2Proof.Machine.execBlockEnd block s
  | .blockEviction block => Sys2Proof.Machine.execBlockEviction block s
  | .partitionDrainEnd part => Sys2Proof.Machine.execPartitionDrainEnd part s
  | .partitionRestore part => Sys2Proof.Machine.execPartitionRestore part s
  | .blockLevelCheck block => Sys2Proof.Machine.execBlockLevelCheck block s
  | .opStepDownOrder target => Sys2Proof.Machine.execOpStepDownOrder target s
  | .evaclimitExpiry => Sys2Proof.Machine.execEvaclimitExpiry s
  | .rowEvacuation core => Sys2Proof.Machine.execRowEvacuation core s
  | .opClockSwitch => Sys2Proof.Machine.execOpClockSwitch s
  | .railSlewDone => Sys2Proof.Machine.execRailSlewDone s
  | .opStepUp target => Sys2Proof.Machine.execOpStepUp target s
  | .parkedBlockRefill block => Sys2Proof.Machine.execParkedBlockRefill block s
  | .holdlimitExpiry launch => Sys2Proof.Machine.execHoldlimitExpiry launch s
  | .loadDataReturn load => Sys2Proof.Machine.execLoadDataReturn load s
  | .storePerformed access => Sys2Proof.Machine.execStorePerformed access s
  | .releaseWhWaitEnd access => Sys2Proof.Machine.execReleaseWhWaitEnd access s
  | .atomicRequestApply access => Sys2Proof.Machine.execAtomicRequestApply access s
  | .hotQueueRetire accesses => Sys2Proof.Machine.execHotQueueRetire accesses s
  | .blockingLoadReread w => Sys2Proof.Machine.execBlockingLoadReread w s
  | .hPollReread w => Sys2Proof.Machine.execHPollReread w s
  | .l1FillRequest core ctx line => Sys2Proof.Machine.execL1FillRequest core ctx line s
  | .leaseExpiry core line => Sys2Proof.Machine.execLeaseExpiry core line s
  | .writeApply access => Sys2Proof.Machine.execWriteApply access s
  | .transientRefusalRetry request => Sys2Proof.Machine.execTransientRefusalRetry request s
  | .transientLineRelease line => Sys2Proof.Machine.execTransientLineRelease line s
  | .dirReadRequest die line => Sys2Proof.Machine.execDirReadRequest die line s
  | .dirOwnershipRequest die line => Sys2Proof.Machine.execDirOwnershipRequest die line s
  | .dirUpgradeRequest die line => Sys2Proof.Machine.execDirUpgradeRequest die line s
  | .dirWriteback die line => Sys2Proof.Machine.execDirWriteback die line s
  | .dirAtomicRequest die line => Sys2Proof.Machine.execDirAtomicRequest die line s
  | .dirForward die line => Sys2Proof.Machine.execDirForward die line s
  | .invalidationAck die line => Sys2Proof.Machine.execInvalidationAck die line s
  | .dataMessageReceipt die line version => Sys2Proof.Machine.execDataMessageReceipt die line version s
  | .snoopFilterEviction line => Sys2Proof.Machine.execSnoopFilterEviction line s
  | .backInvalidationSnoop pool => Sys2Proof.Machine.execBackInvalidationSnoop pool s
  | .pageSurrenderAnswer frame => Sys2Proof.Machine.execPageSurrenderAnswer frame s
  | .surrenderedPageRefetch frame => Sys2Proof.Machine.execSurrenderedPageRefetch frame s
  | .sleepingProbeTimeout home die => Sys2Proof.Machine.execSleepingProbeTimeout home die s
  | .engineCommandRelease e => Sys2Proof.Machine.execEngineCommandRelease e s
  | .arbiterGrant cluster => Sys2Proof.Machine.execArbiterGrant cluster s
  | .matrixPassEpilogue cluster => Sys2Proof.Machine.execMatrixPassEpilogue cluster s
  | .doorbellWrite ctx offset value => Sys2Proof.Machine.execDoorbellWrite ctx offset value s
  | .launchRecord ctx queue => Sys2Proof.Machine.execLaunchRecord ctx queue s
  | .graphReplayRecord ctx queue => Sys2Proof.Machine.execGraphReplayRecord ctx queue s
  | .signalRecord ctx queue => Sys2Proof.Machine.execSignalRecord ctx queue s
  | .waitRecord ctx queue => Sys2Proof.Machine.execWaitRecord ctx queue s
  | .phaseMarkRecord ctx queue => Sys2Proof.Machine.execPhaseMarkRecord ctx queue s
  | .cancelRecord ctx queue => Sys2Proof.Machine.execCancelRecord ctx queue s
  | .waitRecordReread ctx handle => Sys2Proof.Machine.execWaitRecordReread ctx handle s
  | .recordPageResolved ctx queue => Sys2Proof.Machine.execRecordPageResolved ctx queue s
  | .recordCompletion ctx handle => Sys2Proof.Machine.execRecordCompletion ctx handle s
  | .graphNodeBegin ctx handle node => Sys2Proof.Machine.execGraphNodeBegin ctx handle node s
  | .replaySlotDeadline ctx queue => Sys2Proof.Machine.execReplaySlotDeadline ctx queue s
  | .queueReset ctx queue => Sys2Proof.Machine.execQueueReset ctx queue s
  | .queueResetDone ctx queue => Sys2Proof.Machine.execQueueResetDone ctx queue s
  | .spillRefill q => Sys2Proof.Machine.execSpillRefill q s
  | .powerBudgetEval ctx queue watts => Sys2Proof.Machine.execPowerBudgetEval ctx queue watts s
  | .movementProgramStart core => Sys2Proof.Machine.execMovementProgramStart core s
  | .copyCommandStart core ticket => Sys2Proof.Machine.execCopyCommandStart core ticket s
  | .copySectorDelivery core ticket => Sys2Proof.Machine.execCopySectorDelivery core ticket s
  | .copyComplete core ticket => Sys2Proof.Machine.execCopyComplete core ticket s
  | .cbSlotTake core ticket => Sys2Proof.Machine.execCbSlotTake core ticket s
  | .omnibusRunStart die cluster => Sys2Proof.Machine.execOmnibusRunStart die cluster s
  | .subtreeLoadComplete cluster => Sys2Proof.Machine.execSubtreeLoadComplete cluster s
  | .rayRetire cluster => Sys2Proof.Machine.execRayRetire cluster s
  | .runTimeLimit cluster => Sys2Proof.Machine.execRunTimeLimit cluster s
  | .hitListAgeExpiry launch die => Sys2Proof.Machine.execHitListAgeExpiry launch die s
  | .binnerFlushDone binner => Sys2Proof.Machine.execBinnerFlushDone binner s
  | .rasteriseTile binner view tile => Sys2Proof.Machine.execRasteriseTile binner view tile s
  | .textureQuadComplete core op => Sys2Proof.Machine.execTextureQuadComplete core op s
  | .tlbMissWalk core ctx vpn => Sys2Proof.Machine.execTlbMissWalk core ctx vpn s
  | .faultEntryForward die => Sys2Proof.Machine.execFaultEntryForward die s
  | .drayEntryTake die => Sys2Proof.Machine.execDrayEntryTake die s
  | .drayBatchClose die => Sys2Proof.Machine.execDrayBatchClose die s
  | .evictionFrameFree frame => Sys2Proof.Machine.execEvictionFrameFree frame s
  | .migrationTransferDone die ctx vpn => Sys2Proof.Machine.execMigrationTransferDone die ctx vpn s
  | .recordReplay ctx slot => Sys2Proof.Machine.execRecordReplay ctx slot s
  | .replaySlotFreed ctx => Sys2Proof.Machine.execReplaySlotFreed ctx s
  | .pagerReply die reply => Sys2Proof.Machine.execPagerReply die reply s
  | .pagerlimitExpiry die ctx vpn => Sys2Proof.Machine.execPagerlimitExpiry die ctx vpn s
  | .checkIntervalReport thread bit => Sys2Proof.Machine.execCheckIntervalReport thread bit s
  | .eventHeldWrite die => Sys2Proof.Machine.execEventHeldWrite die s
  | .notificationMessage ctx => Sys2Proof.Machine.execNotificationMessage ctx s
  | .structureWriteRetry ctx => Sys2Proof.Machine.execStructureWriteRetry ctx s
  | .trapResumeRetry die ctx slot => Sys2Proof.Machine.execTrapResumeRetry die ctx slot s
  | .trapResumeSkip die ctx slot => Sys2Proof.Machine.execTrapResumeSkip die ctx slot s
  | .trapResumeEnd die ctx slot => Sys2Proof.Machine.execTrapResumeEnd die ctx slot s
  | .trapResumeCancel die ctx slot => Sys2Proof.Machine.execTrapResumeCancel die ctx slot s
  | .traplimitExpiry ctx slot => Sys2Proof.Machine.execTraplimitExpiry ctx slot s
  | .svcReply ctx => Sys2Proof.Machine.execSvcReply ctx s
  | .rollback block => Sys2Proof.Machine.execRollback block s
  | .hostAccessComplete access => Sys2Proof.Machine.execHostAccessComplete access s
  | .hostAccessTimeout access => Sys2Proof.Machine.execHostAccessTimeout access s
  | .extentReleaseRequest extent => Sys2Proof.Machine.execExtentReleaseRequest extent s
  | .extentReleaseDone extent => Sys2Proof.Machine.execExtentReleaseDone extent s
  | .extentDrainDeadline extent => Sys2Proof.Machine.execExtentDrainDeadline extent s
  | .extentForcedRelease extent => Sys2Proof.Machine.execExtentForcedRelease extent s
  | .extentReclaim extent => Sys2Proof.Machine.execExtentReclaim extent s
  | .lentMemoryRequest extent offset data => Sys2Proof.Machine.execLentMemoryRequest extent offset data s
  | .xferFetch ctx => Sys2Proof.Machine.execXferFetch ctx s
  | .xferPush ctx => Sys2Proof.Machine.execXferPush ctx s
  | .xferComplete ctx record => Sys2Proof.Machine.execXferComplete ctx record s
  | .budunLinkBringup port device key => Sys2Proof.Machine.execBudunLinkBringup port device key s
  | .crcCorrectionDone line wrong => Sys2Proof.Machine.execCrcCorrectionDone line wrong s
  | .patrolScrub frame wrong => Sys2Proof.Machine.execPatrolScrub frame wrong s
  | .watchdogBeatMiss die => Sys2Proof.Machine.execWatchdogBeatMiss die s
  | .dieLoss die => Sys2Proof.Machine.execDieLoss die s
  | .censusSweepDone die => Sys2Proof.Machine.execCensusSweepDone die s
  | .translationInvalidate die ctx vpn count => Sys2Proof.Machine.execTranslationInvalidate die ctx vpn count s
  | .uptLoad die ctx unit slot image => Sys2Proof.Machine.execUptLoad die ctx unit slot image s
  | .keyLoad die ctx index session image => Sys2Proof.Machine.execKeyLoad die ctx index session image s
  | .keyInvalidate die index => Sys2Proof.Machine.execKeyInvalidate die index s
  | .opPointRequest die point => Sys2Proof.Machine.execOpPointRequest die point s
  | .partitionDefine die index mask => Sys2Proof.Machine.execPartitionDefine die index mask s
  | .partitionSwitch die index ctx => Sys2Proof.Machine.execPartitionSwitch die index ctx s
  | .partitionFree die index => Sys2Proof.Machine.execPartitionFree die index s
  | .deepSleepEntry die => Sys2Proof.Machine.execDeepSleepEntry die s
  | .deepSleepWake cause => Sys2Proof.Machine.execDeepSleepWake cause s
  | .supervisorFieldWrite field value => Sys2Proof.Machine.execSupervisorFieldWrite field value s
  | .boot images => Sys2Proof.Machine.execBoot images s
  | .getVersion => Sys2Proof.Machine.execGetVersion s
  | .getCapabilities => Sys2Proof.Machine.execGetCapabilities s
  | .negotiateAlgorithms algos => Sys2Proof.Machine.execNegotiateAlgorithms algos s
  | .getDigests => Sys2Proof.Machine.execGetDigests s
  | .getCertificate slot => Sys2Proof.Machine.execGetCertificate slot s
  | .challenge nonce => Sys2Proof.Machine.execChallenge nonce s
  | .getMeasurements index => Sys2Proof.Machine.execGetMeasurements index s
  | .keyExchange session => Sys2Proof.Machine.execKeyExchange session s
  | .finishSession session => Sys2Proof.Machine.execFinishSession session s
  | .endSession session => Sys2Proof.Machine.execEndSession session s
  | .mlDsaVendorRequest session => Sys2Proof.Machine.execMlDsaVendorRequest session s
  | .debugAuthToken session token => Sys2Proof.Machine.execDebugAuthToken session token s
  | .returnMaterialToken session token => Sys2Proof.Machine.execReturnMaterialToken session token s
  | .debugStateSet session d => Sys2Proof.Machine.execDebugStateSet session d s
  | .haltCommand session unit => Sys2Proof.Machine.execHaltCommand session unit s
  | .packagePowerEval watts amps => Sys2Proof.Machine.execPackagePowerEval watts amps s
  | .thermalEval die celsius => Sys2Proof.Machine.execThermalEval die celsius s
  | .clockGate unit => Sys2Proof.Machine.execClockGate unit s
  | .unitWake unit => Sys2Proof.Machine.execUnitWake unit s
  | .capabilityFault ctx target => Sys2Proof.Machine.execCapabilityFault ctx target s
  | .contextCreation ctx p => Sys2Proof.Machine.execContextCreation ctx p s
  | .contextDestruction ctx => Sys2Proof.Machine.execContextDestruction ctx s

end Sys2Proof.Machine
end

