-- ==== Sys2Proof/Machine/Schedule.lean ====
section
/-!
DEFINITION. The device events that may be due in a state, in the order in which the model's own schedule tries
them when no input event stands and no clause can issue (log 2). Events of agents outside the device (hosts, the
supervisor, firmware readings) come only as inputs.
-/

namespace Sys2Proof.Machine

/-- An event that may be due. -/
abbrev Due := State → Result

/-- The first of some events that changes the state. -/
def firstChange (s : State) : List (State → Result) → Option Result
  | [] => none
  | i :: r =>
    match i s with
    | .next t => if t = s then firstChange s r else some (.next { t with cur := {} })
    | x => some x

/-- The events of one access in flight; of a request whose line is in transition only the refusals that take it a persistent
slot (11 R258, R271), unless a live L1 copy serves it (R254). -/
def accessEvents (s : State) (a : Access) : List Due :=
  if a.space == .hostH then [execReleaseWhWaitEnd a.id, execHostAccessTimeout a.id]
  else if lineBusy s a then
    (if l1Serves s a then [execLoadDataReturn { access := a.id }] else if a.persistent then [] else [execTransientRefusalRetry a.id,
      execLoadDataReturn { access := a.id }, execWriteApply a.id, execAtomicRequestApply a.id])
  else if a.refusals ≠ 0 then [execTransientRefusalRetry a.id, execLoadDataReturn { access := a.id }, execStorePerformed a.id]
  else [execReleaseWhWaitEnd a.id, execWriteApply a.id, execAtomicRequestApply a.id, execLoadDataReturn { access := a.id },
        execStorePerformed a.id]

/-- The lines in transition: what they wait for, and their release. -/
def lineEvents (s : State) : List Due :=
  (s.lines.filter fun l => l.2.transient).flatMap fun l =>
    ((l.2.txn.bind LineTxn.forward).toList.map fun d => execDirForward d l.1)
      ++ (l.2.acks.map fun d => execInvalidationAck d l.1) ++ [execTransientLineRelease l.1]

/-- The waits of a blocked agent. -/
def waiterEvents (w : Waiter) : List Due :=
  [execWaitConditionMet w, execBlockingLoadReread w, execHPollReread w, execWaitDeadlineExpiry w]

/-- The waits of threads and Coachmen, and the reports of sticky bits. -/
def waitEvents (s : State) : List Due :=
  (s.work.threads.flatMap fun t =>
    (if t.2.ctl.wait.isSome then waiterEvents (.thread t.1) else [])
      ++ (if t.2.ctl.run == .exiting then [execWaitConditionMet (.thread t.1)] else [])
      ++ (if t.2.regs.chk.toNat % 4 = 0 then [] else [execCheckIntervalReport t.1 0, execCheckIntervalReport t.1 1]))
  ++ s.coaches.flatMap fun c =>
    (if c.2.wait.isSome then waiterEvents (.coachman c.1) else [])
      ++ (if c.2.starts.isEmpty then [] else [execMovementProgramStart c.1])

/-- The engines of clusters and cores: reservation tables, copies, samplers, ray units. -/
def engineEvents (s : State) : List Due :=
  (s.clusters.flatMap fun c =>
    (if c.2.table.isEmpty then [] else
      (c.2.table.map fun e => execEngineCommandRelease (.matrix c.1 e.1)) ++ [execMatrixPassEpilogue c.1, execArbiterGrant c.1])
    ++ (if c.2.run.isSome then [execRunTimeLimit c.1, execSubtreeLoadComplete c.1, execRayRetire c.1] else []))
  ++ s.cores.flatMap fun g =>
    (g.2.copyQ.flatMap fun c =>
      [execEngineCommandRelease (.copy g.1 c.ticket), execCopyCommandStart g.1 c.ticket, execCbSlotTake g.1 c.ticket,
       execCopySectorDelivery g.1 c.ticket, execCopyComplete g.1 c.ticket])
    ++ g.2.texQ.map fun o => execTextureQuadComplete g.1 o.id

/-- 02 R35: the next block or group of a launch placed on the first core of its partition that can hold it. -/
def placeAnywhere (l : Nat) (s : State) : Result :=
  (firstChange s (((List.range 768).filter (inPartition s (launchOf s l).ctx)).map fun g =>
    execBlockPlacement (.next l) g)).getD (.next s)

/-- The checks (08 R193: one in every 4 096 clk), ends, rollbacks and placings of blocks. -/
def blockEvents (s : State) : List Due :=
  (s.work.blocks.flatMap fun b =>
    (if b.2.ended then [] else [execBlockEnd b.1])
      ++ (if !b.2.ended && 2048 ≤ clkOf s (s.dtime - (syncOf s b.1).lastCheck) then [execBlockLevelCheck b.1] else []) ++ (if (syncOf s b.1).rollbackDue then [execRollback b.1] else [])
      ++ (if b.2.parked then [execParkedBlockRefill b.1] else [])
      ++ (if b.2.evicted then [execBlockPlacement (.again b.1) (b.2.core.getD 0)] else []))
  ++ s.work.launches.flatMap fun l =>
    if l.2.spawnQ.isEmpty && l.2.spawnRing.isEmpty && l.2.hitQ.isEmpty then []
    else [execSpillRefill (.spawn l.1), placeAnywhere l.1, execHoldlimitExpiry l.1]

/-- The command queues, records and replays of a context. -/
def recordEvents (ctx : Nat) (c : Context) (m : CtxMore) : List Due :=
  (c.queues.flatMap fun q =>
    if q.2.reset then [execQueueResetDone ctx q.1]
    else if q.2.readIdx = q.2.writeIdx then [execReplaySlotDeadline ctx q.1, execRecordPageResolved ctx q.1]
    else [execLaunchRecord ctx q.1, execGraphReplayRecord ctx q.1, execSignalRecord ctx q.1, execWaitRecord ctx q.1,
          execPhaseMarkRecord ctx q.1, execCancelRecord ctx q.1, execReplaySlotDeadline ctx q.1,
          execRecordPageResolved ctx q.1])
  ++ ((c.records.filter fun r => r.ended.isNone).flatMap fun r =>
    [execRecordCompletion ctx r.handle, execWaitRecordReread ctx r.handle])
  ++ m.replays.flatMap fun r => (List.range r.nodes.length).map fun i => execGraphNodeBegin ctx r.handle i

/-- The replay records, traps, events and transfers of a context, and the refills of its queues. -/
def contextEvents (s : State) (ctx : Nat) (c : Context) : List Due :=
  let m := moreOf s ctx
  recordEvents ctx c m
  ++ (m.replay.flatMap fun r => if r.2.cause = 3 then [execTraplimitExpiry ctx r.1] else [execRecordReplay ctx r.1])
  ++ (if m.replayWaiting.isEmpty then [] else [execReplaySlotFreed ctx])
  ++ (if m.notifyPending then [execNotificationMessage ctx] else [])
  ++ (if m.retryAt.isSome then [execStructureWriteRetry ctx] else [])
  ++ (if c.svcrRead = c.svcrWrite then [] else [execSvcReply ctx])
  ++ (m.xfers.map fun x => execXferComplete ctx x.1)
  ++ (if c.xfrRead = c.xfrWrite then [] else [execXferFetch ctx, execXferPush ctx])
  ++ (c.msgs.filter fun q => !q.2.ring.isEmpty).map (fun q => execSpillRefill (.message ctx q.1))
  ++ (if c.atlas.ring.isEmpty then [] else [execSpillRefill (.atlas ctx)])
  ++ (if c.svcQ.ring.isEmpty then [] else [execSpillRefill (.svc ctx)])

/-- The fault path, the binners and the held events of a die. -/
def dieEvents (s : State) (die : Nat) (d : Die) : List Due :=
  (if d.fault.ring.isEmpty then [] else [execSpillRefill (.fault die)])
  ++ (if d.fault.queue.isEmpty then [] else [execFaultEntryForward die, execDrayEntryTake die])
  ++ (if d.fault.batchOpened.isSome then [execDrayBatchClose die] else [])
  ++ (d.fault.merge.flatMap fun m =>
    if m.frame.isSome then [execMigrationTransferDone die m.ctx m.vpn]
    else if m.toPager then [execPagerlimitExpiry die m.ctx m.vpn] else [])
  ++ (if d.fault.held.isEmpty then [] else [execEventHeldWrite die])
  ++ (if d.census then [execCensusSweepDone die] else [])
  ++ (if filterFull s die then ((filterLines s die).head?).toList.map execSnoopFilterEviction else [])
  ++ d.binners.flatMap fun b =>
    (if ringBins b.2 = [] ∧ b.2.ring = [] then [] else [execSpillRefill (.bin (2 * die + b.1) 0)]) ++
    if b.2.flushing then
      ((tilesDue s (2 * die + b.1)).map fun t => execRasteriseTile (2 * die + b.1) t.2.1 t.2.2)
        ++ [execBinnerFlushDone (2 * die + b.1)]
    else []

/-- The rays of launches: runs to start, hit lists that have grown old. -/
def rayEvents (s : State) : List Due :=
  s.work.rays.flatMap fun r =>
    ((List.range 4).map fun d => execHitListAgeExpiry r.1 d)
    ++ (if r.2.queues.isEmpty then [] else (List.range 192).map fun c => execOmnibusRunStart (c / 48) c)

/-- Frames on their way out, extents that drain, steps of the operating point, partitions that switch. -/
def deviceEvents (s : State) : List Due :=
  (s.frames.flatMap fun f =>
    (if f.2.leaving then [execEvictionFrameFree f.1] else [])
      ++ (if scrubDue s f.2 then [execPatrolScrub f.1 []] else [])
      ++ (if f.2.hstate = 1 then [execPageSurrenderAnswer f.1] else [])
      ++ (if f.2.hstate = 2 && (f.2.wanted || s.pend.any (fun a => onLine a && frameOfLine a.line == f.1)) then
          [execSurrenderedPageRefetch f.1] else []))
  ++ (s.tables.extents.flatMap fun x => [execExtentReleaseDone x.1, execExtentDrainDeadline x.1])
  ++ (if s.power.target.isNone then [] else
    [execEvaclimitExpiry] ++ ((mkeys s.cores).map fun g => execRowEvacuation g) ++ [execOpClockSwitch, execRailSlewDone])
  ++ s.tables.partitions.flatMap fun p =>
    if p.2.state = 3 then [execPartitionDrainEnd p.1, execPartitionRestore p.1] else []

/-- Whether a thread of a bin's block whose wait is over is about to enter the bin. -/
def wakesInto (s : State) (b : Bin) : Bool :=
  (threadsOfBlock s b.block).any fun p => match p.2.ctl.wait with
    | none => false
    | some w => w.resume == b.pc && p.2.ctl.key == b.key && (conditionMet s p.1 p.2 w).isSome

/-- The filing queues and the draws due: the first source of each core that applies (02 R28, R29); a bin that is not full
waits for the threads that wake into it. -/
def drawEvents (s : State) : List Due :=
  (s.cores.filter fun g => !g.2.fileQ.isEmpty).map (fun g => execFilingQueueDrain g.1)
  ++ (mkeys s.cores).flatMap fun g => match drawChoice s g with
      | none => []
      | some (i, b) => if b.threads.length < 32 && wakesInto s b then [] else [execBundleDraw g i]

/-- The elements of a list taken in turn, from the k-th. -/
def rotated {α : Type} (k : Nat) (xs : List α) : List α :=
  let n := k % max 1 xs.length
  xs.drop n ++ xs.take n

/-- The kinds of events that may be due. -/
def dueKinds (s : State) : List (List Due) :=
  [s.pend.flatMap (accessEvents s), drawEvents s, lineEvents s, waitEvents s, engineEvents s, blockEvents s,
   s.ctxs.flatMap (fun c => contextEvents s c.1 c.2), s.dies.flatMap (fun d => dieEvents s d.1 d.2), rayEvents s,
   deviceEvents s]

/-- Every event that may be due, the kinds and the events of a kind each in turn by device time (log 2). -/
def dueEvents (s : State) : List Due :=
  let k := s.dtime / 2
  (rotated k ((dueKinds s).map (rotated (k / 10)))).flatten

end Sys2Proof.Machine
end

