-- ==== Sys2Proof/Machine/Run.lean ====
section
/-!
DEFINITION. One step of the machine: time passes, then an input event happens, or the next clause issues whole
(02 R26, 03 R76), or an event that is due happens; clauses and events take turns.
-/

namespace Sys2Proof.Machine

/-! ### A clause -/

/-- 10 R227, R228: the fault the clause reports: that of the lowest position, with the absent pages of every
position. -/
def mergeFault (first : Option FaultReport) (r : FaultReport) : FaultReport :=
  match first with
  | none => r
  | some f => { f with pages := r.pages.foldr addPage f.pages }

/-- One position of the clause: what its lanes read of poisoned registers is consumed (22 R507), and its instruction runs. A
fault is kept in `cur` and the position has no other effect (03 R76). A counter at 63 that it would raise holds the clause
(03 R62). -/
def runPosition (k : Nat) (p : Nat × Instr) (s : State) : Result :=
  match exec p.2 { consumeBad s p.2 with cur := { s.cur with pos := k, word := p.1, fault := none } } with
  | .next t =>
    match t.cur.fault with
    | none => .next { t with cur := { t.cur with fault := s.cur.fault, hold := t.cur.hold || counterFull s p.2 } }
    | some r => .next { s with cur := { s.cur with fault := some (mergeFault s.cur.fault r) } }
  | x => x

/-- The positions of the clause in order. -/
def runPositions : Nat → List (Nat × Instr) → State → Result
  | _, [], s => .next s
  | k, p :: r, s =>
    match runPosition k p s with
    | .next t => runPositions (k + 1) r t
    | x => x

/-! ### Events that are due -/

/-- The first event that is due happens; where none is, only time has passed. -/
def background (s : State) : Result := (firstChange s (dueEvents s)).getD (.next s)

/-- What happens before any clause: at every other nanosecond an event that is due (log 2), so that neither clauses
nor events wait for ever. -/
def eventFirst (s : State) : Option Result := if s.dtime % 2 = 0 then firstChange s (dueEvents s) else none

/-! ### The step -/

/-- 16 R388: a clause whose primitives ask for a flush: the binners that held primitives of contexts on the device flush
first, and the clause issues again; with nothing to flush, a sequence counter that would pass its end restarts at 0, and
otherwise the clause issues and the flush takes what it binned (`s` before the clause, `t` after its positions). -/
def flushFirst (s t : State) : Result :=
  let held := t.cur.flush.filter fun b => (binnerOf s b).all.any fun p => (ctxOf s (launchOf s p.launch).ctx).resident
  if !held.isEmpty then background { held.foldl startFlush s with cur := {} }
  else if t.cur.wraps then
    background { modLaunch s (blockOf s s.cur.block).launch (fun k => { k with primSeq := 0 }) with cur := {} }
  else .next (t.cur.flush.foldl startFlush (endClause t))

/-- The fetched clause issues: a fault discards its effects and is taken in the state the clause started in
(03 R76); a form that must wait discards them too (02 R39 apart). -/
def issueClause (s : State) : Result :=
  match runPositions 0 s.cur.code s with
  | .next t =>
    match t.cur.fault with
    | some r => .next { deliver { s with cur := { s.cur with pos := r.pos } } r with cur := {} }
    | none =>
      if t.cur.hold then background { s with cur := {} }
      else if t.cur.flush.isEmpty then .next (endClause t)
      else flushFirst s t
  | x => x

/-- What follows a fetch: the clause issues, its fault stands, or none was ready. -/
def afterFetch (s : State) : Result :=
  if s.cur.fault.isSome then .next { s with cur := {} }
  else if s.cur.code.isEmpty then background { s with cur := {} }
  else issueClause s

/-- What time alone brings about: the rays whose slots' writes are performed complete (15 R372), and the translation invalidates
that waited do (17 R405); a checkpoint that an event's completion made due is taken (20 R479), and a switch that waited for a
rollback begins (20 R478). -/
def settle (s : State) : State :=
  let s1 := settleInvalidates ((mkeys s.work.rays).foldl closeRays s)
  let s2 := (mkeys s1.work.sync).foldl settleCheckpoint s1
  if s2.tables.switches.isEmpty then s2 else takeWaiting s2

/-- The nanoseconds that pass at this step (log 5); the checkpoint images follow what the step before wrote (20 R480). -/
def passTime (s : State) : State :=
  { settle (copyImages (advance s (s.ticks.headD 1))) with ticks := s.ticks.tail, cur := {} }

/-- An event happens; after a fetch its clause issues. -/
def happen (i : Instr) (s : State) : Result :=
  match exec i s with
  | .next t => if t.cur.code.isEmpty then .next { t with cur := {} } else afterFetch t
  | x => x

/-- One step: the next input event, or the next clause. Only a power cycle's boot follows a thermal shutdown
(22 R524). -/
def runStep (s : State) : Result :=
  let s1 := passTime s
  match s1.inputs with
  | i :: r => if s1.power.off && !(match i with | .boot _ => true | _ => false) then .fault .thermalShutdown
              else happen i { s1 with inputs := r }
  | [] =>
    if s1.power.off then .fault .thermalShutdown
    else
      match eventFirst s1 with
      | some x => x
      | none =>
        match exec .clauseFetch s1 with
        | .next t => afterFetch t
        | x => x

end Sys2Proof.Machine
end

