-- ==== Sys2Proof/Safety.lean ====
section
/-!
DEFINITION. What the statements call a good state and a good step: the canonical form of the memories, no clause
under way between steps, a step that answers a next state, and what a form may do to the threads of its bundle.
-/

namespace Sys2Proof.Safety

open Sys2Proof.Machine

/-! ### States and steps -/

/-- The three memories are in canonical form: addresses strictly rising, no entry that reads as empty. -/
def memWf (s : State) : Prop :=
  Memory.wf s.mem.device = true ∧ Memory.wf s.mem.host = true ∧ Memory.wf s.mem.pool = true

/-- No clause is under way: a clause issues whole, in one step (03 R76). -/
def quiet (s : State) : Prop := s.cur = {}

/-- The step answers this state. -/
def stepsTo (s t : State) : Prop := step s = .next t

/-- The package is off for heat: only a power cycle's boot follows (22 R524). -/
def isOff (s : State) : Prop := s.power.off = true

/-- An instruction answers a state that meets a property. -/
def answers (i : Instr) (s : State) (P : State → Prop) : Prop := ∃ t, exec i s = .next t ∧ P t

/-! ### One thread: what a result writes and what it leaves (03 R56, R60, R61) -/

/-- The register a destination names in the thread's pass; none where write-back is suppressed (03 R56, 08 R185). -/
def destReg (t : Thread) : Dst → Option Nat
  | .reg n => some (stepReg t.ctl .dst n.toNat)
  | .suppress => none

/-- Two threads differ in lane registers, latches, predicates and the poison marks of registers at most. -/
def sameButRegs (t t' : Thread) : Prop :=
  t' = { t with regs := { t.regs with v := t'.regs.v, p := t'.regs.p, latch := t'.regs.latch, bad := t'.regs.bad } }

/-- 22 R507: of the registers a double-bit error has poisoned, those written are so no longer, and no other changes. -/
def freshens (written : Nat → Prop) (r r' : Regs) : Prop := ∀ m, m ∈ r'.bad ↔ m ∈ r.bad ∧ ¬ written m

/-- A 32-bit result: the register named and latch `j` take it, nothing else of the thread changes. -/
def wroteWord (j : Nat) (d : Dst) (x : Word) (t t' : Thread) : Prop :=
  (∀ m, t'.regs.get m = if destReg t d = some m then x else t.regs.get m)
  ∧ (∀ k, t'.regs.getLatch k = if k = j then x.setWidth 64 else t.regs.getLatch k)
  ∧ freshens (fun m => destReg t d = some m) t.regs t'.regs ∧ t'.regs.p = t.regs.p ∧ sameButRegs t t'

/-- A thread whose guard is false: latch `j` takes the destination's present value, or 0; no register changes. -/
def skippedWord (j : Nat) (d : Dst) (t t' : Thread) : Prop :=
  (∀ m, t'.regs.get m = t.regs.get m)
  ∧ (∀ k, t'.regs.getLatch k =
      if k = j then ((destReg t d).map fun n => (t.regs.get n).setWidth 64).getD 0 else t.regs.getLatch k)
  ∧ t'.regs.bad = t.regs.bad ∧ t'.regs.p = t.regs.p ∧ sameButRegs t t'

/-- A 64-bit result: the pair named, low word first, and latch `j` take it. -/
def wrotePair (j : Nat) (d : Dst) (x : DWord) (t t' : Thread) : Prop :=
  (∀ m, t'.regs.get m =
      if destReg t d = some m then x.setWidth 32
      else if (destReg t d).map (· + 1) = some m then x.extractLsb' 32 32 else t.regs.get m)
  ∧ (∀ k, t'.regs.getLatch k = if k = j then x else t.regs.getLatch k)
  ∧ freshens (fun m => destReg t d = some m ∨ (destReg t d).map (· + 1) = some m) t.regs t'.regs
  ∧ t'.regs.p = t.regs.p ∧ sameButRegs t t'

/-- A thread whose guard is false, for a pair destination. -/
def skippedPair (j : Nat) (d : Dst) (t t' : Thread) : Prop :=
  (∀ m, t'.regs.get m = t.regs.get m)
  ∧ (∀ k, t'.regs.getLatch k =
      if k = j then ((destReg t d).map fun n => t.regs.pair n).getD 0 else t.regs.getLatch k)
  ∧ t'.regs.bad = t.regs.bad ∧ t'.regs.p = t.regs.p ∧ sameButRegs t t'

/-- A predicate result: the predicate named takes it, p7 keeps reading 1, no register and no latch changes. -/
def wrotePred (d : Dst) (b : Bool) (t t' : Thread) : Prop :=
  (∀ n, n ≤ 7 → t'.regs.pred n =
      if n = 7 then true else if d = .reg (BitVec.ofNat 7 n) then b else t.regs.pred n)
  ∧ (∀ m, t'.regs.get m = t.regs.get m) ∧ (∀ k, t'.regs.getLatch k = t.regs.getLatch k)
  ∧ t'.regs.bad = t.regs.bad ∧ sameButRegs t t'

/-! ### The threads of the clause's bundle -/

/-- A state change confined to the threads of the clause's bundle, each changed as `R` says. -/
def onlyLanes (s t : State) (R : Nat → Thread → Thread → Prop) : Prop :=
  (∀ u th, u ∈ s.cur.lanes → threadOf s u = some th → ∃ th', threadOf t u = some th' ∧ R u th th')
  ∧ (∀ u, u ∉ s.cur.lanes → threadOf t u = threadOf s u)
  ∧ t = { s with work := { s.work with threads := t.work.threads } }

/-- A form that changes the threads of its bundle and nothing else, on a core. -/
def laneForm (i : Instr) (R : State → Nat → Thread → Thread → Prop) : Prop :=
  ∀ s, s.cur.agent = .core → s.cur.lanes.Nodup → answers i s fun t => onlyLanes s t (R s)

/-- A form with a 32-bit result in every participating lane. -/
def wordResult (i : Instr) (g : Guard) (d : Dst) (val : State → Thread → Word) : Prop :=
  laneForm i fun s _ th th' =>
    if guardOn g th.regs then wroteWord (s.cur.pos % 4) d (val s th) th th'
    else skippedWord (s.cur.pos % 4) d th th'

/-- A form with a 64-bit result in every participating lane. -/
def pairResult (i : Instr) (g : Guard) (d : Dst) (val : State → Thread → DWord) : Prop :=
  laneForm i fun s _ th th' =>
    if guardOn g th.regs then wrotePair (s.cur.pos % 4) d (val s th) th th'
    else skippedPair (s.cur.pos % 4) d th th'

/-- A form with a predicate result in every participating lane. -/
def predResult (i : Instr) (g : Guard) (d : Dst) (val : State → Thread → Bool) : Prop :=
  laneForm i fun s _ th th' =>
    if guardOn g th.regs then wrotePred d (val s th) th th' else th' = th

/-- 07 R163: the values of the participating lanes in ascending lane order, each with its lane. -/
def participants {α : Type} (s : State) (g : Guard) (f : Thread → α) : List (Nat × α) :=
  (List.range 32).filterMap fun i => (laneAt s g i).map fun o => (i, f o)

/-- 07 R167: node j at level k of the tree over lane positions: the left and right nodes below combined, or the one
that is present. -/
def treeNode (op : Word → Word → Word) (x : Nat → Option Word) : Nat → Nat → Option Word
  | 0, j => x j
  | k + 1, j =>
    match treeNode op x k (2 * j), treeNode op x k (2 * j + 1) with
    | some a, some b => some (op a b)
    | some a, none => some a
    | none, b => b

/-- 07 R148, 03 R62: a class-1 form. Every participating lane writes its register, its latch and its counter as a
class-0 form would, and for each there is one result in flight, which holds the new value and the one it replaces;
everything else stays. -/
def landsLater (i : Instr) (f : FormA) (val : Thread → Word) : Prop :=
  ∀ s, s.cur.agent = .core → s.cur.lanes.Nodup → answers i s fun t =>
    (∀ u th, u ∈ s.cur.lanes → threadOf s u = some th → ∃ th', threadOf t u = some th' ∧
      (if guardOn f.x.guard th.regs then
        wroteWord (s.cur.pos % 4) f.dst (val th) th { th' with regs := { th'.regs with ctr := th.regs.ctr } }
        ∧ ∀ k, th'.regs.getCtr k = if k + 1 = f.x.ctr.toNat then th.regs.getCtr k + 1 else th.regs.getCtr k
      else skippedWord (s.cur.pos % 4) f.dst th th'))
    ∧ (∀ u, u ∉ s.cur.lanes → threadOf t u = threadOf s u)
    ∧ ∃ new : List Access,
        t = { s with work := { s.work with threads := t.work.threads }, pend := s.pend ++ new,
                     nextAccess := s.nextAccess + new.length,
                     cur := { s.cur with created := s.cur.created ++ new.map Access.id } }
        ∧ (∀ a ∈ new, a.kind = .result ∧ a.ctr = f.x.ctr.toNat)
        ∧ ∀ u th n, u ∈ s.cur.lanes → threadOf s u = some th → guardOn f.x.guard th.regs = true →
            destReg th f.dst = some n →
            ∃ a ∈ new, a.lanes = [{ uid := u, dst := n, operand := (val th).setWidth 64,
                                    old := (th.regs.get n).setWidth 64 }]

/-! ### The Coachman (03 R73, 14 R334) -/

/-- A 64-bit result of the Coachman: the m register named and latch `j` take it, or, with a false guard, the latch
takes the present value; the rest of the Coachman and of the machine stays. -/
def coachResult (i : Instr) (g : Guard) (d : Dst) (val : State → Coach → DWord) : Prop :=
  ∀ s, s.cur.agent = .coachman → answers i s fun t =>
    let c := coachOf s s.cur.core
    let c' := coachOf t s.cur.core
    let n := match d with
      | .reg n => some n.toNat
      | .suppress => none
    (∀ m, c'.get m = if guardCoach g c ∧ n = some m then val s c else c.get m)
    ∧ (∀ k, mgetD c'.latch k 0 =
        if k = s.cur.pos % 4 then (if guardCoach g c then val s c else (n.map c.get).getD 0) else mgetD c.latch k 0)
    ∧ c' = { c with m := c'.m, latch := c'.latch }
    ∧ (∀ h, h ≠ s.cur.core → coachOf t h = coachOf s h)
    ∧ t = { s with coaches := t.coaches }

/-! ### Requests put in flight (10 R232, R241, 03 R62) -/

/-- A form's requests enter flight: every participating lane has one part in one request, the lanes of one request
share a sector and two requests do not, the counter named rises in every participating lane, and nothing is read or
written yet. -/
def putsInFlight (s t : State) (g : Guard) (ctr : Nat) (form : Access → Prop)
    (lane : Thread → LaneReq → Prop) : Prop :=
  (∀ u th, u ∈ s.cur.lanes → threadOf s u = some th → ∃ th', threadOf t u = some th'
      ∧ (∀ k, th'.regs.getCtr k =
          if guardOn g th.regs = true ∧ k + 1 = ctr then th.regs.getCtr k + 1 else th.regs.getCtr k)
      ∧ th' = { th with regs := { th.regs with ctr := th'.regs.ctr } })
  ∧ (∀ u, u ∉ s.cur.lanes → threadOf t u = threadOf s u)
  ∧ ∃ new : List Access,
      t = { s with work := { s.work with threads := t.work.threads }, pend := s.pend ++ new,
                   nextAccess := s.nextAccess + new.length,
                   cur := { s.cur with created := s.cur.created ++ new.map Access.id } }
      ∧ (∀ a ∈ new, form a ∧ s.nextAccess ≤ a.id ∧ a.id < s.nextAccess + new.length)
      ∧ new.Pairwise (fun a b => a.id < b.id ∧ ∀ p ∈ a.lanes, ∀ q ∈ b.lanes, laneSector p ≠ laneSector q)
      ∧ (∀ a ∈ new, ∀ p ∈ a.lanes, ∀ q ∈ a.lanes, laneSector p = laneSector q)
      ∧ ((new.flatMap Access.lanes).map LaneReq.uid).Nodup
      ∧ (∀ a ∈ new, ∀ r ∈ a.lanes, r.uid ∈ s.cur.lanes ∧ ∃ th, threadOf s r.uid = some th
          ∧ guardOn g th.regs = true ∧ lane th r)
      ∧ (∀ u th, u ∈ s.cur.lanes → threadOf s u = some th → guardOn g th.regs = true →
          ∃ a ∈ new, ∃ r ∈ a.lanes, r.uid = u)

/-- Every participating lane's address passes the checks of 10 R227. -/
def plansPass (s : State) (g : Guard) (plan : Thread → Plan) : Prop :=
  ∀ u th, u ∈ s.cur.lanes → threadOf s u = some th → guardOn g th.regs = true → ∃ m as, plan th = .names m as

/-- A memory form in a space: where every participating lane's address passes, its requests enter flight, each over
the bytes its lane's address names. -/
def issuesIn (i : Instr) (k : AccKind) (sp : Space) (x : ExtM) (op : Nat) (n : Need) (a : Src) (off : Int)
    (fill : Thread → LaneReq → Prop) : Prop :=
  ∀ s, s.cur.lanes.Nodup → plansPass s x.guard (fun th => planLane s th sp n a off (sizeBytes x.size)) →
    answers i s fun t => putsInFlight s t x.guard x.ctr.toNat
      (fun q => q.kind = k ∧ q.space = sp ∧ q.core = s.cur.core ∧ q.ctx = ctxOfBlock s s.cur.block
        ∧ q.block = s.cur.block ∧ q.scope = effectiveScope sp x.scope ∧ q.ordering = x.ordering ∧ q.size = x.size
        ∧ q.sext = x.sext ∧ q.ctr = x.ctr.toNat ∧ q.op = op ∧ q.applied = false
        ∧ q.issued = !(x.ordering == .rel && sp == .globalG && atLeastDie x.scope))
      (fun th r => planLane s th sp n a off (sizeBytes x.size) = .names r.mem r.addrs ∧ fill th r)

/-! ### Lanes that act in turn (03 R61) -/

/-- Steps taken one after another, each on the state the one before it left. -/
def chain {α : Type} (R : State → α → State → Prop) : List α → State → State → Prop
  | [], a, b => b = a
  | x :: r, a, b => ∃ m, R a x m ∧ chain R r m b

/-- One thread takes a word over a state: its register and latch, nothing else. -/
def putsWord (a : State) (u j : Nat) (d : Dst) (x : Word) (b : State) : Prop :=
  (∀ th, threadOf a u = some th → ∃ th', threadOf b u = some th' ∧ wroteWord j d x th th')
  ∧ (∀ v, v ≠ u → threadOf b v = threadOf a v)
  ∧ b = { a with work := { a.work with threads := b.work.threads } }

/-- One thread whose guard is false, over a state. -/
def keepsWord (a : State) (u j : Nat) (d : Dst) (b : State) : Prop :=
  (∀ th, threadOf a u = some th → ∃ th', threadOf b u = some th' ∧ skippedWord j d th th')
  ∧ (∀ v, v ≠ u → threadOf b v = threadOf a v)
  ∧ b = { a with work := { a.work with threads := b.work.threads } }

/-- One lane of a position whose lanes act in turn: a participating one changes the state as `act` says and takes its
word; another keeps its registers. -/
def laneStep (s : State) (g : Guard) (d : Dst) (act : State → Nat → Thread → State × Word) (a : State) (u : Nat)
    (b : State) : Prop :=
  match threadOf a u with
  | none => b = a
  | some th =>
    if guardOn g th.regs then putsWord (act a u th).1 u (s.cur.pos % 4) d (act a u th).2 b
    else keepsWord a u (s.cur.pos % 4) d b

/-- A position's lanes act in ascending lane order. -/
def inTurn (s : State) (g : Guard) (d : Dst) (act : State → Nat → Thread → State × Word) (a b : State) : Prop :=
  chain (laneStep s g d act) s.cur.lanes a b

/-- A form on the cores whose lanes act in turn. `start` is what the position does before its lanes; `pre` and `fits`
are the conditions under which the form does not fault. -/
def turnForm (i : Instr) (g : Guard) (d : Dst) (pre : State → Prop) (start : State → State)
    (fits : State → State → Prop) (act : State → State → Nat → Thread → State × Word) : Prop :=
  ∀ s, s.cur.agent = .core → pre s → (∀ t, inTurn s g d (act s) (start s) t → fits s t) →
    answers i s fun t => inTurn s g d (act s) (start s) t

/-- Every participating lane meets a condition on the state the lanes before it left. -/
def eachMeets (s : State) (g : Guard) (d : Dst) (act : State → Nat → Thread → State × Word) (a : State)
    (P : State → Thread → Prop) : Prop :=
  ∀ xs u ys m, s.cur.lanes = xs ++ u :: ys → chain (laneStep s g d act) xs a m →
    ∀ th, threadOf m u = some th → guardOn g th.regs = true → P m th

/-- Every participating lane's thread meets a condition. -/
def allLanes (s : State) (g : Guard) (P : Thread → Prop) : Prop :=
  ∀ u th, u ∈ s.cur.lanes → threadOf s u = some th → guardOn g th.regs = true → P th

/-! ### Waits (02 R38, R39, R48, 18 R439, R441) -/

/-- A thread's wait ends at issue: the destination, `%status`, the read floor and the escalation state are written,
and the thread stays in its bundle. -/
def endsNow (a : State) (u : Nat) (f : FormW) (st : Status) (val : Word) (acquire : Bool) (more : Regs → Regs)
    (b : State) : Prop :=
  (∀ th, threadOf a u = some th → ∃ th', threadOf b u = some th'
    ∧ (∃ r : Regs, th'.regs = more r
        ∧ (∀ m, r.get m = if (destReg th f.dst).map (· % 128) = some m then val else th.regs.get m)
        ∧ freshens (fun m => (destReg th f.dst).map (· % 128) = some m) th.regs r
        ∧ r = { th.regs with v := r.v, bad := r.bad, status := BitVec.ofNat 32 st.code,
                             floor := if acquire then max th.regs.floor a.dtime else th.regs.floor })
    ∧ (let e := escalation th.ctl.escSite th.ctl.escCount a.cur.addr st (isPoll f.x.deadline) f.x.esc
          (ctxOf a (ctxOfBlock a th.block)).f.escLimit
       th'.ctl = { th.ctl with wait := none, escSite := e.1, escCount := e.2.1,
                               trapDue := e.2.2.map fun n => (st.code, n) })
    ∧ th' = { th with regs := th'.regs, ctl := th'.ctl })
  ∧ (∀ v, v ≠ u → threadOf b v = threadOf a v)
  ∧ b = { a with work := { a.work with threads := b.work.threads }, cores := b.cores, dies := b.dies }
  ∧ (st ≠ .timeout → b.cores = a.cores ∧ b.dies = a.dies)

/-- A thread blocks: its wait record holds the condition, the deadline in context time, the resume point, the site
and the destination; its registers stand as its clause leaves them. -/
def blocksNow (a : State) (u : Nat) (f : FormW) (k : WaitKind) (b : State) : Prop :=
  (∀ th, threadOf a u = some th → ∃ th', threadOf b u = some th'
    ∧ th'.ctl.run = .blocked
    ∧ (∃ w, th'.ctl.wait = some w ∧ w.kind = k
        ∧ w.deadline = effective a (ctxOfBlock a th.block) f.x.deadline (threadAbs th f.x.deadline)
        ∧ w.resume = (passEnd a.cur.stop th).ctl.pc ∧ w.site = a.cur.addr ∧ w.esc = f.x.esc
        ∧ w.poll = isPoll f.x.deadline)
    ∧ th'.regs = (passEnd a.cur.stop th).regs)
  ∧ (∀ v, v ≠ u → threadOf b v = threadOf a v)
  ∧ b = { a with work := { a.work with threads := b.work.threads } }

/-- What a wait comes to when it issues: the state and what it writes, where its condition holds. -/
structure NowDone where
  state : State
  status : Status
  value : Word
  acquire : Bool := false
  more : Regs → Regs := fun r => r

/-- A waiting form on the cores, its participating lanes in turn: where the condition holds the wait ends at once;
else a deadline already met ends it with `late`, and any other wait blocks. `blk` gives the state the lane leaves, its
thread and what it waits for. -/
def waitForm (i : Instr) (f : FormW) (pre : State → Prop) (start : State → State)
    (now : State → State → Nat → Thread → Option NowDone)
    (blk : State → State → Nat → Thread → State × Thread × WaitKind)
    (late : State → State → Nat → Thread → Status × Word) : Prop :=
  ∀ s, s.cur.agent = .core → pre s → answers i s fun t =>
    chain (fun a p b =>
      match now s a p.1 p.2 with
      | some q => endsNow q.state p.1 f q.status q.value q.acquire q.more b
      | none =>
        let c := blk s a p.1 p.2
        let l := late s a p.1 p.2
        if tooLate c.1 c.2.1 f.x.deadline then
          endsNow c.1 p.1 f l.1 l.2 (l.1 == .partialDone) (fun r => r) b
        else blocksNow c.1 p.1 f c.2.2 b) (activeLanes s f.x.guard) (start s) t

/-! ### The Coachman's own actions and waits (14 R332, R334) -/

/-- The Coachman of the clause takes a word in its m register and latch over a state. -/
def coachPuts (a : State) (core j : Nat) (d : Dst) (x : DWord) (b : State) : Prop :=
  (∀ m, (coachOf b core).get m = if d = .reg (BitVec.ofNat 7 m) ∧ m < 128 then x else (coachOf a core).get m)
  ∧ (∀ k, mgetD (coachOf b core).latch k 0 = if k = j then x else mgetD (coachOf a core).latch k 0)
  ∧ coachOf b core = { coachOf a core with m := (coachOf b core).m, latch := (coachOf b core).latch }
  ∧ (∀ h, h ≠ core → coachOf b h = coachOf a h)
  ∧ b = { a with coaches := b.coaches }

/-- The Coachman of the clause under a false guard: its latch takes the present value of the m register named. -/
def coachKeeps (a : State) (core j : Nat) (d : Dst) (b : State) : Prop :=
  (∀ m, (coachOf b core).get m = (coachOf a core).get m)
  ∧ (∀ k, mgetD (coachOf b core).latch k 0 = if k = j then (match d with
      | .reg n => (coachOf a core).get n.toNat
      | .suppress => 0) else mgetD (coachOf a core).latch k 0)
  ∧ coachOf b core = { coachOf a core with latch := (coachOf b core).latch }
  ∧ (∀ h, h ≠ core → coachOf b h = coachOf a h)
  ∧ b = { a with coaches := b.coaches }

/-- A form of the Coachman that acts where its guard is true and writes a word. -/
def coachForm (i : Instr) (g : Guard) (d : Dst) (pre : State → Prop) (fits : State → State → Prop)
    (act : State → Coach → State × DWord) : Prop :=
  ∀ s, s.cur.agent = .coachman → pre s →
    let c := coachOf s s.cur.core
    if guardCoach g c then
      (∀ t, coachPuts (act s c).1 s.cur.core (s.cur.pos % 4) d (act s c).2 t → fits s t) →
      answers i s fun t => coachPuts (act s c).1 s.cur.core (s.cur.pos % 4) d (act s c).2 t
    else (∀ t, coachKeeps s s.cur.core (s.cur.pos % 4) d t → fits s t) →
      answers i s fun t => coachKeeps s s.cur.core (s.cur.pos % 4) d t

/-- A wait of the Coachman ends at issue: its m register (and the further one named) and its last status. -/
def coachEnds (a : State) (core : Nat) (d : Dst) (st : Status) (val : DWord) (extra : Option (Nat × DWord))
    (b : State) : Prop :=
  (∀ m, (coachOf b core).get m =
    match extra with
    | some (n, x) => if m = n then x else if d = .reg (BitVec.ofNat 7 m) ∧ m < 128 then val else (coachOf a core).get m
    | none => if d = .reg (BitVec.ofNat 7 m) ∧ m < 128 then val else (coachOf a core).get m)
  ∧ (coachOf b core).status = st.code ∧ (coachOf b core).wait = none
  ∧ ∀ h, h ≠ core → coachOf b h = coachOf a h

/-- A wait of the Coachman blocks. -/
def coachBlocks (a : State) (f : FormW) (k : WaitKind) (b : State) : Prop :=
  (∃ w, w.kind = k ∧ w.resume = a.cur.stop ∧ w.site = a.cur.addr ∧ w.dst = f.dst ∧ w.esc = f.x.esc
    ∧ w.deadline = effective a (ctxOfBlock a a.cur.block) f.x.deadline
        (coachAbs (coachOf a a.cur.core) f.x.deadline)
    ∧ coachOf b a.cur.core = { coachOf a a.cur.core with wait := some w })
  ∧ (∀ h, h ≠ a.cur.core → coachOf b h = coachOf a h)
  ∧ b = { a with coaches := b.coaches }

/-- A waiting form on the Coachman; with a false guard it does nothing. -/
def coachWaitForm (i : Instr) (f : FormW) (pre : State → Prop)
    (now : State → Coach → Option (State × Status × DWord × Option (Nat × DWord)))
    (blk : State → Coach → State × WaitKind) (late : State → Coach → Status × DWord) : Prop :=
  ∀ s, s.cur.agent = .coachman → pre s → answers i s fun t =>
    let c := coachOf s s.cur.core
    if guardCoach f.x.guard c then
      match now s c with
      | some q => coachEnds q.1 s.cur.core f.dst q.2.1 q.2.2.1 q.2.2.2 t
      | none =>
        let k := blk s c
        if effective k.1 (ctxOfBlock k.1 s.cur.block) f.x.deadline (coachAbs (coachOf k.1 s.cur.core) f.x.deadline)
            ≤ (ctxOf k.1 (ctxOfBlock k.1 s.cur.block)).ctime then
          coachEnds k.1 s.cur.core f.dst (late s c).1 (late s c).2 none t
        else coachBlocks k.1 f k.2 t
    else t = s

end Sys2Proof.Safety
end

