-- ==== Sys2Proof/Certificates/Slice0/Obligations.lean ====
section
/-!
DEFINITION. The statements for the provers.
-/

open Sys2Proof Sys2Proof.Machine Sys2Proof.Safety

/-! ### Integer forms on the cores (05) -/

/-- 05 R107: `IADD`, `ISUB` and `IADD3` write the sum, wrapped to 32 bits; with `SAT` the exact sum of all terms is
clamped to the range that `.u` selects. Nothing else of the bundle's threads or of the machine changes.

05 R108: `ADDC` adds with the carry in its modifiers select and writes the sum; the predicate selected takes the
carry out of bit 31, every other predicate stays, and a false guard changes no register and no predicate. Carry-in
bit 3 together with a carry select is no legal form.

Completion: `exec i s` answers a next state, under conditions on `s` and the operands alone, for `iadd`, `iadd3`,
`isub`, `addc`. -/
def Obligations.AddSubtract : Prop :=
  ((∀ f, wordResult (.iadd f) f.x.guard f.dst fun _ t =>
     let a := srcWord t .a f.a
     let b := srcWord t .b f.b
     if !f.x.sat then a + b
     else if f.bit 0 then BitVec.ofNat 32 (min (2 ^ 32 - 1) (a.toNat + b.toNat))
     else BitVec.ofInt 32 (max (-2 ^ 31) (min (2 ^ 31 - 1) (a.toInt + b.toInt))))
   ∧ (∀ f, wordResult (.isub f) f.x.guard f.dst fun _ t =>
     let a := srcWord t .a f.a
     let b := srcWord t .b f.b
     if !f.x.sat then a - b
     else if f.bit 0 then BitVec.ofNat 32 (a.toNat - b.toNat)
     else BitVec.ofInt 32 (max (-2 ^ 31) (min (2 ^ 31 - 1) (a.toInt - b.toInt))))
   ∧ (∀ f, wordResult (.iadd3 f) f.x.guard f.dst fun _ t =>
     let a := srcWord t .a f.a
     let b := srcWord t .b f.b
     let c := srcWord t .c f.x.srcC
     let neg (k : Nat) (x : Int) : Int := if f.bit k then -x else x
     if !f.x.sat then (if f.bit 1 then -a else a) + (if f.bit 2 then -b else b) + (if f.bit 3 then -c else c)
     else if f.bit 0 then
       BitVec.ofInt 32 (max 0 (min (2 ^ 32 - 1) (neg 1 a.toNat + neg 2 b.toNat + neg 3 c.toNat)))
     else
       BitVec.ofInt 32 (max (-2 ^ 31) (min (2 ^ 31 - 1) (neg 1 a.toInt + neg 2 b.toInt + neg 3 c.toInt)))))
  ∧ (∀ f, laneForm (.addc f) fun s _ t t' =>
     let cin := if f.bit 3 then true else if f.field 2 0 = 0 then false else t.regs.pred (f.field 2 0 - 1)
     let sum := (srcWord t .a f.a).toNat + (srcWord t .b f.b).toNat + cin.toNat
     if guardOn f.x.guard t.regs then
       (∀ m, t'.regs.get m = if destReg t f.dst = some m then BitVec.ofNat 32 sum else t.regs.get m)
       ∧ (∀ k, t'.regs.getLatch k =
           if k = s.cur.pos % 4 then (BitVec.ofNat 32 sum).setWidth 64 else t.regs.getLatch k)
       ∧ (∀ n, n < 7 → t'.regs.pred n = if n + 1 = f.field 6 4 then decide (2 ^ 32 ≤ sum) else t.regs.pred n)
       ∧ freshens (fun m => destReg t f.dst = some m) t.regs t'.regs ∧ sameButRegs t t'
     else skippedWord (s.cur.pos % 4) f.dst t t')
  ∧ (∀ f : FormA, f.bit 3 = true → f.field 2 0 ≠ 0 → (Instr.addc f).wf .core = false)

/-- 05 R109: `IMUL`, `IMULH`, `IMAD` and `IMADW` from the exact product of the operands read as `.u` says.
An odd register for a pair of `IMADW` is no legal form.

Completion: `exec i s` answers a next state, under conditions on `s` and the operands alone, for `imul`, `imulh`,
`imad`, `imadw`. -/
def Obligations.Multiply : Prop :=
  let rd (f : FormA) (x : Word) : Int := if f.bit 0 then (x.toNat : Int) else x.toInt
  let clamp (f : FormA) (w : Nat) (x : Int) : Int :=
    if f.bit 0 then max 0 (min (2 ^ w - 1) x) else max (-2 ^ (w - 1)) (min (2 ^ (w - 1) - 1) x)
  (∀ f, wordResult (.imul f) f.x.guard f.dst fun _ t =>
    if !f.x.sat then srcWord t .a f.a * srcWord t .b f.b
    else BitVec.ofInt 32 (clamp f 32 (rd f (srcWord t .a f.a) * rd f (srcWord t .b f.b))))
  ∧ (∀ f, wordResult (.imulh f) f.x.guard f.dst fun _ t =>
    BitVec.ofInt 32 (rd f (srcWord t .a f.a) * rd f (srcWord t .b f.b) / 2 ^ 32))
  ∧ (∀ f, wordResult (.imad f) f.x.guard f.dst fun _ t =>
    if !f.x.sat then srcWord t .a f.a * srcWord t .b f.b + srcWord t .c f.x.srcC
    else BitVec.ofInt 32
      (clamp f 32 (rd f (srcWord t .a f.a) * rd f (srcWord t .b f.b) + rd f (srcWord t .c f.x.srcC))))
  ∧ (∀ f, pairResult (.imadw f) f.x.guard f.dst fun _ t =>
    let c := srcPair t .c f.x.srcC
    let x := rd f (srcWord t .a f.a) * rd f (srcWord t .b f.b) + (if f.bit 0 then (c.toNat : Int) else c.toInt)
    BitVec.ofInt 64 (if f.x.sat then clamp f 64 x else x))
  ∧ (∀ (f : FormA) (n : BitVec 7), n.toNat % 2 = 1 → f.dst = .reg n ∨ f.x.srcC = .reg n →
      (Instr.imadw f).wf .core = false)

/-- 05 R110: the smaller, the larger, the absolute value and the negation; −2^31 stays itself, or with `SAT` gives
2^31 − 1.

Completion: `exec i s` answers a next state, under conditions on `s` and the operands alone, for `imin`, `imax`,
`iabs`, `ineg`. -/
def Obligations.MinMaxAbsNegate : Prop :=
  (∀ f, wordResult (.imin f) f.x.guard f.dst fun _ t =>
    let a := srcWord t .a f.a
    let b := srcWord t .b f.b
    if (if f.bit 0 then a.ule b else a.sle b) then a else b)
  ∧ (∀ f, wordResult (.imax f) f.x.guard f.dst fun _ t =>
    let a := srcWord t .a f.a
    let b := srcWord t .b f.b
    if (if f.bit 0 then b.ule a else b.sle a) then a else b)
  ∧ (∀ f, wordResult (.iabs f) f.x.guard f.dst fun _ t =>
    let a := srcWord t .a f.a
    if f.x.sat && a == 0x80000000 then 0x7FFFFFFF else if a.slt 0 then -a else a)
  ∧ (∀ f, wordResult (.ineg f) f.x.guard f.dst fun _ t =>
    let a := srcWord t .a f.a
    if f.x.sat && a == 0x80000000 then 0x7FFFFFFF else -a)

/-- 05 R111: the bitwise forms; bit i of `LOGT` is the table bit that the sources' bits i index, a the lowest.

05 R112: shifts by an amount clamped to 32, or taken mod 32 with `.wrap`; the funnel shift by a signed amount; the
rotation.

Completion: `exec i s` answers a next state, under conditions on `s` and the operands alone, for `andL`, `orL`,
`xorL`, `notL`, `logt`, `shl`, `shr`, `sar`, `fsh`, `rotl`. -/
def Obligations.LogicAndShifts : Prop :=
  ((∀ f, wordResult (.andL f) f.x.guard f.dst fun _ t => srcWord t .a f.a &&& srcWord t .b f.b)
   ∧ (∀ f, wordResult (.orL f) f.x.guard f.dst fun _ t => srcWord t .a f.a ||| srcWord t .b f.b)
   ∧ (∀ f, wordResult (.xorL f) f.x.guard f.dst fun _ t => srcWord t .a f.a ^^^ srcWord t .b f.b)
   ∧ (∀ f, wordResult (.notL f) f.x.guard f.dst fun _ t => ~~~(srcWord t .a f.a))
   ∧ (∃ val : FormA → Thread → Word,
       (∀ f, wordResult (.logt f) f.x.guard f.dst fun _ t => val f t)
       ∧ ∀ f t i, i < 32 → (val f t).getLsbD i =
           (f.field 7 0).testBit (((srcWord t .a f.a).getLsbD i).toNat + 2 * ((srcWord t .b f.b).getLsbD i).toNat
             + 4 * ((srcWord t .c f.x.srcC).getLsbD i).toNat)))
  ∧ (let amount (f : FormA) (n : Word) : Nat := if f.bit 0 then n.toNat % 32 else min n.toNat 32
   (∀ f, wordResult (.shl f) f.x.guard f.dst fun _ t => srcWord t .a f.a <<< amount f (srcWord t .b f.b))
   ∧ (∀ f, wordResult (.shr f) f.x.guard f.dst fun _ t => srcWord t .a f.a >>> amount f (srcWord t .b f.b))
   ∧ (∀ f, wordResult (.sar f) f.x.guard f.dst fun _ t =>
       (srcWord t .a f.a).sshiftRight (amount f (srcWord t .b f.b)))
   ∧ (∀ f, wordResult (.rotl f) f.x.guard f.dst fun _ t =>
       (srcWord t .a f.a).rotateLeft ((srcWord t .b f.b).toNat % 32))
   ∧ (∀ f, wordResult (.fsh f) f.x.guard f.dst fun _ t =>
       let n := (srcWord t .c f.x.srcC).toInt
       let k := if f.bit 0 then (n + 32) % 64 - 32 else max (-32) (min 32 n)
       let w : BitVec 64 := (srcWord t .b f.b).append (srcWord t .a f.a)
       if 0 ≤ k then (w <<< k.toNat).extractLsb' 32 32 else (w >>> (-k).toNat).setWidth 32))

/-- 05 R113 to R115: bit fields, bit counts, bit reversal and byte permutation. A byte permutation by register with
selectors in its modifiers is no legal form.

Completion: `exec i s` answers a next state, under conditions on `s` and the operands alone, for `bfx`, `bfi`, `popc`,
`clz`, `ctz`, `brev`, `bsel`. -/
def Obligations.BitsAndBytes : Prop :=
  let pos (x : Word) : Nat := min (x.toNat % 256) 32
  let len (x : Word) : Nat := min (x.toNat / 256 % 256) (32 - pos x)
  (∀ f, wordResult (.bfx f) f.x.guard f.dst fun _ t =>
    let a := srcWord t .a f.a
    let q := srcWord t .b f.b
    let x := a.toNat / 2 ^ pos q % 2 ^ len q
    if f.bit 0 ∧ 0 < len q ∧ 2 ^ (len q - 1) ≤ x then BitVec.ofInt 32 ((x : Int) - 2 ^ len q) else BitVec.ofNat 32 x)
  ∧ (∃ val : FormA → Thread → Word,
      (∀ f, wordResult (.bfi f) f.x.guard f.dst fun _ t => val f t)
      ∧ ∀ f t i, i < 32 → (val f t).getLsbD i =
          let q := srcWord t .c f.x.srcC
          if pos q ≤ i ∧ i < pos q + len q then (srcWord t .a f.a).getLsbD (i - pos q) else (srcWord t .b f.b).getLsbD i)
  ∧ (∀ f, wordResult (.popc f) f.x.guard f.dst fun _ t =>
      BitVec.ofNat 32 ((List.range 32).countP fun i => (srcWord t .a f.a).getLsbD i))
  ∧ (∃ val : FormA → Thread → Nat,
      (∀ f, wordResult (.clz f) f.x.guard f.dst fun _ t => BitVec.ofNat 32 (val f t))
      ∧ ∀ f t, val f t ≤ 32 ∧ (∀ i, 32 - val f t ≤ i → (srcWord t .a f.a).getLsbD i = false)
          ∧ (val f t < 32 → (srcWord t .a f.a).getLsbD (31 - val f t) = true))
  ∧ (∃ val : FormA → Thread → Nat,
      (∀ f, wordResult (.ctz f) f.x.guard f.dst fun _ t => BitVec.ofNat 32 (val f t))
      ∧ ∀ f t, val f t ≤ 32 ∧ (∀ i, i < val f t → (srcWord t .a f.a).getLsbD i = false)
          ∧ (val f t < 32 → (srcWord t .a f.a).getLsbD (val f t) = true))
  ∧ (∀ f, wordResult (.brev f) f.x.guard f.dst fun _ t => (srcWord t .a f.a).reverse)
  ∧ (∃ val : FormA → Thread → Word,
      (∀ f, wordResult (.bsel f) f.x.guard f.dst fun _ t => val f t)
      ∧ ∀ f t j, j < 4 →
          let ba : BitVec 64 := (srcWord t .b f.b).append (srcWord t .a f.a)
          let c := ((srcWord t .c f.x.srcC).toNat / 256 ^ j) % 256
          let sel := if f.bit 12 then c % 8 else f.field 11 0 / 8 ^ j % 8
          let fill := if f.bit 12 then c / 8 % 4 else 0
          let byte := ba.extractLsb' (8 * sel) 8
          (val f t).extractLsb' (8 * j) 8 =
            if fill = 0 then byte else if fill = 1 then 0
            else if fill = 2 then (if byte.getLsbD 7 then 0xFF else 0) else 0xFF)
  ∧ (∀ f : FormA, f.bit 12 = true → f.field 11 0 ≠ 0 → (Instr.bsel f).wf .core = false)

/-- 05 R116 to R118: a comparison goes to a predicate, or with `.r` as 1 or 0 to a register; `SEL` chooses by a
predicate; `PLOP` combines three predicates through its table. Conditions 6 and 7 are no legal form.

Completion: `exec i s` answers a next state, under conditions on `s` and the operands alone, for `iset`, `sel`,
`plop`. -/
def Obligations.CompareSelect : Prop :=
  let holds (f : FormA) (t : Thread) : Bool :=
    let a := srcWord t .a f.a
    let b := srcWord t .b f.b
    match f.field 3 1 with
    | 0 => a == b
    | 1 => a != b
    | 2 => if f.bit 0 then a.ult b else a.slt b
    | 3 => if f.bit 0 then a.ule b else a.sle b
    | 4 => if f.bit 0 then b.ult a else b.slt a
    | _ => if f.bit 0 then b.ule a else b.sle a
  (∀ f : FormA, f.bit 4 = true → wordResult (.iset f) f.x.guard f.dst fun _ t => if holds f t then 1 else 0)
  ∧ (∀ f : FormA, f.bit 4 = false → predResult (.iset f) f.x.guard f.dst fun _ t => holds f t)
  ∧ (∀ f, wordResult (.sel f) f.x.guard f.dst fun _ t =>
      if srcPred t f.x.srcC then srcWord t .a f.a else srcWord t .b f.b)
  ∧ (∀ f, predResult (.plop f) f.x.guard f.dst fun _ t =>
      (f.field 7 0).testBit ((srcPred t f.a).toNat + 2 * (srcPred t f.b).toNat + 4 * (srcPred t f.x.srcC).toNat))
  ∧ (∀ f : FormA, 6 ≤ f.field 3 1 → (Instr.iset f).wf .core = false)

/-- 05 R119, R120: moves and scaled addresses. `MOVH` writes the high register of a pair and leaves the low one.

Completion: `exec i s` answers a next state, under conditions on `s` and the operands alone, for `mov`, `movi`,
`movh`, `lea`, `leaw`. -/
def Obligations.MovesAndAddresses : Prop :=
  (∀ f, wordResult (.mov f) f.x.guard f.dst fun _ t => srcWord t .a f.a)
  ∧ (∀ f, wordResult (.movi f) ⟨false, 0⟩ f.dst fun _ _ => f.imm)
  ∧ (∀ f, laneForm (.movh f) fun s _ t t' =>
      (∀ m, t'.regs.get m = if (destReg t f.dst).map (· + 1) = some m then f.imm else t.regs.get m)
      ∧ (∀ k, t'.regs.getLatch k = if k = s.cur.pos % 4 then f.imm.setWidth 64 else t.regs.getLatch k)
      ∧ freshens (fun m => (destReg t f.dst).map (· + 1) = some m) t.regs t'.regs
      ∧ t'.regs.p = t.regs.p ∧ sameButRegs t t')
  ∧ (∀ f, wordResult (.lea f) f.x.guard f.dst fun _ t =>
      srcWord t .a f.a + (srcWord t .b f.b <<< f.field 4 0))
  ∧ (∀ f, pairResult (.leaw f) f.x.guard f.dst fun _ t =>
      let b := srcWord t .b f.b
      srcPair t .a f.a + ((if f.bit 5 then b.signExtend 64 else b.setWidth 64) <<< f.field 4 0))

/-- 14 R334, 03 R73: the arithmetic, logic, shift, bit-field, compare and move forms on the Coachman, at 64 bits on
m registers and its own latches; a carry select names an m register.

Completion: `exec i s` answers a next state, under conditions on `s` and the operands alone, for `iadd`, `iadd3`,
`isub`, `addc`, `imul`, `imulh`, `imad`, `imin`, `imax`, `andL`, `orL`, `xorL`, `notL`, `shl`, `shr`, `sar`, `bfx`,
`bfi`, `popc`, `clz`, `ctz`, `iset`, `mov`, `movi`, `movh`, `lea`. -/
def Obligations.CoachmanForms : Prop :=
  let rd (f : FormA) (x : DWord) : Int := if f.bit 0 then (x.toNat : Int) else x.toInt
  let fin (f : FormA) (x : Int) : DWord :=
    BitVec.ofInt 64 (if !f.x.sat then x
      else if f.bit 0 then max 0 (min (2 ^ 64 - 1) x) else max (-2 ^ 63) (min (2 ^ 63 - 1) x))
  let neg (f : FormA) (k : Nat) (x : Int) : Int := if f.bit k then -x else x
  let amount (f : FormA) (n : DWord) : Nat := if f.bit 0 then n.toNat % 64 else min n.toNat 64
  let pos (x : DWord) : Nat := min (x.toNat % 256) 64
  let len (x : DWord) : Nat := min (x.toNat / 256 % 256) (64 - pos x)
  let on (i : FormA → Instr) (val : FormA → DWord → DWord → DWord → DWord) : Prop :=
    ∀ f : FormA, coachResult (i f) f.x.guard f.dst fun _ c => val f (srcCoach c f.a) (srcCoach c f.b) (srcCoach c f.x.srcC)
  on .iadd (fun f a b _ => fin f (rd f a + rd f b))
  ∧ on .isub (fun f a b _ => fin f (rd f a - rd f b))
  ∧ on .iadd3 (fun f a b c => fin f (neg f 1 (rd f a) + neg f 2 (rd f b) + neg f 3 (rd f c)))
  ∧ on .imul (fun f a b _ => fin f (rd f a * rd f b))
  ∧ on .imulh (fun f a b _ => BitVec.ofInt 64 (rd f a * rd f b / 2 ^ 64))
  ∧ on .imad (fun f a b c => fin f (rd f a * rd f b + rd f c))
  ∧ on .imin (fun f a b _ => if rd f a ≤ rd f b then a else b)
  ∧ on .imax (fun f a b _ => if rd f b ≤ rd f a then a else b)
  ∧ on .andL (fun _ a b _ => a &&& b) ∧ on .orL (fun _ a b _ => a ||| b) ∧ on .xorL (fun _ a b _ => a ^^^ b)
  ∧ on .notL (fun _ a _ _ => ~~~a) ∧ on .mov (fun _ a _ _ => a)
  ∧ on .shl (fun f a b _ => a <<< amount f b) ∧ on .shr (fun f a b _ => a >>> amount f b)
  ∧ on .sar (fun f a b _ => a.sshiftRight (amount f b))
  ∧ on .lea (fun f a b _ => a + (b <<< f.field 4 0))
  ∧ on .popc (fun _ a _ _ => BitVec.ofNat 64 ((List.range 64).countP fun i => a.getLsbD i))
  ∧ on .bfx (fun f a q _ =>
      let x := a.toNat / 2 ^ pos q % 2 ^ len q
      if f.bit 0 ∧ 0 < len q ∧ 2 ^ (len q - 1) ≤ x then BitVec.ofInt 64 ((x : Int) - 2 ^ len q)
      else BitVec.ofNat 64 x)
  ∧ (∃ val : DWord → DWord → DWord → DWord, on .bfi (fun _ => val)
      ∧ ∀ a b q i, i < 64 → (val a b q).getLsbD i =
          if pos q ≤ i ∧ i < pos q + len q then a.getLsbD (i - pos q) else b.getLsbD i)
  ∧ (∃ val : DWord → Nat, on .clz (fun _ a _ _ => BitVec.ofNat 64 (val a))
      ∧ ∀ a, val a ≤ 64 ∧ (∀ i, 64 - val a ≤ i → a.getLsbD i = false)
          ∧ (val a < 64 → a.getLsbD (63 - val a) = true))
  ∧ (∃ val : DWord → Nat, on .ctz (fun _ a _ _ => BitVec.ofNat 64 (val a))
      ∧ ∀ a, val a ≤ 64 ∧ (∀ i, i < val a → a.getLsbD i = false) ∧ (val a < 64 → a.getLsbD (val a) = true))
  ∧ (∀ f : FormA, f.bit 4 = true → coachResult (.iset f) f.x.guard f.dst fun _ c =>
      let a := rd f (srcCoach c f.a)
      let b := rd f (srcCoach c f.b)
      let holds : Bool := match f.field 3 1 with
        | 0 => a == b
        | 1 => a != b
        | 2 => decide (a < b)
        | 3 => decide (a ≤ b)
        | 4 => decide (b < a)
        | _ => decide (b ≤ a)
      if holds then 1 else 0)
  ∧ (∀ f, coachResult (.movi f) ⟨false, 0⟩ f.dst fun _ _ => f.imm.setWidth 64)
  ∧ (∀ f, coachResult (.movh f) ⟨false, 0⟩ f.dst fun _ c =>
      f.imm.append (match f.dst with
        | .reg n => (c.get n.toNat).setWidth 32
        | .suppress => (0 : Word)))
  ∧ (∀ (f : FormA) (s : State), s.cur.agent = .coachman → answers (.addc f) s fun t =>
      let c := coachOf s s.cur.core
      let c' := coachOf t s.cur.core
      let cin := if f.bit 3 then true else if f.field 2 0 = 0 then false else c.get (f.field 2 0 - 1) != 0
      let sum := (srcCoach c f.a).toNat + (srcCoach c f.b).toNat + cin.toNat
      (∀ m, c'.get m =
          if guardCoach f.x.guard c = true ∧ m + 1 = f.field 6 4 then (if 2 ^ 64 ≤ sum then 1 else 0)
          else if guardCoach f.x.guard c = true ∧ f.dst = .reg (BitVec.ofNat 7 m) ∧ m < 128 then BitVec.ofNat 64 sum
          else c.get m)
      ∧ (guardCoach f.x.guard c = true → ∀ k, mgetD c'.latch k 0 =
          if k = s.cur.pos % 4 then BitVec.ofNat 64 sum else mgetD c.latch k 0)
      ∧ c' = { c with m := c'.m, latch := c'.latch } ∧ (∀ h, h ≠ s.cur.core → coachOf t h = coachOf s h)
      ∧ t = { s with coaches := t.coaches })

/-! ### Floating forms and lane exchange (07) -/

/-- 07 R149, R150, 06 R124: the F32 forms round the exact result once; a NaN operand gives the canonical NaN, and
`FMIN` and `FMAX` return the other operand unchanged.

Completion: `exec i s` answers a next state, under conditions on `s` and the operands alone, for `fadd`, `fsub`,
`fmul`, `ffma`, `fmin`, `fmax`. -/
def Obligations.FloatArithmetic : Prop :=
  let rd (x : Word) : FVal := readFmt .f32 x.toNat
  (∀ f, wordResult (.fadd f) f.x.guard f.dst fun _ t =>
    if (rd (operandA f t)).isNan || (rd (operandB f t)).isNan then 0x7FC00000
    else BitVec.ofNat 32 (roundVal .f32 f.x.rnd f.x.sat (addVal f.x.rnd (rd (operandA f t)) (rd (operandB f t)))))
  ∧ (∀ f, wordResult (.fsub f) f.x.guard f.dst fun _ t =>
    if (rd (operandA f t)).isNan || (rd (operandB f t)).isNan then 0x7FC00000
    else BitVec.ofNat 32
      (roundVal .f32 f.x.rnd f.x.sat (addVal f.x.rnd (rd (operandA f t)) (rd (operandB f t)).negV)))
  ∧ (∀ f, wordResult (.fmul f) f.x.guard f.dst fun _ t =>
    if (rd (operandA f t)).isNan || (rd (operandB f t)).isNan then 0x7FC00000
    else BitVec.ofNat 32 (roundVal .f32 f.x.rnd f.x.sat (mulVal (rd (operandA f t)) (rd (operandB f t)))))
  ∧ (∀ f, wordResult (.ffma f) f.x.guard f.dst fun _ t =>
    let p := mulVal (rd (operandA f t)) (rd (operandB f t))
    if p.isNan || (rd (operandC f t)).isNan then 0x7FC00000
    else BitVec.ofNat 32 (roundVal .f32 f.x.rnd f.x.sat (addVal f.x.rnd p (rd (operandC f t)))))
  ∧ (∀ f, wordResult (.fmin f) f.x.guard f.dst fun _ t =>
    let a := operandA f t
    let b := operandB f t
    if (rd a).isNan && (rd b).isNan then 0x7FC00000 else if (rd a).isNan then b else if (rd b).isNan then a
    else if ltVal (rd a) (rd b) || (eqVal (rd a) (rd b) && a.getLsbD 31) then a else b)
  ∧ (∀ f, wordResult (.fmax f) f.x.guard f.dst fun _ t =>
    let a := operandA f t
    let b := operandB f t
    if (rd a).isNan && (rd b).isNan then 0x7FC00000 else if (rd a).isNan then b else if (rd b).isNan then a
    else if ltVal (rd b) (rd a) || (eqVal (rd a) (rd b) && !a.getLsbD 31) then a else b)

/-- 07 R151 to R153, R157 to R159: comparison, rounding to an integral value, classification and conversions. A NaN
compares false in every condition but `.ne` and `.nan`, and converts to the integer 0.

Completion: `exec i s` answers a next state, under conditions on `s` and the operands alone, for `fset`, `frnd`,
`fclass`, `f2i`, `i2f`, `f2f`. -/
def Obligations.FloatCompareConvert : Prop :=
  let rd (x : Word) : FVal := readFmt .f32 x.toNat
  let holds (f : FormA) (t : Thread) : Bool :=
    let a := rd (operandA f t)
    let b := rd (operandB f t)
    if a.isNan || b.isNan then f.field 3 1 == 1 || f.field 3 1 == 7
    else match f.field 3 1 with
      | 0 => eqVal a b
      | 1 => !eqVal a b
      | 2 => ltVal a b
      | 3 => !ltVal b a
      | 4 => ltVal b a
      | 5 => !ltVal a b
      | 6 => true
      | _ => false
  let fmt (c : Nat) : Fmt := if c = 0 then .f32 else if c = 1 then .h16 else .bf16
  let src (f : FormA) (c : Nat) (hi : Bool) (t : Thread) : Nat :=
    if c = 0 then (srcF32 t .a f.a).toNat else half (srcPacked (fmt c) t .a f.a) hi.toNat
  (∀ f : FormA, f.bit 4 = true → wordResult (.fset f) f.x.guard f.dst fun _ t => if holds f t then 1 else 0)
  ∧ (∀ f : FormA, f.bit 4 = false → predResult (.fset f) f.x.guard f.dst fun _ t => holds f t)
  ∧ (∀ f, wordResult (.frnd f) f.x.guard f.dst fun _ t =>
      BitVec.ofNat 32 (roundIntegral f.x.rnd (operandA f t).toNat))
  ∧ (∀ f, wordResult (.fclass f) f.x.guard f.dst fun _ t =>
      BitVec.ofNat 32 (2 ^ classBit (fmt (f.field 1 0)) (src f (f.field 1 0) (f.bit 2) t)))
  ∧ (∀ f : FormA, f.bit 1 = false → wordResult (.f2i f) f.x.guard f.dst fun _ t =>
      match readFmt (fmt (f.field 3 2)) (src f (f.field 3 2) (f.bit 4) t) with
      | .nan => 0
      | v => BitVec.ofInt 32 (valToInt f.x.rnd (itypeMin (f.field 1 0)) (itypeMax (f.field 1 0)) v))
  ∧ (∀ f : FormA, f.bit 1 = true → pairResult (.f2i f) f.x.guard f.dst fun _ t =>
      match readFmt (fmt (f.field 3 2)) (src f (f.field 3 2) (f.bit 4) t) with
      | .nan => 0
      | v => BitVec.ofInt 64 (valToInt f.x.rnd (itypeMin (f.field 1 0)) (itypeMax (f.field 1 0)) v))
  ∧ (∀ f, wordResult (.i2f f) f.x.guard f.dst fun _ t =>
      let x : Int := match f.field 1 0 with
        | 0 => (srcWord t .a f.a).toInt
        | 1 => (srcWord t .a f.a).toNat
        | 2 => (srcPair t .a f.a).toInt
        | _ => (srcPair t .a f.a).toNat
      BitVec.ofNat 32 (roundVal (fmt (f.field 3 2)) f.x.rnd f.x.sat (intToVal x)))
  ∧ (∀ f, wordResult (.f2f f) f.x.guard f.dst fun _ t =>
      BitVec.ofNat 32 (roundVal (fmt (f.field 3 2)) f.x.rnd f.x.sat
        (readFmt (fmt (f.field 1 0)) (src f (f.field 1 0) (f.bit 4) t))))

/-- 07 R154: the packed forms compute each half on its own, in H16 or BF16, with one rounding.

Completion: `exec i s` answers a next state, under conditions on `s` and the operands alone, for `hadd2`, `hmul2`,
`hfma2`, `hmin2`, `hmax2`, `badd2`, `bmul2`, `bfma2`. -/
def Obligations.PackedArithmetic : Prop :=
  let both (k : Fmt) (f : FormA) (t : Thread) (op : FVal → FVal → FVal → FVal) : Word :=
    let one (j : Nat) : Nat :=
      roundVal k f.x.rnd f.x.sat (op (readFmt k (half (packedA k f t) j)) (readFmt k (half (packedB k f t) j))
        (readFmt k (half (packedC k f t) j)))
    packHalves (one 0) (one 1)
  (∀ f, wordResult (.hadd2 f) f.x.guard f.dst fun _ t => both .h16 f t fun a b _ => addVal f.x.rnd a b)
  ∧ (∀ f, wordResult (.hmul2 f) f.x.guard f.dst fun _ t => both .h16 f t fun a b _ => mulVal a b)
  ∧ (∀ f, wordResult (.hfma2 f) f.x.guard f.dst fun _ t => both .h16 f t fun a b c => addVal f.x.rnd (mulVal a b) c)
  ∧ (∀ f, wordResult (.badd2 f) f.x.guard f.dst fun _ t => both .bf16 f t fun a b _ => addVal f.x.rnd a b)
  ∧ (∀ f, wordResult (.bmul2 f) f.x.guard f.dst fun _ t => both .bf16 f t fun a b _ => mulVal a b)
  ∧ (∀ f, wordResult (.bfma2 f) f.x.guard f.dst fun _ t => both .bf16 f t fun a b c => addVal f.x.rnd (mulVal a b) c)
  ∧ (∀ f, wordResult (.hmin2 f) f.x.guard f.dst fun _ t =>
      packHalves (fminFmt .h16 (half (packedA .h16 f t) 0) (half (packedB .h16 f t) 0))
        (fminFmt .h16 (half (packedA .h16 f t) 1) (half (packedB .h16 f t) 1)))
  ∧ (∀ f, wordResult (.hmax2 f) f.x.guard f.dst fun _ t =>
      packHalves (fmaxFmt .h16 (half (packedA .h16 f t) 0) (half (packedB .h16 f t) 0))
        (fmaxFmt .h16 (half (packedA .h16 f t) 1) (half (packedB .h16 f t) 1)))

/-- 07 R148, R155, R160 to R162: the class-1 forms write their result in the clause and leave it in flight until it
lands. The exact cases of `FRCP`, `FRSQ`, `FSQRT`, `FEX2`, `FLG2`, `FSIN`, `FCOS` and `FTANH` on NaN give the canonical
NaN.

Completion: `exec i s` answers a next state, under conditions on `s` and the operands alone, for `frcp`, `frsq`,
`fsqrt`, `fex2`, `flg2`, `fsin`, `fcos`, `ftanh`, `cvt8`, `cvt4`, `cvtl`, `scv`. -/
def Obligations.SpecialFunctions : Prop :=
  let a (f : FormA) (t : Thread) : Word := operandA f t
  let isNan (x : Word) : Bool := (readFmt .f32 x.toNat).isNan
  (∀ f, landsLater (.frcp f) f fun t =>
    if isNan (a f t) then 0x7FC00000 else BitVec.ofNat 32 (frcpV f.x.rnd f.x.sat (readFmt .f32 (a f t).toNat)))
  ∧ (∀ f, landsLater (.frsq f) f fun t => if isNan (a f t) then 0x7FC00000 else BitVec.ofNat 32 (frsqV (a f t)))
  ∧ (∀ f, landsLater (.fsqrt f) f fun t =>
    if isNan (a f t) then 0x7FC00000 else BitVec.ofNat 32 (fsqrtV f.x.rnd (readFmt .f32 (a f t).toNat)))
  ∧ (∀ f, landsLater (.fex2 f) f fun t => if isNan (a f t) then 0x7FC00000 else BitVec.ofNat 32 (fex2V (a f t)))
  ∧ (∀ f, landsLater (.flg2 f) f fun t => if isNan (a f t) then 0x7FC00000 else BitVec.ofNat 32 (flg2V (a f t)))
  ∧ (∀ f, landsLater (.fsin f) f fun t => if isNan (a f t) then 0x7FC00000 else BitVec.ofNat 32 (fsinV (a f t)))
  ∧ (∀ f, landsLater (.fcos f) f fun t => if isNan (a f t) then 0x7FC00000 else BitVec.ofNat 32 (fcosV (a f t)))
  ∧ (∀ f, landsLater (.ftanh f) f fun t => if isNan (a f t) then 0x7FC00000 else BitVec.ofNat 32 (ftanhV (a f t)))
  ∧ (∀ f, landsLater (.cvt8 f) f (cvtLane (narrowFmt (if f.bit 1 then .e5m2 else .e4m3) 4) f))
  ∧ (∀ f, landsLater (.cvt4 f) f (cvtLane (narrowFmt .e2m1 8) f))
  ∧ (∀ f, landsLater (.cvtl f) f (cvtLane narrowL6 f))
  ∧ (∀ f, landsLater (.scv f) f (scvLane f))

/-- 07 R163 to R165: `SHFL` reads the lane its mode names where it lies in the segment and participates, else the
lane's own value; `VOTE` over the participating lanes.

07 R166 to R169: `REDUX` combines over the fixed tree, `PSCAN` left to right, a floating result that is a NaN being the
canonical one (R147), and `MATCH` gives each lane the mask
of the lanes with its value, or that group's leader, size and the lane's rank. Modes, segments and operations that no
rule assigns are no legal form.

Completion: `exec i s` answers a next state, under conditions on `s` and the operands alone, for `shfl`, `vote`,
`redux`, `pscan`, `matchLanes`. -/
def Obligations.CrossLane : Prop :=
  ((∀ f, wordResult (.shfl f) f.x.guard f.dst fun s t =>
     let seg := 32 / 2 ^ f.field 5 3
     let lane := t.ctl.lane
     let base := lane - lane % seg
     let k := (srcWord t .b f.b).toNat
     let target : Int := match f.field 2 0 with
       | 0 => (base + Nat.xor (lane - base) (k % seg) : Nat)
       | 1 => (lane : Int) + k
       | 2 => (lane : Int) - k
       | 3 => (base + k % seg : Nat)
       | _ => (base + (lane - base + k) % seg : Nat)
     if target < base ∨ (base : Int) + seg ≤ target then srcWord t .a f.a
     else ((laneAt s f.x.guard target.toNat).map fun o => srcWord o .a f.a).getD (srcWord t .a f.a))
   ∧ (∃ mask : FormA → State → Word,
       (∀ f : FormA, f.field 1 0 = 0 → wordResult (.vote f) f.x.guard f.dst fun s _ => mask f s)
       ∧ ∀ f s i, i < 32 → (mask f s).getLsbD i =
           ((laneAt s f.x.guard i).map fun o => srcPred o f.a != f.bit 2).getD false)
   ∧ (∀ f : FormA, f.field 1 0 ≠ 0 → predResult (.vote f) f.x.guard f.dst fun s _ =>
       let ps := (participants s f.x.guard fun o => srcPred o f.a != f.bit 2).map Prod.snd
       match f.field 1 0 with
       | 1 => ps.any (· == true)
       | 2 => ps.all (· == true)
       | _ => ps.all (· == true) || ps.all (· == false)))
  ∧ (let src (f : FormA) (t : Thread) : Word := if f.field 3 0 < 8 then srcWord t .a f.a else srcF32 t .a f.a
   let canonical (f : FormA) (w : Word) : Word :=
     if 8 ≤ f.field 3 0 ∧ 0x7F800000 < w.toNat % 2 ^ 31 then 0x7FC00000 else w
   (∀ f, wordResult (.redux f) f.x.guard f.dst fun s _ => canonical f
     ((treeNode (combine (f.field 3 0) f.x.rnd) (fun i => (laneAt s f.x.guard i).map (src f)) 5 0).getD 0))
   ∧ (∀ f, wordResult (.pscan f) f.x.guard f.dst fun s t =>
     let below := (participants s f.x.guard (src f)).filter fun p =>
       if f.bit 4 then decide (p.1 < t.ctl.lane) else decide (p.1 ≤ t.ctl.lane)
     match below.map Prod.snd with
     | [] => identityOf (f.field 3 0)
     | x :: r => canonical f (r.foldl (combine (f.field 3 0) f.x.rnd) x))
   ∧ (∃ mask : FormA → State → Thread → Word,
       (∀ f : FormA, f.bit 1 = false → wordResult (.matchLanes f) f.x.guard f.dst fun s t => mask f s t)
       ∧ (∀ f s t i, i < 32 → (mask f s t).getLsbD i =
           ((laneAt s f.x.guard i).map fun o => decide (matchValue f o = matchValue f t)).getD false)
       ∧ ∀ f : FormA, f.bit 1 = true → wordResult (.matchLanes f) f.x.guard f.dst fun s t =>
           let group := (List.range 32).filter fun i => (mask f s t).getLsbD i
           BitVec.ofNat 32 (group.headD 32 + 32 * group.length
             + 2048 * (group.filter fun i => decide (i < t.ctl.lane)).length)))
  ∧ (∀ f : FormA, 5 ≤ f.field 2 0 ∨ 6 ≤ f.field 5 3 → (Instr.shfl f).wf .core = false)
  ∧ (∀ f : FormA, 11 ≤ f.field 3 0 → (Instr.redux f).wf .core = false ∧ (Instr.pscan f).wf .core = false)

/-! ### Memory forms (09, 10) -/

/-- 10 R226, R227, 09 R209, R212: the bytes an access names. A G access that is aligned, below 2^56 and translated
names the bytes from its physical address up; an S access that is aligned and in a valid window names bytes of its
block's scratchpad, or of its core's TOB from offset 800000H up. -/
def Obligations.AddressFormation : Prop :=
  (∀ (s : State) (t : Thread) (n : Need) (a : Src) (off : Int) (size : Nat) (m : Mem) (as : List Nat), 0 < size →
    (planLane s t .globalG n a off size = .names m as ↔
      let va : Int := ((srcPair t .a a).toNat : Int) + off
      va % size = 0 ∧ 0 ≤ va ∧ va < 2 ^ 56 ∧ ∃ p : Place,
        translate s s.cur.core (ctxOfBlock s t.block) va.toNat n = .ok p
        ∧ m = p.mem.1 ∧ as = (List.range size).map (p.mem.2 + ·)))
  ∧ (∀ (s : State) (t : Thread) (n : Need) (a : Src) (off : Int) (size : Nat) (m : Mem) (as : List Nat), 0 < size →
    (planLane s t .scratchS n a off size = .names m as ↔
      let o : Int := ((srcWord t .a a).toNat : Int) + off
      o % size = 0 ∧ 0 ≤ o ∧ o < 2 ^ 24
      ∧ (if o < 0x800000 then
          o + size ≤ 128 * (launchOfBlock s t.block).desc.rows ∧ m = .scratch t.block
            ∧ as = (List.range size).map (o.toNat + ·)
        else
          o - 0x800000 + size ≤ 8192 * (roleBanks (coreOf s s.cur.core) 2).length ∧ m = .tob s.cur.core
            ∧ as = (List.range size).map ((o - 0x800000).toNat + ·))))

/-- 10 R222, R230, R232: the loads put one request per sector in flight, each lane's part with the register its value
comes back to; nothing is read yet.

Completion: `exec i s` answers a next state, under conditions on `s` and the operands alone, for `ldl`, `lds`, `ldc`,
`ldk`, `ldg`, `ldh`. -/
def Obligations.LoadsIssue : Prop :=
  let load (i : LoadForm → Instr) (sp : Space) : Prop := ∀ f, issuesIn (i f) .load sp f.x 0 { read := true } f.a
    f.x.off.toInt fun t r => r.dst = stepReg t.ctl .dst f.dst.toNat ∧ r.writes = []
  load .ldl .laneL ∧ load .lds .scratchS ∧ load .ldc .clusterC ∧ load .ldk .constK ∧ load .ldg .globalG
  ∧ load .ldh .hostH

/-- 10 R231, R232, R245: the stores put one request per sector in flight. A lane's part writes the bytes of its data
source that its mask selects, all of them without a mask. Memory is unchanged until the store is performed.

Completion: `exec i s` answers a next state, under conditions on `s` and the operands alone, for `stl`, `sts`, `stc`,
`stg`, `sth`. -/
def Obligations.StoresIssue : Prop :=
  let store (i : StoreForm → Instr) (sp : Space) : Prop := ∀ f : StoreForm, issuesIn (i f) .store sp f.x 0
    { write := true } f.a f.x.off.toInt fun t r => ∀ p, p ∈ r.writes ↔ ∃ j, r.addrs[j]? = some p.1
      ∧ (f.x.mask = true → (srcWord t .dst f.maskSrc).getLsbD j = true)
      ∧ p.2 = BitVec.ofNat 8 (sourceValue t .b f.x.size f.data / 256 ^ j)
  store .stl .laneL ∧ store .sts .scratchS ∧ store .stc .clusterC ∧ store .stg .globalG ∧ store .sth .hostH

/-- 10 R224, R238, R241: atomics and reductions. The operation is bits 13:9 of the offset field and the offset its
signed bits 8:0; an atomic's part holds the register its old value comes back to and the pair there as the value to
compare.

Completion: `exec i s` answers a next state, under conditions on `s` and the operands alone, for `ats`, `atc`, `atg`,
`ath`, `reds`, `redg`. -/
def Obligations.AtomicsIssue : Prop :=
  let atom (i : AtomForm → Instr) (sp : Space) : Prop := ∀ f : AtomForm, issuesIn (i f) .atomic sp f.x
    (f.x.off.toNat / 512) { read := true, write := true, cached := decide (sp = .hostH) } f.a
    (f.x.off.setWidth 9).toInt
    fun t r => r.dst = stepReg t.ctl .dst f.dst.toNat
      ∧ r.operand = BitVec.ofNat 64 (sourceValue t .b f.x.size f.operand)
      ∧ r.cmp = t.regs.pair (stepReg t.ctl .dst f.dst.toNat)
  let red (i : RedForm → Instr) (sp : Space) : Prop := ∀ f : RedForm, issuesIn (i f) .reduction sp f.x
    (f.x.off.toNat / 512) { read := true, write := true, cached := false } f.a
    (f.x.off.setWidth 9).toInt
    fun t r => r.operand = BitVec.ofNat 64 (sourceValue t .b f.x.size f.operand)
  atom .ats .scratchS ∧ atom .atc .clusterC ∧ atom .atg .globalG ∧ atom .ath .hostH
  ∧ red .reds .scratchS ∧ red .redg .globalG

/-- 10 R227, R228: where a participating lane's address fails a check, the form takes the exception of the earliest
check that fails, of the lowest lane that fails it, and has no other effect. -/
def Obligations.AddressFaults : Prop :=
  let faults (i : Instr) (g : Guard) (plan : State → Thread → Plan) : Prop :=
    ∀ s, s.cur.lanes.Nodup →
      ∀ u th k c a l, u ∈ s.cur.lanes → threadOf s u = some th → guardOn g th.regs = true →
        plan s th = .fails k c a l →
        (∀ v tv k' c' a' l', v ∈ s.cur.lanes → threadOf s v = some tv → guardOn g tv.regs = true →
          plan s tv = .fails k' c' a' l' → k < k' ∨ (k = k' ∧ s.cur.lanes.idxOf u ≤ s.cur.lanes.idxOf v)) →
        ∃ ps, exec i s = .next (deliver s { code := c, pos := s.cur.pos, addr := a, pages := ps })
          ∧ ∀ q ∈ l, ∃ p ∈ ps, p.1 = q.1
  let load (i : LoadForm → Instr) (sp : Space) : Prop := ∀ f, faults (i f) f.x.guard fun s t =>
    planLane s t sp { read := true } f.a f.x.off.toInt (sizeBytes f.x.size)
  let store (i : StoreForm → Instr) (sp : Space) : Prop := ∀ f, faults (i f) f.x.guard fun s t =>
    planLane s t sp { write := true } f.a f.x.off.toInt (sizeBytes f.x.size)
  let atom (i : AtomForm → Instr) (sp : Space) : Prop := ∀ f, faults (i f) f.x.guard fun s t =>
    planLane s t sp { read := true, write := true, cached := decide (sp = .hostH) } f.a (f.x.off.setWidth 9).toInt
      (sizeBytes f.x.size)
  let red (i : RedForm → Instr) (sp : Space) : Prop := ∀ f, faults (i f) f.x.guard fun s t =>
    planLane s t sp { read := true, write := true, cached := false } f.a (f.x.off.setWidth 9).toInt
      (sizeBytes f.x.size)
  let block (i : BlockForm → Instr) (sp : Space) : Prop := ∀ f, faults (i f) f.x.guard fun s t =>
    planLane s t sp { read := true } f.a 0 (sizeBytes f.x.size)
  load .ldl .laneL ∧ load .lds .scratchS ∧ load .ldc .clusterC ∧ load .ldk .constK ∧ load .ldg .globalG
  ∧ load .ldh .hostH
  ∧ store .stl .laneL ∧ store .sts .scratchS ∧ store .stc .clusterC ∧ store .stg .globalG ∧ store .sth .hostH
  ∧ atom .ats .scratchS ∧ atom .atc .clusterC ∧ atom .atg .globalG ∧ atom .ath .hostH
  ∧ red .reds .scratchS ∧ red .redg .globalG
  ∧ block .ldcBlock .clusterC ∧ block .ldgBlock .globalG ∧ block .ldhBlock .hostH

/-- 03 R75, R76, 20 R463: the exception of a core's clause that is not restartable. Every thread of the bundle is
trapped at the clause's address with no wait, the bundle leaves the issue list, a record held for the supervisor
takes a replay slot or waits for one, and the other threads and the registers stand. -/
def Obligations.TrapTaken : Prop :=
  ∀ (s : State) (r : FaultReport), s.cur.agent = .core → s.cur.lanes ≠ [] → r.code ≠ .pageAbsent →
    let t := deliver s r
    t.cur.fault = some r
    ∧ (∀ u th, u ∈ s.cur.lanes → threadOf s u = some th → ∃ th', threadOf t u = some th'
        ∧ th' = { th with ctl := { th.ctl with run := .trapped, wait := none, pc := s.cur.addr, npc := none,
                                               refile := false, leaving := false } })
    ∧ (∀ u, u ∉ s.cur.lanes → threadOf t u = threadOf s u)
    ∧ (∀ b, b ∈ t.work.bundles ↔ b ∈ s.work.bundles
        ∧ ¬(b.core = s.cur.core ∧ b.block = s.cur.block ∧ b.lanes = s.cur.lanes))
    ∧ (let ctx := ctxOfBlock s s.cur.block
       ∃ q : ReplayRecord, q.cause = 3
        ∧ q.work = .core s.cur.addr ((s.cur.stop - s.cur.addr) / 4) s.cur.lanes
        ∧ q.code = r.code ∧ q.pos = r.pos
        ∧ ((moreOf t ctx).replayWaiting = (moreOf s ctx).replayWaiting ++ [q]
          ∨ ∃ n, freeReplaySlot s ctx q.work = some n
            ∧ mget (moreOf t ctx).replay n = some { q with event := none, order := (moreOf s ctx).recordSeq }))

/-- 10 R232, R233, R235, R236: a blocking load reads at issue, the lanes of one sector with each other's read floors. Where
the value differs from the one compared the wait ends `DONE` with the value; where it does not, a deadline already met ends
it `TIMEOUT` with the value, and else the thread blocks. A lane that cannot read yet blocks: its thread's own earlier access to
the bytes is still in flight, or no port leads to a host (21 R491). A line that must be read and is not ready holds the clause
back. A thread that a second consumption of poison traps stays trapped (20 R482).

Completion: `exec i s` answers a next state, under conditions on `s` and the operands alone, for `ldcBlock`,
`ldgBlock`, `ldhBlock`. -/
def Obligations.BlockingLoads : Prop :=
  let form (i : BlockForm → Instr) (sp : Space) : Prop := ∀ (f : BlockForm) (s : State),
    plansPass s f.x.guard (fun t => planLane s t sp { read := true } f.a 0 (sizeBytes f.x.size)) →
    let ps := lanePlans s f.x.guard sp { read := true } f.a 0 f.x.size
    answers (i f) s fun t => chain (fun a p b =>
      ∃ m as, planLane s p.2 sp { read := true } f.a 0 (sizeBytes f.x.size) = .names m as ∧
        let acq := f.x.ordering == .acq
        let w : FormW := ⟨.reg f.dst, f.a, ⟨f.x.guard, f.x.esc, 0, f.x.deadline⟩⟩
        let r : LaneReq := { uid := p.1, mem := m, addrs := as }
        let q := readBlocking a a.cur.core (ctxOfBlock a p.2.block) sp acq (sectorFloors ps m (as.headD 0 / 32)) r
        let va := if sp = .clusterC then 0 else (srcPair p.2 .a f.a).toNat
        let a1 := if q.2.2 = true then consumePoison q.1 p.1 p.2.block { clause := a.cur.addr, addr := va } else q.1
        let n := stepReg p.2.ctl .dst f.dst.toNat
        let more : Regs → Regs := fun r => if f.x.size = .b8 then r.set (n + 1) (BitVec.ofNat 32 (q.2.1 / 2 ^ 32)) else r
        let low : Word := if f.x.size = .b8 then BitVec.ofNat 32 q.2.1 else extendTo32 (sizeBytes f.x.size) f.x.sext q.2.1
        let c := sourceValue p.2 .b f.x.size f.cmp % 256 ^ sizeBytes f.x.size
        let k (x : Nat) : WaitKind := .blockingLoad sp va
          { r with cmp := BitVec.ofNat 64 c } f.x.size f.x.sext acq n (BitVec.ofNat 64 x)
        if unread a a.cur.core p.1 sp r then blocksNow a p.1 w (k (ownValue a p.1 sp r)) b
        else if (threadOf a1 p.1).any (fun th => th.ctl.run == .trapped) = true then b = a1
        else if q.2.1 ≠ c then endsNow a1 p.1 w .done low acq more b
        else if tooLate a p.2 f.x.deadline then endsNow a1 p.1 w .timeout low false more b
        else blocksNow a1 p.1 w (k q.2.1) b) (activeLanes s f.x.guard)
      (holdClause s (ps.any fun p =>
        let m := planNames p.2.2
        blockedByLine s s.cur.core (f.x.ordering == .acq) (sectorFloors ps m.1 (m.2.headD 0 / 32))
          { uid := p.1, mem := m.1, addrs := m.2 })) t
  form .ldcBlock .clusterC ∧ form .ldgBlock .globalG ∧ form .ldhBlock .hostH

/-- 10 R244 to R247: `FENCE` ends `DONE` with its classes where every one of them is complete; else a deadline already
met ends it `PARTIAL` with the classes that are complete, and any other blocks. The Coachman's waits only for the
copies of its block. 10 R248: `PREF` brings a line of a present page to its home slice, marks the line's frame as
referenced, enters an absent page in its die's fault queue, and otherwise does nothing: not on a page of a lent extent.

Completion: `exec i s` answers a next state, under conditions on `s` and the operands alone, for `fence`, `pref`. -/
def Obligations.FencesAndPrefetch : Prop :=
  let mask (f : FormW) (a : State) (u : Nat) (t : Thread) : Nat :=
    fenceMask a t.block (f.x.spec.toNat / 64) (scopeOf (f.x.spec.toNat / 8 % 8)) (threadStores a u)
      (blockCommands a t.block) (migrationsOf a (ctxOfBlock a t.block)) t.frames t.regs.wh
  let ahead (f : FormW) (a : State) (u : Nat) (t : Thread) : State :=
    orderAhead a u t.block (f.x.spec.toNat / 64) (scopeOf (f.x.spec.toNat / 8 % 8)) (mask f a u t)
  (∀ f : FormW, waitForm (.fence f) f (fun _ => True) (fun s => s)
    (fun _ a u t => if mask f a u t = f.x.spec.toNat / 64 then
      some { state := ahead f a u t, status := .done,
             value := BitVec.ofNat 32 (256 * mask f a u t), acquire := true } else none)
    (fun _ a u t => (if tooLate a t f.x.deadline then ahead f a u t else a, t,
      .fence (f.x.spec.toNat / 64) (scopeOf (f.x.spec.toNat / 8 % 8)) (threadStores a u)
      (blockCommands a t.block) (migrationsOf a (ctxOfBlock a t.block)) t.regs.wh))
    (fun _ a u t => (.partialDone, BitVec.ofNat 32 (5 + 256 * mask f a u t))))
  ∧ (∀ f : FormW, coachWaitForm (.fence f) f (fun _ => True)
    (fun s _ => if (f.x.spec.toNat / 64).testBit 1 = false ∨ blockCopies s s.cur.block = [] then
      some (s, .done, BitVec.ofNat 64 (256 * (f.x.spec.toNat / 64)), none) else none)
    (fun s _ => (s, .fence (f.x.spec.toNat / 64) (scopeOf (f.x.spec.toNat / 8 % 8)) [] (blockCopies s s.cur.block) [] 0))
    (fun _ _ => (.partialDone, BitVec.ofNat 64 (5 + 256 * (f.x.spec.toNat / 64 - 2)))))
  ∧ (∀ f : PrefForm, ∀ s, answers (.pref f) s fun t => chain (fun a p b =>
      let va : Int := ((srcPair p.2 .a f.a).toNat : Int) + f.x.off.toInt
      if va < 0 then b = a
      else match translate a a.cur.core (ctxOfBlock a p.2.block) va.toNat { read := true } with
        | .ok (.device pa) =>
          if (frameOf a (frameOfLine (pa / 128))).lent = true ∨ (lineOf a (pa / 128)).transient = true then b = a
          else
            ((mget a.frames (frameOfLine (pa / 128))).isSome = true →
              frameOf b (frameOfLine (pa / 128)) = { frameOf a (frameOfLine (pa / 128)) with ref := true })
            ∧ (∀ n, n ≠ frameOfLine (pa / 128) → frameOf b n = frameOf a n)
            ∧ (0 < l2Ways a (homeDie (pa / 128)) →
                (mget (lineOf b (pa / 128)).held (homeDie (pa / 128))).isSome = true)
            ∧ b = { a with frames := b.frames, lines := b.lines }
        | .error .pageAbsent => b = { a with dies := b.dies, cores := b.cores }
          ∧ ∀ g, coreOf b g = { coreOf a g with perf := (coreOf b g).perf }
        | _ => b = a) (activeLanes s f.x.guard) s t)

/-! ### Copies and tickets (14) -/

/-- 14 R335 to R338: a copy form whose command block passes the checks posts its command, made of the five registers
it names, with the next ticket, which its m register takes; with 16 commands queued it takes 0 and posts none; a
check that fails is the form's fault.

Completion: `exec i s` answers a next state, under conditions on `s` and the operands alone, for `cpy`, `cps`, `cpx`,
`cpg`, `cpc`. -/
def Obligations.CopiesPost : Prop :=
  let form (i : FormA → Instr) (op : Nat) : Prop := ∀ (f : FormA) (s : State), s.cur.agent = .coachman →
    (guardCoach f.x.guard (coachOf s s.cur.core) = false → answers (i f) s fun t =>
      coachKeeps s s.cur.core (s.cur.pos % 4) f.dst t)
    ∧ (guardCoach f.x.guard (coachOf s s.cur.core) = true →
      let k := coachOf s s.cur.core
      let n := match f.a with
        | .reg r => r.toNat
        | _ => 0
      let last := (coreOf s s.cur.core).copyTicket
      let c : CopyCmd :=
        { ticket := if last = 0xFFFFFFFF then 1 else last + 1, op := op, ctx := ctxOfBlock s s.cur.block,
          block := s.cur.block, core := s.cur.core, seq := (syncOf s s.cur.block).posts, control := k.get n,
          shape := k.get (n + 1), src := k.get (n + 2), dst := k.get (n + 3), stride := k.get (n + 4) }
      (∀ e, copyBad s c = some e → exec (i f) s = .next (faultAt s e s.cur.word))
      ∧ (copyBad s c = none → 16 ≤ (coreOf s s.cur.core).copyQ.length →
          answers (i f) s fun t => coachPuts s s.cur.core (s.cur.pos % 4) f.dst 0 t)
      ∧ (copyBad s c = none → (coreOf s s.cur.core).copyQ.length < 16 →
          answers (i f) s fun t => ∃ a, coachPuts a s.cur.core (s.cur.pos % 4) f.dst (BitVec.ofNat 64 c.ticket) t
            ∧ coreOf a s.cur.core = { coreOf s s.cur.core with
                copyQ := (coreOf s s.cur.core).copyQ ++ [{ c with released := copyEdgesClear s c }]
                copyTicket := c.ticket
                copyWrapped := (coreOf s s.cur.core).copyWrapped || last == 0xFFFFFFFF }
            ∧ (∀ g, g ≠ s.cur.core → coreOf a g = coreOf s g)
            ∧ syncOf a s.cur.block = { syncOf s s.cur.block with posts := (syncOf s s.cur.block).posts + 1 }
            ∧ (∀ b, b ≠ s.cur.block → syncOf a b = syncOf s b)
            ∧ a = { s with cores := a.cores, work := { s.work with sync := a.work.sync } })
      ∧ (copyBad s c = some .alignment ↔ ¬ (c.src.toNat % 32 = 0 ∧ c.dst.toNat % 32 = 0
          ∧ dbits c.stride 31 0 % 32 = 0 ∧ dbits c.stride 63 32 % 32 = 0 ∧ dbits c.control 63 40 % 4 = 0)))
  form .cpy 0x68 ∧ form .cps 0x69 ∧ form .cpx 0x6A ∧ form .cpg 0x6B ∧ form .cpc 0x6C

/-- 12 R298, 14 R344: the waits for tickets. A ticket that has completed, or lies too far back, ends the wait with its
status and fault code.

Completion: `exec i s` answers a next state, under conditions on `s` and the operands alone, for `cpw`, `mwait`. -/
def Obligations.TicketWaits : Prop :=
  (∀ f : FormW, waitForm (.mwait f) f (fun _ => True) (fun s => s)
    (fun _ a _ t => (matrixResult a t.block (srcWord t .a f.a).toNat (f.field 0 0 == 1)).map fun q =>
      { state := a, status := q.1, value := ticketWord q.1 q.2, acquire := q.1 == .done })
    (fun _ a _ t => (a, t, .matrix t.block (srcWord t .a f.a).toNat (f.field 0 0 == 1)))
    (fun _ _ _ _ => (.timeout, 1)))
  ∧ (∀ f : FormW, coachWaitForm (.cpw f) f (fun s => s.cur.agent = .coachman)
    (fun s c => (copyResult s s.cur.core (srcCoach c f.a).toNat (f.field 0 0 == 1)).map fun q =>
      (s, q.1, (ticketWord q.1 q.2).setWidth 64, none))
    (fun s c => (s, .copy s.cur.core (srcCoach c f.a).toNat (f.field 0 0 == 1)))
    (fun _ _ => (.timeout, 1)))
  ∧ (∀ (last : Nat) (wrapped : Bool) (op : Nat → Bool) (ring : SMap RingEntry) (t : Nat),
      ticketResult last wrapped op ring t false =
        if t = 0 then some (.done, .none)
        else if isRecent last wrapped t = false then some (.stalePhase, .none)
        else if op t then none
        else if (mgetD ring (t % 64) {}).status = .done then some (.done, .none)
        else some ((mgetD ring (t % 64) {}).status, (mgetD ring (t % 64) {}).fault))

/-! ### Matrix forms (12) -/

/-- 12 R275, R277, R292 to R294, 08 R192: a posting form whose checks pass gives the next ticket to every participating
lane; its command, made from the lowest of them, is posted, or held by the convergence register it names until its
declared threads have signed, or completed `WITHDRAWN` where the register has been withdrawn.

Completion: `exec i s` answers a next state, under conditions on `s` and the operands alone, for `mmal6`, `mmae2`,
`mmaf8a`, `mmaf8b`, `mmab16`, `mmai8`, `accz`, `accld`, `accst`. -/
def Obligations.MatrixPosts : Prop :=
  let form (i : FormA → Instr) (op : Nat) (bad : State → MatCmd → Option (FaultCode × Nat))
      (fill : FormA → State → Thread → MatCmd → MatCmd) : Prop :=
    ∀ (f : FormA) (s : State) (u : Nat) (th : Thread) (rest : List (Nat × Thread)), s.cur.agent = .core →
      s.cur.lanes.Nodup → activeLanes s f.x.guard = (u, th) :: rest →
      let b := th.block
      let k := f.field 3 0
      let c := clusterOfCore s.cur.core
      let last := (syncOf s b).ticket
      let ticket := if last = 0xFFFFFFFF then 1 else last + 1
      let m := fill f s th { op := op, ctx := ctxOfBlock s b, block := b, core := s.cur.core, cluster := c,
                             thread := u, ticket := ticket, seq := 0, tile := stepTile th.ctl (f.field 6 4) }
      bad s m = none → (∀ x ∈ m.tiles, x ∈ ownedAtIssue s b) → (kregOf s b k).state ≠ .bound →
      s.cur.posts < heldAtIssue s b →
      answers (i f) s fun t =>
        (∀ v tv, v ∈ s.cur.lanes → threadOf s v = some tv → ∃ tv', threadOf t v = some tv'
          ∧ if guardOn f.x.guard tv.regs then wroteWord (s.cur.pos % 4) f.dst (BitVec.ofNat 32 ticket) tv tv'
            else skippedWord (s.cur.pos % 4) f.dst tv tv')
        ∧ (syncOf t b).ticket = ticket
        ∧ t.mem = s.mem
        ∧ t.cur.hold = s.cur.hold
        ∧ match (kregOf s b k).state with
          | .declared => mget (syncOf t b).bound ticket = some m ∧ (kregOf t b k).state = .bound
              ∧ (kregOf t b k).command = some ticket
          | .withdrawn => mget (syncOf t b).ring (ticket % 64) = some { status := .withdrawn, fault := .none }
          | _ => (∃ e, mget (clusterOf t c).table (freeEntry (clusterOf s c)) = some e
                ∧ e.cmd = { m with seq := (syncOf s b).posts } ∧ e.stage = .posted)
              ∧ (syncOf t b).posts = (syncOf s b).posts + 1
  let mul (i : FormA → Instr) (op : Nat) : Prop := form i op multiplyBad fun f s t m => multiplyCmd s f t m
  mul .mmal6 0x70 ∧ mul .mmae2 0x71 ∧ mul .mmaf8a 0x72 ∧ mul .mmaf8b 0x73 ∧ mul .mmab16 0x74 ∧ mul .mmai8 0x75
  ∧ form .accz 0x78 (fun _ _ => none) (fun _ _ _ m => m)
  ∧ form .accld 0x79 moveBad (fun f s t m => moveCmd s f t m)
  ∧ form .accst 0x7A moveBad (fun f s t m => moveCmd s f t m)
  ∧ (∀ (s : State) (f : FormA) (t : Thread) (m : MatCmd),
      let w := srcPair t .b f.b
      let q := multiplyCmd s f t m
      q.desc = srcPair t .a f.a ∧ q.passes = f.field 10 9 + 1 ∧ q.overwrite = f.bit 12
      ∧ q.vr = min (w.setWidth 32).toNat 128 ∧ q.op = m.op ∧ q.tile = m.tile)

/-- 12 R296, R297: `RSV` takes tiles and entries whole or answers `BUSY`; `ACCRD` puts a read of four words of the
tile in flight for every participating lane.

12 R297: `RLS` gives back the tiles of its mask that the owner holds and up to the entries named, or answers
`BUSY` where a command still uses one of them.

Completion: `exec i s` answers a next state, under conditions on `s` and the operands alone, for `rsv`, `rls`,
`accrd`. -/
def Obligations.TilesAndReads : Prop :=
  ((∀ (f : FormA) (s : State) (u : Nat) (th : Thread) (rest : List (Nat × Thread)), s.cur.agent = .core →
     s.cur.lanes.Nodup → activeLanes s f.x.guard = (u, th) :: rest →
     let b := th.block
     let c := clusterOfBlock s b
     let o := ownerOfBlock s b
     let ctx := ctxOfBlock s b
     let mask := srcWord th .a f.a
     let n := (srcWord th .b f.b).toNat
     let busy : Prop := (∃ x, x < 8 ∧ mask.getLsbD x = true ∧ ∃ w, mget (clusterOf s c).owners x = some w ∧ w ≠ o)
       ∨ 8 < (syncOf s b).entries + n ∨ clusterFree s c < n
     let writes (x : Word) (t : State) : Prop :=
       ∀ v tv, v ∈ s.cur.lanes → threadOf s v = some tv → ∃ tv', threadOf t v = some tv'
         ∧ if guardOn f.x.guard tv.regs then wroteWord (s.cur.pos % 4) f.dst x tv tv'
           else skippedWord (s.cur.pos % 4) f.dst tv tv'
     (busy → answers (.rsv f) s fun t => writes 8 t ∧ t.clusters = s.clusters ∧ t.work.sync = s.work.sync)
     ∧ (¬busy → answers (.rsv f) s fun t => writes 0 t
         ∧ (∀ x, x < 8 → mget (clusterOf t c).owners x =
             if mask.getLsbD x = true then some o else mget (clusterOf s c).owners x)
         ∧ (∀ x, x < 8 → mask.getLsbD x = false →
             mget (clusterOf t c).tiles x = mget (clusterOf s c).tiles x)
         ∧ (∀ x, x < 8 → mask.getLsbD x = true → mget (clusterOf s c).owners x = none →
             mget (clusterOf s c).lastCtx x ≠ some ctx → msorted (clusterOf s c).tiles = true →
             mget (clusterOf t c).tiles x = none)
         ∧ (∀ x m k, c < 192 → x < 8 → m < 128 → k < 128 → mask.getLsbD x = true → mget (clusterOf s c).owners x = none →
             mget (clusterOf s c).lastCtx x ≠ some ctx → pairPoisoned t c x m k = false)
         ∧ (syncOf t b).entries = (syncOf s b).entries + n ∧ (syncOf t b).prio = f.field 1 0
         ∧ t.mem = { s.mem with poisoned := t.mem.poisoned } ∧ (∀ k ∈ t.mem.poisoned, k ∈ s.mem.poisoned)))
   ∧ (∀ (f : FormA) (s : State), s.cur.lanes.Nodup →
     allLanes s f.x.guard (fun th => stepTile th.ctl (f.field 6 4) ∈ ownedAtIssue s th.block) →
     answers (.accrd f) s fun t => putsInFlight s t f.x.guard f.x.ctr.toNat
       (fun a => a.kind = .load ∧ a.core = s.cur.core ∧ a.block = s.cur.block ∧ a.ctr = f.x.ctr.toNat
         ∧ a.issued = true ∧ a.applied = false)
       (fun th r => r.mem = .tile (clusterOfCore s.cur.core) (stepTile th.ctl (f.field 6 4))
         ∧ r.dst = (match f.dst with
           | .reg n => stepReg th.ctl .dst n.toNat
           | .suppress => 0)
         ∧ r.addrs = (let p := (srcWord th .a f.a).toNat
             let n := p / 256 % 128
             if f.bit 7 then [p % 128, n - n % 2, 1] else [p % 128, n - n % 4, 0]))))
  ∧ (∀ (f : FormA) (s : State) (u : Nat) (th : Thread) (rest : List (Nat × Thread)), s.cur.agent = .core →
     s.cur.lanes.Nodup → activeLanes s f.x.guard = (u, th) :: rest →
     let b := th.block
     let c := clusterOfBlock s b
     let mask := srcWord th .a f.a
     let held := (syncOf s b).entries
     let left := held - min (srcWord th .b f.b).toNat held
     let mine (x : Nat) : Prop := x < 8 ∧ mask.getLsbD x = true ∧ mget (clusterOf s c).owners x = some (ownerOfBlock s b)
     let busy : Prop := (∃ x, mine x ∧ ∃ y ∈ ownerBlocks s b, ∃ m ∈ commandsOf s y, x ∈ m.tiles)
       ∨ left < (commandsOf s b).length
     let writes (x : Word) (t : State) : Prop :=
       ∀ v tv, v ∈ s.cur.lanes → threadOf s v = some tv → ∃ tv', threadOf t v = some tv'
         ∧ if guardOn f.x.guard tv.regs then wroteWord (s.cur.pos % 4) f.dst x tv tv'
           else skippedWord (s.cur.pos % 4) f.dst tv tv'
     (busy → answers (.rls f) s fun t => writes 8 t ∧ t.clusters = s.clusters ∧ t.work.sync = s.work.sync)
     ∧ (¬busy → msorted (clusterOf s c).owners = true → answers (.rls f) s fun t => writes 0 t
         ∧ (∀ x, mine x → mget (clusterOf t c).owners x = none)
         ∧ (∀ x, ¬mine x → mget (clusterOf t c).owners x = mget (clusterOf s c).owners x)
         ∧ (syncOf t b).entries = left ∧ t.mem = s.mem))

/-! ### Control and convergence (08) -/

/-- 08 R171 to R176, R182, R183: branches, `NOP`, `YIELD`, `REFORM` and `EXIT` on the cores: they change control state
alone. A relative target is counted in words from the form's own base word.

Completion: `exec i s` answers a next state, under conditions on `s` and the operands alone, for `bra`, `brx`,
`exitThread`, `reform`, `nop`, `yieldThread`. -/
def Obligations.Branches : Prop :=
  let target (s : State) (off : BitVec 24) : Nat := ((s.cur.word : Int) + 4 * off.toInt).toNat % 2 ^ 56
  (∀ (f : FormB) (s : State), s.cur.agent = .core → s.cur.lanes.Nodup →
    0 ≤ (s.cur.word : Int) + 4 * f.off.toInt →
    answers (.bra f) s fun t => onlyLanes s t fun _ th th' =>
      th' = if guardOn f.x.guard th.regs then
          { th with ctl := { th.ctl with npc := some (target s f.off) } } else th)
  ∧ (∀ (f : FormA) (s : State), s.cur.agent = .core → s.cur.lanes.Nodup →
    allLanes s f.x.guard (fun th => (srcPair th .a f.a).toNat % 4 = 0 ∧ (srcPair th .a f.a).toNat < 2 ^ 56) →
    answers (.brx f) s fun t => onlyLanes s t fun _ th th' =>
      th' = if guardOn f.x.guard th.regs then
          { th with ctl := { th.ctl with npc := some (srcPair th .a f.a).toNat } } else th)
  ∧ (∀ f, laneForm (.reform f) fun _ _ th th' =>
      th' = if guardOn f.x.guard th.regs then
          { th with ctl := { th.ctl with key := (srcWord th .a f.a).toNat % 65536, refile := true } } else th)
  ∧ laneForm .yieldThread (fun _ _ th th' => th' = { th with ctl := { th.ctl with refile := true } })
  ∧ laneForm .exitThread (fun _ _ th th' => th' = { th with ctl := { th.ctl with leaving := true } })
  ∧ (∀ s, exec .nop s = .next s)

/-- 08 R177 to R180: `CALL` and `CALLX` store the return address in the thread's slot for its depth and go to their
target one level deeper; `RET` goes to the address in the top slot, or ends the thread at depth 0. Lanes act in
turn, after the threads' own lane-private accesses of the clause.

Completion: `exec i s` answers a next state, under conditions on `s` and the operands alone, for `call`, `callx`,
`ret`. -/
def Obligations.Calls : Prop :=
  let ok (p : Plan) : Prop := ∃ m as, p = .names m as
  let moved (a : State) (u : Nat) (depth npc : Nat) (b : State) : Prop :=
    (∀ th, threadOf a u = some th → threadOf b u =
      some { th with ctl := { th.ctl with depth := depth, npc := some npc } })
    ∧ ∀ v, v ≠ u → threadOf b v = threadOf a v
  let called (target : State → Thread → Nat) (s a : State) (p : Nat × Thread) (b : State) : Prop :=
    ∀ as, planL a p.2 { write := true } (8 * p.2.ctl.depth) 8 = .names .device as →
      moved a p.1 (((threadOf a p.1).map fun x => x.ctl.depth).getD 0 + 1) (target s p.2 % 2 ^ 56) b
      ∧ (∀ x, x ∉ as → readByte b .device x = readByte a .device x)
      ∧ (as.Nodup → as.length = 8 → (∀ x ∈ as, isPoisoned a .device (x / 32) = false) →
          readBytes b .device as = s.cur.stop % 2 ^ 64)
      ∧ b.mem.host = a.mem.host ∧ b.mem.pool = a.mem.pool
  (∀ (f : FormB) (s : State), s.cur.agent = .core →
    allLanes s f.x.guard (fun th => th.ctl.depth < 64
      ∧ ok (planL s th { write := true } (8 * th.ctl.depth) 8)) →
    answers (.call f) s fun t =>
      chain (called (fun s _ => relTarget s f.off) s) (activeLanes s f.x.guard) (settleOwn s f.x.guard) t)
  ∧ (∀ (f : FormB) (s : State) (target : Thread → Nat), s.cur.agent = .core →
    allLanes s f.x.guard (fun th => th.ctl.depth < 64
      ∧ ok (planL s th { write := true } (8 * th.ctl.depth) 8)
      ∧ tableTarget s f th = .ok (target th) ∧ target th % 4 = 0 ∧ target th < 2 ^ 56) →
    answers (.callx f) s fun t =>
      chain (called (fun _ th => target th) s) (activeLanes s f.x.guard) (settleOwn s f.x.guard) t)
  ∧ (∀ s : State, s.cur.agent = .core → s.cur.lanes.Nodup →
    let a := settleOwn s ⟨false, 0⟩
    let slot (th : Thread) (m : Mem) (as : List Nat) : Prop :=
      planL a th { read := true } (8 * ((th.ctl.depth - 1 : Nat) : Int)) 8 = .names m as
    (∀ p ∈ lanes s, 0 < p.2.ctl.depth → ∃ m as, slot p.2 m as ∧ (∀ x ∈ as, isPoisoned a m (x / 32) = false)
      ∧ readBytes a m as % 4 = 0 ∧ readBytes a m as < 2 ^ 56) →
    answers .ret s fun t =>
      (∀ p ∈ lanes s, ∀ th, threadOf a p.1 = some th → ∃ th', threadOf t p.1 = some th' ∧
        if p.2.ctl.depth = 0 then th' = { th with ctl := { th.ctl with leaving := true } }
        else ∃ m as, slot p.2 m as
          ∧ th' = { th with ctl := { th.ctl with depth := th.ctl.depth - 1, npc := some (readBytes a m as) } })
      ∧ (∀ u, u ∉ (lanes s).map Prod.fst → threadOf t u = threadOf a u)
      ∧ t = { a with work := { a.work with threads := t.work.threads } })

/-- 08 R185, R187: `REPEAT` skips its body where the count is 0 and else starts the first pass of a loop that the
thread keeps, with the body captured where some thread of the bundle runs it.

Completion: `exec i s` answers a next state, under conditions on `s` and the operands alone, for `repeatLoop`. -/
def Obligations.Loops : Prop :=
  ∀ (f : RepeatForm) (s : State) (ws : List Word), s.cur.agent = .core → s.cur.lanes.Nodup →
    let most := ((activeLanes s f.guard).map fun p => (srcWord p.2 .a f.count).toNat).foldl max 0
    ((most = 0 ∧ ws = []) ∨ (most ≠ 0 ∧ capture s f most = .ok ws)) →
    answers (.repeatLoop f) s fun t => onlyLanes s t fun _ th th' =>
      if guardOn f.guard th.regs = false then th' = th
      else
        let n := (srcWord th .a f.count).toNat
        if n = 0 then
          th' = { th with ctl := { th.ctl with npc := some ((s.cur.stop + 4 * f.words.toNat) % 2 ^ 56) } }
        else ∃ l : LoopState, th' = { th with ctl := { th.ctl with loop := some l, npc := some s.cur.stop } }
          ∧ l.base = s.cur.stop ∧ l.words = f.words.toNat ∧ l.clauses = f.clauses.toNat + 1 ∧ l.count = n
          ∧ l.pass = 0 ∧ l.dStep = f.dStep.toNat ∧ l.aStep = f.aStep.toNat ∧ l.bStep = f.bStep.toNat
          ∧ l.cStep = f.cStep.toNat ∧ l.tileStep = f.tileStep.toNat ∧ l.body = ws
          ∧ l.addr = (match f.addr with
            | .reg r => some r.toNat
            | _ => none)

/-- 08 R184, 14 R331: the control forms on the Coachman: branches, calls on the core's return stack of 8, and the end of
the movement program.

Completion: `exec i s` answers a next state, under conditions on `s` and the operands alone, for `bra`, `brx`, `call`,
`ret`, `exitThread`. -/
def Obligations.CoachmanControl : Prop :=
  let only (s t : State) (c : Coach) : Prop :=
    coachOf t s.cur.core = c ∧ (∀ h, h ≠ s.cur.core → coachOf t h = coachOf s h) ∧ t = { s with coaches := t.coaches }
  (∀ (f : FormB) (s : State), s.cur.agent = .coachman →
    let c := coachOf s s.cur.core
    answers (.bra f) s fun t => only s t
      (if guardCoach f.x.guard c then { c with npc := some (relTarget s f.off) } else c))
  ∧ (∀ (f : FormA) (s : State), s.cur.agent = .coachman →
    let c := coachOf s s.cur.core
    let x := (srcCoach c f.a).toNat
    guardCoach f.x.guard c = true → x % 4 = 0 → x < 2 ^ 56 →
    answers (.brx f) s fun t => only s t { c with npc := some x })
  ∧ (∀ (f : FormB) (s : State), s.cur.agent = .coachman →
    let c := coachOf s s.cur.core
    guardCoach f.x.guard c = true →
    (c.stack.length < 8 → answers (.call f) s fun t => only s t
      { c with stack := s.cur.stop :: c.stack, npc := some (relTarget s f.off) })
    ∧ (8 ≤ c.stack.length → exec (.call f) s = .next (faultAt s .protection s.cur.word)))
  ∧ (∀ s : State, s.cur.agent = .coachman →
    let c := coachOf s s.cur.core
    let ended : Coach := { c with running := false, stack := [], npc := none, wait := none }
    (answers .exitThread s fun t => only s t ended)
    ∧ (c.stack = [] → answers .ret s fun t => only s t ended)
    ∧ ∀ x r, c.stack = x :: r → x % 4 = 0 → x < 2 ^ 56 →
        answers .ret s fun t => only s t { c with stack := r, npc := some x })

/-- 08 R191 to R195: `KDECL` declares the threads of an idle or withdrawn register and is `BUSY` on any other; `SIGN`
adds the thread's signature, posts a bound command with the last one, and is `WITHDRAWN` for a thread that is not
declared.

Completion: `exec i s` answers a next state, under conditions on `s` and the operands alone, for `kdecl`, `sign`. -/
def Obligations.Convergence : Prop :=
  (∀ f : FormA, turnForm (.kdecl f) f.x.guard f.dst (fun _ => True) (fun s => s) (fun _ _ => True) fun _ a _ t =>
    let k := f.field 3 0
    let r := kregOf a t.block k
    let set := declaredSet a t.block (srcWord t .a f.a) (srcWord t .b f.b)
    if r.state = .idle ∨ r.state = .withdrawn then
      (setKreg a t.block k { declared := set, signed := 0, state := if set = 0 then .signed else .declared }, 0)
    else (setKreg a t.block k r, 8))
  ∧ (∀ f : FormA, turnForm (.sign f) f.x.guard f.dst (fun _ => True) (fun s => s) (fun _ _ => True) fun _ a _ t =>
    let k := f.field 3 0
    let r := kregOf a t.block k
    let mask := r.signed ||| BitVec.ofNat 1024 (2 ^ t.tid)
    let all := mask &&& r.declared = r.declared
    if r.declared.getLsbD t.tid = false then (a, 2)
    else
      match r.state with
      | .declared => (setKreg a t.block k { r with signed := mask, state := if all then .signed else .declared }, 0)
      | .bound =>
        if all then (match r.command with
          | some n => postBound (setKreg a t.block k {}) t.block n
          | none => setKreg a t.block k {}, 0)
        else (setKreg a t.block k { r with signed := mask }, 0)
      | .signed => (a, 0)
      | _ => (a, 2))
  ∧ (∀ (s : State) (b : Nat) (gangs threads : Word) (n : Nat), n < 1024 →
      ((declaredSet s b gangs threads).getLsbD n = true ↔ ∃ p ∈ threadsOfBlock s b, p.2.tid = n
        ∧ p.2.ctl.run ≠ .exited ∧ gangs.getLsbD (n / 32) = true ∧ threads.getLsbD (n % 32) = true))

/-! ### Rays, texture and primitives (15, 16) -/

/-- 15 R377 to R380: `RAYQ` claims a free or completed slot, writes its record, counts the ray in the launch and files
it at the root subtree, and is `BUSY` on a slot whose ray is under way or that an earlier lane of the position names; `RAYR`
and `HITX` put a read of 16 bytes of the slot in flight, and `HITX.id` gives the thread's ray; `RAYW` waits for a ray or
for the completion count. A position without a participating lane needs no scene.

Completion: `exec i s` answers a next state, under conditions on `s` and the operands alone, for `rayq`, `rayw`,
`rayr`, `hitx`. -/
def Obligations.RayForms : Prop :=
  let scene (s : State) (g : Guard) (c : Scene) : Prop :=
    activeLanes s g ≠ [] → sceneOf s (blockOf s s.cur.block).launch = .ok c
  (∀ (f : FormA) (c : Scene) (s : State), s.cur.agent = .core → scene s f.x.guard c →
    plansPass s f.x.guard (rayqPlan s f c) →
    let slot (a : State) (t : Thread) : Nat :=
      (readVirtualNat a (launchOf a (blockOf a t.block).launch).ctx (c.slot (srcWord t .a f.a).toNat + 64) 1).getD 0
    let act (a : State) (u : Nat) (t : Thread) : State × Word :=
      let l := (blockOf a t.block).launch
      let id := (srcWord t .a f.a).toNat
      let r := recordBlock t (blockReg f t)
      if (1 ≤ slot a t ∧ slot a t ≤ 3) ∨ rayNamedBefore s f u id = true then (a, 8)
      else
        let a1 := (writeVirtual a (launchOf a l).ctx (c.slot id) (freshRecord r ++ leBytes 3 1)).getD a
        let a2 := modLaunch (clearExits (noteScene a1 l) l id) l fun k => { k with counter := k.counter + 1 }
        (if degenerate r then completeRay a2 l id 0 .done .none false else fileRay a2 l c c.root id, 0)
    let start := holdForRelease s f.x.guard .dev
    eachMeets s f.x.guard f.dst act start (fun m t => slot m t < 5) →
    (∀ t, inTurn s f.x.guard f.dst act start t → quotaBreach s t (ctxOfBlock s s.cur.block) = false) →
    answers (.rayq f) s fun t => inTurn s f.x.guard f.dst act start t)
  ∧ (∀ (f : FormW) (c : Scene), waitForm (.rayw f) f
    (fun s => scene s f.x.guard c ∧ (f.field 0 0 = 1 ∨
      plansPass s f.x.guard fun t => slotPlanRay s t c { read := true } (srcWord t .a f.a).toNat 64 1))
    (fun s => s)
    (fun _ a _ t => (raywResult a (raywKind a f t)).map fun q =>
      { state := a, status := q.1, value := statusWord q.1 q.2, acquire := q.1 == .done })
    (fun _ a _ t => (a, t, raywKind a f t)) (fun _ _ _ _ => (.timeout, 1)))
  ∧ (let part (i : Instr) (f : FormA) (ord : Ordering3) (plan : State → Scene → Thread → Plan) : Prop :=
      ∀ (c : Scene) (s : State), s.cur.lanes.Nodup → scene s f.x.guard c → plansPass s f.x.guard (plan s c) →
        answers i s fun t => putsInFlight s t f.x.guard f.x.ctr.toNat
          (fun a => a.kind = .load ∧ a.core = s.cur.core ∧ a.ordering = ord ∧ a.size = .b16
            ∧ a.ctr = f.x.ctr.toNat ∧ a.issued = true ∧ a.applied = false)
          (fun th r => plan s c th = .names r.mem r.addrs ∧ r.dst = (match f.dst with
            | .reg n => stepReg th.ctl .dst n.toNat
            | .suppress => stepReg th.ctl .dst 0))
    let offset (n : Nat) : Nat := match n with
      | 0 => 32
      | 1 => 48
      | 2 => 0
      | _ => 16
    (∀ f : FormA, part (.rayr f) f .plain fun s c t =>
      slotPlanRay s t c { read := true } (srcWord t .a f.a).toNat (offset (f.field 1 0)) 16)
    ∧ ∀ f : FormA, f.bit 2 = false → part (.hitx f) f .acq fun s c t => match t.hitRay with
      | none => .fails 2 .protection 0 []
      | some id => slotPlanRay s t c { read := true } id (offset (f.field 1 0)) 16)
  ∧ (∀ (f : FormA) (c : Scene) (s : State), f.bit 2 = true → s.cur.lanes.Nodup → scene s f.x.guard c →
    allLanes s f.x.guard (fun t => t.hitRay.isSome = true) →
    answers (.hitx f) s fun t => onlyLanes s t fun _ th th' =>
      if guardOn f.x.guard th.regs then
        (∀ m, th'.regs.get m =
          if destReg th f.dst = some m then BitVec.ofNat 32 (th.hitRay.getD 0) else th.regs.get m)
        ∧ freshens (fun m => destReg th f.dst = some m) th.regs th'.regs
        ∧ th' = { th with regs := { th.regs with v := th'.regs.v, bad := th'.regs.bad } }
      else th' = th)

/-- 16 R396 to R398: a texture form whose descriptors pass puts one operation with every participating lane in its
core's operand buffer and raises the lanes' counters; it waits where the buffer is full.

Completion: `exec i s` answers a next state, under conditions on `s` and the operands alone, for `texs`, `texg`,
`texq`. -/
def Obligations.TextureForms : Prop :=
  let form (i : FormA → Instr) (op : Nat) : Prop := ∀ (f : FormA) (s : State), s.cur.lanes.Nodup →
    activeLanes s f.x.guard ≠ [] →
    plansPass s f.x.guard (fun t =>
      texPlan s (blockOf s s.cur.block).launch (srcWord t .b f.b).toNat (op != 0x96)) →
    answers (i f) s fun t =>
      (∀ u th, u ∈ s.cur.lanes → threadOf s u = some th → ∃ th', threadOf t u = some th'
        ∧ (∀ k, th'.regs.getCtr k = if guardOn f.x.guard th.regs = true ∧ k + 1 = f.x.ctr.toNat
            then th.regs.getCtr k + 1 else th.regs.getCtr k)
        ∧ th' = { th with regs := { th.regs with ctr := th'.regs.ctr } })
      ∧ (∀ u, u ∉ s.cur.lanes → threadOf t u = threadOf s u)
      ∧ (∃ o : TexOp, (coreOf t s.cur.core).texQ = (coreOf s s.cur.core).texQ ++ [o]
        ∧ o.op = op ∧ o.block = s.cur.block ∧ o.channel = f.field 1 0 ∧ o.ctr = f.x.ctr.toNat
        ∧ o.after = s.nextAccess ∧ o.done = 0
        ∧ o.lanes.map TexLane.uid = (activeLanes s f.x.guard).map Prod.fst
        ∧ ∀ l ∈ o.lanes, ∃ th, threadOf s l.uid = some th ∧ l.lane = th.ctl.lane
            ∧ l.desc = (srcWord th .b f.b).toNat ∧ l.u = (srcPair th .a f.a).setWidth 32
            ∧ l.v = (srcPair th .a f.a).extractLsb' 32 32)
      ∧ (∀ g, g ≠ s.cur.core → coreOf t g = coreOf s g)
      ∧ t.cur.hold = (s.cur.hold || decide (16 ≤ (coreOf s s.cur.core).texQ.length))
      ∧ t.mem = s.mem ∧ t.pend = s.pend
  form .texs 0x94 ∧ form .texg 0x95 ∧ form .texq 0x96

/-- 16 R387, R391, R392, R399: `ATREQ` marks a block requested once a generation and queues it; `ATGET` takes the
oldest entry of the atlas queue and acquires it; `PRIM` gives the launch's next sequence number to a primitive that
its binner accepts. A position without a participating lane needs no descriptor.

Completion: `exec i s` answers a next state, under conditions on `s` and the operands alone, for `atreq`, `atget`,
`prim`. -/
def Obligations.VisibilityForms : Prop :=
  let vis (s : State) (g : Guard) (d : VisDesc) : Prop :=
    activeLanes s g ≠ [] → visDesc s (blockOf s s.cur.block).launch = .ok d
  (∀ (f : FormA) (d : VisDesc), turnForm (.atreq f) f.x.guard f.dst
    (fun s => vis s f.x.guard d ∧ plansPass s f.x.guard fun t => atreqPlan s d t (srcWord t .a f.a).toNat)
    (fun s => holdForRelease s f.x.guard .dev)
    (fun s t => quotaBreach s t (ctxOfBlock s s.cur.block) = false) fun _ a _ t =>
      let ctx := ctxOfBlock a t.block
      let b := (srcWord t .a f.a).toNat
      if readVirtualNat a ctx (d.atlas + 4 * b) 4 = some d.agen then (a, 8)
      else
        let a1 := (writeVirtual a ctx (d.atlas + 4 * b) (leBytes 4 d.agen)).getD a
        (modCtx a1 ctx fun c => { c with atlas := c.atlas.push 256 (leBytes 4 b) }, 0))
  ∧ (∀ f : FormA, turnForm (.atget f) f.x.guard f.dst (fun _ => True) (fun s => s) (fun _ _ => True) fun _ a u t =>
      let ctx := ctxOfBlock a t.block
      match (ctxOf a ctx).atlas.die ++ (ctxOf a ctx).atlas.ring with
      | [] => (a, 0xFFFFFFFF)
      | e :: _ =>
        (modThread (modCtx a ctx fun c => { c with atlas := c.atlas.pop }) u fun x =>
          { x with regs := { x.regs with floor := max x.regs.floor a.dtime } }, BitVec.ofNat 32 (leNat e)))
  ∧ (∀ (f : FormA) (d : VisDesc), turnForm (.prim f) f.x.guard f.dst
    (fun s => vis s f.x.guard d ∧ plansPass s f.x.guard (primPlan s d f) ∧ (binnerOf s d.binner).flushing = false
      ∧ ((launchOf s (blockOf s s.cur.block).launch).cancelled = true ∨ allLanes s f.x.guard fun t =>
          primTooBig s d (primOf f t (blockOf s s.cur.block).launch 0) = false))
    (fun s => s)
    (fun s t => quotaBreach s t (ctxOfBlock s s.cur.block) = false
      ∧ (launchOf t (blockOf s s.cur.block).launch).primSeq ≤ 2 ^ 32)
    fun _ a _ t =>
      let l := (blockOf a t.block).launch
      if (launchOf a l).cancelled then (a, 3)
      else (acceptPrim a d (primOf f t l (launchOf a l).primSeq), 0))
  ∧ (∀ (a : State) (d : VisDesc) (p : BinPrim), (mget a.work.launches p.launch).isSome = true →
      let b := acceptPrim a d p
      (launchOf b p.launch).primSeq = (launchOf a p.launch).primSeq + 1
      ∧ (∃ q, (binnerOf b d.binner).all = (binnerOf a d.binner).all ++ [q] ∧ q.seq = p.seq ∧ q.regs = p.regs
        ∧ q.mask = p.mask ∧ q.launch = p.launch)
      ∧ b.mem = a.mem ∧ b.work.threads = a.work.threads)

/-! ### Barriers and buffers (14, 18) -/

/-- 18 R443 to R448: the barrier forms, where every participating lane may name the barrier: an arrival is counted
once until its phase has completed, `BARX` withdraws it or collects its completion, `BARW` ends at once for a phase
that is over, and `BARS` arrives and then waits for the phase it counted in; a position of `BARS` whose arrivals end
the phase may be a checkpoint (20 R479).

18 R433, R434: an arrival at a gang or block barrier is recorded in its thread and counted; the one that leaves
nothing pending completes the phase, which turns every member's arrival to completed and starts the next phase with
all members pending.

Completion: `exec i s` answers a next state, under conditions on `s` and the operands alone, for `bara`, `barw`,
`bars`, `barx`. -/
def Obligations.BarrierForms : Prop :=
  (let may (g : Guard) (scope i : Nat) (s : State) : Prop :=
     allLanes s g fun t => let d := (launchOfBlock s t.block).desc
       match scope with
       | 0 => i < d.gangBars
       | 1 => i < d.blockBars
       | 2 => d.group = true ∧ i < d.groupBars
       | _ => i < d.launchBars
   let settled (g : Guard) (scope : Nat) (s : State) : State :=
     holdUntilSettled s g (if scope = 0 ∨ scope = 1 then .blk else if scope = 2 then .cls else .dev)
   let result (now p : Nat) : Option Status :=
     let d := (now + 16 - p % 16) % 16
     if d = 0 then none else if d ≤ 7 then some .done else some .stalePhase
   (∀ f : FormA, turnForm (.bara f) f.x.guard f.dst (may f.x.guard (f.field 5 4) (f.field 3 0))
     (settled f.x.guard (f.field 5 4)) (fun _ _ => True) fun _ a u t =>
       let id := barrierId a t (f.field 5 4) (f.field 3 0)
       let phase := (barrierOf a id).phase
       if (arrivalOf t id).state = 1 then (a, BitVec.ofNat 32 (8 + 256 * phase))
       else (arrive a u t id, BitVec.ofNat 32 (256 * phase)))
   ∧ (∀ f : FormA, turnForm (.barx f) f.x.guard f.dst (may f.x.guard (f.field 5 4) (f.field 3 0)) (fun s => s)
     (fun _ _ => True) fun _ a u t =>
       let id := barrierId a t (f.field 5 4) (f.field 3 0)
       match (arrivalOf t id).state with
       | 1 => (withdraw a u t id, 2)
       | 2 => (modThread (setArrival a u id {}) u fun x =>
           { x with regs := { x.regs with floor := max x.regs.floor a.dtime } }, 0)
       | _ => (a, 8))
   ∧ (∀ f : FormW, waitForm (.barw f) f (may f.x.guard (f.field 5 4) (f.field 3 0)) (fun s => s)
     (fun _ a u _ => match threadOf a u with
       | none => some { state := a, status := .done, value := 0 }
       | some t =>
         let now := (barrierOf a (barrierId a t (f.field 5 4) (f.field 3 0))).phase
         (result now (srcWord t .a f.a).toNat).map fun st =>
           { state := a, status := st, value := BitVec.ofNat 32 (st.code + 256 * now), acquire := st == .done })
     (fun _ a u t0 => let t := (threadOf a u).getD t0
       (a, t, .barrier (barrierId a t (f.field 5 4) (f.field 3 0)) ((srcWord t .a f.a).toNat % 16) false))
     (fun _ a u t0 => let t := (threadOf a u).getD t0
       (.timeout, BitVec.ofNat 32 (1 + 256 * (barrierOf a (barrierId a t (f.field 5 4) (f.field 3 0))).phase))))
   ∧ (∀ (f : FormW) (s : State), s.cur.agent = .core → may f.x.guard (f.field 5 4) (f.field 3 0) s →
     let id (a : State) (t : Thread) : BarrierId := barrierId a t (f.field 5 4) (f.field 3 0)
     let arrived (q : State × List (Nat × Bool × Nat)) (p : Nat × Thread) : State × List (Nat × Bool × Nat) :=
       match threadOf q.1 p.1 with
       | none => q
       | some t =>
         let phase := (barrierOf q.1 (id q.1 t)).phase
         if (arrivalOf t (id q.1 t)).state = 1 then (q.1, q.2 ++ [(p.1, true, phase)])
         else (arrive q.1 p.1 t (id q.1 t), q.2 ++ [(p.1, false, phase)])
     let start := settled f.x.guard (f.field 5 4) s
     let q := (activeLanes start f.x.guard).foldl arrived (start, [])
     answers (.bars f) s fun t => chain (fun a p b =>
       match threadOf a p.1 with
       | none => b = a
       | some th =>
         let ends (st : Status) : Prop :=
           endsNow a p.1 f st (BitVec.ofNat 32 (st.code + 256 * p.2.2)) (st == .done) (fun r => r) b
         if p.2.1 = true then ends .busy
         else if (arrivalOf th (id a th)).state = 2 then ends .done
         else if tooLate a th f.x.deadline then ends .timeout
         else blocksNow a p.1 f (.barrier (id a th) p.2.2 true) b) q.2
         (barsPoint start (f.field 5 4) (f.field 3 0) q) t))
  ∧ (∀ (s : State) (u : Nat) (t : Thread) (id : BarrierId) (b : Nat),
     (∃ g i, id = .gang b g i ∧ i < 4) ∨ (∃ i, id = .block b i) → (mget s.work.blocks b).isSome = true →
     threadOf s u = some t → t.block = b → inBarrier s id t = true → t.ctl.run = .bundled →
     let x := barrierOf s id
     let s1 := arrive s u t id
     (1 < x.pending → barrierOf s1 id = { x with pending := x.pending - 1, arrivals := x.arrivals + 1 }
       ∧ ∃ t1, threadOf s1 u = some t1 ∧ arrivalOf t1 id = { state := 1, phase := x.phase })
     ∧ (x.pending = 1 →
       barrierOf s1 id = { x with phase := (x.phase + 1) % 16, pending := x.members, arrivals := 0 }
       ∧ ∃ t1, threadOf s1 u = some t1 ∧ arrivalOf t1 id = { state := 2, phase := x.phase }))

/-- 14 R345 to R348: the transaction-barrier forms on both agents: `TBI` sets a barrier up or is `BUSY`, `TBA` arrives
and gives the phase with bit 31 set where it is rejected, `TBE` expects sectors, and each completes the phase that has
nothing pending; `TBW` waits for a phase. 22 R507: a thread that reads a poisoned barrier consumes poison, and `TBI`, which
writes it whole, ends it.

Completion: `exec i s` answers a next state, under conditions on `s` and the operands alone, for `tbi`, `tba`, `tbe`,
`tbw`. -/
def Obligations.TransactionBarriers : Prop :=
  let settle (b : TxBarrier) : TxBarrier :=
    if b.valid = true ∧ b.arr = 0 ∧ b.sect = 0 then { b with phase := (b.phase + 1) % 16, arr := b.init, flag := 0 } else b
  let tbi (b : TxBarrier) (n : Nat) : TxBarrier × Nat :=
    if (b.valid = true ∧ (b.arr ≠ b.init ∨ b.sect ≠ 0)) ∨ 2047 < n then (b, 8)
    else if n = 0 then ({ b with valid := false }, 0)
    else ({ b with valid := true, init := n, arr := n, sect := 0, flag := 0 }, 0)
  let tba (b : TxBarrier) (_ : Nat) : TxBarrier × Nat :=
    if b.valid = false ∨ b.arr = 0 then (b, b.phase + 2 ^ 31) else (settle { b with arr := b.arr - 1 }, b.phase)
  let tbe (b : TxBarrier) (n : Nat) : TxBarrier × Nat :=
    if b.valid = false ∨ (2 : Int) ^ 31 - 1 < b.sect + n then (b, 8) else (settle { b with sect := b.sect + n }, 0)
  let at_ (a : State) (core i : Nat) : TxBarrier := mgetD (coreOf a core).tbs i {}
  let read (a : State) (core i u block : Nat) : State :=
    if i ∈ (coreOf a core).badTbs then consumePoison a u block { clause := a.cur.addr } else a
  let form (i : FormA → Instr) (whole : Bool) (act : TxBarrier → Nat → TxBarrier × Nat) : Prop :=
    let put (a : State) (core n : Nat) (b : TxBarrier) : State := modCore a core fun c =>
      { c with tbs := mset c.tbs n b, badTbs := if whole then c.badTbs.filter (· != n) else c.badTbs }
    (∀ f : FormA, turnForm (i f) f.x.guard f.dst (fun _ => True) (fun s => s) (fun _ _ => True) fun s a u t =>
      let q := act (at_ a s.cur.core (f.field 5 0)) (srcWord t .a f.a).toNat
      (put (if whole then a else read a s.cur.core (f.field 5 0) u t.block) s.cur.core (f.field 5 0) q.1,
        BitVec.ofNat 32 q.2))
    ∧ ∀ f : FormA, coachForm (i f) f.x.guard f.dst (fun _ => True) (fun _ _ => True) fun s c =>
      let q := act (at_ s s.cur.core (f.field 5 0)) (srcCoach c f.a).toNat
      (put s s.cur.core (f.field 5 0) q.1, BitVec.ofNat 64 q.2)
  let result (b : TxBarrier) (phase : Nat) : Option Status :=
    let d := (b.phase + 16 - phase % 16) % 16
    if 1 ≤ d ∧ d ≤ 7 then some .done
    else if 8 ≤ d then some .stalePhase
    else if b.valid = false then some .busy
    else if b.flag = 0 then none
    else if b.flag = 1 then some .faulted
    else if b.flag = 2 then some .poisoned
    else some .cancelled
  form .tbi true tbi ∧ form .tba false tba ∧ form .tbe false tbe
  ∧ (∀ f : FormW, waitForm (.tbw f) f (fun _ => True) (fun s => s)
    (fun _ a u t => (result (at_ a a.cur.core (f.field 5 0)) (srcWord t .a f.a).toNat).map fun st =>
      { state := read a a.cur.core (f.field 5 0) u t.block, status := st, value := BitVec.ofNat 32 st.code,
        acquire := st == .done })
    (fun _ a _ t => (a, t, .tb a.cur.core (f.field 5 0) (srcWord t .a f.a).toNat))
    (fun _ _ _ _ => (.timeout, 1)))
  ∧ (∀ f : FormW, coachWaitForm (.tbw f) f (fun _ => True)
    (fun s c => (result (at_ s s.cur.core (f.field 5 0)) (srcCoach c f.a).toNat).map fun st =>
      (s, st, BitVec.ofNat 64 st.code, none))
    (fun s c => (s, .tb s.cur.core (f.field 5 0) (srcCoach c f.a).toNat))
    (fun _ _ => (.timeout, 1)))

/-- 14 R349 to R352: the circular-buffer forms: `CBGET` waits for a filled slot and gives its offset, `CBPUT` takes one
from the count of a slot and frees the slots at 0 in order, and `CBPUT.init` sets an idle buffer up.

Completion: `exec i s` answers a next state, under conditions on `s` and the operands alone, for `cbget`, `cbput`,
`cbputInit`. -/
def Obligations.CircularBuffers : Prop :=
  let at_ (core : Nat) (a : State) (i : Nat) : CircBuf := mgetD (coreOf a core).cbufs i {}
  let put (core : Nat) (a : State) (i : Nat) (b : CircBuf) : State :=
    modCore a core fun c => { c with cbufs := mset c.cbufs i b }
  (∀ f : FormW, waitForm (.cbget f) f (fun _ => True) (fun s => s)
    (fun _ a _ t =>
      let b := at_ a.cur.core a (f.field 3 0)
      let q := (srcWord t .a f.a).toNat
      let st := mgetD b.status (q % max 1 b.nslot) .done
      if b.valid = false then some { state := a, status := .busy, value := 8 }
      else if q < b.freeSeq then some { state := a, status := .stalePhase, value := 4 }
      else if q < b.fillSeq then
        some { state := a, status := st, acquire := st == .done,
               value := BitVec.ofNat 32 (st.code + 256 * (b.base + q % max 1 b.nslot * 128 * b.srows)) }
      else none)
    (fun _ a _ t => (a, t, .cbuf a.cur.core (f.field 3 0) (srcWord t .a f.a).toNat))
    (fun _ _ _ _ => (.timeout, 1)))
  ∧ (∀ f : FormA, turnForm (.cbput f) f.x.guard f.dst (fun _ => True) (fun s => holdUntilSettled s f.x.guard .blk)
    (fun _ _ => True) fun s a _ t =>
      let b := at_ s.cur.core a (f.field 3 0)
      let q := (srcWord t .a f.a).toNat
      let k := q % max 1 b.nslot
      if b.fillSeq ≤ q then (put s.cur.core a (f.field 3 0) b, 8)
      else if q < b.freeSeq then (put s.cur.core a (f.field 3 0) b, 4)
      else (put s.cur.core a (f.field 3 0)
        (CircBuf.advanceFree 64 { b with count := mset b.count k (mgetD b.count k 0 - 1) }), 0))
  ∧ (∀ (f : FormA) (s : State) (u : Nat) (th : Thread) (rest : List (Nat × Thread)), s.cur.agent = .core →
      activeLanes s f.x.guard = (u, th) :: rest →
      let base := (srcWord th .a f.a).toNat
      let cfg := (srcWord th .b f.b).toNat
      let b := at_ s.cur.core s (f.field 3 0)
      let new : CircBuf := { valid := true, base := base, srows := cfg % 256 + 1, nslot := cfg / 256 % 64 + 1,
                             cons := cfg / 16384 % 2048 }
      let good : Prop := cfg / 2 ^ 25 = 0 ∧ base % 128 = 0
        ∧ windowOk s s.cur.block s.cur.core base (128 * (cfg % 256 + 1) * (cfg / 256 % 64 + 1)) = true
      (¬good → exec (.cbputInit f) s = .next (faultAt s .protection base))
      ∧ (good → b.takeSeq ≠ b.freeSeq → answers (.cbputInit f) s fun t =>
          inTurn s f.x.guard f.dst (fun a _ _ => (a, 8)) s t)
      ∧ (good → b.takeSeq = b.freeSeq → answers (.cbputInit f) s fun t =>
          inTurn s f.x.guard f.dst (fun a _ _ => (a, 0)) (put s.cur.core s (f.field 3 0) new) t))

/-! ### Queues and levels (13) -/

/-- 13 R306, R307, R325: `QSEND` appends an entry unless its block is cancelled, and `QRECV` takes the oldest one that
no earlier waiter has a claim on, or waits its turn; on both agents.

Completion: `exec i s` answers a next state, under conditions on `s` and the operands alone, for `qsend`, `qrecv`. -/
def Obligations.MessageQueues : Prop :=
  let send (a : State) (ctx q : Nat) (x : DWord) : State :=
    modMsg a ctx q fun k => let p := spillPush 256 (k.die, k.ring) (leBytes 8 x.toNat)
      { k with die := p.1, ring := p.2 }
  (∀ f : FormA, turnForm (.qsend f) f.x.guard f.dst
    (fun s => allLanes s f.x.guard fun t => (srcWord t .a f.a).toNat < 64)
    (fun s => if f.bit 0 then holdUntilSettled s f.x.guard .dev else s)
    (fun s t => quotaBreach s t (ctxOfBlock s s.cur.block) = false) fun _ a _ t =>
      if (blockOf a t.block).cancelled then (a, 3)
      else (send a (ctxOfBlock a t.block) (srcWord t .a f.a).toNat (srcPair t .b f.b), 0))
  ∧ (∀ f : FormA, coachForm (.qsend f) f.x.guard f.dst
    (fun s => (srcCoach (coachOf s s.cur.core) f.a).toNat < 64)
    (fun s t => quotaBreach s t (ctxOfBlock s s.cur.block) = false) fun s c =>
      (send s (ctxOfBlock s s.cur.block) (srcCoach c f.a).toNat (srcCoach c f.b), 0))
  ∧ (∀ f : FormW, waitForm (.qrecv f) f
    (fun s => allLanes s f.x.guard fun t => (srcWord t .a f.a).toNat < 64) (fun s => s)
    (fun _ a _ t =>
      let ctx := ctxOfBlock a t.block
      let q := (srcWord t .a f.a).toNat
      let head := BitVec.ofNat 64 (leNat ((msgQueue a ctx q).all.headD []))
      if (queueWaiters a ctx q).length < (msgQueue a ctx q).all.length then
        some { state := modMsg a ctx q HwQueue.pop, status := .done, value := 0
               more := fun r =>
                let r1 := r.setPair (f.field 9 2) head
                if f.field 0 0 = 1 then { r1 with floor := max r1.floor a.dtime } else r1 }
      else none)
    (fun _ a _ t =>
      let ctx := ctxOfBlock a t.block
      let q := (srcWord t .a f.a).toNat
      let n := (msgQueue a ctx q).turns
      (modMsg a ctx q fun k => { k with turns := n + 1 }, t, .queue ctx q (f.field 0 0 == 1) (f.field 9 2) n))
    (fun _ _ _ _ => (.timeout, 1)))
  ∧ (∀ f : FormW, coachWaitForm (.qrecv f) f
    (fun s => guardCoach f.x.guard (coachOf s s.cur.core) = true → (srcCoach (coachOf s s.cur.core) f.a).toNat < 64)
    (fun s c =>
      let ctx := ctxOfBlock s s.cur.block
      let q := (srcCoach c f.a).toNat
      if (queueWaiters s ctx q).length < (msgQueue s ctx q).all.length then
        some (modMsg s ctx q HwQueue.pop, .done, 0,
          some (f.field 9 2, BitVec.ofNat 64 (leNat ((msgQueue s ctx q).all.headD []))))
      else none)
    (fun s c =>
      let ctx := ctxOfBlock s s.cur.block
      let q := (srcCoach c f.a).toNat
      let n := (msgQueue s ctx q).turns
      (modMsg s ctx q fun k => { k with turns := n + 1 }, .queue ctx q (f.field 0 0 == 1) (f.field 9 2) n))
    (fun _ _ => (.timeout, 1)))

/-- 13 R326 to R328: `SPAWN` reserves a range of block indices and queues it, `CANCEL` cancels the level or handle it
names, and `CMPL` gives the state and counter of one.

Completion: `exec i s` answers a next state, under conditions on `s` and the operands alone, for `spawn`, `cancel`,
`cmpl`. -/
def Obligations.SpawnCancelComplete : Prop :=
  (∀ (f : FormA) (s : State), s.cur.agent = .core →
    let launch (a : State) (t : Thread) : Launch := launchOf a (blockOf a t.block).launch
    let act (a : State) (u : Nat) (t : Thread) : State × Word :=
      let l := (blockOf a t.block).launch
      let k := launchOf a l
      let n := (srcWord t .a f.a).toNat
      let params := (srcPair t .b f.b).toNat
      let a1 := modLaunch a l fun x => { x with nextIndex := x.nextIndex + n }
      let e : SpawnEntry := { first := k.nextIndex, index := k.nextIndex, count := n,
                              entry := (srcPair t .c f.x.srcC).toNat,
                              params := if params = 0 then k.params else params,
                              accs := accessesOf a u, texs := texsOf a a.cur.core u, wh := t.regs.wh
                              home := dieOfCore a.cur.core }
      (if n = 0 ∨ k.cancelled = true then a1 else modLaunch a1 l fun x => enqueueRange x e,
        BitVec.ofNat 32 k.nextIndex)
    eachMeets s f.x.guard f.dst act s (fun a t =>
      (srcWord t .a f.a).toNat ≤ 2 ^ 20 ∧ (srcPair t .b f.b).toNat % 64 = 0
      ∧ (srcPair t .c f.x.srcC).toNat % 4 = 0
      ∧ (launch a t).nextIndex + (srcWord t .a f.a).toNat ≤ 2 ^ 32 - 1) →
    (∀ t, inTurn s f.x.guard f.dst act s t → quotaBreach s t (ctxOfBlock s s.cur.block) = false) →
    answers (.spawn f) s fun t => inTurn s f.x.guard f.dst act s t)
  ∧ (∀ (k : Launch) (e : SpawnEntry),
      let q := enqueueRange k e
      q.counter = k.counter + e.count ∧ q.spawnQ ++ q.spawnRing = k.spawnQ ++ k.spawnRing ++ [e]
      ∧ ∀ i, i < k.desc.launchBars → (mgetD q.bars i {}).members = (mgetD k.bars i {}).members + e.count
          ∧ (mgetD q.bars i {}).pending = (mgetD k.bars i {}).pending + e.count)
  ∧ (∀ f : FormA, turnForm (.cancel f) f.x.guard f.dst (fun _ => True) (fun s => s) (fun _ _ => True) fun _ a _ t =>
      (if f.bit 4 then cancelHandle a (ctxOfBlock a t.block) (f.field 2 0) (srcWord t .a f.a).toNat
       else cancelLevel a t.block (f.field 2 0), 0))
  ∧ (∀ f : FormA, turnForm (.cmpl f) f.x.guard f.dst (fun _ => True) (fun s => s) (fun _ _ => True) fun _ a u t =>
      let q := if f.bit 4 then handleLevel a (ctxOfBlock a t.block) (f.field 2 0) (srcWord t .a f.a).toNat
        else ownLevel a t.block (f.field 2 0)
      (if f.bit 3 = true ∧ (q.1 = 1 ∨ q.1 = 3 ∨ q.1 = 6) then
        modThread a u fun x => { x with regs := { x.regs with floor := max x.regs.floor a.dtime } } else a,
        BitVec.ofNat 32 (2 ^ 28 * q.1 + min q.2 (2 ^ 28 - 1))))

/-! ### Calls to the supervisor, traps and special registers (19, 20) -/

/-- 20 R466, R467, R470: `SVC` takes the next tag whose slot is free for all participating lanes together and queues
the call's record, or gives 0 where all four slots are live; `SVCW` waits for the reply and gives each listed thread
its word.

20 R463, R471: `TRAP` and `BKPT` trap the participating threads at the clause's address, and the others go on.

Completion: `exec i s` answers a next state, under conditions on `s` and the operands alone, for `svc`, `svcw`,
`trap`, `bkpt`. -/
def Obligations.SupervisorCalls : Prop :=
  (let free (s : State) : Prop := ∃ k, k < 4 ∧ mget (syncOf s s.cur.block).calls k = none
   let record (f : FormA) (s : State) : State :=
     let h := holdUntilSettled s f.x.guard .dev
     let ps := activeLanes s f.x.guard
     let tag := nextTag (syncOf s s.cur.block) 7 (syncOf s s.cur.block).callCounter
     modCtx (modSync h s.cur.block fun y => { y with
         callCounter := tag
         calls := mset y.calls (tag % 4) { tag := tag, state := 1, threads := ps.map Prod.fst, waiting := ps.map Prod.fst } })
       (ctxOfBlock s s.cur.block) fun c => { c with svcQ := c.svcQ.pushCall (callRecord h f tag ps) }
   (∀ f : FormA, turnForm (.svc f) f.x.guard f.dst (fun s => activeLanes s f.x.guard ≠ [] ∧ free s) (record f)
     (fun s t => quotaBreach s t (ctxOfBlock s s.cur.block) = false) fun s a _ _ =>
       (a, BitVec.ofNat 32 (nextTag (syncOf s s.cur.block) 7 (syncOf s s.cur.block).callCounter)))
   ∧ (∀ f : FormA, turnForm (.svc f) f.x.guard f.dst (fun s => activeLanes s f.x.guard = [] ∨ ¬free s) (fun s => s)
     (fun _ _ => True) fun _ a _ _ => (a, 0))
   ∧ (∀ y : BlockSync, y.callCounter < 2 ^ 32 → (∃ k, k < 4 ∧ mget y.calls k = none) →
       let t := nextTag y 7 y.callCounter
       0 < t ∧ t < 2 ^ 32 ∧ mget y.calls (t % 4) = none)
   ∧ (∀ f : FormW, waitForm (.svcw f) f
     (fun s => allLanes s f.x.guard fun t => (srcWord t .a f.a).toNat = 0
       ∨ ∃ c, mget (syncOf s t.block).calls ((srcWord t .a f.a).toNat % 4) = some c ∧ c.tag = (srcWord t .a f.a).toNat)
     (fun s => s)
     (fun s a u t =>
       let tag := (srcWord t .a f.a).toNat
       if tag = 0 then some { state := a, status := .done, value := 0, acquire := true }
       else match mget (syncOf s t.block).calls (tag % 4) with
         | none => none
         | some c =>
           if u ∉ c.threads then some { state := a, status := .done, value := 0, acquire := true
                                        more := fun r => r.set (f.field 9 2) 0 }
           else if c.state = 2 then
             some { state := collectCall a t.block (tag % 4) u, status := .done, value := 0, acquire := true
                    more := fun r => r.set (f.field 9 2)
                     (BitVec.ofNat 32 (leNat ((c.reply.drop (4 * c.threads.idxOf u)).take 4))) }
           else none)
     (fun _ a _ t => (a, t, .svc t.block (srcWord t .a f.a).toNat (f.field 9 2)))
     (fun _ _ _ _ => (.timeout, 1))))
  ∧ (let trapped (s : State) (g : Guard) (t : State) : Prop :=
     (∀ u th, u ∈ s.cur.lanes → threadOf s u = some th → ∃ th', threadOf t u = some th'
       ∧ th' = if guardOn g th.regs then
           { th with ctl := { th.ctl with run := .trapped, wait := none, pc := s.cur.addr, npc := none,
                                          refile := false, leaving := false } } else th)
     ∧ (∀ u, u ∉ s.cur.lanes → threadOf t u = threadOf s u)
     ∧ t.cur = s.cur ∧ t.work.bundles = s.work.bundles
   (∀ (f : FormA) (s : State), s.cur.lanes.Nodup → answers (.trap f) s fun t => trapped s f.x.guard t)
   ∧ (∀ (f : FormA) (s : State), s.cur.lanes.Nodup → answers (.bkpt f) s fun t => trapped s f.x.guard t))

/-- 19 R455, 20 R471, R472, 05 R97, R98: reads and writes of the special registers, and `CHKE`, which reads the sticky
bits and clears those its operand names.

Completion: `exec i s` answers a next state, under conditions on `s` and the operands alone, for `chke`, `rds`, `wrs`. -/
def Obligations.SpecialRegisters : Prop :=
  let clear (x : Word) (t : Thread) : Thread :=
    { t with regs := { t.regs with chk := t.regs.chk &&& ~~~(x &&& 3) },
             chkReported := t.chkReported &&& ~~~(x.setWidth 2) }
  let bound (s : State) (t : Thread) (k : Nat) : Word × Word × BitVec 2 :=
    mgetD (ctxOf s (ctxOfBlock s t.block)).bounds k (0xFF800000, 0x7F800000, 0)
  let word (n : Nat) (val : State → Thread → Word) : Prop := ∀ f : FormA, f.field 5 0 = n →
    wordResult (.rds f) f.x.guard f.dst val
  let pair (n : Nat) (val : State → Thread → DWord) : Prop := ∀ f : FormA, f.field 5 0 = n →
    pairResult (.rds f) f.x.guard f.dst val
  word 0 (fun _ t => BitVec.ofNat 32 t.tid)
  ∧ word 1 (fun _ t => BitVec.ofNat 32 t.ctl.lane)
  ∧ word 2 (fun _ t => BitVec.ofNat 32 (t.tid / 32))
  ∧ word 3 (fun s t => BitVec.ofNat 32 (blockOf s t.block).index)
  ∧ word 4 (fun s _ => BitVec.ofNat 32 (s.cur.core % 192))
  ∧ word 5 (fun s _ => BitVec.ofNat 32 (s.cur.core % 192 / 4))
  ∧ word 6 (fun s _ => BitVec.ofNat 32 (s.cur.core / 192))
  ∧ pair 7 (fun s _ => BitVec.ofNat 64 s.dtime)
  ∧ pair 8 (fun s t => BitVec.ofNat 64 (ctxOf s (ctxOfBlock s t.block)).ctime)
  ∧ pair 9 (fun _ t => BitVec.ofNat 64 t.regs.wh)
  ∧ word 10 (fun _ t => t.regs.chk)
  ∧ word 11 (fun s _ => BitVec.ofNat 32 s.power.vs)
  ∧ word 12 (fun s _ => BitVec.ofNat 32 (scapOf s s.cur.core s.power.vs))
  ∧ word 13 (fun _ t => t.regs.status)
  ∧ (∀ k, k < 16 → pair (32 + k) fun s t => (bound s t k).2.1.append (bound s t k).1)
  ∧ (∀ k, k < 16 → word (48 + k) fun s t => (bound s t k).2.2.setWidth 32)
  ∧ (∀ f : FormA, f.field 5 0 = 10 → ∀ s, s.cur.lanes.Nodup → answers (.wrs f) s fun t =>
      onlyLanes s t fun _ th th' => th' = if guardOn f.x.guard th.regs then
          let x := srcWord th .a f.a
          let c := clear x th
          { c with regs := { c.regs with chk := (x &&& 0xFFFF0000) ||| (c.regs.chk &&& 0xFFFF) } }
        else th)
  ∧ (∀ f : FormA, 32 ≤ f.field 5 0 → ∀ s, answers (.wrs f) s fun t =>
      chain (fun a p b =>
        let ctx := ctxOfBlock a p.2.block
        let n := f.field 5 0
        (∀ k, k < 16 → mgetD (ctxOf b ctx).bounds k (0xFF800000, 0x7F800000, 0) =
          if n < 48 ∧ k = n - 32 then
            ((srcPair p.2 .a f.a).setWidth 32, (srcPair p.2 .a f.a).extractLsb' 32 32, (bound a p.2 k).2.2)
          else if 48 ≤ n ∧ k = n - 48 then
            ((bound a p.2 k).1, (bound a p.2 k).2.1, (srcWord p.2 .a f.a).setWidth 2)
          else bound a p.2 k)
        ∧ ctxOf b ctx = { ctxOf a ctx with bounds := (ctxOf b ctx).bounds }
        ∧ (∀ c, c ≠ ctx → ctxOf b c = ctxOf a c) ∧ b = { a with ctxs := b.ctxs }) (activeLanes s f.x.guard) s t)
  ∧ (∀ f : FormA, turnForm (.chke f) f.x.guard f.dst (fun _ => True)
      (fun s => holdClause s ((activeLanes s f.x.guard).any fun p => !readsReturned s p.1)) (fun _ _ => True)
      fun _ a u t => (modThread a u (clear (srcWord t .a f.a)),
        (t.regs.chk &&& 3) ||| ((t.chkReported.setWidth 32) <<< 2)))
  ∧ (∀ f : FormA, coachResult (.rds f) f.x.guard f.dst fun s _ => BitVec.ofNat 64 (match f.field 5 0 with
      | 3 => (blockOf s s.cur.block).index
      | 4 => s.cur.core % 192
      | 5 => s.cur.core % 192 / 4
      | 6 => s.cur.core / 192
      | 7 => s.dtime
      | 8 => (ctxOf s (ctxOfBlock s s.cur.block)).ctime
      | 11 => s.power.vs
      | 12 => scapOf s s.cur.core s.power.vs
      | 13 => (coachOf s s.cur.core).status
      | _ => 0))

/-! ### Device events: accesses (10, 11) -/

/-- 10 R230, R231, R234, R238 to R243, 11 R251, R253, R255, R258, 03 R62: what a request in flight comes to: data returns
to its register and counts down, a store's bytes are written, an atomic's old value is read and its new one stored,
a write is performed at its scope, a lease is taken and expires, and a refused request retries.

10 R237: a blocked load is read again: where the value differs from the one compared the wait ends `DONE` with it,
and else the wait goes on and keeps it.

Completion: `exec i s` answers a next state, under conditions on `s` and the operands alone, for `loadDataReturn`,
`storePerformed`, `releaseWhWaitEnd`, `atomicRequestApply`, `hotQueueRetire`, `blockingLoadReread`, `hPollReread`,
`l1FillRequest`, `leaseExpiry`, `writeApply`, `transientRefusalRetry`, `transientLineRelease`. -/
def Obligations.AccessEvents : Prop :=
  (let leavesWith (s t : State) (a : Access) (R : LaneReq → Regs → Regs)
       (F : LaneReq → List (Nat × Nat) → List (Nat × Nat)) : Prop :=
     t.pend = s.pend.filter (fun b => b.id != a.id)
     ∧ (∀ r ∈ a.lanes, ∀ th, threadOf s r.uid = some th → threadOf t r.uid =
         some { th with regs := (R r th.regs).ctrDown a.ctr, frames := F r th.frames })
     ∧ ∀ u, u ∉ a.lanes.map LaneReq.uid → threadOf t u = threadOf s u
   let leaves (s t : State) (a : Access) (R : LaneReq → Regs → Regs) : Prop := leavesWith s t a R fun _ fs => fs
   let ready (s : State) (a : Access) : Prop := accessOf s a.id = some a ∧ (a.lanes.map LaneReq.uid).Nodup
   let clean (s : State) (a : Access) : Prop :=
     ∀ r ∈ a.lanes, ∀ x ∈ r.addrs ++ r.writes.map Prod.fst, isPoisoned s r.mem (x / 32) = false
   (∀ (s : State) (a : Access), ready s a → a.kind = .result →
     answers (.loadDataReturn { access := a.id }) s fun t =>
       leaves s t a (fun r g => if r.dst < 128 then g.set r.dst (r.operand.setWidth 32) else g) ∧ t.mem = s.mem)
   ∧ (∀ (s : State) (a : Access), ready s a → a.kind = .load → a.space ≠ .globalG → a.space ≠ .constK →
     a.space ≠ .hostH → onTile a = false → a.ordering ≠ .acq → canPerform s a = true → lineBusy s a = false →
     clean s a →
     answers (.loadDataReturn { access := a.id }) s fun t =>
       leaves s t a (fun r g => putLoaded a.size a.sext r.dst (readBytes s r.mem r.addrs) g) ∧ t.mem = s.mem)
   ∧ (∀ (s : State) (a : Access), ready s a → a.kind = .atomic → a.applied = true → a.ordering ≠ .acq →
     (∀ r ∈ a.lanes, r.poison = false) →
     answers (.loadDataReturn { access := a.id }) s fun t =>
       leaves s t a (fun r g => putLoaded a.size false r.dst r.old.toNat g) ∧ t.mem = s.mem)
   ∧ (∀ (s : State) (a : Access) (m : Mem), ready s a → a.kind = .store → a.applied = false →
     a.space = .laneL ∨ a.space = .scratchS ∨ a.space = .clusterC → canPerform s a = true → a.lanes ≠ [] →
     (∀ r ∈ a.lanes, r.mem = m) → m = .device ∨ (∃ b, m = .scratch b ∧ (mget s.work.blocks b).isSome = true) →
     clean s a →
     answers (.storePerformed a.id) s fun t =>
       leavesWith s t a (fun _ g => g) (fun r fs => if m = .device then
         (fs ++ ((r.writes.map fun w => w.1 / 4096).dedup.filter fun n => !(frameOf s n).pin).map
           fun n => (n, (frameOf s n).wrote)).dedup else fs)
       ∧ memCells t m = setCells (memCells s m) (a.lanes.flatMap LaneReq.writes))
   ∧ (∀ (s : State) (a : Access), ready s a → a.kind = .store ∨ a.kind = .reduction →
     performedAt s a a.scope = true → answers (.storePerformed a.id) s fun t =>
       leaves s t a (fun _ g => g) ∧ t.mem = s.mem)
   ∧ (∀ (s : State) (a : Access), ready s a → a.kind = .store → a.space = .globalG → canPerform s a = true →
     lineBusy s a = false → a.lanes.flatMap LaneReq.writes ≠ [] → (∀ r ∈ a.lanes, r.mem = .device) → clean s a →
     answers (.writeApply a.id) s fun t =>
       t.mem.device = setCells s.mem.device (a.lanes.flatMap LaneReq.writes)
       ∧ accessOf t a.id = some { a with applied := true, served := s.dtime
                                         completion := completionTime s (dieOfCore a.core) a.line }
       ∧ ∀ r ∈ a.lanes, r.writes ≠ [] → ∀ th, threadOf s r.uid = some th →
           (threadOf t r.uid).map (·.regs.wh) = some (max th.regs.wh (completionTime s (dieOfCore a.core) a.line)))
   ∧ (∀ (s : State) (a : Access) (r : LaneReq), accessOf s a.id = some a → a.kind = .atomic ∨ a.kind = .reduction →
     a.space = .globalG → canPerform s a = true → lineBusy s a = false → a.lanes = [r] → r.mem = .device →
     clean s a →
     answers (.atomicRequestApply a.id) s fun t =>
       let n := sizeBytes a.size
       let old := BitVec.ofNat 64 (readBytes s .device r.addrs)
       (∃ b, accessOf t a.id = some b ∧ b.applied = true ∧ b.completion = homeCompletion s (dieOfCore a.core) a.line
         ∧ b.lanes = [{ r with old := old }])
       ∧ ((∀ x ∈ byteWrites (r.addrs.headD 0) n 0, isPoisoned s .device (x.1 / 32) = false) →
           t.mem.device = setCells s.mem.device
             (byteWrites (r.addrs.headD 0) n (atomNew a.op a.size old r.operand r.cmp).toNat)))
   ∧ (∀ (s : State) (a : Access), accessOf s a.id = some a → isHotAdd a = true →
     ∃ t, exec (.atomicRequestApply a.id) s = .next t
       ∧ exec (.hotQueueRetire [a.id]) s = .next (oneTransaction s t a.line))
   ∧ (∀ (s : State) (a : Access), accessOf s a.id = some a → (ctxOf s a.ctx).resident = true →
     (if a.space = .hostH then releaseReady s a = true
      else ∀ r ∈ a.lanes, ∀ th, threadOf s r.uid = some th → th.regs.wh ≤ s.dtime) →
     answers (.releaseWhWaitEnd a.id) s fun t => accessOf t a.id = some { a with issued := true, since := s.dtime })
   ∧ (∀ (s : State) (core ctx line : Nat) (a : Access), a ∈ s.pend → a.kind = .load → usesL1 a = true →
     a.core = core → a.ctx = ctx → a.line = line → l1Hit s core line (floorsOf s a) = none →
     fillReady s core line = true → 0 < l1Capacity s (l1Core s core line) →
     answers (.l1FillRequest core ctx line) s fun t => ∃ c, l1Copy t (l1Core s core line) line = some c
       ∧ c.fetch = s.dtime ∧ c.expiry = s.dtime + leaseNs s ctx
       ∧ c.data = cellsFrom s.mem.device (128 * line) 128 ∧ t.mem = s.mem)
   ∧ (∀ (s : State) (core line : Nat) (c : L1Copy), l1Copy s core line = some c → c.expiry ≤ s.dtime →
     answers (.leaseExpiry core line) s fun t => l1Copy t core line = none ∧ t.mem = s.mem
       ∧ ∀ e ∈ mgetD (lineOf t line).tokens (dieOfCore core) [], s.dtime < e)
   ∧ (∀ (s : State) (a : Access), accessOf s a.id = some a → a.refusals ≠ 0 →
     (a.kind = .load → ∃ t, exec (.loadDataReturn { access := a.id }) s = .next t
       ∧ exec (.transientRefusalRetry a.id) s = .next t)
     ∧ (a.kind = .store → ∃ t, exec (.writeApply a.id) s = .next t
       ∧ exec (.transientRefusalRetry a.id) s = .next t)
     ∧ (a.kind = .atomic ∨ a.kind = .reduction → ∃ t, exec (.atomicRequestApply a.id) s = .next t
       ∧ exec (.transientRefusalRetry a.id) s = .next t))
   ∧ (∀ (s : State) (line : Nat), (lineOf s line).transient = true → lineSettled s line = true →
     (lineOf s line).persistent = [] → (lineOf s line).homeWrites = [] →
     answers (.transientLineRelease line) s fun t => lineOf t line = { lineOf s line with transient := false }
       ∧ (∀ l, l ≠ line → lineOf t l = lineOf s l) ∧ t.mem = s.mem))
  ∧ (let form (i : Waiter → Instr) (host : Bool) : Prop :=
     ∀ (s : State) (u : Nat) (t : Thread) (w : Wait) (sp : Space) (va : Nat) (req r : LaneReq) (sx acq : Bool)
       (dst : Nat) (last : DWord),
       threadOf s u = some t → t.ctl.wait = some w → t.ctl.run = .blocked →
       w.kind = .blockingLoad sp va req .b4 sx acq dst last → (sp = .hostH ↔ host = true) →
       rereadPlace s (ctxOfBlock s t.block) sp va req = .ok r → lanePoison s none r = false →
       unread s ((blockOf s t.block).core.getD 0) u sp req = false →
       (let core := (blockOf s t.block).core.getD 0
        let line := r.addrs.headD 0 / 128
        blockedByLine (if r.mem = .device then dropCopy s (l1Core s core line) line else s) core acq [] r = false) →
       let x := readBytes s r.mem r.addrs
       answers (i (.thread u)) s fun t' =>
         (x ≠ req.cmp.toNat → ∃ th, threadOf t' u = some th ∧ th.ctl.wait = none ∧ th.ctl.run = .runnable
           ∧ th.ctl.pc = w.resume ∧ th.regs.status = 0
           ∧ (∀ n, w.dst = .reg n → th.regs.get n.toNat = extendTo32 4 sx x))
         ∧ (x = req.cmp.toNat → threadOf t' u = some { t with ctl := { t.ctl with wait := some { w with
             kind := .blockingLoad sp va r .b4 sx acq dst (BitVec.ofNat 64 x) } } })
   form .blockingLoadReread false ∧ form .hPollReread true)

/-- 11 R258, R266 to R269: the directory's transactions: a read from the home makes the reader a sharer, or the sole
holder; a request for a line that another die owns is forwarded and the line is transient; ownership passes when every
sharer has answered; a write-back and an eviction leave no copy; a message older than the die's version is dropped.

Completion: `exec i s` answers a next state, under conditions on `s` and the operands alone, for `dirReadRequest`,
`dirOwnershipRequest`, `dirUpgradeRequest`, `dirWriteback`, `dirAtomicRequest`, `dirForward`, `invalidationAck`,
`dataMessageReceipt`, `snoopFilterEviction`. -/
def Obligations.DirectoryEvents : Prop :=
  (∀ (s : State) (die line : Nat), canBegin s die line = true → dieHolds (lineOf s line) line die = false →
    filterBlocks s die line = false →
    answers (.dirReadRequest die line) s fun t =>
      match ownerOf (lineOf s line) with
      | none => moesiOf (lineOf t line) die = (if (lineOf s line).states = [] then .exclusive else .shared)
          ∧ (lineOf t line).transient = false
      | some o => (lineOf t line).transient = true
          ∧ (lineOf t line).txn = some { die := die, own := false, forward := some o })
  ∧ (let own (i : Nat → Nat → Instr) (m : Moesi → Prop) : Prop := ∀ (s : State) (die line : Nat),
        canBegin s die line = true → filterBlocks s die line = false → m (moesiOf (lineOf s line) die) →
        answers (i die line) s fun t =>
          (lineOf t line).transient = true
          ∧ (lineOf t line).acks = (mkeys (lineOf s line).states).filter
              (fun x => !(die :: ((ownerOf (lineOf s line)).filter (· != die)).toList).contains x)
          ∧ ((lineOf t line).acks = [] → (ownerOf (lineOf s line)).filter (· != die) = none →
              (lineOf t line).txn = none ∧ (lineOf t line).states = if die = homeDie line then [] else [(die, .modified)])
     own .dirOwnershipRequest (fun m => m = .invalid)
     ∧ own .dirUpgradeRequest (fun m => m = .shared ∨ m = .owned))
  ∧ (∀ (s : State) (die line : Nat), canBegin s die line = true → msorted (lineOf s line).states = true →
    moesiOf (lineOf s line) die = .modified ∨ moesiOf (lineOf s line) die = .owned →
    answers (.dirWriteback die line) s fun t => moesiOf (lineOf t line) die = .invalid
      ∧ ∀ d, d ≠ die → moesiOf (lineOf t line) d = moesiOf (lineOf s line) d)
  ∧ (∀ (s : State) (die line : Nat), canBegin s die line = true →
    answers (.dirAtomicRequest die line) s fun t => (lineOf t line).transient = true ∧ t.mem = s.mem
      ∧ ((lineOf t line).txn = none → (lineOf t line).states = []))
  ∧ (∀ (s : State) (die line : Nat) (x : LineTxn), (lineOf s line).txn = some x → x.forward = some die →
    answers (.dirForward die line) s fun t =>
      if x.own = true then
        (lineOf t line).txn = if (lineOf s line).acks = [] then none else some { x with forward := none }
      else (lineOf t line).txn = none ∧ moesiOf (lineOf t line) x.die = .shared)
  ∧ (∀ (s : State) (die line : Nat), die ∈ (lineOf s line).acks →
    answers (.invalidationAck die line) s fun t =>
      (lineOf t line).acks = (lineOf s line).acks.filter (· != die))
  ∧ (∀ (s : State) (die line : Nat) (v own : BitVec 16), moesiOf (lineOf s line) die ≠ .invalid →
    mget (lineOf s line).holderVersion die = some own →
    ((v - own).toNat < 2 ^ 15 → answers (.dataMessageReceipt die line v) s fun t =>
      mget (lineOf t line).holderVersion die = some v)
    ∧ (2 ^ 15 < (v - own).toNat → exec (.dataMessageReceipt die line v) s = .next s))
  ∧ (∀ (s : State) (line : Nat), canBegin s (homeDie line) line = true → (lineOf s line).states ≠ [] →
    answers (.snoopFilterEviction line) s fun t => (lineOf t line).transient = true
      ∧ (lineOf t line).acks = (mkeys (lineOf s line).states).filter (fun x => x != homeDie line))

/-- 11 R270 to R272, 22 R509: pages shared with hosts: a snoop starts the surrender of a page the device holds, the
answer gives the page up when the last lease has passed, and the page comes back by block transfer; a second timeout
of a die treats it as lost.

Completion: `exec i s` answers a next state, under conditions on `s` and the operands alone, for
`backInvalidationSnoop`, `pageSurrenderAnswer`, `surrenderedPageRefetch`, `sleepingProbeTimeout`. -/
def Obligations.SharedPageEvents : Prop :=
  (∀ (s : State) (pool f : Nat), frameOfPool s pool = some f → s.power.asleep = false →
    (frameOf s f).shared = true → (frameOf s f).hstate = 0 → (frameOf s f).leaving = false →
    (frameOf s f).mig = false →
    answers (.backInvalidationSnoop pool) s fun t => (frameOf t f).hstate = 1 ∧ t.mem = s.mem
      ∧ ∀ l, l / 32 = f → (lineOf t l).transient = true)
  ∧ (∀ (s : State) (f : Nat), (frameOf s f).hstate = 1 → (frameOf s f).lastLease ≤ s.dtime →
    answers (.pageSurrenderAnswer f) s fun t => (frameOf t f).hstate = 2 ∧ (frameOf t f).valid = false
      ∧ (frameOf t f).dirty = 0 ∧ t.mem.device = s.mem.device)
  ∧ (∀ (s : State) (f : Nat), (frameOf s f).hstate = 2 →
    ∃ t, exec (.surrenderedPageRefetch f) s = .next t
      ∧ ((∀ l, l / 32 = f → (lineOf s l).persistent = [] ∧ (lineOf s l).homeWrites = []) →
          poolCovered s (4096 * (frameOf s f).pool) = true →
          (frameOf t f).hstate = 0 ∧ (frameOf t f).valid = true ∧ (frameOf t f).dirty = 0))
  ∧ (∀ (s : State) (home die : Nat), home < 4 → die < 4 → home ≠ die → (dieOf s die).lost = false →
    lateProbes s home die ≠ [] →
    answers (.sleepingProbeTimeout home die) s fun t =>
      mgetD (dieOf t home).timeouts die 0 = mgetD (dieOf s home).timeouts die 0 + 1
      ∧ ((dieOf t die).lost = true ↔ 1 ≤ mgetD (dieOf s home).timeouts die 0))

/-! ### Device events: scheduling, waits and blocks (02, 08, 09) -/

/-- 02 R28 to R30, R40, 03 R77, 08 R193: a clause is fetched whole; a bin drawn gives a bundle of its lowest thread
slots; the filing queue drains into free bins; a wait ends when its condition holds, or at its deadline with the status
its form gives; the block-level check withdraws or frees a convergence register whose missing thread has exited.

Completion: `exec i s` answers a next state, under conditions on `s` and the operands alone, for `clauseFetch`,
`bundleDraw`, `binAgeLimitExpiry`, `filingQueueDrain`, `waitConditionMet`, `waitDeadlineExpiry`, `blockLevelCheck`. -/
def Obligations.SchedulingEvents : Prop :=
  let ended (t : State) (u : Nat) (w : Wait) (st : Status) (val : Word) : Prop :=
    ∃ th, threadOf t u = some th ∧ th.ctl.wait = none ∧ th.ctl.run = .runnable ∧ th.ctl.pc = w.resume
      ∧ th.regs.status = BitVec.ofNat 32 st.code ∧ ∀ n, w.dst = .reg n → th.regs.get n.toNat = val
  let waits (s : State) (u : Nat) (t : Thread) (w : Wait) : Prop :=
    threadOf s u = some t ∧ t.ctl.wait = some w ∧ t.ctl.run = .blocked
      ∧ (ctxOf s (ctxOfBlock s t.block)).resident = true
  let untimed (st : Status) : Prop := st ≠ .timeout ∧ st ≠ .partialDone
  let drawn (i : Nat → Nat → Instr) (aged : Bool) : Prop := ∀ (s : State) (core bin : Nat) (b : Bin),
    drawChoice s core = some (bin, b) → blockRuns s b.block = true → (coreOf s core).halted = false →
    (aged = true → mget (coreOf s core).bins bin = some b ∧ binAged s (coreOf s core) b = true) →
    answers (i core bin) s fun t =>
      t.work.bundles = s.work.bundles ++ [{ core := core, block := b.block, lanes := b.threads.take 32 }]
      ∧ (∀ u ∈ b.threads.take 32, ∀ th, threadOf s u = some th → ∃ n, (b.threads.take 32)[n]? = some u
          ∧ threadOf t u = some { th with ctl := { th.ctl with lane := n, run := .bundled } })
      ∧ (b.threads.length ≤ 32 → (coreOf t core).bins = merase (coreOf s core).bins bin)
      ∧ (32 < b.threads.length → mget (coreOf t core).bins bin = some { b with threads := b.threads.drop 32 })
  (∀ (s : State) (a : ClauseAgent) (r : List ClauseAgent) (ws : List Word) (h : Header) (is : List Instr),
    let s0 : State := { s with cur := curFor s a }
    clauseAgents s = a :: r → clauseText s0 = .ok ws →
    checkClause s0.cur.agent (launchOfBlock s s0.cur.block).desc.allot ws = .ok (h, is) →
    clauseReady (loadClause s0 ws.length h is) = true →
    answers .clauseFetch s fun t => t.cur.core = s0.cur.core ∧ t.cur.lanes = s0.cur.lanes
      ∧ t.cur.addr = s0.cur.addr ∧ t.cur.stop = s0.cur.addr + 4 * ws.length ∧ t.cur.code.map Prod.snd = is
      ∧ t.work = s.work ∧ t.mem = s.mem)
  ∧ drawn .bundleDraw false
  ∧ drawn .binAgeLimitExpiry true
  ∧ (∀ (s : State) (core u i : Nat) (r : List Nat) (th : Thread), (coreOf s core).fileQ = u :: r →
    threadOf s u = some th → binOfKey (coreOf s core) th.block th.ctl.pc th.ctl.key = none →
    freeBin (coreOf s core) = some i →
    answers (.filingQueueDrain core) s fun t => (coreOf t core).fileQ = r ∧ mget (coreOf t core).bins i =
      some { block := th.block, pc := th.ctl.pc, key := th.ctl.key, threads := [u], since := s.dtime })
  ∧ (∀ (s : State) (u : Nat) (t : Thread) (w : Wait), waits s u t w →
    let met (st : Status) (val : Word) : Prop :=
      untimed st → answers (.waitConditionMet (.thread u)) s fun t' => ended t' u w st val
    (∀ b p x st, w.kind = .barrier b p x → phaseResult (barrierOf s b).phase p = some st →
      met st (statusWord st (barrierField w (barrierOf s b).phase)))
    ∧ (∀ c i p st, w.kind = .tb c i p → (tbOf s c i).result p = some st → met st st.word)
    ∧ (∀ c i n p, w.kind = .cbuf c i n → (cbufOf s c i).result n = some p → met p.1 p.2)
    ∧ (∀ c n x p, w.kind = .copy c n x → copyResult s c n x = some p → met p.1 (ticketWord p.1 p.2))
    ∧ (∀ b n x p, w.kind = .matrix b n x → matrixResult s b n x = some p → met p.1 (ticketWord p.1 p.2))
    ∧ (∀ p, raywResult s w.kind = some p → met p.1 (statusWord p.1 p.2)))
  ∧ (∀ (s : State) (g c i p : Nat) (w : Wait) (st : Status), (coachOf s g).wait = some w →
    (coachOf s g).running = true → (ctxOf s (ctxOfBlock s (coachOf s g).block)).resident = true →
    w.kind = .tb c i p → (tbOf s c i).result p = some st → untimed st →
    answers (.waitConditionMet (.coachman g)) s fun t => (coachOf t g).wait = none ∧ (coachOf t g).pc = w.resume
      ∧ (coachOf t g).status = st.code ∧ ∀ n, w.dst = .reg n → (coachOf t g).get n.toNat = st.word.setWidth 64)
  ∧ (∀ (s : State) (u : Nat) (t : Thread) (w : Wait), waits s u t w →
    w.deadline ≤ (ctxOf s (ctxOfBlock s t.block)).ctime →
    (∀ t', conditionMet s u t w = some t' → exec (.waitDeadlineExpiry (.thread u)) s = .next t')
    ∧ (conditionMet s u t w = none → w.esc = false → (ctxOf s (ctxOfBlock s t.block)).f.escLimit = 0 →
        let ends (st : Status) (val : Word) : Prop :=
          answers (.waitDeadlineExpiry (.thread u)) s fun t' => ended t' u w st val
        match w.kind with
        | .barrier b _ _ => ends .timeout (statusWord .timeout (barrierField w (barrierOf s b).phase))
        | .fence classes scope accesses engines pages wh => ends .partialDone
            (statusWord .partialDone (fenceMask s t.block classes scope accesses engines pages t.frames wh))
        | .blockingLoad .. => True
        | _ => ends .timeout Status.timeout.word))
  ∧ (∀ (s : State) (b : Nat), blockRuns s b = true →
    answers (.blockLevelCheck b) s fun t => t.mem = s.mem ∧ t.work.threads = s.work.threads
      ∧ (syncOf t b).lastCheck = s.dtime
      ∧ ∀ k, k < 16 → kregOf t b k =
          if unsignedExit s b (kregOf s b k) = true then
            match (kregOf s b k).state, (kregOf s b k).command with
            | .declared, _ => { kregOf s b k with state := .withdrawn }
            | .bound, some _ => {}
            | _, _ => kregOf s b k
          else kregOf s b k)

/-- 02 R34, R35, R41, R42, 09 R217 to R221: a block is placed on a core that can hold it once the banks it takes have been
spilled, evicted when all its threads are blocked once its wait records are saved, placed again once its banks are refilled,
parked and refilled, and ends; a launch held for want of rows is reported; the steps of the operating point, of which one that
meets another or a switch waits.

Completion: `exec i s` answers a next state, under conditions on `s` and the operands alone, for `blockPlacement`,
`blockEnd`, `blockEviction`, `opStepDownOrder`, `evaclimitExpiry`, `rowEvacuation`, `opClockSwitch`, `railSlewDone`,
`opStepUp`, `parkedBlockRefill`, `holdlimitExpiry`. -/
def Obligations.BlockEvents : Prop :=
  let calm (s : State) : Prop :=
    s.power.target = none ∧ (s.tables.partitions.any fun p => p.2.state == 3) = false
  (∀ (s s1 : State) (l core : Nat) (e : SpawnEntry) (hit : Bool), nextEntry (launchOf s l) = some (e, hit) →
    (launchOf s l).desc.group = false → spawnReady s e = true → (∀ d, e.die = some d → dieOfCore core = d) →
    (launchOf s l).cancelled = false → fits s core l (gangsOf (launchOf s l) e.index) = true →
    readyCore l (gangsOf (launchOf s l) e.index) (.ok s) core = .ok s1 →
    answers (.blockPlacement (.next l) core) s fun t =>
      let b := s1.work.nextBlock
      t.work.nextBlock = b + 1 ∧ (coreOf t core).blocks = (coreOf s1 core).blocks ++ [b]
      ∧ (blockOf t b).launch = l ∧ (blockOf t b).index = e.index ∧ (blockOf t b).core = some core
      ∧ (blockOf t b).entry = e.entry ∧ (blockOf t b).params = e.params)
  ∧ (∀ (s s0 : State) (b core : Nat), (blockOf s b).evicted = true → (blockOf s b).parked = false →
    (blockOf s b).core = some core → ((threadsOfBlock s b).any fun p => p.2.ctl.run == .runnable) = true →
    (ctxOf s (ctxOfBlock s b)).resident = true → (blockOf s b).gangs ≤ (freeGangSlots s core).length →
    0 < rampLeft s (dieOfCore core) → refillBanks (.ok s) b = .ok s0 →
    answers (.blockPlacement (.again b) core) s fun t => (blockOf t b).evicted = false)
  ∧ (∀ (s : State) (b : Nat), (mget s.work.blocks b).isSome = true → (blockOf s b).ended = false →
    (ctxOf s (ctxOfBlock s b)).resident = true → blockSettled s b = true → blockIdle s b = true →
    answers (.blockEnd b) s fun t => ∀ u th, threadOf t u = some th → th.block ≠ b)
  ∧ (∀ (s s1 : State) (b : Nat), blockRuns s b = true → allBlocked s b = true → saveWaits s b = .ok s1 →
    (mget s1.work.blocks b).isSome = true →
    answers (.blockEviction b) s fun t => (blockOf t b).evicted = true ∧ t.work.threads = s1.work.threads
      ∧ t.mem = s1.mem)
  ∧ (∀ (s s0 s2 : State) (b core : Nat), (blockOf s b).core = some core → (blockOf s b).parked = true →
    rowsUsed s core + (launchOfBlock s b).desc.rows
      ≤ capacityWith s core (coreOf s core).roles (launchOfBlock s b).desc.tobBanks (planVs s) →
    (ctxOf s (ctxOfBlock s b)).resident = true → unparkRows s b = .ok s0 →
    let s1 := modBlock s0 b fun x =>
      { x with parked := false, selected := false
               rowPlace := givePlaces (launchOfBlock s b).desc.rows (blockRoom s core (planVs s)) }
    ((blockOf s b).ended = true → answers (.parkedBlockRefill b) s fun t => t = s1)
    ∧ ((blockOf s b).ended = false → (blockOf s b).gangs ≤ (freeGangSlots s core).length →
        refillBanks (.ok s1) b = .ok s2 →
        answers (.parkedBlockRefill b) s fun t => blockOf t b = blockOf s2 b ∧ t.mem = s2.mem))
  ∧ (∀ (s : State) (l since : Nat), (launchOf s l).heldSince = some since → s.power.holdLimit ≠ 0 →
    (launchOf s l).holdReported = false → heldForRows s l = true →
    since + 1000 * s.power.holdLimit ≤ (ctxOf s (launchOf s l).ctx).ctime →
    answers (.holdlimitExpiry l) s fun t => (launchOf t l).holdReported = true)
  ∧ (∀ (s : State) (n : Nat), calm s → s.power.vs < n → n ≤ 5 →
    answers (.opStepDownOrder n) s fun t => t.power =
      { s.power with target := some n, phase := 1, orderedAt := s.dtime, urgent := false })
  ∧ (∀ (s : State) (n : Nat), ¬calm s → s.power.vs < n → n ≤ 5 →
    answers (.opStepDownOrder n) s fun t =>
      t = { s with power := { s.power with queued := s.power.queued ++ [(n, false)] } })
  ∧ (∀ s : State, s.power.phase = 1 → selectedBlocks s = [] →
    answers .evaclimitExpiry s fun t => t.power = { s.power with phase := 2 })
  ∧ (∀ (s s1 s2 : State) (b : Nat), s.power.phase = 1 → s.power.orderedAt + evacNs s ≤ s.dtime →
    selectedBlocks s = [b] → drained s b = true → parkRows (parkWork s b) b = .ok s1 → saveWaits s1 b = .ok s2 →
    (mget s2.work.blocks b).isSome = true →
    answers .evaclimitExpiry s fun t => (blockOf t b).parked = true ∧ (blockOf t b).rowPlace = [])
  ∧ (∀ (s : State) (core n : Nat), s.power.target = some n → s.power.phase = 2 →
    lostBanks (moveTobRows (moveBlockRows s core n) core n) core n = [] →
    answers (.rowEvacuation core) s fun t => t.power = s.power ∧ t.mem = s.mem
      ∧ (coreOf t core).l1 = (coreOf s core).l1.take (roleRows s core 0 n))
  ∧ (∀ (s : State) (n : Nat), s.power.target = some n → s.power.phase = 2 → evacuated s n = true →
    answers .opClockSwitch s fun t => t.power = { s.power with vs := n, phase := 3 })
  ∧ (∀ s : State, s.power.phase = 3 → s.tables.switches = [] → s.power.queued = [] →
    answers .railSlewDone s fun t => t.power =
      { s.power with rail := s.power.vs, target := none, phase := 0, urgent := false })
  ∧ (∀ (s : State) (n : Nat), calm s → n < s.power.vs →
    answers (.opStepUp n) s fun t => t.power = { s.power with rail := n, vs := n })
  ∧ (∀ (s : State) (n : Nat), ¬calm s → n < s.power.vs →
    answers (.opStepUp n) s fun t =>
      t = { s with power := { s.power with queued := s.power.queued ++ [(n, false)] } })

/-! ### Device events: contexts (02, 17, 19 to 22) -/

/-- 20 R463, R464, R469, R481, 19 R453: the supervisor's resume commands act on the threads that a trap record still
holds; a trap held too long ends them; a reply reaches its call; a rollback gives the threads their checkpoint; sticky
bits are reported; held events are written, failed writes retried, and a notification is sent at most once in 1 µs.

Completion: `exec i s` answers a next state, under conditions on `s` and the operands alone, for
`checkIntervalReport`, `eventHeldWrite`, `notificationMessage`, `structureWriteRetry`, `trapResumeRetry`,
`trapResumeSkip`, `trapResumeEnd`, `trapResumeCancel`, `traplimitExpiry`, `svcReply`, `rollback`. -/
def Obligations.TrapEvents : Prop :=
  let mailed (t : State) (die st reason : Nat) : Prop :=
    (dieOf t die).mailStatus = st ∧ (dieOf t die).mailReason = reason ∧ (dieOf t die).mailBusy = false
  let held (s : State) (die ctx slot : Nat) (r : ReplayRecord) : Prop :=
    mailOpen s die = true ∧ ctx < 4096 ∧ (ctxOf s ctx).resident = true ∧ trapRecord s ctx slot = some r
  let allExited (s t : State) (ctx slot : Nat) (r : ReplayRecord) : Prop :=
    ∀ u ∈ trapped s ctx slot r, (threadOf t u).map (·.ctl.run) = some .exited
  (∀ (s : State) (die ctx slot : Nat) (r : ReplayRecord), held s die ctx slot r →
    (r.kind = 1 → answers (.trapResumeRetry die ctx slot) s fun t => mailed t die 0 0
      ∧ ∀ u ∈ trapped s ctx slot r, ∃ th th', threadOf s u = some th ∧ threadOf t u = some th'
          ∧ th'.ctl.run = .runnable ∧ th'.ctl.pc = th.ctl.pc ∧ th'.regs = th.regs)
    ∧ (r.kind = 6 → ∃ t, exec (.trapResumeSkip die ctx slot) s = .next t
        ∧ exec (.trapResumeRetry die ctx slot) s = .next t)
    ∧ (r.kind ≠ 1 → r.kind ≠ 6 → ∃ t, exec (.trapResumeEnd die ctx slot) s = .next t
        ∧ exec (.trapResumeRetry die ctx slot) s = .next t))
  ∧ (∀ (s : State) (die ctx slot : Nat) (r : ReplayRecord), held s die ctx slot r →
    (r.kind = 1 ∨ r.kind = 4 ∨ r.kind = 5 ∨ r.kind = 6 →
      answers (.trapResumeSkip die ctx slot) s fun t => mailed t die 0 0
        ∧ ∀ u ∈ trapped s ctx slot r, ∃ th th', threadOf s u = some th ∧ threadOf t u = some th'
            ∧ th'.ctl.run = .runnable
            ∧ (r.kind = 6 → th'.ctl.pc = (resumePoint r).1)
            ∧ (r.kind ≠ 6 → th.ctl.npc = none → th.ctl.loop = none →
                th'.ctl.pc = (resumePoint r).1 + 4 * (resumePoint r).2))
    ∧ (r.kind ≠ 1 → r.kind ≠ 4 → r.kind ≠ 5 → r.kind ≠ 6 →
        ∃ t, exec (.trapResumeEnd die ctx slot) s = .next t ∧ exec (.trapResumeSkip die ctx slot) s = .next t))
  ∧ (∀ (s : State) (die ctx slot : Nat) (r : ReplayRecord), held s die ctx slot r →
    answers (.trapResumeEnd die ctx slot) s fun t => mailed t die 0 0 ∧ allExited s t ctx slot r)
  ∧ (∀ (s : State) (die ctx slot u : Nat) (us : List Nat) (r : ReplayRecord), held s die ctx slot r →
    trapped s ctx slot r = u :: us →
    exec (.trapResumeCancel die ctx slot) s =
      .next (mailReply (freeRecord (cancelLaunch s (blockOf s (u / 1024)).launch) ctx slot) die 0 0))
  ∧ (∀ (s : State) (ctx slot : Nat) (r : ReplayRecord), trapRecord s ctx slot = some r →
    (ctxOf s ctx).resident = true →
    r.since + max 1 (ctxOf s ctx).f.trapLimit * 1000 ≤ (ctxOf s ctx).ctime →
    answers (.traplimitExpiry ctx slot) s fun t => allExited s t ctx slot r)
  ∧ (∀ (s : State) (ctx b : Nat) (c : Context) (e : List Byte), mget s.ctxs ctx = some c →
    c.svcrRead ≠ c.svcrWrite → readVirtual s ctx (c.f.svcrBase + 256 * c.svcrRead) 256 = .ok e →
    fieldOf e 4 2 = ctx → replyTarget s ctx (fieldOf e 0 4) (fieldOf e 6 2) (fieldOf e 8 1) = some b →
    answers (.svcReply ctx) s fun t => (ctxOf t ctx).svcrRead = (c.svcrRead + 1) % max 1 c.f.svcrSize
      ∧ mget (syncOf t b).calls (fieldOf e 0 4 % 4) = (mget (syncOf s b).calls (fieldOf e 0 4 % 4)).map
          fun k => { k with state := 2, reply := (e.drop 128).take 128 })
  ∧ (∀ (s : State) (b : Nat) (img : Image), (syncOf s b).checkpoint = some img → rollbackReady s b = true →
    (img.threads.map Prod.fst).Nodup →
    answers (.rollback b) s fun t => (syncOf t b).rollbackUsed = true ∧ (syncOf t b).rollbackDue = false
      ∧ (syncOf t b).kregs = (syncOf s b).checkKregs
      ∧ ∀ p ∈ img.threads, ∀ th, threadOf t p.1 = some th → th.regs = { p.2.regs with ctr := [] }
          ∧ th.ctl.pc = p.2.ctl.pc ∧ th.ctl.wait = none)
  ∧ (∀ (s : State) (u bit : Nat) (t : Thread), threadOf s u = some t → intervalDue s t bit = true →
    answers (.checkIntervalReport u bit) s fun t' => threadOf t' u =
      some { t with chkReported := t.chkReported ||| BitVec.ofNat 2 (2 ^ bit) })
  ∧ (∀ (s : State) (die : Nat) (e : EventEntry), heldEntry s die = some e →
    let s0 := modDie s die fun d => { d with fault := { d.fault with held := d.fault.held.erase e } }
    (writeVirtual s0 e.ctx (eventSlot s e.ctx) (e.bytes (dieOf s die).fault.drops)).isSome = true →
    answers (.eventHeldWrite die) s fun t => (dieOf t die).fault.held = (dieOf s die).fault.held.erase e
      ∧ (dieOf t die).fault.drops = 0 ∧ (ctxOf t e.ctx).evtWrite = (ctxOf s e.ctx).evtWrite + 1
      ∧ (moreOf t e.ctx).notifyPending = true)
  ∧ (∀ (s : State) (ctx : Nat), (moreOf s ctx).notifyPending = true →
    (∀ x, mget s.tables.vectors (moreOf s ctx).vector = some x → x + 1000 ≤ s.dtime) →
    answers (.notificationMessage ctx) s fun t =>
      moreOf t ctx = { moreOf s ctx with notifyPending := false, notified := (moreOf s ctx).notified + 1 }
      ∧ mget t.tables.vectors (moreOf s ctx).vector = some s.dtime)
  ∧ (∀ (s : State) (ctx x : Nat), (moreOf s ctx).retryAt = some x → x ≤ s.dtime →
    (moreOf s ctx).replayWaiting = [] → heldFor s ctx = none → (ctxOf s ctx).resident = true →
    answers (.structureWriteRetry ctx) s fun t => moreOf t ctx = { moreOf s ctx with retryAt := none, failed := [] })

/-- 02 R44, R47, 13 R325, 15 R359, 17 R405, 20 R474, R475, 22 R514: contexts are created and destroyed; the mailbox
drops translations, loads programs of units, defines, switches and frees partitions; a switch drains, saves and
restores. A command with an operand out of its range has no effect and answers 3.

Completion: `exec i s` answers a next state, under conditions on `s` and the operands alone, for `partitionDrainEnd`,
`partitionRestore`, `translationInvalidate`, `uptLoad`, `partitionDefine`, `partitionSwitch`, `partitionFree`,
`contextCreation`, `contextDestruction`. -/
def Obligations.ContextEvents : Prop :=
  let mailed (t : State) (die st reason : Nat) : Prop :=
    (dieOf t die).mailStatus = st ∧ (dieOf t die).mailReason = reason ∧ (dieOf t die).mailBusy = false
  (∀ (s : State) (die ctx vpn n : Nat), mailOpen s die = true → ctx < 4096 → vpn < 2 ^ 44 → 0 < n → n ≤ 2 ^ 44 →
    answers (.translationInvalidate die ctx vpn n) s fun t => t.mem = s.mem
      ∧ (ctxPerformed s ctx = true → mailed t die 0 0)
      ∧ (ctxPerformed s ctx = false → (dieOf t die).mailBusy = true ∧ (dieOf t die).invalidating = some (ctx, vpn, n))
      ∧ (∀ core, ∀ e ∈ (coreOf t core).tlb, e.ctx = ctx → ¬ (vpn ≤ e.vpn ∧ e.vpn < vpn + n))
      ∧ ∀ x, ∀ e ∈ mgetD t.engineTlb x [], e.ctx = ctx → ¬ (vpn ≤ e.vpn ∧ e.vpn < vpn + n))
  ∧ (∀ (s : State) (die ctx vpn n : Nat), mailOpen s die = true → 4096 ≤ ctx ∨ 2 ^ 44 ≤ vpn ∨ n = 0 ∨ 2 ^ 44 < n →
    exec (.translationInvalidate die ctx vpn n) s = .next (mailReply s die 3 0))
  ∧ (∀ (s : State) (die ctx unit slot image : Nat), mailOpen s die = true → (mget s.ctxs ctx).isSome = true →
    1 ≤ unit → unit ≤ 3 → slot ≤ 7 → imageOk s image = true →
    answers (.uptLoad die ctx unit slot image) s fun t => mailed t die 0 0
      ∧ mget (ctxOf t ctx).upt (8 * unit + slot) = some (cellsFrom s.mem.device image 64))
  ∧ (∀ (s : State) (die i mask : Nat), mailOpen s die = true → i < 16 → mask < 2 ^ 192 →
    let clash := (partOf s i).state ≠ 0
      ∨ ∃ p ∈ s.tables.partitions, p.2.state ≠ 0 ∧ (p.2.mask &&& BitVec.ofNat 192 mask) ≠ 0
    (¬ clash → answers (.partitionDefine die i mask) s fun t => mailed t die 0 0
      ∧ partOf t i = { mask := BitVec.ofNat 192 mask, state := 2 })
    ∧ (clash → answers (.partitionDefine die i mask) s fun t => mailed t die 2 4 ∧ t.tables = s.tables))
  ∧ (∀ (s : State) (die i : Nat), mailOpen s die = true → i < 16 →
    let used := (partOf s i).ctx.isSome = true ∨ (partOf s i).state = 3
    (¬ used → answers (.partitionFree die i) s fun t => mailed t die 0 0
      ∧ t.tables.partitions = merase s.tables.partitions i)
    ∧ (used → answers (.partitionFree die i) s fun t => mailed t die 2 4 ∧ t.tables = s.tables))
  ∧ (∀ (s : State) (die i ctx : Nat), mailOpen s die = true → i < 16 →
    ctx = 0xFFFF ∨ (mget s.ctxs ctx).isSome = true → s.power.target = none → rollbackRuns s i = false →
    (partOf s i).state ≠ 0 → (partOf s i).state ≠ 3 →
    (mayEnter s ctx (partOf s i) = true → answers (.partitionSwitch die i ctx) s fun t =>
      (dieOf t die).mailBusy = true ∧ (dieOf t die).mailStatus = 1
      ∧ partOf t i = { partOf s i with
          state := 3, next := if ctx = 0xFFFF then none else some ctx
          step := if (partOf s i).ctx.isSome then 2 else 4, mail := die }
      ∧ ∀ c, (partOf s i).ctx = some c → (ctxOf t c).resident = false)
    ∧ (mayEnter s ctx (partOf s i) = false →
        answers (.partitionSwitch die i ctx) s fun t => mailed t die 2 2 ∧ t.tables = s.tables))
  ∧ (∀ (s : State) (die i ctx : Nat), mailOpen s die = true → i < 16 →
    ctx = 0xFFFF ∨ (mget s.ctxs ctx).isSome = true → s.power.target.isSome = true ∨ rollbackRuns s i = true →
    answers (.partitionSwitch die i ctx) s fun t => (dieOf t die).mailBusy = true ∧ (dieOf t die).mailStatus = 1
      ∧ t.tables = { s.tables with switches := s.tables.switches ++ [(die, i, ctx)] })
  ∧ (∀ (s s2 : State) (i ctx : Nat), (partOf s i).ctx = some ctx → (partOf s i).state = 3 → (partOf s i).step = 2 →
    switchDrained s ctx (partOf s i) = true → (moreOf s ctx).retryAt = none →
    let stopped := (List.range 8).foldl (fun acc b => parkRaster acc ctx b)
      ((partOf s i).clusters.foldl parkCluster ((partOf s i).cores.foldl parkCore s))
    saveImages stopped ctx i (partOf s i) = .ok s2 →
    answers (.partitionDrainEnd i) s fun t => partOf t i = { partOf s i with step := 4 }
      ∧ t.mem = { s2.mem with poisoned := t.mem.poisoned })
  ∧ (∀ (s a : State) (i : Nat), (partOf s i).state = 3 → (partOf s i).step = 4 →
    ((partOf s i).next = none → a = s) →
    (∀ c, (partOf s i).next = some c → (moreOf s c).retryAt = none ∧ restoreContext s c (partOf s i) = .ok a) →
    a.tables.switches = [] → a.power.queued = [] →
    answers (.partitionRestore i) s fun t => mailed t (partOf s i).mail 0 0
      ∧ partOf t i = { partOf s i with
          ctx := (partOf s i).next, next := none, step := 0, state := if (partOf s i).next.isSome then 1 else 2 }
      ∧ t.ctxs = a.ctxs ∧ t.work = a.work ∧ t.mem = a.mem)
  ∧ (∀ (s : State) (ctx : Nat) (p : ContextParams), ctx < 4096 → mget s.ctxs ctx = none →
    answers (.contextCreation ctx p) s fun t => ctxOf t ctx = { f := createdFields p, resident := false }
      ∧ moreOf t ctx = { trace := p.trace } ∧ (∀ c, c ≠ ctx → ctxOf t c = ctxOf s c) ∧ t.mem = s.mem)
  ∧ (∀ (s : State) (ctx : Nat), (mget s.ctxs ctx).isSome = true →
    (∀ p ∈ s.tables.partitions, p.2.state = 3 → p.2.ctx ≠ some ctx ∧ p.2.next ≠ some ctx) →
    answers (.contextDestruction ctx) s fun t => t.ctxs = merase s.ctxs ctx ∧ t.more = merase s.more ctx
      ∧ (∀ a ∈ t.pend, a.ctx ≠ ctx) ∧ (∀ l ∈ t.work.launches, l.2.ctx ≠ ctx) ∧ t.mem = s.mem)

/-! ### Device events: engines and units (11, 12, 14 to 16) -/

/-- 11 R264, 12 R287, R288, R293, 14 R331, R340, R343, R350: the scheduler releases a command whose edges are clear;
the arbiter grants one slot; the epilogue of a pass gives every valid pair its result; copies start in order, take
slots, deliver sectors and complete; an idle Coachman starts the oldest queued program.

Completion: `exec i s` answers a next state, under conditions on `s` and the operands alone, for
`engineCommandRelease`, `arbiterGrant`, `matrixPassEpilogue`, `movementProgramStart`, `copyCommandStart`,
`copySectorDelivery`, `copyComplete`, `cbSlotTake`. -/
def Obligations.EngineEvents : Prop :=
  (∀ (s : State) (cluster i : Nat) (e : MatEntry), mget (clusterOf s cluster).table i = some e →
    e.released = false → matEdgesClear s e.cmd = true →
    answers (.engineCommandRelease (.matrix cluster i)) s fun t =>
      mget (clusterOf t cluster).table i = some { e with released := true })
  ∧ (∀ (s : State) (core n : Nat) (c : CopyCmd), copyOf s core n = some c → c.released = false →
    copyEdgesClear s c = true →
    answers (.engineCommandRelease (.copy core n)) s fun t => copyOf t core n = some { c with released := true })
  ∧ (∀ (s : State) (cluster i : Nat) (e : MatEntry), (clusterOf s cluster).granted = none →
    grantChoice s cluster = some (i, e) → mget (clusterOf s cluster).table i = some e →
    let m := e.cmd
    let done (t : State) (st : Status) (code : FaultCode) : Prop :=
      mget (syncOf t m.block).ring (m.ticket % 64) = some { status := st, fault := code }
      ∧ (clusterOf t cluster).table = merase (clusterOf s cluster).table i
    (isMultiply m.op = true → tagFails s m e.pass = false → answers (.arbiterGrant cluster) s fun t =>
      (clusterOf t cluster).granted = some i
      ∧ mget (clusterOf t cluster).table i = some { e with stage := .running, begun := true })
    ∧ (isMultiply m.op = true → tagFails s m e.pass = true →
        answers (.arbiterGrant cluster) s fun t => done t .faulted .layoutMismatch)
    ∧ (m.op = 0x78 → answers (.arbiterGrant cluster) s fun t => done t .done .none
        ∧ (clusterOf t cluster).tiles = merase (clusterOf s cluster).tiles m.tile)
    ∧ (isMultiply m.op = false → m.op ≠ 0x78 → exec (.arbiterGrant cluster) s =
        .next (moveTile (modEntry s cluster i fun x => { x with stage := .running, begun := true }) cluster i
          { e with stage := .running, begun := true })))
  ∧ (∀ (s : State) (cluster i : Nat) (e : MatEntry), (clusterOf s cluster).granted = some i →
    mget (clusterOf s cluster).table i = some e →
    (∀ p ∈ (clusterOf s cluster).table, p.2.stage = .running → isMultiply p.2.cmd.op = true) →
    e.cancelled = false → passMeetsPoison s e.cmd e.pass = false →
    answers (.matrixPassEpilogue cluster) s fun t => (clusterOf t cluster).granted = none
      ∧ (∀ x y, x < e.cmd.vr → y < e.cmd.vc →
          let p := passElement s e.cmd e.pass x y
            (tilePair s e.cmd.cluster (e.cmd.tile + y / 128) x (y % 128))
          p ≠ (0, 0) → tilePair t e.cmd.cluster (e.cmd.tile + y / 128) x (y % 128) = p)
      ∧ if e.pass + 1 = e.cmd.passes then
          mget (syncOf t e.cmd.block).ring (e.cmd.ticket % 64) =
            some { status := if e.poisoned then .poisoned else .done, fault := .none }
        else mget (clusterOf t cluster).table i = some { e with pass := e.pass + 1 })
  ∧ (∀ (s : State) (core : Nat) (x : CoachStart) (r : List CoachStart), (coachOf s core).starts = x :: r →
    (coachOf s core).running = false →
    answers (.movementProgramStart core) s fun t => coachOf t core =
      { coachOf s core with
        starts := r, running := true, block := x.block, program := x.entry, pc := x.entry, npc := none,
        stack := [], wait := none, held := false })
  ∧ (∀ (s : State) (core n : Nat) (c : CopyCmd), copyOf s core n = some c → c.core = core →
    let k := dbits c.control 20 17
    let b := cbufOf s core k
    let slotted : CopyCmd := { c with slot := some b.takeSeq }
    let started := modCopy s core n fun x => { x with started := true }
    (mayStart s c = true → dbit c.control 21 = false ∨ c.slot.isSome = true ∨ b.hasRoom = false →
      answers (.copyCommandStart core n) s fun t => copyOf t core n = some { c with started := true })
    ∧ (mayStart s c = true → dbit c.control 21 = true → c.slot = none → b.hasRoom = true →
      engineFree started core = true → copyEdgesClear started slotted = true →
      answers (.copyCommandStart core n) s fun t =>
        copyOf t core n = some { c with started := true, slot := some b.takeSeq }
        ∧ (cbufOf t core k).takeSeq = (b.takeSeq + 1) % 2 ^ 32)
    ∧ (c.started = true → dbit c.control 21 = true → c.slot = none → b.hasRoom = true →
      engineFree s core = true → copyEdgesClear s slotted = true →
      answers (.cbSlotTake core n) s fun t => copyOf t core n = some { c with slot := some b.takeSeq }
        ∧ (cbufOf t core k).takeSeq = (b.takeSeq + 1) % 2 ^ 32
        ∧ mget (cbufOf t core k).count (b.takeSeq % max 1 b.nslot) = some b.cons)
    ∧ (canDeliver s c = true → c.completion = 0 → c.validRows ≤ c.row →
      answers (.copySectorDelivery core n) s fun t => t.mem = s.mem
        ∧ copyOf t core n = some { c with next := c.next + 1, completion := 0 })
    ∧ (∀ src spots blk, canDeliver s c = true → c.completion = 0 → c.row < c.validRows → c.outward = false →
      sourceSpots s c c.row c.col = .ok src → destSpots s c c.row c.col = .ok [spots] → spots ≠ [] →
      engineWaits s (dieOfCore core) false (deviceLines src) = false →
      (∀ x ∈ src, isPoisoned s x.1 (x.2 / 32) = false) →
      (∀ x ∈ spots, x.1 = .scratch blk ∧ isPoisoned s x.1 (x.2 / 32) = false) →
      (mget s.work.blocks blk).isSome = true →
      answers (.copySectorDelivery core n) s fun t =>
        let q := convertSector c (src.map fun x => readByte s x.1 x.2) (coreOf s core).cpSeed
        memCells t (.scratch blk) =
          setCells (memCells s (.scratch blk)) ((spots.zip q.1).map fun x => (x.1.2, x.2))
        ∧ (coreOf t core).cpSeed = q.2 ∧ (copyOf t core n).map (·.next) = some (c.next + 1))
    ∧ (c.started = true → c.parked = false → c.total ≤ c.next →
      answers (.copyComplete core n) s fun t => copyOf t core n = none
        ∧ mget (coreOf t core).copyRing (c.ticket % 64) =
            some { status := if c.poisoned then .poisoned else .done, fault := .none }))

/-- 15 R365 to R367, R373, 16 R386 to R388, R396: the Omnibus starts a run of the subtree it selects; the subtree is
loaded whole; a ray retires; a run that is too long stops; hit lists form hit blocks; a flush rasterises each tile due
and ends when none is; the sampler writes one quad's lanes.

Completion: `exec i s` answers a next state, under conditions on `s` and the operands alone, for `omnibusRunStart`,
`subtreeLoadComplete`, `rayRetire`, `runTimeLimit`, `hitListAgeExpiry`, `binnerFlushDone`, `rasteriseTile`,
`textureQuadComplete`. -/
def Obligations.UnitEvents : Prop :=
  (∀ (s : State) (die cluster : Nat) (x : RayChoice) (c : Scene) (y : Subtree), cluster / 48 = die → die < 4 →
    (clusterOf s cluster).run = none → selectRun s die cluster = some x → heldScene s x.launch = some c →
    readSubtree s (launchOf s x.launch).ctx c x.subtree = .valid y →
    answers (.omnibusRunStart die cluster) s fun t =>
      (dieOf t die).runCounter = ((dieOf s die).runCounter + 1) % 2 ^ 64
      ∧ ∀ r, (clusterOf t cluster).run = some r → r.launch = x.launch ∧ r.subtree = x.subtree ∧ r.loaded = false
          ∧ r.rays ≠ [] ∧ r.number = (dieOf t die).runCounter ∧ r.upt = runUpt s (launchOf s x.launch).ctx c
          ∧ r.startedAt = (ctxOf s (launchOf s x.launch).ctx).ctime)
  ∧ (∀ (s : State) (cluster : Nat) (r : RayRun) (c : Scene) (x : Subtree) (bs : List Byte),
    (clusterOf s cluster).run = some r → r.loaded = false →
    (ctxOf s (launchOf s r.launch).ctx).resident = true → heldScene s r.launch = some c →
    readSubtree s (launchOf s r.launch).ctx c r.subtree = .valid x →
    readEngine s (.ray cluster) (launchOf s r.launch).ctx x.base x.size = .ok bs →
    answers (.subtreeLoadComplete cluster) s fun t => (clusterOf t cluster).run = some { r with
      loaded := true, buffer := bs, bad := badSectors s (launchOf s r.launch).ctx x.base x.size })
  ∧ (∀ (s : State) (cluster : Nat) (r : RayRun), (clusterOf s cluster).run = some r → r.loaded = true →
    (ctxOf s (launchOf s r.launch).ctx).resident = true →
    (r.rays = [] → answers (.rayRetire cluster) s fun t => (clusterOf t cluster).run = none)
    ∧ ∀ e rest, r.rays = e :: rest →
        (20000 ≤ (ctxOf s (launchOf s r.launch).ctx).ctime - r.startedAt →
          answers (.rayRetire cluster) s fun t => (clusterOf t cluster).run = none)
        ∧ ((ctxOf s (launchOf s r.launch).ctx).ctime - r.startedAt < 20000 →
        let ctx := (launchOf s r.launch).ctx
        let held := slotFaultAt s cluster r.launch e.id = some .pageAbsent
        let s1 := modCluster s cluster fun c =>
          { c with run := if rest.isEmpty then none else some { r with rays := rest, out := if held then r.out + 1 else r.out } }
        (answers (.rayRetire cluster) s fun t => (clusterOf t cluster).run = (clusterOf s1 cluster).run)
        ∧ ∀ c u b, heldScene s1 r.launch = some c → slotFaultAt s1 cluster r.launch e.id = none →
            poisonedRange s1 ctx (c.slot e.id) 128 = false → runTable r = some u →
            readEngine s1 (.ray cluster) ctx (c.slot e.id) 64 = .ok b →
            exec (.rayRetire cluster) s = .next (retireVisited (engineUsed s1 (.ray cluster) ctx [(c.slot e.id, 128)]) r c
              (rayLocation cluster) e.id (parseRay b e.id) u.order
              (visit { upt := u, buffer := r.buffer, bad := r.bad, nsub := c.nsub } (parseRay b e.id)))))
  ∧ (∀ (s : State) (cluster : Nat) (r : RayRun), (clusterOf s cluster).run = some r →
    20000 ≤ (ctxOf s (launchOf s r.launch).ctx).ctime - r.startedAt →
    answers (.runTimeLimit cluster) s fun t => (clusterOf t cluster).run = none)
  ∧ (∀ (s : State) (l die : Nat) (c : Scene), hitBlockDue s l die = true →
    (ctxOf s (launchOf s l).ctx).resident = true → heldScene s l = some c →
    answers (.hitListAgeExpiry l die) s fun t => hitListOf t l die = (hitListOf s l die).drop (hitBlockSize s l))
  ∧ (∀ (s : State) (b : Nat), b < 8 → flushOver s b = true →
    answers (.binnerFlushDone b) s fun t => (binnerOf t b).flushing = false
      ∧ (binnerOf t b).all = (binnerOf s b).all.filter fun p => !(primDue p).isEmpty)
  ∧ (∀ (s : State) (b view tile : Nat) (x : Nat × Nat × Nat) (d : VisDesc) (m : List Nat), b < 8 →
    (binnerOf s b).flushing = true → binnerWaits s b = false →
    (tilesDue s b).find? (fun t => t.2 == (view, tile) && (ctxOf s (dueCtx s t)).resident) = some x →
    visDesc s x.1 = .ok d → viewMatrix s (launchOf s x.1).ctx d view = .ok m →
    let ctx := (launchOf s x.1).ctx
    let s1 := binView s b x.1 view d
    let slot := rasterSlot s1 ctx d
    let work := (binOf s1 b x.1 view tile).map fun p => (p, tileOffers d slot.2 m view tile p)
    let q := drawPrims s1 b ctx d slot.1 x.1 view tile work
    engineWaits s1 (b / 2) true (workLines s1 b ctx d view work) = false →
    (q.2 = none → answers (.rasteriseTile b view tile) s fun t => t = q.1 ∧ binOf t b x.1 view tile = [])
    ∧ ∀ e, q.2 = some e →
        exec (.rasteriseTile b view tile) s = .next (tileFault q.1 b x.1 view tile e.1 1 e.2.1 e.2.2))
  ∧ (∀ (s : State) (core op q : Nat) (o : TexOp), (coreOf s core).texQ.find? (fun o => o.id == op) = some o →
    o.parked = false → texReady s o = true → (ctxOf s (ctxOfBlock s o.block)).resident = true →
    nextQuad o = some q → ((quadLanes o q).map TexLane.uid).Nodup →
    let l := (blockOf s o.block).launch
    let ctx := ctxOfBlock s o.block
    (∀ x ∈ quadLanes o q, (∃ ws, laneTaps s core ctx l o.op o.channel x = .ok ws)
      ∧ laneMeetsPoison s ctx l o.op x = false) →
    engineWaits s (dieOfCore core) false
      (rangeLines s (.sampler core) ctx ((quadLanes o q).flatMap (tapRanges s ctx l o.op))) = false →
    answers (.textureQuadComplete core op) s fun t =>
      ∀ x ∈ quadLanes o q, ∀ ws, laneTaps s core ctx l o.op o.channel x = .ok ws → ∀ th, threadOf s x.uid = some th →
        ∃ th', threadOf t x.uid = some th' ∧ ∀ k, k < 4 → th'.regs.get (x.dst + k) = ws.getD k 0)

/-! ### Device events: command queues and records (13) -/

/-- 13 R306, R308 to R312, R317, R318, R322, R323: a doorbell moves a write index; the reader reads the record at a
queue's head, writes its handle and counts it; waits are read again; a record completes with its signal and status; a
graph's nodes begin once their predecessors have ended; a queue is reset; a queue's on-die part is refilled in order.

Completion: `exec i s` answers a next state, under conditions on `s` and the operands alone, for `doorbellWrite`,
`launchRecord`, `graphReplayRecord`, `signalRecord`, `waitRecord`, `phaseMarkRecord`, `cancelRecord`,
`waitRecordReread`, `recordPageResolved`, `recordCompletion`, `graphNodeBegin`, `replaySlotDeadline`, `queueReset`,
`queueResetDone`, `spillRefill`, `powerBudgetEval`. -/
def Obligations.RecordEvents : Prop :=
  let refilled {α : Type} (cap : Nat) (a b : List α × List α) : Prop :=
    b.1 ++ b.2 = a.1 ++ a.2 ∧ (b.2 = [] ∨ cap ≤ b.1.length)
  let refilledAt {α : Type} (home : α → Nat) (cap : Nat) (a b : List α × List α) : Prop :=
    b.1 ++ b.2 = a.1 ++ a.2 ∧ ∀ x, b.2.head? = some x → cap ≤ (b.1.filter fun y => home y == home x).length
  let head (s : State) (ctx q : Nat) (c : CmdQueue) (b : List Byte) : Prop :=
    cmdQueueOf s ctx q = some c ∧ servedQueue s c.die = some (ctx, q) ∧ headBytes s ctx c = .ok b
  let reads (i : Nat → Nat → Instr) (kind : Nat → Prop) : Prop :=
    ∀ (s : State) (ctx q : Nat) (c : CmdQueue) (b : List Byte), head s ctx q c b → kind (fieldOf b 0 1) →
    c.marks.contains (c.seq % 2 ^ 24) = false → (fieldOf b 0 1 = 2 → waitingReplay s ctx q = none) →
    answers (i ctx q) s fun t =>
      (cmdQueueOf t ctx q).map (fun x => (x.readIdx, x.seq))
        = some ((c.readIdx + 1) % max 1 c.size, (c.seq + 1) % 2 ^ 24)
      ∧ (moreOf t ctx).jobCounter = (moreOf s ctx).jobCounter + 1
      ∧ ∃ r, recordOf t ctx (q * 2 ^ 24 + c.seq % 2 ^ 24) = some r ∧ r.kind = fieldOf b 0 1 ∧ r.queue = q
          ∧ r.addr = c.base + 64 * c.readIdx ∧ r.ended = none
          ∧ (recordOk64 b = false → r.due = some (.faulted, .illegalEncoding) ∧ r.begun = false)
          ∧ (r.kind = 1 → r.begun = true → r.launch = some s.work.nextLaunch
              ∧ (launchOf t s.work.nextLaunch).handle = r.handle ∧ (launchOf t s.work.nextLaunch).counter = 1
              ∧ (launchOf t s.work.nextLaunch).state = .running ∧ (launchOf t s.work.nextLaunch).ctx = ctx)
          ∧ (r.kind = 5 → r.begun = true → (cmdQueueOf t ctx q).map (·.phaseNo) = some (c.phaseNo + 1))
  (∀ (s : State) (page ctx q : Nat) (c : CmdQueue) (v : Word), hostReach s = true → pageContext s page = some ctx → q < 256 →
    cmdQueueOf s ctx q = some c → v.toNat < c.size →
    answers (.doorbellWrite page (4 * q) v) s fun t =>
      cmdQueueOf t ctx q = some { c with writeIdx := v.toNat } ∧ t.power.asleep = false ∧ t.mem = s.mem)
  ∧ (∀ (s : State) (page ctx : Nat) (v : Word), hostReach s = true → pageContext s page = some ctx →
    (mget s.ctxs ctx).isSome = true →
    (v.toNat < (ctxOf s ctx).f.svcrSize →
      answers (.doorbellWrite page 0x800 v) s fun t => (ctxOf t ctx).svcrWrite = v.toNat)
    ∧ (v.toNat < (ctxOf s ctx).f.xfrSize →
      answers (.doorbellWrite page 0xC00 v) s fun t => (ctxOf t ctx).xfrWrite = v.toNat))
  ∧ (∀ (s : State) (ctx : Nat), ctx < 4096 → pageContext s ctx = some ctx)
  ∧ reads .launchRecord (fun k => k = 1 ∨ k = 0 ∨ 6 < k)
  ∧ reads .graphReplayRecord (fun k => k = 2)
  ∧ reads .signalRecord (fun k => k = 3)
  ∧ reads .waitRecord (fun k => k = 4)
  ∧ reads .phaseMarkRecord (fun k => k = 5)
  ∧ (∀ (s : State) (ctx q : Nat) (c : CmdQueue) (b : List Byte), head s ctx q c b → fieldOf b 0 1 = 6 →
    exec (.cancelRecord ctx q) s =
      .next (takeHead (modDie s c.die fun d => { d with lastQueue := some (ctx, q) }) ctx q c b))
  ∧ (∀ (s : State) (ctx q : Nat) (r : Record), waitingReplay s ctx q = some r →
    (freeSlots s ctx r.addr1 ≠ [] → (ctxOf s ctx).resident = true →
      exec (.graphReplayRecord ctx q) s = .next (beginReplay s ctx r))
    ∧ (freeSlots s ctx r.addr1 = [] → r.deadline ≤ (ctxOf s ctx).ctime →
      answers (.replaySlotDeadline ctx q) s fun t =>
        ∃ x, recordOf t ctx r.handle = some x ∧ x.due = some (.busy, .none)))
  ∧ (∀ (s : State) (ctx h x : Nat) (bad : Bool) (r : Record), recordOf s ctx h = some r → r.kind = 4 →
    r.begun = true → r.due = none → r.ended = none → (ctxOf s ctx).resident = true →
    readWord64 s ctx r.addr1 = .ok (x, bad) →
    answers (.waitRecordReread ctx h) s fun t => recordOf t ctx h =
      if bad = true then some { r with due := some (.poisoned, .none), page := none }
      else if r.value ≤ x then some { r with due := some (.done, .none), page := none }
      else if r.deadline ≤ (ctxOf s ctx).ctime then some { r with due := some (.timeout, .none), page := none }
      else some r)
  ∧ (∀ (s : State) (ctx q v : Nat) (r : Record), r ∈ openRecords s ctx q → r.begun = false → r.due = none →
    r.page = some v → readerPresent s ctx v = true → (∀ x ∈ openRecords s ctx q, x = r ∨ x.begun = true) →
    (ctxOf s ctx).resident = true →
    exec (.recordPageResolved ctx q) s = .next
      (beginRecord (modRecord s ctx r.handle fun x => { x with page := none }) ctx { r with page := none }))
  ∧ (∀ (s s1 : State) (ctx h : Nat) (r : Record) (st : Status × FaultCode), recordOf s ctx h = some r →
    r.ended = none → (ctxOf s ctx).resident = true → recordResult s ctx r = some st →
    writeSignals ctx h (signalWrites s ctx r st) s = (s1, none) →
    (∃ p, translateWalk s1 ctx r.addr { write := true } = .ok p) →
    answers (.recordCompletion ctx h) s fun t =>
      recordOf t ctx h = some { r with ended := some st, due := none, page := none
                                       wrote := r.wrote + (signalWrites s ctx r st).length }
      ∧ (moreOf t ctx).jobCounter = (moreOf s ctx).jobCounter - 1
      ∧ (∀ x ∈ (moreOf t ctx).replays, x.handle ≠ h)
      ∧ (r.kind ≠ 5 → (phaseOf t ctx (phaseKey r.queue r.phase)).counter
          = (phaseOf s ctx (phaseKey r.queue r.phase)).counter - 1))
  ∧ (∀ (s : State) (ctx h node : Nat) (x : Replay) (r : Record) (n : GraphNode), replayOf s ctx h = some x →
    recordOf s ctx h = some r → x.nodes[node]? = some n → nodeReady x n = true → x.state = .running →
    (ctxOf s ctx).resident = true →
    answers (.graphNodeBegin ctx h node) s fun t =>
      let l := s.work.nextLaunch
      t.work.nextLaunch = l + 1 ∧ (launchOf t l).desc = n.desc ∧ (launchOf t l).params = n.params
      ∧ (launchOf t l).handle = h ∧ (launchOf t l).graph = some h ∧ (launchOf t l).bank = n.banks
      ∧ ((replayOf t ctx h).bind fun y => y.nodes[node]?) = some { n with begun := true, launch := some l })
  ∧ (∀ (s : State) (ctx q : Nat) (c : CmdQueue), cmdQueueOf s ctx q = some c → c.reset = false →
    let s1 := modCmdQueue s ctx q fun x => { x with reset := true, resetDone := false }
    exec (.queueReset ctx q) s = .next (onContext s1 ctx fun x =>
      cancelRecords ((mkeys (ctxOf s ctx).phases).foldl
        (fun acc k => if k / 2 ^ 24 = q then cancelPhase acc ctx k else acc) x) ctx fun r => r.queue == q)
    ∧ cmdQueueOf s1 ctx q = some { c with reset := true, resetDone := false })
  ∧ (∀ (s : State) (ctx q : Nat) (c : CmdQueue), cmdQueueOf s ctx q = some c → c.reset = true →
    c.resetDone = false → (∀ r ∈ openRecords s ctx q, recordSettled s ctx r = true) →
    answers (.queueResetDone ctx q) s fun t => openRecords t ctx q = []
      ∧ cmdQueueOf t ctx q = some { c with resetDone := true, readIdx := c.writeIdx
                                           seq := (c.seq + c.unread.length) % 2 ^ 24 })
  ∧ (∀ (s : State) (ctx n : Nat), (mget s.ctxs ctx).isSome = true →
    (answers (.spillRefill (.message ctx n)) s fun t =>
      let f (x : State) : List (List Byte) × List (List Byte) :=
        ((mgetD (ctxOf x ctx).msgs n {}).die, (mgetD (ctxOf x ctx).msgs n {}).ring)
      refilled 256 (f s) (f t))
    ∧ (answers (.spillRefill (.atlas ctx)) s fun t =>
      refilled 256 ((ctxOf s ctx).atlas.die, (ctxOf s ctx).atlas.ring) ((ctxOf t ctx).atlas.die, (ctxOf t ctx).atlas.ring))
    ∧ (answers (.spillRefill (.svc ctx)) s fun t =>
      refilledAt callHome 32 ((ctxOf s ctx).svcQ.die, (ctxOf s ctx).svcQ.ring)
        ((ctxOf t ctx).svcQ.die, (ctxOf t ctx).svcQ.ring)))
  ∧ (∀ (s : State) (l i : Nat), (mget s.work.launches l).isSome = true →
    (answers (.spillRefill (.spawn l)) s fun t =>
      refilledAt SpawnEntry.home 64 ((launchOf s l).spawnQ, (launchOf s l).spawnRing)
        ((launchOf t l).spawnQ, (launchOf t l).spawnRing))
    ∧ ((mget (mgetD s.work.rays l {}).queues i).isSome = true → answers (.spillRefill (.subtree l i)) s fun t =>
      let x := rayQueueOf s l i
      refilled (queueCap s x.home x) (x.die, x.ring) ((rayQueueOf t l i).die, (rayQueueOf t l i).ring)))
  ∧ (∀ (s : State) (b n : Nat), b < 8 → answers (.spillRefill (.bin b n)) s fun t =>
    (binnerOf t b).all.map (fun p => (p.launch, p.seq)) = (binnerOf s b).all.map (fun p => (p.launch, p.seq))
    ∧ ((binnerOf t b).ring = [] ∨ 4096 ≤ (binnerOf t b).prims.length))
  ∧ (∀ (s : State) (die : Nat), die < 4 → answers (.spillRefill (.fault die)) s fun t =>
    refilled 256 ((dieOf s die).fault.queue, (dieOf s die).fault.ring)
      ((dieOf t die).fault.queue, (dieOf t die).fault.ring))
  ∧ (∀ (s : State) (ctx q watts : Nat) (c : CmdQueue), cmdQueueOf s ctx q = some c →
    answers (.powerBudgetEval ctx q watts) s fun t => (cmdQueueOf t ctx q).map (·.throttle) = some
      (if c.powerCap = 0 then 8 else if c.powerCap < watts then max 1 (c.throttle - 1) else min 8 (c.throttle + 1)))

/-! ### Device events: translation and Dray (17) -/

/-- 17 R405, R410, R411, R416 to R418, R421 to R426: a walk fills a core's TLB; Dray forwards, takes and batches fault
entries; an evicted frame is free; a page that has arrived resolves its entries; a resolved record replays its unit; a
waiting record takes a slot; the pager's replies and its limit.

Completion: `exec i s` answers a next state, under conditions on `s` and the operands alone, for `tlbMissWalk`,
`faultEntryForward`, `drayEntryTake`, `drayBatchClose`, `evictionFrameFree`, `migrationTransferDone`, `recordReplay`,
`replaySlotFreed`, `pagerReply`, `pagerlimitExpiry`. -/
def Obligations.DrayEvents : Prop :=
  let fault (s : State) (die : Nat) : DieFault := (dieOf s die).fault
  (∀ (s : State) (core ctx vpn level pa : Nat) (e : DWord), core < 768 →
    (∀ x ∈ (coreOf s core).tlb, ¬ (x.ctx = ctx ∧ x.vpn = vpn)) → walk s ctx (4096 * vpn) = some (e, level, pa) →
    dbit e 9 = false → keyOk s ctx (dbits e 63 52) = true →
    answers (.tlbMissWalk core ctx vpn) s fun t => (coreOf t core).tlb =
      ({ ctx := ctx, vpn := vpn, leaf := e, level := level } :: (coreOf s core).tlb).take 256 ∧ t.mem = s.mem)
  ∧ (∀ (s : State) (die : Nat) (e : FaultEntry), die < 4 → (dieOf s die).lost = false →
    (fault s die).queue.find? (fun e => ownerDie s (entryPage s e) != die) = some e →
    answers (.faultEntryForward die) s fun t =>
      let o := ownerDie s (entryPage s e)
      (fault t die).queue = (fault s die).queue.erase e
      ∧ (fault t o).queue ++ (fault t o).ring = (fault s o).queue ++ (fault s o).ring ++ [e])
  ∧ (∀ (s : State) (die : Nat) (e : FaultEntry), die < 4 → (dieOf s die).lost = false →
    (fault s die).queue.find? (fun e => ownerDie s (entryPage s e) == die) = some e →
    let g := pageGroup s e.ctx e.vpn
    mergeOf s die e.ctx g.1 = none →
    (walk s e.ctx (4096 * e.vpn) = none → e.unit = 8 ∨ e.record.isSome = true →
      mergePages s (fault s die).merge + pageWeight g.2 ≤ 1024 → (fault s die).batchOpened = none →
      mergePages s ((fault s die).merge.filter MergePage.inBatch) + pageWeight g.2 ≤ 512 →
      answers (.drayEntryTake die) s fun t => (fault t die).queue = (fault s die).queue.erase e
        ∧ (fault t die).merge = (fault s die).merge ++ [{
            ctx := e.ctx, vpn := g.1, waiters := e.record.toList, reader := if e.unit = 8 then [e.location % 4] else []
            entry := some e }]
        ∧ (fault t die).batchOpened = some s.dtime)
    ∧ ∀ l level x pa, walk s e.ctx (4096 * e.vpn) = some (l, level, x) → dbit l 9 = false →
        leafPlace l level (4096 * e.vpn) = .device pa → (frameOf s (pa / 4096)).hstate = 0 →
        exec (.drayEntryTake die) s = .next (resolveEntry (dropEntry s die e) e))
  ∧ (∀ (s : State) (die opened : Nat), (fault s die).batchOpened = some opened →
    opened + 2000 ≤ s.dtime ∨ 512 ≤ mergePages s ((fault s die).merge.filter MergePage.inBatch) →
    exec (.drayBatchClose die) s = .next (closeBatch s die))
  ∧ (∀ (s : State) (f : Nat), (frameOf s f).leaving = true → frameBusy s f = false →
    (frameOf s f).lastLease ≤ s.dtime →
    exec (.evictionFrameFree f) s = .next (freeEvicted s f)
    ∧ ((frameOf s f).dirty = 0 → (∀ l, l / 32 = f → (lineOf s l).persistent = [] ∧ (lineOf s l).homeWrites = []) →
        (∀ d, d < 4 → waitingPages s d = []) → s.tables.freeMin ≤ freeFrames s →
        answers (.evictionFrameFree f) s fun t => t.mem = s.mem ∧ frameOf t f =
          { frameOf s f with valid := false, dirty := 0, mig := false, leaving := false }))
  ∧ (∀ (s : State) (die ctx vpn f : Nat) (m : MergePage), mergeOf s die ctx vpn = some m → m.frame = some f →
    answers (.migrationTransferDone die ctx vpn) s fun t => mergeOf t die ctx vpn = none)
  ∧ (∀ (s : State) (ctx slot : Nat) (r : ReplayRecord), mget (moreOf s ctx).replay slot = some r → r.cause ≠ 3 →
    r.waits = 0 → (ctxOf s ctx).resident = true → earlierRecord s ctx r = false → unitParked s r.work = false →
    exec (.recordReplay ctx slot) s = .next (replayRecord s ctx slot r)
    ∧ match r.work with
      | .core _ _ us => answers (.recordReplay ctx slot) s fun t => ∀ u ∈ us, ∀ th, threadOf s u = some th →
          th.ctl.run = .faultWait → ∃ th', threadOf t u = some th' ∧ th'.ctl.run = .runnable
            ∧ th'.ctl.pc = th.ctl.pc ∧ th'.regs = th.regs
      | .coachman g _ => answers (.recordReplay ctx slot) s fun t => coachOf t g = { coachOf s g with held := false }
      | .copy g n => answers (.recordReplay ctx slot) s fun t =>
          copyOf t g n = (copyOf s g n).map fun c => { c with parked := false }
      | .raster b _ _ _ _ _ => answers (.recordReplay ctx slot) s fun t =>
          (binnerOf t b).parked = (binnerOf s b).parked.filter (· != ctx)
      | _ => True)
  ∧ (∀ (s s1 : State) (ctx n : Nat) (r : ReplayRecord) (rest : List ReplayRecord), (moreOf s ctx).retryAt = none →
    (ctxOf s ctx).resident = true → (moreOf s ctx).replayWaiting = r :: rest → freeReplaySlot s ctx r.work = some n →
    placeRecord (modMore s ctx fun m => { m with replayWaiting := rest }) ctx n r = some s1 →
    exec (.replaySlotFreed ctx) s = .next s1 ∧ (moreOf s1 ctx).replayWaiting = rest
    ∧ mget (moreOf s1 ctx).replay n = some { r with event := none, order := (moreOf s ctx).recordSeq })
  ∧ (∀ (s : State) (die : Nat) (r : PagerReply), die < 4 → (mget s.ctxs r.ctx).isSome = true →
    (repliedPage s die r = none →
      exec (.pagerReply die r) s = .next (drayFault s r.ctx die .protection r.record))
    ∧ ∀ m, repliedPage s die r = some m →
        (r.action = 1 → answers (.pagerReply die r) s fun t => (fault t die).batchOpened.isSome = true
          ∧ ∃ x, mergeOf t die m.ctx m.vpn = some x ∧ x.toPager = false
            ∧ (mergeOf s die m.ctx m.vpn = some m → x.waiters = m.waiters)
            ∧ ((fault s die).batchOpened = none → x.inBatch = true))
        ∧ (∀ e level x, r.action = 0 → walk s m.ctx (4096 * m.vpn) = some (e, level, x) → dbit e 9 = false →
            answers (.pagerReply die r) s fun t => mergeOf t die m.ctx m.vpn = none)
        ∧ (∀ c, r.action = 2 → pagerCode r.code = some c →
            exec (.pagerReply die r) s = .next (failPage s die m c)))
  ∧ (∀ (s : State) (die ctx vpn : Nat) (m : MergePage), mergeOf s die ctx vpn = some m → m.toPager = true →
    m.pagerSince + 1000 * s.tables.pagerLimit ≤ s.dtime →
    exec (.pagerlimitExpiry die ctx vpn) s =
      .next (drayFault (failPage s die m .protection) m.ctx die .protection (4096 * m.vpn)))

/-! ### Device events: hosts, extents and links (11, 21) -/

/-- 11 R252, 21 R491, R493 to R500: a host completes an access, or it ends after 1 ms; extents are released, drained,
forced, lent and reclaimed; transfer records move whole pages; a link comes up.

Completion: `exec i s` answers a next state, under conditions on `s` and the operands alone, for `hostAccessComplete`,
`hostAccessTimeout`, `extentReleaseRequest`, `extentReleaseDone`, `extentDrainDeadline`, `extentForcedRelease`,
`extentReclaim`, `lentMemoryRequest`, `xferFetch`, `xferPush`, `xferComplete`, `budunLinkBringup`. -/
def Obligations.HostEvents : Prop :=
  let leaves (s t : State) (a : Access) (R : LaneReq → Regs → Regs) : Prop :=
    t.pend = s.pend.filter (fun b => b.id != a.id)
    ∧ (∀ r ∈ a.lanes, ∀ th, threadOf s r.uid = some th → threadOf t r.uid =
        some { th with regs := (R r th.regs).ctrDown a.ctr })
    ∧ ∀ u, u ∉ a.lanes.map LaneReq.uid → threadOf t u = threadOf s u
  let clean (s : State) (a : Access) : Prop :=
    ∀ r ∈ a.lanes, ∀ x ∈ r.addrs ++ r.writes.map Prod.fst, isPoisoned s r.mem (x / 32) = false
  let ready (s : State) (a : Access) : Prop :=
    accessOf s a.id = some a ∧ (a.lanes.map LaneReq.uid).Nodup ∧ a.space = .hostH
  (∀ (s : State) (a : Access), ready s a → canPerform s a = true → (hostPort s (dieOfCore a.core)).isSome = true →
    clean s a → a.ordering ≠ .acq →
    (a.kind = .load → answers (.hostAccessComplete a.id) s fun t =>
      leaves s t a (fun r g => putLoaded a.size a.sext r.dst (readBytes s r.mem r.addrs) g) ∧ t.mem = s.mem)
    ∧ (a.kind = .store → a.lanes ≠ [] → (∀ r ∈ a.lanes, r.mem = .host) → answers (.hostAccessComplete a.id) s fun t =>
      leaves s t a (fun _ g => g) ∧ t.mem.host = setCells s.mem.host (a.lanes.flatMap LaneReq.writes)
      ∧ t.mem.device = s.mem.device)
    ∧ (∀ r, a.kind = .atomic → a.lanes = [r] → r.mem = .host → r.poison = false →
      let n := sizeBytes a.size
      let old := BitVec.ofNat 64 (readBytes s .host r.addrs)
      answers (.hostAccessComplete a.id) s fun t =>
        leaves s t a (fun r g => putLoaded a.size false r.dst old.toNat g)
        ∧ ((∀ x ∈ byteWrites (r.addrs.headD 0) n 0, isPoisoned s .host (x.1 / 32) = false) →
            t.mem.host = setCells s.mem.host
              (byteWrites (r.addrs.headD 0) n (atomNew a.op a.size old r.operand r.cmp).toNat))))
  ∧ (∀ (s : State) (a : Access), ready s a → a.issued = true → a.since + 1000000 ≤ s.dtime →
    (a.kind = .store → answers (.hostAccessTimeout a.id) s fun t => leaves s t a (fun _ g => g))
    ∧ (a.kind = .load ∨ a.kind = .atomic → answers (.hostAccessTimeout a.id) s fun t =>
      t.pend = s.pend.filter (fun b => b.id != a.id)
      ∧ ∀ r ∈ a.lanes, (threadOf s r.uid).isSome = true → a.size = .b4 →
          (threadOf t r.uid).map (fun th => th.regs.get r.dst) = some 0))
  ∧ (∀ (s : State) (i : Nat), (extentOf s i).state = 1 → (extentOf s i).kind = 0 →
    answers (.extentReleaseRequest i) s fun t => extentOf t i =
      { extentOf s i with state := 2, deadline := s.dtime + max 1 s.tables.extDrain * 1000 })
  ∧ (∀ (s : State) (i : Nat), (extentOf s i).kind = 0 → (extentOf s i).state = 2 → extentFrames s (extentOf s i) = [] →
    exec (.extentReleaseDone i) s = .next (assignAll (setExtent s i { extentOf s i with state := 3 }))
    ∧ ((∀ d, d < 4 → waitingPages s d = []) → answers (.extentReleaseDone i) s fun t =>
        extentOf t i = { extentOf s i with state := 3 } ∧ t.mem = s.mem))
  ∧ (∀ (s : State) (i : Nat), (extentOf s i).kind = 1 → (extentOf s i).state = 5 →
    exec (.extentReleaseDone i) s = .next (endLoan s i (extentOf s i))
    ∧ ((extentOf s i).deadline ≤ s.dtime →
        exec (.extentDrainDeadline i) s = .next (endLoan s i (extentOf s i))))
  ∧ (∀ (s : State) (i : Nat), (extentOf s i).kind = 0 →
    ((extentOf s i).state = 2 → (extentOf s i).deadline ≤ s.dtime →
      exec (.extentDrainDeadline i) s = .next (forceRelease s i (extentOf s i)))
    ∧ ((extentOf s i).state = 1 ∨ (extentOf s i).state = 2 →
      exec (.extentForcedRelease i) s = .next (forceRelease s i (extentOf s i))))
  ∧ (∀ (s : State) (i : Nat), (extentOf s i).kind = 1 → (extentOf s i).state = 4 →
    answers (.extentReclaim i) s fun t => lentMap t i = 0 ∧ extentOf t i =
      { extentOf s i with state := 5, deadline := s.dtime + max 1 s.tables.extDrain * 1000 })
  ∧ (∀ (s : State) (i offset : Nat), (extentOf s i).kind = 1 → offset % 64 = 0 → offset + 64 ≤ (extentOf s i).len →
    let a := 4096 * (extentOf s i).firstFrame + offset
    let clean := ∀ k, k < 64 → isPoisoned s .device ((a + k) / 32) = false
    ((extentOf s i).state = 4 → lentMap s i ≠ 0 → clean →
      (∀ bs, bs.length = 64 → answers (.lentMemoryRequest i offset (some bs)) s fun t =>
        t.mem.device = setCells s.mem.device (((List.range 64).map (a + ·)).zip bs) ∧ t.work = s.work
        ∧ t.tables.lentAnswer = some { extent := i, offset := offset })
      ∧ (answers (.lentMemoryRequest i offset none) s fun t => t.mem = s.mem ∧ t.work = s.work
        ∧ ∃ p, t.tables.lentAnswer =
            some { extent := i, offset := offset, data := cellsFrom s.mem.device a 64, poison := p }))
    ∧ ((extentOf s i).state = 5 → ∀ d, answers (.lentMemoryRequest i offset d) s fun t => t.mem = s.mem ∧ t.work = s.work
        ∧ t.tables.lentAnswer = some { extent := i, offset := offset, poison := true })
    ∧ ((extentOf s i).state = 4 → lentMap s i = 0 → ∀ d, exec (.lentMemoryRequest i offset d) s = .next s))
  ∧ (let begins (i : Nat → Instr) (push : Bool) : Prop := ∀ (s : State) (ctx : Nat) (x : Xfer),
        nextXfer s ctx = some x → (x.kind = 2 ↔ push = true) → x.serial = false ∨ (moreOf s ctx).xfers = [] →
        let at_ := (ctxOf s ctx).xfrRead
        let took (t : State) (st : Status) (code : FaultCode) (time : Nat) : Prop :=
          (ctxOf t ctx).xfrRead = (at_ + 1) % max 1 (ctxOf s ctx).f.xfrSize
          ∧ mget (moreOf t ctx).xfers at_ = some (st, code, time)
        (x.legal = false → answers (i ctx) s fun t => took t .faulted .protection s.dtime ∧ t.mem = s.mem)
        ∧ (x.legal = true → remoteActive s x = false →
            answers (i ctx) s fun t => took t .faulted .extentGone s.dtime ∧ t.mem = s.mem)
        ∧ ∀ ps, x.legal = true → remoteActive s x = true → localPages s ctx x = .ok ps → remoteUp s x = true →
            exec (i ctx) s = .next (moveXfer s ctx x ps)
            ∧ ∀ pa, push = false → x.kind = 1 → x.target = 0xFFFF → x.pages = 1 → ps = [pa] → pa % 4096 = 0 →
                (∀ k, k < 128 → isPoisoned s .pool (x.remote / 32 + k) = false) →
                answers (i ctx) s fun t => t.mem.device = setCells s.mem.device
                    (((List.range 4096).map (pa + ·)).zip (cellsFrom s.mem.pool x.remote 4096))
                  ∧ ∃ time, took t .done .none time
     begins .xferFetch false ∧ begins .xferPush true)
  ∧ (∀ (s : State) (ctx n time : Nat) (st : Status) (code : FaultCode), mget (moreOf s ctx).xfers n = some (st, code, time) →
    time ≤ s.dtime → (mget s.ctxs ctx).isSome = true →
    answers (.xferComplete ctx n) s fun t => (moreOf t ctx).xfers = merase (moreOf s ctx).xfers n)
  ∧ (∀ (s : State) (port device key : Nat), device < 256 → port < 8 → (dieOf s (port / 2)).lost = false →
    (securityDie s).isSome = true → answers (.budunLinkBringup port device key) s fun t =>
      mget (mgetD t.tables.links port []) device = some key
      ∧ (∀ d, d ≠ device → mget (mgetD t.tables.links port []) d = mget (mgetD s.tables.links port []) d)
      ∧ ∀ p, p ≠ port → mget t.tables.links p = mget s.tables.links p)

/-! ### Device events: stored data, security and power (22) -/

/-- 22 R503 to R505, R508 to R518, R520, R521, 17 R406: a line read with wrong symbols is corrected, or, with more than
four, its sectors are poisoned, where a recomputed check value differs from the stored one; a die is lost; keys; the
boot chain with its compound identifier; the SPDM requests, which need a security core and a port to the host, and
their responses; tokens and the debug state; what the firmware drops.

Completion: `exec i s` answers a next state, under conditions on `s` and the operands alone, for `crcCorrectionDone`,
`patrolScrub`, `watchdogBeatMiss`, `dieLoss`, `censusSweepDone`, `keyLoad`, `keyInvalidate`, `boot`, `getVersion`,
`getCapabilities`, `negotiateAlgorithms`, `getDigests`, `getCertificate`, `challenge`, `getMeasurements`,
`keyExchange`, `finishSession`, `endSession`, `mlDsaVendorRequest`, `debugAuthToken`, `returnMaterialToken`,
`debugStateSet`, `haltCommand`, `capabilityFault`. -/
def Obligations.SecurityEvents : Prop :=
  let mailed (t : State) (die st reason : Nat) : Prop :=
    (dieOf t die).mailStatus = st ∧ (dieOf t die).mailReason = reason ∧ (dieOf t die).mailBusy = false
  let asks (i : Instr) (f : Spdm → Option Spdm) : Prop := ∀ s : State,
    (securityDie s = none ∨ hostReach s = false → exec i s = .next s)
    ∧ ((securityDie s).isSome = true → hostReach s = true → exec i s = .next { s with
      power := { s.power with asleep := false }
      security := { s.security with spdm := (f s.security.spdm).getD s.security.spdm } })
  let said (ok : Spdm → Bool) (code arg : Nat) (f : Spdm → Spdm) (x : Spdm) : Option Spdm :=
    if ok x = true then some { f x with responses := x.responses ++ [(code, arg)] } else none
  let ready (x : Spdm) : Bool := x.version && x.capabilities && x.algorithms.isSome
  let differs (s : State) (line : Nat) (wrong : List (Nat × Nat)) (k : Nat) : Prop :=
    crc16 (cipherOf s (4 * line + k) ^^^ sectorError wrong k) ≠ sectorCheck s (4 * line + k)
  (∀ (s : State) (line : Nat) (wrong : List (Nat × Nat)), (lineOf s line).transient = false →
    let n := ((List.range 64).filter fun j => symbolError wrong j != 0).length
    answers (.crcCorrectionDone line wrong) s fun t =>
      ((∀ k, k < 4 → ¬ differs s line wrong k) → t = s)
      ∧ ((∃ k, k < 4 ∧ differs s line wrong k) → n ≤ 4 → t.mem = s.mem
          ∧ (dieOf t (homeDie line)).corrections = (dieOf s (homeDie line)).corrections + 1)
      ∧ (4 < n → ∀ k, k < 4 → differs s line wrong k → isPoisoned t .device (4 * line + k) = true))
  ∧ (∀ (s : State) (f i k e : Nat), (frameOf s f).valid = true →
    exec (.patrolScrub f []) s = .next (modFrame s f fun x => { x with scrubbed := s.dtime })
    ∧ (i < 32 → k < 64 → differs s (32 * f + i) [(k, e)] (k / 16) →
        answers (.patrolScrub f [(i, k, e)]) s fun t => t.mem = s.mem
        ∧ (dieOf t (homeDie (32 * f + i))).corrections = (dieOf s (homeDie (32 * f + i))).corrections + 1))
  ∧ (∀ (s : State) (die : Nat), die < 4 → (dieOf s die).lost = false →
    let d := dieOf s die
    let n := if d.missed = 0 ∨ s.dtime < d.missedAt + 2000000 then d.missed + 1 else 1
    (answers (.watchdogBeatMiss die) s fun t => (dieOf t die).missed = n ∧ (dieOf t die).missedAt = s.dtime
      ∧ ((dieOf t die).lost = true ↔ 4 ≤ n))
    ∧ (answers (.dieLoss die) s fun t => dieOf t die = { d with lost := true, census := true }
        ∧ ∀ e, e ≠ die → dieOf t e = dieOf s e))
  ∧ (∀ (s : State) (die : Nat), die < 4 → (dieOf s die).census = true →
    exec (.censusSweepDone die) s = .next (sweepDie s die))
  ∧ (∀ (s : State) (die ctx index session image : Nat), mailOpen s die = true → ctx < 4096 → 0 < index →
    index < 4096 → imageOk s image = true →
    (sessionOk s session = false → answers (.keyLoad die ctx index session image) s fun t =>
      mailed t die 2 3 ∧ t.tables = s.tables)
    ∧ (sessionOk s session = true → (mgetD s.tables.keys index {}).valid = true →
      answers (.keyLoad die ctx index session image) s fun t => mailed t die 2 1 ∧ t.tables = s.tables)
    ∧ (sessionOk s session = true → (mgetD s.tables.keys index {}).valid = false →
      s.security.state ≠ .returnMaterial →
      answers (.keyLoad die ctx index session image) s fun t => mailed t die 0 0
        ∧ mget t.tables.keys index =
            some { valid := true, ctx := ctx, bits := Config.unwrapKey session (wrappedPair s image) }))
  ∧ (∀ (s : State) (die index : Nat), mailOpen s die = true → 0 < index → index < 4096 →
    answers (.keyInvalidate die index) s fun t => mailed t die 0 0 ∧ t.tables.keys = merase s.tables.keys index)
  ∧ (∀ (s : State) (images : List BootImage), answers (.boot images) s fun t =>
    let run := (images.take 3).takeWhile fun x => x.signed
    t.security.booted = run.length ∧ t.security.measurements = run.map (·.hash) ∧ t.cur = {}
    ∧ t.security.identifier = some (run.length,
        run.foldl (fun x i => Config.hkdf x i.hash t.security.state.code) (Config.deviceSecret.setWidth 384))
    ∧ t.security.layers.map (·.layer) = List.range (run.length + 1)
    ∧ (∀ i r, run = i :: r → (mgetD t.tables.keys 0 {}).bits =
        Config.deviceKey (Config.hkdf (Config.deviceSecret.setWidth 384) i.hash t.security.state.code))
    ∧ t.dtime = 0 ∧ t.power = State.reset.power ∧ t.ctxs = [] ∧ t.work = State.reset.work ∧ t.pend = []
    ∧ t.security.state = (if s.security.fuseBurned = true then .returnMaterial
        else if s.security.pendingToken = true then .debugAuthorised else .productionLocked)
    ∧ (s.security.fuseBurned = false → t.mem = s.mem)
    ∧ ∀ d, (dieOf t d).rowMap = (dieOf s d).rowMap)
  ∧ asks .getVersion (fun x => some { responses := x.responses ++ [(0, 0)], version := true })
  ∧ asks .getCapabilities (said (·.version) 1 0 fun x => { x with capabilities := true })
  ∧ (∀ n, asks (.negotiateAlgorithms n)
      (said (fun x => x.version && x.capabilities) 2 n fun x => { x with algorithms := some n }))
  ∧ asks .getDigests (said ready 3 0 id)
  ∧ (∀ n, asks (.getCertificate n) (said ready 4 n id))
  ∧ (∀ n, asks (.challenge n) (said ready 5 n fun x => { x with challenge := some n }))
  ∧ (∀ n, asks (.getMeasurements n) (said ready 6 n id))
  ∧ (∀ n, asks (.keyExchange n)
      (said (fun x => ready x && x.session.isNone) 7 n fun x => { x with session := some n, finished := false }))
  ∧ (∀ n, asks (.finishSession n) (said (fun x => x.session == some n) 8 n fun x => { x with finished := true }))
  ∧ (∀ n, asks (.endSession n)
      (said (fun x => x.session == some n) 9 n fun x => { x with session := none, finished := false }))
  ∧ (∀ n, asks (.mlDsaVendorRequest n) (said ready 10 n id))
  ∧ (∀ (s : State) (n : Nat) (k : Token), sessionOk s n = true → tokenOk s k = true →
    exec (.debugAuthToken n k) s = .next { s with security := { s.security with pendingToken := true } }
    ∧ exec (.returnMaterialToken n k) s = .next { s with security := { s.security with fuseBurned := true } })
  ∧ (∀ (s : State) (n : Nat) (k : Token), sessionOk s n = false ∨ tokenOk s k = false →
    exec (.debugAuthToken n k) s = .next s ∧ exec (.returnMaterialToken n k) s = .next s)
  ∧ (∀ (s : State) (n : Nat) (d : DebugMode), sessionOk s n = true →
    (d = .halt → s.security.state = .productionLocked → exec (.debugStateSet n d) s = .next s)
    ∧ (d = .halt → s.security.state ≠ .productionLocked →
      exec (.debugStateSet n d) s = .next { s with security := { s.security with debug := .halt } })
    ∧ (d ≠ .halt → answers (.debugStateSet n d) s fun t => t.security.debug = d ∧ t.security.haltedUnits = []
        ∧ ∀ g, (coreOf t g).halted = false))
  ∧ (∀ (s : State) (n : Nat) (u : UnitId), sessionOk s n = true → s.security.debug = .halt → mayHalt s u = true →
    u ∉ s.security.haltedUnits →
    answers (.haltCommand n u) s fun t => t.security.haltedUnits = s.security.haltedUnits ++ [u]
      ∧ t.power.asleep = false ∧ ∀ g, u = .core g → (coreOf t g).halted = true)
  ∧ (∀ (s : State) (ctx q : Nat) (c : CmdQueue) (b : List Byte), cmdQueueOf s ctx q = some c →
    readerMay s ctx q c = true → headBytes s ctx c = .ok b →
    c.marks.contains (c.seq % 2 ^ 24) = false ∨ (parseRecord b q (c.handle q) c.head c.phaseNo).kind ≠ 5 →
    answers (.capabilityFault ctx (.record q)) s fun t => ∃ r, recordOf t ctx (q * 2 ^ 24 + c.seq % 2 ^ 24) = some r
      ∧ r.due = some (.faulted, .protection) ∧ r.begun = false)
  ∧ (∀ (s : State) (ctx : Nat) (x : FirmwareItem), (mget s.ctxs ctx).isSome = true →
    answers (.capabilityFault ctx x) s fun t =>
      (t.blackBox.getLast?.map fun e => (e.kind, e.ctx, e.code)) = some (1, ctx, 0x11))

/-- 22 R512, R514, R522 to R526, 09 R221: the operating point by mailbox, by power and by heat; deep sleep and waking;
gated units; the supervisor's fields; after a thermal shutdown every step stops until a boot.

Completion: `exec i s` answers a next state, under conditions on `s` and the operands alone, for `opPointRequest`,
`deepSleepEntry`, `deepSleepWake`, `supervisorFieldWrite`, `packagePowerEval`, `thermalEval`, `clockGate`, `unitWake`. -/
def Obligations.PowerEvents : Prop :=
  let mailed (t : State) (die st reason : Nat) : Prop :=
    (dieOf t die).mailStatus = st ∧ (dieOf t die).mailReason = reason ∧ (dieOf t die).mailBusy = false
  let free (s : State) : Prop :=
    s.power.target = none ∧ (s.tables.partitions.any fun p => p.2.state == 3) = false
  let puts (f : SupField) (v : Nat) (P : State → State → Prop) : Prop := ∀ s : State, fieldExists s f = true →
    answers (.supervisorFieldWrite f v) s (P s)
  (∀ (s : State) (die n : Nat), mailOpen s die = true →
    (5 < n → exec (.opPointRequest die n) s = .next (mailReply s die 3 0))
    ∧ (n ≤ 5 → n < s.power.vsMax ∨ s.power.vsMin < n →
      answers (.opPointRequest die n) s fun t => mailed t die 2 2 ∧ t.power = s.power)
    ∧ (s.power.vsMax ≤ n → n ≤ s.power.vsMin → n ≤ 5 →
      answers (.opPointRequest die n) s fun t => mailed t die 0 0 ∧ t.power.requested = some n
        ∧ (free s → s.power.vs < n → t.power.target = some n ∧ t.power.phase = 1)
        ∧ (free s → n < s.power.vs → limitsHold s = true → t.power.vs = n)))
  ∧ (∀ (s : State) (die : Nat), mailOpen s die = true →
    (maySleep s = false → answers (.deepSleepEntry die) s fun t => mailed t die 2 2 ∧ t.power = s.power)
    ∧ (maySleep s = true → heldShared s = [] → answers (.deepSleepEntry die) s fun t => mailed t die 0 0
        ∧ t.power = { s.power with asleep := true } ∧ ∀ g, (coreOf t g).l1 = [] ∧ (coreOf t g).tlb = []))
  ∧ (∀ (s : State) (c : WakeCause), exec (.deepSleepWake c) s =
    .next { s with power := { s.power with asleep := false } })
  ∧ (∀ (s : State) (watts amps : Nat), s.power.pkgLimit < watts ∨ 2600 < amps →
    answers (.packagePowerEval watts amps) s fun t => t.power.issueEighths = max 1 (s.power.issueEighths - 1)
      ∧ t.power.excessSince.isSome = true ∧ t.power.calmSince = none
      ∧ (free s → s.power.vs < 5 → (∀ x, s.power.excessSince = some x → x + 100000 ≤ s.dtime) →
          s.power.excessSince ≠ none → t.power.target = some (s.power.vs + 1) ∧ t.power.urgent = true))
  ∧ (∀ (s : State) (watts amps : Nat), watts ≤ s.power.pkgLimit → amps ≤ 2600 →
    answers (.packagePowerEval watts amps) s fun t => t.power.excessSince = none
      ∧ t.power.issueEighths =
          (if heatThrottled s = true then s.power.issueEighths else min 8 (s.power.issueEighths + 1)))
  ∧ (∀ (s : State) (die celsius : Nat), die < 4 →
    answers (.thermalEval die celsius) s fun t => (dieOf t die).hottest = celsius
      ∧ (celsius < 100 → t.power = s.power)
      ∧ (100 ≤ celsius → celsius < 120 → free s → s.power.vs < 5 →
          s.power.lastThermal = 0 ∨ s.power.lastThermal + 1000000 ≤ s.dtime →
          t.power.target = some (s.power.vs + 1) ∧ t.power.urgent = true ∧ t.power.lastThermal = s.dtime)
      ∧ (110 ≤ celsius → celsius < 120 → s.power.vs = 5 → t.power = { s.power with issueEighths := 1 })
      ∧ (120 ≤ celsius → t.power = { s.power with off := true }))
  ∧ (∀ (s : State) (g : Nat),
    (unitExists s (.core g) = true →
      (unitIdle s (.core g) = true → answers (.clockGate (.core g)) s fun t =>
        coreOf t g = { coreOf s g with gated := true, l1 := [], lLines := [] })
      ∧ (answers (.unitWake (.core g)) s fun t => coreOf t g = { coreOf s g with gated := false }))
    ∧ (unitExists s (.clusterUnit g) = true →
      (unitIdle s (.clusterUnit g) = true → answers (.clockGate (.clusterUnit g)) s fun t =>
        clusterOf t g = { clusterOf s g with gated := true })
      ∧ (answers (.unitWake (.clusterUnit g)) s fun t => clusterOf t g = { clusterOf s g with gated := false })))
  ∧ (∀ (s : State) (u : UnitId), (∀ g, u ≠ .core g ∧ u ≠ .clusterUnit g) → unitExists s u = true →
    (unitIdle s u = true → answers (.clockGate u) s fun t => u ∈ t.power.gatedUnits)
    ∧ (answers (.unitWake u) s fun t => u ∉ t.power.gatedUnits))
  ∧ (∀ (s : State) (u : UnitId), unitExists s u = false →
    exec (.clockGate u) s = .next s ∧ exec (.unitWake u) s = .next s)
  ∧ (∀ (s : State) (f : SupField) (v : Nat), fieldExists s f = false →
    exec (.supervisorFieldWrite f v) s = .next s)
  ∧ (∀ v,
    (∀ d, puts (.dispRamp d) v fun _ t => (dieOf t d).dispRamp = max 1 (v % 4096))
    ∧ (∀ d, puts (.shadowWays d) v fun _ t => (dieOf t d).shadowWays = min 8 v)
    ∧ puts .evacLimit v (fun s t => t.power = { s.power with evacLimit := v % 65536 })
    ∧ puts .holdLimit v (fun s t => t.power = { s.power with holdLimit := v % 65536 })
    ∧ puts .vsMin v (fun s t => t.power = { s.power with vsMin := min 5 v })
    ∧ puts .vsMax v (fun s t => t.power = { s.power with vsMax := min 5 v })
    ∧ puts .pkgLimit v (fun s t => t.power = { s.power with pkgLimit := v })
    ∧ puts .extDrain v (fun s t => t.tables = { s.tables with extDrain := v % 65536 })
    ∧ puts .freeMin v (fun s t => t.tables = { s.tables with freeMin := v % 2 ^ 32 })
    ∧ puts .pagerLimit v (fun s t => t.tables = { s.tables with pagerLimit := v % 65536 })
    ∧ (∀ g i, puts (.coreCounterCtl g i) v fun _ t =>
        (mgetD (coreOf t g).perf i {}).control = BitVec.ofNat 32 v &&& 0xCFFF00FF)
    ∧ (∀ d i, puts (.dieCounterValue d i) v fun _ t => (mgetD (dieOf t d).perf i {}).value = BitVec.ofNat 48 v)
    ∧ (∀ c q, puts (.powerCap c q) v fun _ t => (cmdQueueOf t c q).map (·.powerCap) = some (v % 4096))
    ∧ (∀ c q, puts (.queueBase c q) v fun _ t => v % 64 = 0 → v < 2 ^ 56 → (cmdQueueOf t c q).map (·.base) = some v)
    ∧ (∀ c q, puts (.queueReset c q) v fun s t => ∀ x, cmdQueueOf s c q = some x → x.resetDone = true →
        cmdQueueOf t c q = some { x with reset := false, resetDone := false, stopped := false })
    ∧ (∀ c, puts (.ctx c .ptRoot) v fun s t =>
        (mget s.ctxs c).isSome = true → v % 2 ^ 20 = 0 → v < 2 ^ 52 →
          ctxOf t c = { ctxOf s c with f := { (ctxOf s c).f with ptRoot := v } })
    ∧ (∀ c, puts (.ctx c .maxWait) v fun s t =>
        (mget s.ctxs c).isSome = true → ctxOf t c = { ctxOf s c with f := { (ctxOf s c).f with maxWait := v % 2 ^ 64 } })
    ∧ (∀ f, puts (.frameLend f) v fun s t =>
        (frameOf s f).free = true → frameOf t f = { frameOf s f with lent := v != 0 })
    ∧ (∀ a, puts (.hostWord a) v fun s t => (∀ i, i < 8 → isPoisoned s .host ((a + i) / 32) = false) →
        t.mem.host = setCells s.mem.host (byteWrites a 8 v))
    ∧ ∀ a, puts (.deviceWord a) v fun s t => (∀ i, i < 8 → isPoisoned s .device ((a + i) / 32) = false) →
        t.mem.device = setCells s.mem.device (byteWrites a 8 v))
  ∧ (∀ s : State, s.power.off = true → (∀ d r, s.inputs ≠ .boot d :: r) → step s = .fault .thermalShutdown)

/-! ### The whole machine -/

/-- 03 R52 to R72: the words of a well-formed instruction decode to it, every operand at every value it admits. -/
def Obligations.DecodeEncode : Prop :=
  ∀ (ag : Agent) (i : Instr), i.wf ag = true →
    ∃ b x, encodeWords i = some (b, x) ∧ decodeWords b x = .ok i

/-- 03 R53, R57, R63 to R69: words from the spec's worked examples (03, 05, 07, 08, 10, 12, 14, 26) and what they
stand for. -/
def Obligations.DecodeWords : Prop :=
  let plain : Guard := ⟨false, 0⟩
  let x0 : ExtA := { guard := plain, ctr := 0, srcC := .reg 0, rnd := .rn, sat := false, mods := 0 }
  decodeWords 0x00040102 none = .ok (.iadd { dst := .reg 4, a := .reg 1, b := .reg 2, x := x0 })
  ∧ decodeWords 0x06058003 (some 0x01860000)
      = .ok (.imad { dst := .reg 5, a := .latch 0, b := .reg 3, x := { x0 with srcC := .const 3 } })
  ∧ decodeWords 0x118081C2 none = .ok (.shl { dst := .suppress, a := .latch 1, b := .const 2, x := x0 })
  ∧ decodeWords 0x80FFFFFA (some 0x20000000) = .ok (.bra { off := -6, x := { x0 with guard := ⟨false, 2⟩ } })
  ∧ decodeWords 0x03080406 (some 0x00000030)
      = .ok (.addc { dst := .reg 8, a := .reg 4, b := .reg 6, x := { x0 with mods := 0x30 } })
  ∧ decodeWords 0x000A0705 (some 0x00002000)
      = .ok (.iadd { dst := .reg 10, a := .reg 7, b := .reg 5, x := { x0 with sat := true } })
  ∧ decodeWords 0x390502C1 (some 0x10000002)
      = .ok (.shfl { dst := .reg 5, a := .reg 2, b := .const 1, x := { x0 with guard := ⟨false, 1⟩, mods := 2 } })
  ∧ decodeWords 0x87030110 (some 0x00000048)
      = .ok (.repeatLoop { words := 3, count := .reg 1, addr := .reg 16, guard := plain, tileStep := 0, clauses := 0,
                           dStep := 0, aStep := 1, bStep := 1, cStep := 0 })
  ∧ decodeWords 0x57030405 (some 0x0850009D)
      = .ok (.ldgBlock { dst := 3, a := .reg 4, cmp := .reg 5,
                         x := { guard := plain, scope := .dev, ordering := .acq, size := .b4, sext := false,
                                esc := false, deadline := .rel 157 } })
  ∧ decodeWords 0x5D030406 (some 0x11020000)
      = .ok (.atg { dst := 3, a := .reg 4, operand := .reg 6,
                    x := { guard := ⟨false, 1⟩, ctr := 1, scope := .dev, ordering := .plain, size := .b4,
                           sext := false, mask := false, off := 0 } })
  ∧ decodeWords 0x61090000 (some 0x00D80020)
      = .ok (.fence { dst := .reg 9, a := .reg 0,
                      x := { guard := plain, esc := false, spec := 0xD8, deadline := .rel 32 } })
  ∧ decodeWords 0x710708E0 (some 0x00200823)
      = .ok (.mmae2 { dst := .reg 7, a := .reg 8, b := .const 32, x := { x0 with srcC := .reg 16, mods := 0x823 } })
  ∧ decodeWords 0x680B0400 none = .ok (.cpy { dst := .reg 11, a := .reg 4, b := .reg 0, x := x0 })
  ∧ decodeWords 0xA2030000 (some 0x00100010)
      = .ok (.bars { dst := .reg 3, a := .reg 0,
                     x := { guard := plain, esc := false, spec := 0x10, deadline := .rel 16 } })
  ∧ decodeWords 0x85000000 none = .ok .exitThread

/-- 02 R26, 03 R74, R76, R77, R59, 08 R172: one step. The next input event happens alone. Without one, the first agent
whose clause is ready issues it whole: its words are read through the fetch permission, least significant byte first,
and a clause of one instruction `i` is `i` as the decoder gives it. Where `i` raises no fault and waits for nothing,
the step is `exec i` and then the end of the clause; where it faults, nothing of it stands and the fault is taken in
the state before it; where it must wait, the step discards it and a due event happens instead; a clause whose
primitives ask for a flush ends as `flushFirst` says. At every other nanosecond an event that is due goes before the
clauses: the model's choice (log 2). -/
def Obligations.StepRunsDecoded : Prop :=
  (∀ (s : State) (i : Instr) (r : List Instr), s.inputs = i :: r → s.power.off = false →
    step s = happen i { passTime s with inputs := r })
  ∧ (∀ (s : State) (a : ClauseAgent) (rest : List ClauseAgent) (ws : List Word) (h : Header) (is : List Instr),
    s.inputs = [] → s.power.off = false → eventFirst (passTime s) = none → clauseAgents (passTime s) = a :: rest →
    let s0 := { passTime s with cur := curFor (passTime s) a }
    clauseText s0 = .ok ws → checkClause s0.cur.agent (launchOfBlock s0 s0.cur.block).desc.allot ws = .ok (h, is) →
    let s1 := loadClause s0 ws.length h is
    clauseReady s1 = true →
    step s = issueClause s1
    ∧ ∀ i, is = [i] → decode ws.tail = .ok i ∧ i.wf s0.cur.agent = true
      ∧ ∀ t, exec i { consumeBad s1 i with cur := { s1.cur with pos := 0, word := s0.cur.addr + 4 } } = .next t →
          match t.cur.fault with
          | some q => step s = .next { deliver { s1 with cur := { s1.cur with pos := q.pos } } q with cur := {} }
          | none =>
            if t.cur.hold = true ∨ counterFull s1 i = true then step s = background { s1 with cur := {} }
            else if t.cur.flush = [] then step s = .next (endClause t)
            else step s = flushFirst s1 t)
  ∧ (∀ (s : State) (x : Host.Outcome State Fault Refusal), s.inputs = [] → s.power.off = false →
    eventFirst (passTime s) = some x → step s = x)
  ∧ (∀ (s : State) (ws : List Word), capturedWords s = none → ws ≠ [] →
    ws.length = clauseWords (headerOf (ws.headD 0)) →
    (∀ k w, ws[k]? = some w → ∃ p : Place,
      translate s s.cur.core (ctxOfBlock s s.cur.block) (s.cur.addr + 4 * k) { exec := true } = .ok p
      ∧ ∀ j, j < 4 → w.extractLsb' (8 * j) 8 = readByte s p.mem.1 (p.mem.2 + j)) →
    clauseText s = .ok ws)

/-- 03 R76: a clause issues whole, in one step: from every state, no step leaves a clause under way. -/
def Obligations.ClausesWhole : Prop :=
  ∀ s t : State, stepsTo s t → quiet t

/-- 09 R204 (log 3): every step keeps the canonical form of the device, host and pool memories. The form is the
model's; that no step but a write changes what a byte reads rests on it. -/
def Obligations.MemoryFormKept : Prop :=
  ∀ s t : State, memWf s → stepsTo s t → memWf t

/-- 02 R36, R46, 09 R205, R217, R218, 21 R493, 22 R523, R524: what reset leaves: device time 0, the supervisor's fields
at the values the rules give, no thread, block, launch or context, nothing in flight, and memory that lists nothing. -/
def Obligations.ResetValues : Prop :=
  quiet State.reset ∧ memWf State.reset ∧ State.reset.dtime = 0
  ∧ State.reset.power.evacLimit = 100 ∧ State.reset.power.holdLimit = 1000 ∧ State.reset.power.pkgLimit = 1800
  ∧ State.reset.power.vsMin = 5 ∧ State.reset.power.vsMax = 0 ∧ State.reset.tables.extDrain = 1000
  ∧ (∀ d, (dieOf State.reset d).dispRamp = 64 ∧ (dieOf State.reset d).shadowWays = 4)
  ∧ State.reset.work.threads = [] ∧ State.reset.work.blocks = [] ∧ State.reset.work.launches = []
  ∧ State.reset.ctxs = [] ∧ State.reset.pend = []
  ∧ State.reset.mem.device = [] ∧ State.reset.mem.host = [] ∧ State.reset.mem.pool = []
end

