-- ==== Sys2Proof/Laws/Crc.lean ====
section
/-!
SUPPORT. The check value of 22 R503 is linear: whether a sector read with some bits wrong mismatches depends on those
bits alone.
-/

namespace Sys2Proof.Machine

theorem crcBit_xor (c d : BitVec 16) (a b : Bool) : crcBit (c ^^^ d) (a ^^ b) = crcBit c a ^^^ crcBit d b := by
  have h (x y p : BitVec 16) : x ^^^ y ^^^ p = x ^^^ p ^^^ y := by ac_rfl
  have k (x y p : BitVec 16) : x ^^^ p ^^^ (y ^^^ p) = x ^^^ y := by
    rw [show x ^^^ p ^^^ (y ^^^ p) = x ^^^ y ^^^ (p ^^^ p) by ac_rfl]; simp
  unfold crcBit
  rw [BitVec.msb_xor, BitVec.shiftLeft_xor_distrib]
  cases c.msb <;> cases d.msb <;> cases a <;> cases b <;> simp [h, k, BitVec.xor_assoc]

theorem crcFold_xor (x y : BitVec 256) (f : Nat → Nat) (l : List Nat) (c d : BitVec 16) :
    l.foldl (fun c i => crcBit c ((x ^^^ y).getLsbD (f i))) (c ^^^ d)
      = l.foldl (fun c i => crcBit c (x.getLsbD (f i))) c ^^^ l.foldl (fun c i => crcBit c (y.getLsbD (f i))) d := by
  induction l generalizing c d with
  | nil => rfl
  | cons i l ih => rw [List.foldl_cons, List.foldl_cons, List.foldl_cons, BitVec.getLsbD_xor, crcBit_xor, ih]

theorem crcFrom_xor (c d : BitVec 16) (x y : BitVec 256) :
    crcFrom (c ^^^ d) (x ^^^ y) = crcFrom c x ^^^ crcFrom d y := crcFold_xor x y _ _ c d

/-- R503: the check value recomputed over a sector read with error bits `e` differs from the stored one exactly where
`crcMismatch e` says. -/
theorem crcMismatch_iff (x e : BitVec 256) : crcMismatch e = true ↔ crc16 (x ^^^ e) ≠ crc16 x := by
  have h : crcFrom 0xFFFF (x ^^^ e) = crcFrom 0xFFFF x ^^^ crcFrom 0 e := crcFrom_xor 0xFFFF 0 x e
  unfold crcMismatch crc16
  rw [h, bne_iff_ne, ne_eq, ne_eq, not_iff_not]
  constructor
  · intro h0; rw [h0]; exact BitVec.xor_zero
  · intro h0
    have := congrArg (crcFrom 0xFFFF x ^^^ ·) h0
    simpa [← BitVec.xor_assoc] using this

end Sys2Proof.Machine
end

