-- ==== Sys2Proof/Laws/Maps.lean ====
section
/-!
SUPPORT. The laws of sparse maps and of memory bytes: what a write leaves at its own key and at every other, and
that every memory operation keeps the canonical form.
-/

namespace Sys2Proof.Machine

/-! ### Reading after a change -/

theorem mget_mset_same {α : Type} (m : SMap α) (i : Nat) (x : α) : mget (mset m i x) i = some x := by
  induction m with
  | nil => simp [mset, mget]
  | cons p r ih =>
    obtain ⟨k, v⟩ := p
    simp only [mset]
    split
    · simp [mget]
    · split
      · simp [mget]
      · simp [mget, *]

theorem mget_mset_other {α : Type} (m : SMap α) {i j : Nat} (x : α) (h : j ≠ i) : mget (mset m i x) j = mget m j := by
  induction m with
  | nil => simp [mset, mget, h]
  | cons p r ih =>
    obtain ⟨k, v⟩ := p
    simp only [mset]
    split
    · simp [mget, h]
    · split
      · rename_i _ hk; subst hk; simp [mget, h]
      · simp [mget, ih]

@[simp] theorem mget_mset {α : Type} (m : SMap α) (i j : Nat) (x : α) :
    mget (mset m i x) j = if j = i then some x else mget m j := by
  split
  · rename_i h; rw [h, mget_mset_same]
  · rename_i h; exact mget_mset_other m x h

@[simp] theorem mget_mmod {α : Type} (m : SMap α) (i j : Nat) (f : α → α) :
    mget (mmod m i f) j = if j = i then (mget m j).map f else mget m j := by
  induction m with
  | nil => simp [mmod, mget]
  | cons p r ih =>
    obtain ⟨k, v⟩ := p
    simp only [mmod]
    by_cases hi : i = k
    · subst hi
      by_cases hj : j = i <;> simp [mget, hj]
    · by_cases hj : j = k
      · subst hj
        have : ¬ j = i := fun h => hi h.symm
        simp [mget, hi, this]
      · simp only [hi, if_false, mget, hj, ih]

/-! ### Keys -/

theorem mkeys_mmod {α : Type} (m : SMap α) (i : Nat) (f : α → α) : mkeys (mmod m i f) = mkeys m := by
  induction m with
  | nil => rfl
  | cons p r ih =>
    obtain ⟨k, v⟩ := p
    simp only [mmod]
    split <;> simp_all [mkeys]

/-- The sorted form, as a property of the keys. -/
theorem msorted_iff {α : Type} (m : SMap α) : msorted m = true ↔ (mkeys m).Pairwise (· < ·) := by
  induction m with
  | nil => simp [msorted, mkeys]
  | cons p r ih =>
    obtain ⟨k, v⟩ := p
    cases r with
    | nil => simp [msorted, mkeys]
    | cons q t =>
      obtain ⟨k', v'⟩ := q
      simp only [msorted, Bool.and_eq_true, decide_eq_true_eq, ih, mkeys, List.map_cons, List.pairwise_cons,
        List.mem_cons]
      constructor
      · rintro ⟨h1, h2, h3⟩
        refine ⟨?_, h2, h3⟩
        rintro a (rfl | ha)
        · exact h1
        · exact Nat.lt_trans h1 (h2 a ha)
      · rintro ⟨h1, h2, h3⟩
        exact ⟨h1 k' (Or.inl rfl), h2, h3⟩

theorem mem_mkeys_mset {α : Type} (m : SMap α) (i a : Nat) (x : α) :
    a ∈ mkeys (mset m i x) ↔ a = i ∨ a ∈ mkeys m := by
  induction m with
  | nil => simp [mset, mkeys]
  | cons p r ih =>
    obtain ⟨k, v⟩ := p
    simp only [mset]
    split
    · simp [mkeys]
    · split
      · rename_i _ h; subst h; simp [mkeys]
      · simp only [mkeys, List.map_cons, List.mem_cons] at ih ⊢
        rw [ih]
        constructor <;> rintro (h | h | h) <;> simp [h]

theorem msorted_mset {α : Type} (m : SMap α) (i : Nat) (x : α) (h : msorted m = true) :
    msorted (mset m i x) = true := by
  rw [msorted_iff] at h ⊢
  induction m with
  | nil => simp [mset, mkeys]
  | cons p r ih =>
    obtain ⟨k, v⟩ := p
    simp only [mkeys, List.map_cons, List.pairwise_cons] at h
    simp only [mset]
    split
    · rename_i hk
      simp only [mkeys, List.map_cons, List.pairwise_cons, List.mem_cons]
      refine ⟨?_, h.1, h.2⟩
      rintro a (rfl | ha)
      · exact hk
      · exact Nat.lt_trans hk (h.1 a ha)
    · split
      · rename_i _ hk; subst hk
        simp only [mkeys, List.map_cons, List.pairwise_cons]
        exact h
      · rename_i h1 h2
        simp only [mkeys, List.map_cons, List.pairwise_cons]
        refine ⟨?_, ih h.2⟩
        intro a ha
        rcases (mem_mkeys_mset r i a x).1 ha with rfl | ha
        · omega
        · exact h.1 a ha

theorem mkeys_merase_subset {α : Type} (m : SMap α) (i a : Nat) (h : a ∈ mkeys (merase m i)) : a ∈ mkeys m := by
  induction m with
  | nil => simp [merase, mkeys] at h
  | cons p r ih =>
    obtain ⟨k, v⟩ := p
    simp only [merase] at h
    split at h
    · simp only [mkeys, List.map_cons, List.mem_cons]; exact Or.inr h
    · simp only [mkeys, List.map_cons, List.mem_cons] at h ⊢
      exact h.imp_right ih

theorem msorted_merase {α : Type} (m : SMap α) (i : Nat) (h : msorted m = true) : msorted (merase m i) = true := by
  rw [msorted_iff] at h ⊢
  induction m with
  | nil => simp [merase, mkeys]
  | cons p r ih =>
    obtain ⟨k, v⟩ := p
    simp only [mkeys, List.map_cons, List.pairwise_cons] at h
    simp only [merase]
    split
    · exact h.2
    · simp only [mkeys, List.map_cons, List.pairwise_cons]
      exact ⟨fun a ha => h.1 a (mkeys_merase_subset r i a ha), ih h.2⟩

theorem msorted_mmod {α : Type} (m : SMap α) (i : Nat) (f : α → α) (h : msorted m = true) :
    msorted (mmod m i f) = true := by
  rw [msorted_iff] at h ⊢
  rwa [mkeys_mmod]

/-- A key that is not listed reads as absent. -/
theorem mget_none_of_not_mem {α : Type} (m : SMap α) (i : Nat) (h : i ∉ mkeys m) : mget m i = none := by
  induction m with
  | nil => rfl
  | cons p r ih =>
    obtain ⟨k, v⟩ := p
    simp only [mkeys, List.map_cons, List.mem_cons, not_or] at h
    simp only [mget, h.1, if_false]
    exact ih h.2

theorem mget_merase {α : Type} (m : SMap α) (i j : Nat) (h : msorted m = true) :
    mget (merase m i) j = if j = i then none else mget m j := by
  induction m with
  | nil => simp [merase, mget]
  | cons p r ih =>
    obtain ⟨k, v⟩ := p
    have hs := (msorted_iff _).1 h
    simp only [mkeys, List.map_cons, List.pairwise_cons] at hs
    have ih' := ih ((msorted_iff _).2 hs.2)
    simp only [merase]
    by_cases hi : i = k
    · subst hi
      by_cases hj : j = i
      · subst hj
        simp only [if_true]
        exact mget_none_of_not_mem r j (fun hm => Nat.lt_irrefl _ (hs.1 j hm))
      · simp [mget, hj]
    · by_cases hj : j = k
      · subst hj
        have : ¬ j = i := fun h => hi h.symm
        simp [mget, hi, this]
      · simp only [hi, if_false, mget, hj, ih']

/-! ### Bytes of memory -/

/-- The canonical form, as a property. -/
theorem memory_wf_iff (m : List Host.Cell) :
    Memory.wf m = true ↔ msorted m = true ∧ ∀ c ∈ m, c.2 ≠ emptyByte := by
  simp [Memory.wf, bne_iff_ne]

theorem mem_mset {α : Type} (m : SMap α) (i : Nat) (x : α) {c : Nat × α} (h : c ∈ mset m i x) : c = (i, x) ∨ c ∈ m := by
  induction m with
  | nil => simp [mset] at h; exact Or.inl h
  | cons p r ih =>
    obtain ⟨k, v⟩ := p
    simp only [mset] at h
    split at h
    · rcases List.mem_cons.1 h with h | h
      · exact Or.inl h
      · exact Or.inr h
    · split at h
      · rcases List.mem_cons.1 h with h | h
        · exact Or.inl h
        · exact Or.inr (List.mem_cons.2 (Or.inr h))
      · rcases List.mem_cons.1 h with h | h
        · exact Or.inr (List.mem_cons.2 (Or.inl h))
        · exact (ih h).imp_right fun hm => List.mem_cons.2 (Or.inr hm)

theorem mem_merase {α : Type} (m : SMap α) (i : Nat) {c : Nat × α} (h : c ∈ merase m i) : c ∈ m := by
  induction m with
  | nil => simp [merase] at h
  | cons p r ih =>
    obtain ⟨k, v⟩ := p
    simp only [merase] at h
    split at h
    · exact List.mem_cons.2 (Or.inr h)
    · rcases List.mem_cons.1 h with h | h
      · exact List.mem_cons.2 (Or.inl h)
      · exact List.mem_cons.2 (Or.inr (ih h))

/-- A byte written keeps the canonical form. -/
theorem setCell_wf (m : List Host.Cell) (a : Nat) (b : Byte) (h : Memory.wf m = true) :
    Memory.wf (setCell m a b) = true := by
  rw [memory_wf_iff] at h ⊢
  unfold setCell
  split
  · exact ⟨msorted_merase m a h.1, fun c hc => h.2 c (mem_merase m a hc)⟩
  · rename_i hb
    refine ⟨msorted_mset m a b h.1, fun c hc => ?_⟩
    rcases mem_mset m a b hc with rfl | hc
    · exact hb
    · exact h.2 c hc

/-- Bytes written keep the canonical form. -/
theorem setCells_wf (ws : List (Nat × Byte)) (m : List Host.Cell) (h : Memory.wf m = true) :
    Memory.wf (setCells m ws) = true := by
  induction ws generalizing m with
  | nil => exact h
  | cons w r ih => exact ih _ (setCell_wf m w.1 w.2 h)

/-- The byte at the address written is the byte written; every other reads as before. -/
theorem cellAt_setCell (m : List Host.Cell) (a x : Nat) (b : Byte) (h : Memory.wf m = true) :
    cellAt (setCell m a b) x = if x = a then b else cellAt m x := by
  have hs := ((memory_wf_iff m).1 h).1
  unfold cellAt setCell mgetD
  split
  · rename_i hb
    rw [mget_merase m a x hs, hb]
    split <;> rfl
  · rw [mget_mset]
    split <;> rfl

/-- Bytes an operation does not write read as before. -/
theorem cellAt_setCells_other (ws : List (Nat × Byte)) (m : List Host.Cell) (x : Nat) (h : Memory.wf m = true)
    (hx : ∀ w ∈ ws, w.1 ≠ x) : cellAt (setCells m ws) x = cellAt m x := by
  induction ws generalizing m with
  | nil => rfl
  | cons w r ih =>
    have h1 := ih (setCell m w.1 w.2) (setCell_wf m w.1 w.2 h) fun v hv => hx v (List.mem_cons_of_mem _ hv)
    have hw : x ≠ w.1 := fun he => hx w List.mem_cons_self he.symm
    simp only [setCells, List.foldl_cons] at h1 ⊢
    rw [h1, cellAt_setCell m w.1 x w.2 h, if_neg hw]

end Sys2Proof.Machine
end

