-- ==== Sys2Proof/Laws/Lanes.lean ====
section
/-!
SUPPORT. Once and for all what the shared lane operations do: an update of every lane, and the ways of writing a
result, in the terms of Safety.lean.
-/

namespace Sys2Proof.Machine

open Sys2Proof.Safety

/-! ### Registers and latches -/

@[simp] theorem regs_get_set (r : Regs) (n m : Nat) (x : Word) :
    (r.set n x).get m = if m = n then x else r.get m := by
  simp only [Regs.get, Regs.set, mgetD, mget_mset]
  split <;> rfl

@[simp] theorem regs_getLatch_setLatch (r : Regs) (j k : Nat) (x : DWord) :
    (r.setLatch j x).getLatch k = if k = j then x else r.getLatch k := by
  simp only [Regs.getLatch, Regs.setLatch, mgetD, mget_mset]
  split <;> rfl

@[simp] theorem regs_get_setLatch (r : Regs) (j m : Nat) (x : DWord) : (r.setLatch j x).get m = r.get m := rfl

@[simp] theorem regs_getLatch_set (r : Regs) (n k : Nat) (x : Word) : (r.set n x).getLatch k = r.getLatch k := rfl

@[simp] theorem regs_get_setPred (r : Regs) (n m : Nat) (b : Bool) : (r.setPred n b).get m = r.get m := by
  unfold Regs.setPred; split <;> rfl

@[simp] theorem regs_getLatch_setPred (r : Regs) (n k : Nat) (b : Bool) :
    (r.setPred n b).getLatch k = r.getLatch k := by
  unfold Regs.setPred; split <;> rfl

/-! What a write does to the registers that a double-bit error has poisoned (22 R507). -/

@[simp] theorem regs_mem_bad_set (r : Regs) (n m : Nat) (x : Word) : m ∈ (r.set n x).bad ↔ m ∈ r.bad ∧ m ≠ n := by
  simp [Regs.set]

@[simp] theorem regs_mem_bad_setPair (r : Regs) (n m : Nat) (x : DWord) :
    m ∈ (r.setPair n x).bad ↔ m ∈ r.bad ∧ m ≠ n ∧ m ≠ n + 1 := by
  simp [Regs.setPair, and_assoc]

@[simp] theorem regs_bad_setLatch (r : Regs) (j : Nat) (x : DWord) : (r.setLatch j x).bad = r.bad := rfl

@[simp] theorem regs_bad_setCtr (r : Regs) (j n : Nat) : (r.setCtr j n).bad = r.bad := rfl

@[simp] theorem regs_bad_setPred (r : Regs) (n : Nat) (b : Bool) : (r.setPred n b).bad = r.bad := by
  unfold Regs.setPred; split <;> rfl

@[simp] theorem regs_getCtr_setCtr (r : Regs) (j k n : Nat) :
    (r.setCtr j n).getCtr k = if k = j then n else r.getCtr k := by
  simp only [Regs.getCtr, Regs.setCtr, mgetD, mget_mset]
  split <;> rfl

theorem regs_pred_setPred (r : Regs) (n k : Nat) (b : Bool) (hk : k < 7) :
    (r.setPred n b).pred k = if k = n then b else r.pred k := by
  have h7 : k ≠ 7 := by omega
  simp only [Regs.pred, h7, if_false, Regs.setPred]
  by_cases hn : n < 7
  · simp only [hn, if_true]
    have hp : ∀ i, i < 7 → (BitVec.ofNat 7 (2 ^ n)).getLsbD i = decide (i = n) := by
      intro i hi
      rw [BitVec.getLsbD_ofNat, Nat.testBit_two_pow]
      simp [hi, eq_comm]
    cases b
    · simp only [Bool.false_eq_true, if_false]
      rw [BitVec.getLsbD_and, BitVec.getLsbD_not, hp k hk]
      by_cases h : k = n <;> simp [h, hk]
    · simp only [if_true]
      rw [BitVec.getLsbD_or, hp k hk]
      by_cases h : k = n <;> simp [h]
  · simp only [hn, if_false]
    have : k ≠ n := by omega
    simp [this]

/-- p7 reads 1 whatever is written (05 R95, 03 R56). -/
@[simp] theorem regs_pred_seven (r : Regs) : r.pred 7 = true := by simp [Regs.pred]

/-! ### One lane's result -/

theorem putWord_wrote (j : Nat) (d : Dst) (x : Word) (t : Thread) : wroteWord j d x t (putWord j d x t) := by
  cases d with
  | reg n =>
    refine ⟨fun m => ?_, fun k => ?_, fun m => ?_, rfl, rfl⟩
    · simp [putWord, Thread.modRegs, destReg, eq_comm]
    · simp [putWord, Thread.modRegs]
    · simp [putWord, Thread.modRegs, destReg, eq_comm (a := m)]
  | suppress =>
    refine ⟨fun m => ?_, fun k => ?_, fun m => ?_, rfl, rfl⟩
    · simp [putWord, Thread.modRegs, destReg]
    · simp [putWord, Thread.modRegs]
    · simp [putWord, Thread.modRegs, destReg]

theorem skipWord_skipped (j : Nat) (d : Dst) (t : Thread) : skippedWord j d t (skipWord j d t) := by
  cases d <;> exact ⟨fun _ => by simp [skipWord, Thread.modRegs],
    fun _ => by simp [skipWord, Thread.modRegs, destReg], rfl, rfl, rfl⟩

theorem putPair_wrote (j : Nat) (d : Dst) (x : DWord) (t : Thread) : wrotePair j d x t (putPair j d x t) := by
  cases d with
  | reg n =>
    refine ⟨fun m => ?_, fun k => ?_, fun m => ?_, rfl, rfl⟩
    · simp only [putPair, Thread.modRegs, destReg, Regs.setPair, regs_get_setLatch, regs_get_set,
        Option.map_some, Option.some.injEq]
      by_cases h1 : stepReg t.ctl .dst n.toNat = m
      · subst h1; simp
      · by_cases h2 : stepReg t.ctl .dst n.toNat + 1 = m
        · subst h2; simp
        · have h1' : ¬ m = stepReg t.ctl .dst n.toNat := fun h => h1 h.symm
          have h2' : ¬ m = stepReg t.ctl .dst n.toNat + 1 := fun h => h2 h.symm
          simp [h1, h2, h1', h2']
    · simp [putPair, Thread.modRegs, Regs.setPair]
    · simp [putPair, Thread.modRegs, destReg, eq_comm (a := m)]
  | suppress =>
    refine ⟨fun m => ?_, fun k => ?_, fun m => ?_, rfl, rfl⟩
    · simp [putPair, Thread.modRegs, destReg]
    · simp [putPair, Thread.modRegs]
    · simp [putPair, Thread.modRegs, destReg]

theorem skipPair_skipped (j : Nat) (d : Dst) (t : Thread) : skippedPair j d t (skipPair j d t) := by
  cases d <;> exact ⟨fun _ => by simp [skipPair, Thread.modRegs],
    fun _ => by simp [skipPair, Thread.modRegs, destReg], rfl, rfl, rfl⟩

/-! ### Every lane of the bundle -/

theorem mget_foldl_mmod {α : Type} (us : List Nat) (m : SMap α) (f : Nat → α → α) (v : Nat) (h : us.Nodup) :
    mget (us.foldl (fun acc u => mmod acc u (f u)) m) v = if v ∈ us then (mget m v).map (f v) else mget m v := by
  induction us generalizing m with
  | nil => simp
  | cons u r ih =>
    rw [List.nodup_cons] at h
    simp only [List.foldl_cons, ih (mmod m u (f u)) h.2, mget_mmod]
    by_cases hv : v = u
    · subst hv; simp [h.1]
    · simp [hv]

/-- What an update of every lane leaves at each thread. -/
theorem threadOf_forLanes (s : State) (f : Nat → Thread → Thread) (v : Nat) (h : s.cur.lanes.Nodup) :
    threadOf (forLanes s f) v = if v ∈ s.cur.lanes then (threadOf s v).map (f v) else threadOf s v :=
  mget_foldl_mmod s.cur.lanes s.work.threads f v h

/-- An update of every lane changes those threads and nothing else. -/
theorem forLanes_onlyLanes (s : State) (f : Nat → Thread → Thread) (R : Nat → Thread → Thread → Prop)
    (h : s.cur.lanes.Nodup) (hR : ∀ u th, R u th (f u th)) : onlyLanes s (forLanes s f) R := by
  refine ⟨fun u th hu ht => ⟨f u th, ?_, hR u th⟩, fun u hu => ?_, rfl⟩
  · rw [threadOf_forLanes s f u h, if_pos hu, ht]; rfl
  · rw [threadOf_forLanes s f u h, if_neg hu]

theorem writeWord_onlyLanes (s : State) (g : Guard) (d : Dst) (f : Nat → Thread → Word) (h : s.cur.lanes.Nodup) :
    onlyLanes s (writeWord s g d f) fun u th th' =>
      if guardOn g th.regs then wroteWord (s.cur.pos % 4) d (f u th) th th'
      else skippedWord (s.cur.pos % 4) d th th' := by
  refine forLanes_onlyLanes s _ _ h fun u th => ?_
  by_cases hg : guardOn g th.regs = true
  · simp only [hg, if_true]; exact putWord_wrote _ d _ th
  · simp only [hg, if_false, Bool.false_eq_true]; exact skipWord_skipped _ d th

theorem writePair_onlyLanes (s : State) (g : Guard) (d : Dst) (f : Nat → Thread → DWord) (h : s.cur.lanes.Nodup) :
    onlyLanes s (writePair s g d f) fun u th th' =>
      if guardOn g th.regs then wrotePair (s.cur.pos % 4) d (f u th) th th'
      else skippedPair (s.cur.pos % 4) d th th' := by
  refine forLanes_onlyLanes s _ _ h fun u th => ?_
  by_cases hg : guardOn g th.regs = true
  · simp only [hg, if_true]; exact putPair_wrote _ d _ th
  · simp only [hg, if_false, Bool.false_eq_true]; exact skipPair_skipped _ d th

theorem setPred_wrote (d : Dst) (b : Bool) (t : Thread) :
    wrotePred d b t (t.modRegs fun r => match d with
      | .reg n => r.setPred n.toNat b
      | .suppress => r) := by
  cases d with
  | suppress =>
    refine ⟨fun n hn => ?_, fun _ => rfl, fun _ => rfl, rfl, rfl⟩
    by_cases h : n = 7
    · subst h; simp [Thread.modRegs]
    · simp [Thread.modRegs, h]
  | reg k =>
    refine ⟨fun n hn => ?_, fun _ => by simp [Thread.modRegs], fun _ => by simp [Thread.modRegs],
      by simp [Thread.modRegs], ?_⟩
    · by_cases h : n = 7
      · subst h; simp [Thread.modRegs]
      · simp only [Thread.modRegs, h, if_false]
        rw [regs_pred_setPred _ _ _ _ (by omega)]
        have hk : (n = k.toNat) ↔ k = BitVec.ofNat 7 n :=
          ⟨fun e => by rw [e]; simp, fun e => by rw [e]; simp; omega⟩
        simp [hk]
    · simp only [sameButRegs, Thread.modRegs, Regs.setPred]
      split <;> rfl

theorem writePred_onlyLanes (s : State) (g : Guard) (d : Dst) (f : Nat → Thread → Bool) (h : s.cur.lanes.Nodup) :
    onlyLanes s (writePred s g d f) fun u th th' =>
      if guardOn g th.regs then wrotePred d (f u th) th th' else th' = th := by
  refine forLanes_onlyLanes s _ _ h fun u th => ?_
  by_cases hg : guardOn g th.regs = true
  · simp only [hg, if_true]; exact setPred_wrote d _ th
  · simp only [hg, if_false, Bool.false_eq_true]

/-! ### The Coachman -/

@[simp] theorem coachOf_modCoach (s : State) (g h : Nat) (f : Coach → Coach) :
    coachOf (modCoach s g f) h = if h = g then f (coachOf s g) else coachOf s h := by
  simp only [coachOf, modCoach, mgetD, mget_mset]
  split <;> rfl

theorem writeCoach_result (s : State) (g : Guard) (d : Dst) (val : Coach → DWord) :
    let c := coachOf s s.cur.core
    let c' := coachOf (writeCoach s g d val) s.cur.core
    let n := match d with
      | .reg n => some n.toNat
      | .suppress => none
    (∀ m, c'.get m = if guardCoach g c ∧ n = some m then val c else c.get m)
    ∧ (∀ k, mgetD c'.latch k 0 =
        if k = s.cur.pos % 4 then (if guardCoach g c then val c else (n.map c.get).getD 0) else mgetD c.latch k 0)
    ∧ c' = { c with m := c'.m, latch := c'.latch }
    ∧ (∀ h, h ≠ s.cur.core → coachOf (writeCoach s g d val) h = coachOf s h)
    ∧ writeCoach s g d val = { s with coaches := (writeCoach s g d val).coaches } := by
  have hc : coachOf (writeCoach s g d val) s.cur.core =
      if guardCoach g (coachOf s s.cur.core) then (coachOf s s.cur.core).put (s.cur.pos % 4) d (val (coachOf s s.cur.core))
      else (coachOf s s.cur.core).skip (s.cur.pos % 4) d := by
    simp [writeCoach, latchIndex]
  refine ⟨fun m => ?_, fun k => ?_, ?_, fun h hh => ?_, rfl⟩
  · rw [hc]
    by_cases hg : guardCoach g (coachOf s s.cur.core) = true
    · cases d with
      | reg n =>
        simp only [hg, if_true, Coach.put, Coach.get, Coach.set, Coach.setLatch, mgetD, mget_mset, true_and,
          Option.some.injEq, eq_comm (a := m)]
        split <;> rfl
      | suppress => simp [hg, Coach.put, Coach.get, Coach.setLatch]
    · cases d <;> simp [hg, Coach.skip, Coach.get, Coach.setLatch]
  · rw [hc]
    by_cases hg : guardCoach g (coachOf s s.cur.core) = true
    · cases d with
      | reg n => simp only [hg, if_true, Coach.put, Coach.set, Coach.setLatch, mgetD, mget_mset]; split <;> rfl
      | suppress => simp only [hg, if_true, Coach.put, Coach.setLatch, mgetD, mget_mset]; split <;> rfl
    · cases d with
      | reg n =>
        simp only [hg, Coach.skip, Coach.setLatch, mgetD, mget_mset, Bool.false_eq_true, if_false]; split <;> rfl
      | suppress =>
        simp only [hg, Coach.skip, Coach.setLatch, mgetD, mget_mset, Bool.false_eq_true, if_false]; split <;> rfl
  · rw [hc]
    by_cases hg : guardCoach g (coachOf s s.cur.core) = true
    · cases d <;> simp only [hg, if_true] <;> rfl
    · cases d <;> simp only [hg, Bool.false_eq_true, if_false] <;> rfl
  · simp [writeCoach, hh]

end Sys2Proof.Machine
end

