-- ==== Sys2Proof/Laws/PerInstr.lean ====
section
/-!
SUPPORT. Per instruction: its opcode and operand form name it again. `rebuild` is the opcode map of 03 R70 read in
the other direction from `Instr.parts`; the two tables are written apart, so a swapped opcode shows here.
-/

namespace Sys2Proof.Laws

/-- The instruction an opcode and an operand form name (03 R70). -/
def rebuild (op : BitVec 8) : Form → Option Instr
  | .a f => (mkA op.toNat).map (· f)
  | .b f => (mkB op.toNat).map (· f)
  | .i f => (mkI op.toNat).map (· f)
  | .w f => (mkW op.toNat).map (· f)
  | .load f => (mkLoad op.toNat).map (· f)
  | .block f => (mkBlock op.toNat).map (· f)
  | .store f => (mkStore op.toNat).map (· f)
  | .atom f => (mkAtom op.toNat).map (· f)
  | .red f => (mkRed op.toNat).map (· f)
  | .pref f => if op = 0x62 then some (.pref f) else none
  | .rep f => if op = 0x87 then some (.repeatLoop f) else none
  | .plain => mkPlain op.toNat

/-- A well-formed instruction word names its instruction again; a device event has no words. -/
def Encodable.Statement (i : Instr) : Prop :=
  i.wf .core = true ∨ i.wf .coachman = true → ∀ p, i.parts = some p → rebuild p.1 p.2 = some i

theorem Encodable.iadd (f : FormA) : Encodable.Statement (.iadd f) := by
  intro _ p h; cases h; rfl

theorem Encodable.iadd3 (f : FormA) : Encodable.Statement (.iadd3 f) := by
  intro _ p h; cases h; rfl

theorem Encodable.isub (f : FormA) : Encodable.Statement (.isub f) := by
  intro _ p h; cases h; rfl

theorem Encodable.addc (f : FormA) : Encodable.Statement (.addc f) := by
  intro _ p h; cases h; rfl

theorem Encodable.imul (f : FormA) : Encodable.Statement (.imul f) := by
  intro _ p h; cases h; rfl

theorem Encodable.imulh (f : FormA) : Encodable.Statement (.imulh f) := by
  intro _ p h; cases h; rfl

theorem Encodable.imad (f : FormA) : Encodable.Statement (.imad f) := by
  intro _ p h; cases h; rfl

theorem Encodable.imadw (f : FormA) : Encodable.Statement (.imadw f) := by
  intro _ p h; cases h; rfl

theorem Encodable.imin (f : FormA) : Encodable.Statement (.imin f) := by
  intro _ p h; cases h; rfl

theorem Encodable.imax (f : FormA) : Encodable.Statement (.imax f) := by
  intro _ p h; cases h; rfl

theorem Encodable.iabs (f : FormA) : Encodable.Statement (.iabs f) := by
  intro _ p h; cases h; rfl

theorem Encodable.ineg (f : FormA) : Encodable.Statement (.ineg f) := by
  intro _ p h; cases h; rfl

theorem Encodable.andL (f : FormA) : Encodable.Statement (.andL f) := by
  intro _ p h; cases h; rfl

theorem Encodable.orL (f : FormA) : Encodable.Statement (.orL f) := by
  intro _ p h; cases h; rfl

theorem Encodable.xorL (f : FormA) : Encodable.Statement (.xorL f) := by
  intro _ p h; cases h; rfl

theorem Encodable.notL (f : FormA) : Encodable.Statement (.notL f) := by
  intro _ p h; cases h; rfl

theorem Encodable.logt (f : FormA) : Encodable.Statement (.logt f) := by
  intro _ p h; cases h; rfl

theorem Encodable.shl (f : FormA) : Encodable.Statement (.shl f) := by
  intro _ p h; cases h; rfl

theorem Encodable.shr (f : FormA) : Encodable.Statement (.shr f) := by
  intro _ p h; cases h; rfl

theorem Encodable.sar (f : FormA) : Encodable.Statement (.sar f) := by
  intro _ p h; cases h; rfl

theorem Encodable.fsh (f : FormA) : Encodable.Statement (.fsh f) := by
  intro _ p h; cases h; rfl

theorem Encodable.rotl (f : FormA) : Encodable.Statement (.rotl f) := by
  intro _ p h; cases h; rfl

theorem Encodable.bfx (f : FormA) : Encodable.Statement (.bfx f) := by
  intro _ p h; cases h; rfl

theorem Encodable.bfi (f : FormA) : Encodable.Statement (.bfi f) := by
  intro _ p h; cases h; rfl

theorem Encodable.popc (f : FormA) : Encodable.Statement (.popc f) := by
  intro _ p h; cases h; rfl

theorem Encodable.clz (f : FormA) : Encodable.Statement (.clz f) := by
  intro _ p h; cases h; rfl

theorem Encodable.ctz (f : FormA) : Encodable.Statement (.ctz f) := by
  intro _ p h; cases h; rfl

theorem Encodable.brev (f : FormA) : Encodable.Statement (.brev f) := by
  intro _ p h; cases h; rfl

theorem Encodable.bsel (f : FormA) : Encodable.Statement (.bsel f) := by
  intro _ p h; cases h; rfl

theorem Encodable.iset (f : FormA) : Encodable.Statement (.iset f) := by
  intro _ p h; cases h; rfl

theorem Encodable.sel (f : FormA) : Encodable.Statement (.sel f) := by
  intro _ p h; cases h; rfl

theorem Encodable.mov (f : FormA) : Encodable.Statement (.mov f) := by
  intro _ p h; cases h; rfl

theorem Encodable.movi (f : FormI) : Encodable.Statement (.movi f) := by
  intro _ p h; cases h; rfl

theorem Encodable.movh (f : FormI) : Encodable.Statement (.movh f) := by
  intro _ p h; cases h; rfl

theorem Encodable.lea (f : FormA) : Encodable.Statement (.lea f) := by
  intro _ p h; cases h; rfl

theorem Encodable.leaw (f : FormA) : Encodable.Statement (.leaw f) := by
  intro _ p h; cases h; rfl

theorem Encodable.plop (f : FormA) : Encodable.Statement (.plop f) := by
  intro _ p h; cases h; rfl

theorem Encodable.fadd (f : FormA) : Encodable.Statement (.fadd f) := by
  intro _ p h; cases h; rfl

theorem Encodable.fsub (f : FormA) : Encodable.Statement (.fsub f) := by
  intro _ p h; cases h; rfl

theorem Encodable.fmul (f : FormA) : Encodable.Statement (.fmul f) := by
  intro _ p h; cases h; rfl

theorem Encodable.ffma (f : FormA) : Encodable.Statement (.ffma f) := by
  intro _ p h; cases h; rfl

theorem Encodable.fmin (f : FormA) : Encodable.Statement (.fmin f) := by
  intro _ p h; cases h; rfl

theorem Encodable.fmax (f : FormA) : Encodable.Statement (.fmax f) := by
  intro _ p h; cases h; rfl

theorem Encodable.fset (f : FormA) : Encodable.Statement (.fset f) := by
  intro _ p h; cases h; rfl

theorem Encodable.frnd (f : FormA) : Encodable.Statement (.frnd f) := by
  intro _ p h; cases h; rfl

theorem Encodable.fclass (f : FormA) : Encodable.Statement (.fclass f) := by
  intro _ p h; cases h; rfl

theorem Encodable.f2i (f : FormA) : Encodable.Statement (.f2i f) := by
  intro _ p h; cases h; rfl

theorem Encodable.i2f (f : FormA) : Encodable.Statement (.i2f f) := by
  intro _ p h; cases h; rfl

theorem Encodable.f2f (f : FormA) : Encodable.Statement (.f2f f) := by
  intro _ p h; cases h; rfl

theorem Encodable.hadd2 (f : FormA) : Encodable.Statement (.hadd2 f) := by
  intro _ p h; cases h; rfl

theorem Encodable.hmul2 (f : FormA) : Encodable.Statement (.hmul2 f) := by
  intro _ p h; cases h; rfl

theorem Encodable.hfma2 (f : FormA) : Encodable.Statement (.hfma2 f) := by
  intro _ p h; cases h; rfl

theorem Encodable.hmin2 (f : FormA) : Encodable.Statement (.hmin2 f) := by
  intro _ p h; cases h; rfl

theorem Encodable.hmax2 (f : FormA) : Encodable.Statement (.hmax2 f) := by
  intro _ p h; cases h; rfl

theorem Encodable.badd2 (f : FormA) : Encodable.Statement (.badd2 f) := by
  intro _ p h; cases h; rfl

theorem Encodable.bmul2 (f : FormA) : Encodable.Statement (.bmul2 f) := by
  intro _ p h; cases h; rfl

theorem Encodable.bfma2 (f : FormA) : Encodable.Statement (.bfma2 f) := by
  intro _ p h; cases h; rfl

theorem Encodable.shfl (f : FormA) : Encodable.Statement (.shfl f) := by
  intro _ p h; cases h; rfl

theorem Encodable.vote (f : FormA) : Encodable.Statement (.vote f) := by
  intro _ p h; cases h; rfl

theorem Encodable.redux (f : FormA) : Encodable.Statement (.redux f) := by
  intro _ p h; cases h; rfl

theorem Encodable.pscan (f : FormA) : Encodable.Statement (.pscan f) := by
  intro _ p h; cases h; rfl

theorem Encodable.matchLanes (f : FormA) : Encodable.Statement (.matchLanes f) := by
  intro _ p h; cases h; rfl

theorem Encodable.frcp (f : FormA) : Encodable.Statement (.frcp f) := by
  intro _ p h; cases h; rfl

theorem Encodable.frsq (f : FormA) : Encodable.Statement (.frsq f) := by
  intro _ p h; cases h; rfl

theorem Encodable.fsqrt (f : FormA) : Encodable.Statement (.fsqrt f) := by
  intro _ p h; cases h; rfl

theorem Encodable.fex2 (f : FormA) : Encodable.Statement (.fex2 f) := by
  intro _ p h; cases h; rfl

theorem Encodable.flg2 (f : FormA) : Encodable.Statement (.flg2 f) := by
  intro _ p h; cases h; rfl

theorem Encodable.fsin (f : FormA) : Encodable.Statement (.fsin f) := by
  intro _ p h; cases h; rfl

theorem Encodable.fcos (f : FormA) : Encodable.Statement (.fcos f) := by
  intro _ p h; cases h; rfl

theorem Encodable.ftanh (f : FormA) : Encodable.Statement (.ftanh f) := by
  intro _ p h; cases h; rfl

theorem Encodable.cvt8 (f : FormA) : Encodable.Statement (.cvt8 f) := by
  intro _ p h; cases h; rfl

theorem Encodable.cvt4 (f : FormA) : Encodable.Statement (.cvt4 f) := by
  intro _ p h; cases h; rfl

theorem Encodable.cvtl (f : FormA) : Encodable.Statement (.cvtl f) := by
  intro _ p h; cases h; rfl

theorem Encodable.scv (f : FormA) : Encodable.Statement (.scv f) := by
  intro _ p h; cases h; rfl

theorem Encodable.ldl (f : LoadForm) : Encodable.Statement (.ldl f) := by
  intro _ p h; cases h; rfl

theorem Encodable.stl (f : StoreForm) : Encodable.Statement (.stl f) := by
  intro _ p h; cases h; rfl

theorem Encodable.lds (f : LoadForm) : Encodable.Statement (.lds f) := by
  intro _ p h; cases h; rfl

theorem Encodable.sts (f : StoreForm) : Encodable.Statement (.sts f) := by
  intro _ p h; cases h; rfl

theorem Encodable.ldc (f : LoadForm) : Encodable.Statement (.ldc f) := by
  intro _ p h; cases h; rfl

theorem Encodable.ldcBlock (f : BlockForm) : Encodable.Statement (.ldcBlock f) := by
  intro _ p h; cases h; rfl

theorem Encodable.stc (f : StoreForm) : Encodable.Statement (.stc f) := by
  intro _ p h; cases h; rfl

theorem Encodable.ldk (f : LoadForm) : Encodable.Statement (.ldk f) := by
  intro _ p h; cases h; rfl

theorem Encodable.ldg (f : LoadForm) : Encodable.Statement (.ldg f) := by
  intro _ p h; cases h; rfl

theorem Encodable.ldgBlock (f : BlockForm) : Encodable.Statement (.ldgBlock f) := by
  intro _ p h; cases h; rfl

theorem Encodable.stg (f : StoreForm) : Encodable.Statement (.stg f) := by
  intro _ p h; cases h; rfl

theorem Encodable.ldh (f : LoadForm) : Encodable.Statement (.ldh f) := by
  intro _ p h; cases h; rfl

theorem Encodable.ldhBlock (f : BlockForm) : Encodable.Statement (.ldhBlock f) := by
  intro _ p h; cases h; rfl

theorem Encodable.sth (f : StoreForm) : Encodable.Statement (.sth f) := by
  intro _ p h; cases h; rfl

theorem Encodable.ats (f : AtomForm) : Encodable.Statement (.ats f) := by
  intro _ p h; cases h; rfl

theorem Encodable.atc (f : AtomForm) : Encodable.Statement (.atc f) := by
  intro _ p h; cases h; rfl

theorem Encodable.atg (f : AtomForm) : Encodable.Statement (.atg f) := by
  intro _ p h; cases h; rfl

theorem Encodable.ath (f : AtomForm) : Encodable.Statement (.ath f) := by
  intro _ p h; cases h; rfl

theorem Encodable.reds (f : RedForm) : Encodable.Statement (.reds f) := by
  intro _ p h; cases h; rfl

theorem Encodable.redg (f : RedForm) : Encodable.Statement (.redg f) := by
  intro _ p h; cases h; rfl

theorem Encodable.fence (f : FormW) : Encodable.Statement (.fence f) := by
  intro _ p h; cases h; rfl

theorem Encodable.pref (f : PrefForm) : Encodable.Statement (.pref f) := by
  intro _ p h; cases h; rfl

theorem Encodable.cpy (f : FormA) : Encodable.Statement (.cpy f) := by
  intro _ p h; cases h; rfl

theorem Encodable.cps (f : FormA) : Encodable.Statement (.cps f) := by
  intro _ p h; cases h; rfl

theorem Encodable.cpx (f : FormA) : Encodable.Statement (.cpx f) := by
  intro _ p h; cases h; rfl

theorem Encodable.cpg (f : FormA) : Encodable.Statement (.cpg f) := by
  intro _ p h; cases h; rfl

theorem Encodable.cpc (f : FormA) : Encodable.Statement (.cpc f) := by
  intro _ p h; cases h; rfl

theorem Encodable.cpw (f : FormW) : Encodable.Statement (.cpw f) := by
  intro _ p h; cases h; rfl

theorem Encodable.mmal6 (f : FormA) : Encodable.Statement (.mmal6 f) := by
  intro _ p h; cases h; rfl

theorem Encodable.mmae2 (f : FormA) : Encodable.Statement (.mmae2 f) := by
  intro _ p h; cases h; rfl

theorem Encodable.mmaf8a (f : FormA) : Encodable.Statement (.mmaf8a f) := by
  intro _ p h; cases h; rfl

theorem Encodable.mmaf8b (f : FormA) : Encodable.Statement (.mmaf8b f) := by
  intro _ p h; cases h; rfl

theorem Encodable.mmab16 (f : FormA) : Encodable.Statement (.mmab16 f) := by
  intro _ p h; cases h; rfl

theorem Encodable.mmai8 (f : FormA) : Encodable.Statement (.mmai8 f) := by
  intro _ p h; cases h; rfl

theorem Encodable.rsv (f : FormA) : Encodable.Statement (.rsv f) := by
  intro _ p h; cases h; rfl

theorem Encodable.rls (f : FormA) : Encodable.Statement (.rls f) := by
  intro _ p h; cases h; rfl

theorem Encodable.accz (f : FormA) : Encodable.Statement (.accz f) := by
  intro _ p h; cases h; rfl

theorem Encodable.accld (f : FormA) : Encodable.Statement (.accld f) := by
  intro _ p h; cases h; rfl

theorem Encodable.accst (f : FormA) : Encodable.Statement (.accst f) := by
  intro _ p h; cases h; rfl

theorem Encodable.accrd (f : FormA) : Encodable.Statement (.accrd f) := by
  intro _ p h; cases h; rfl

theorem Encodable.mwait (f : FormW) : Encodable.Statement (.mwait f) := by
  intro _ p h; cases h; rfl

theorem Encodable.kdecl (f : FormA) : Encodable.Statement (.kdecl f) := by
  intro _ p h; cases h; rfl

theorem Encodable.sign (f : FormA) : Encodable.Statement (.sign f) := by
  intro _ p h; cases h; rfl

theorem Encodable.bra (f : FormB) : Encodable.Statement (.bra f) := by
  intro _ p h; cases h; rfl

theorem Encodable.brx (f : FormA) : Encodable.Statement (.brx f) := by
  intro _ p h; cases h; rfl

theorem Encodable.call (f : FormB) : Encodable.Statement (.call f) := by
  intro _ p h; cases h; rfl

theorem Encodable.callx (f : FormB) : Encodable.Statement (.callx f) := by
  intro _ p h; cases h; rfl

theorem Encodable.ret : Encodable.Statement .ret := by
  intro _ p h; cases h; rfl

theorem Encodable.exitThread : Encodable.Statement .exitThread := by
  intro _ p h; cases h; rfl

theorem Encodable.reform (f : FormA) : Encodable.Statement (.reform f) := by
  intro _ p h; cases h; rfl

theorem Encodable.repeatLoop (f : RepeatForm) : Encodable.Statement (.repeatLoop f) := by
  intro _ p h; cases h; rfl

theorem Encodable.nop : Encodable.Statement .nop := by
  intro _ p h; cases h; rfl

theorem Encodable.yieldThread : Encodable.Statement .yieldThread := by
  intro _ p h; cases h; rfl

theorem Encodable.rayq (f : FormA) : Encodable.Statement (.rayq f) := by
  intro _ p h; cases h; rfl

theorem Encodable.rayw (f : FormW) : Encodable.Statement (.rayw f) := by
  intro _ p h; cases h; rfl

theorem Encodable.rayr (f : FormA) : Encodable.Statement (.rayr f) := by
  intro _ p h; cases h; rfl

theorem Encodable.hitx (f : FormA) : Encodable.Statement (.hitx f) := by
  intro _ p h; cases h; rfl

theorem Encodable.texs (f : FormA) : Encodable.Statement (.texs f) := by
  intro _ p h; cases h; rfl

theorem Encodable.texg (f : FormA) : Encodable.Statement (.texg f) := by
  intro _ p h; cases h; rfl

theorem Encodable.texq (f : FormA) : Encodable.Statement (.texq f) := by
  intro _ p h; cases h; rfl

theorem Encodable.atreq (f : FormA) : Encodable.Statement (.atreq f) := by
  intro _ p h; cases h; rfl

theorem Encodable.atget (f : FormA) : Encodable.Statement (.atget f) := by
  intro _ p h; cases h; rfl

theorem Encodable.prim (f : FormA) : Encodable.Statement (.prim f) := by
  intro _ p h; cases h; rfl

theorem Encodable.bara (f : FormA) : Encodable.Statement (.bara f) := by
  intro _ p h; cases h; rfl

theorem Encodable.barw (f : FormW) : Encodable.Statement (.barw f) := by
  intro _ p h; cases h; rfl

theorem Encodable.bars (f : FormW) : Encodable.Statement (.bars f) := by
  intro _ p h; cases h; rfl

theorem Encodable.barx (f : FormA) : Encodable.Statement (.barx f) := by
  intro _ p h; cases h; rfl

theorem Encodable.tbi (f : FormA) : Encodable.Statement (.tbi f) := by
  intro _ p h; cases h; rfl

theorem Encodable.tba (f : FormA) : Encodable.Statement (.tba f) := by
  intro _ p h; cases h; rfl

theorem Encodable.tbe (f : FormA) : Encodable.Statement (.tbe f) := by
  intro _ p h; cases h; rfl

theorem Encodable.tbw (f : FormW) : Encodable.Statement (.tbw f) := by
  intro _ p h; cases h; rfl

theorem Encodable.qsend (f : FormA) : Encodable.Statement (.qsend f) := by
  intro _ p h; cases h; rfl

theorem Encodable.qrecv (f : FormW) : Encodable.Statement (.qrecv f) := by
  intro _ p h; cases h; rfl

theorem Encodable.spawn (f : FormA) : Encodable.Statement (.spawn f) := by
  intro _ p h; cases h; rfl

theorem Encodable.cancel (f : FormA) : Encodable.Statement (.cancel f) := by
  intro _ p h; cases h; rfl

theorem Encodable.cmpl (f : FormA) : Encodable.Statement (.cmpl f) := by
  intro _ p h; cases h; rfl

theorem Encodable.cbget (f : FormW) : Encodable.Statement (.cbget f) := by
  intro _ p h; cases h; rfl

theorem Encodable.cbput (f : FormA) : Encodable.Statement (.cbput f) := by
  rintro h p ⟨⟩
  have hb : f.x.mods.getLsbD 4 = false := by
    have hm : f.x.mods &&& ~~~(0xF#13) = 0 := by
      rcases h with h | h <;>
        simp only [Instr.wf, Instr.legalOn, Instr.copyForm, Instr.onCoachman, Instr.fieldsOk, Instr.specA, FormA.wf,
          Bool.and_eq_true, beq_iff_eq, Bool.false_eq_true, false_and] at h
      exact h.1.2.1.1.1.1.2
    have := congrArg (fun x => x.getLsbD 4) hm
    simpa using this
  have he : f.bit 4 = false := hb
  simp [rebuild, mkA, he]

theorem Encodable.cbputInit (f : FormA) : Encodable.Statement (.cbputInit f) := by
  rintro h p ⟨⟩
  have hb : f.x.mods.getLsbD 4 = true := by
    rcases h with h | h <;>
      simp only [Instr.wf, Instr.legalOn, Instr.copyForm, Instr.onCoachman, Instr.fieldsOk, Instr.specA, FormA.wf,
        Bool.and_eq_true, Bool.false_eq_true, false_and] at h
    exact h.1.2.2
  have he : f.bit 4 = true := hb
  simp [rebuild, mkA, he]

theorem Encodable.svc (f : FormA) : Encodable.Statement (.svc f) := by
  intro _ p h; cases h; rfl

theorem Encodable.svcw (f : FormW) : Encodable.Statement (.svcw f) := by
  intro _ p h; cases h; rfl

theorem Encodable.trap (f : FormA) : Encodable.Statement (.trap f) := by
  intro _ p h; cases h; rfl

theorem Encodable.bkpt (f : FormA) : Encodable.Statement (.bkpt f) := by
  intro _ p h; cases h; rfl

theorem Encodable.chke (f : FormA) : Encodable.Statement (.chke f) := by
  intro _ p h; cases h; rfl

theorem Encodable.rds (f : FormA) : Encodable.Statement (.rds f) := by
  intro _ p h; cases h; rfl

theorem Encodable.wrs (f : FormA) : Encodable.Statement (.wrs f) := by
  intro _ p h; cases h; rfl

theorem Encodable.clauseFetch : Encodable.Statement .clauseFetch := by
  intro _ p h; cases h

theorem Encodable.bundleDraw (core bin : Nat) : Encodable.Statement (.bundleDraw core bin) := by
  intro _ p h; cases h

theorem Encodable.binAgeLimitExpiry (core bin : Nat) : Encodable.Statement (.binAgeLimitExpiry core bin) := by
  intro _ p h; cases h

theorem Encodable.filingQueueDrain (core : Nat) : Encodable.Statement (.filingQueueDrain core) := by
  intro _ p h; cases h

theorem Encodable.waitConditionMet (w : Waiter) : Encodable.Statement (.waitConditionMet w) := by
  intro _ p h; cases h

theorem Encodable.waitDeadlineExpiry (w : Waiter) : Encodable.Statement (.waitDeadlineExpiry w) := by
  intro _ p h; cases h

theorem Encodable.blockPlacement (target : PlaceTarget) (core : Nat) : Encodable.Statement (.blockPlacement target core) := by
  intro _ p h; cases h

theorem Encodable.blockEnd (block : Nat) : Encodable.Statement (.blockEnd block) := by
  intro _ p h; cases h

theorem Encodable.blockEviction (block : Nat) : Encodable.Statement (.blockEviction block) := by
  intro _ p h; cases h

theorem Encodable.partitionDrainEnd (part : Nat) : Encodable.Statement (.partitionDrainEnd part) := by
  intro _ p h; cases h

theorem Encodable.partitionRestore (part : Nat) : Encodable.Statement (.partitionRestore part) := by
  intro _ p h; cases h

theorem Encodable.blockLevelCheck (block : Nat) : Encodable.Statement (.blockLevelCheck block) := by
  intro _ p h; cases h

theorem Encodable.opStepDownOrder (target : Nat) : Encodable.Statement (.opStepDownOrder target) := by
  intro _ p h; cases h

theorem Encodable.evaclimitExpiry : Encodable.Statement .evaclimitExpiry := by
  intro _ p h; cases h

theorem Encodable.rowEvacuation (core : Nat) : Encodable.Statement (.rowEvacuation core) := by
  intro _ p h; cases h

theorem Encodable.opClockSwitch : Encodable.Statement .opClockSwitch := by
  intro _ p h; cases h

theorem Encodable.railSlewDone : Encodable.Statement .railSlewDone := by
  intro _ p h; cases h

theorem Encodable.opStepUp (target : Nat) : Encodable.Statement (.opStepUp target) := by
  intro _ p h; cases h

theorem Encodable.parkedBlockRefill (block : Nat) : Encodable.Statement (.parkedBlockRefill block) := by
  intro _ p h; cases h

theorem Encodable.holdlimitExpiry (launch : Nat) : Encodable.Statement (.holdlimitExpiry launch) := by
  intro _ p h; cases h

theorem Encodable.loadDataReturn (load : LoadReturn) : Encodable.Statement (.loadDataReturn load) := by
  intro _ p h; cases h

theorem Encodable.storePerformed (access : Nat) : Encodable.Statement (.storePerformed access) := by
  intro _ p h; cases h

theorem Encodable.releaseWhWaitEnd (access : Nat) : Encodable.Statement (.releaseWhWaitEnd access) := by
  intro _ p h; cases h

theorem Encodable.atomicRequestApply (access : Nat) : Encodable.Statement (.atomicRequestApply access) := by
  intro _ p h; cases h

theorem Encodable.hotQueueRetire (accesses : List Nat) : Encodable.Statement (.hotQueueRetire accesses) := by
  intro _ p h; cases h

theorem Encodable.blockingLoadReread (w : Waiter) : Encodable.Statement (.blockingLoadReread w) := by
  intro _ p h; cases h

theorem Encodable.hPollReread (w : Waiter) : Encodable.Statement (.hPollReread w) := by
  intro _ p h; cases h

theorem Encodable.l1FillRequest (core ctx line : Nat) : Encodable.Statement (.l1FillRequest core ctx line) := by
  intro _ p h; cases h

theorem Encodable.leaseExpiry (core line : Nat) : Encodable.Statement (.leaseExpiry core line) := by
  intro _ p h; cases h

theorem Encodable.writeApply (access : Nat) : Encodable.Statement (.writeApply access) := by
  intro _ p h; cases h

theorem Encodable.transientRefusalRetry (request : Nat) : Encodable.Statement (.transientRefusalRetry request) := by
  intro _ p h; cases h

theorem Encodable.transientLineRelease (line : Nat) : Encodable.Statement (.transientLineRelease line) := by
  intro _ p h; cases h

theorem Encodable.dirReadRequest (die line : Nat) : Encodable.Statement (.dirReadRequest die line) := by
  intro _ p h; cases h

theorem Encodable.dirOwnershipRequest (die line : Nat) : Encodable.Statement (.dirOwnershipRequest die line) := by
  intro _ p h; cases h

theorem Encodable.dirUpgradeRequest (die line : Nat) : Encodable.Statement (.dirUpgradeRequest die line) := by
  intro _ p h; cases h

theorem Encodable.dirWriteback (die line : Nat) : Encodable.Statement (.dirWriteback die line) := by
  intro _ p h; cases h

theorem Encodable.dirAtomicRequest (die line : Nat) : Encodable.Statement (.dirAtomicRequest die line) := by
  intro _ p h; cases h

theorem Encodable.dirForward (die line : Nat) : Encodable.Statement (.dirForward die line) := by
  intro _ p h; cases h

theorem Encodable.invalidationAck (die line : Nat) : Encodable.Statement (.invalidationAck die line) := by
  intro _ p h; cases h

theorem Encodable.dataMessageReceipt (die line : Nat) (version : BitVec 16) : Encodable.Statement (.dataMessageReceipt die line version) := by
  intro _ p h; cases h

theorem Encodable.snoopFilterEviction (line : Nat) : Encodable.Statement (.snoopFilterEviction line) := by
  intro _ p h; cases h

theorem Encodable.backInvalidationSnoop (pool : Nat) : Encodable.Statement (.backInvalidationSnoop pool) := by
  intro _ p h; cases h

theorem Encodable.pageSurrenderAnswer (frame : Nat) : Encodable.Statement (.pageSurrenderAnswer frame) := by
  intro _ p h; cases h

theorem Encodable.surrenderedPageRefetch (frame : Nat) : Encodable.Statement (.surrenderedPageRefetch frame) := by
  intro _ p h; cases h

theorem Encodable.sleepingProbeTimeout (home die : Nat) : Encodable.Statement (.sleepingProbeTimeout home die) := by
  intro _ p h; cases h

theorem Encodable.engineCommandRelease (e : EngineId) : Encodable.Statement (.engineCommandRelease e) := by
  intro _ p h; cases h

theorem Encodable.arbiterGrant (cluster : Nat) : Encodable.Statement (.arbiterGrant cluster) := by
  intro _ p h; cases h

theorem Encodable.matrixPassEpilogue (cluster : Nat) : Encodable.Statement (.matrixPassEpilogue cluster) := by
  intro _ p h; cases h

theorem Encodable.doorbellWrite (ctx offset : Nat) (value : Word) : Encodable.Statement (.doorbellWrite ctx offset value) := by
  intro _ p h; cases h

theorem Encodable.launchRecord (ctx queue : Nat) : Encodable.Statement (.launchRecord ctx queue) := by
  intro _ p h; cases h

theorem Encodable.graphReplayRecord (ctx queue : Nat) : Encodable.Statement (.graphReplayRecord ctx queue) := by
  intro _ p h; cases h

theorem Encodable.signalRecord (ctx queue : Nat) : Encodable.Statement (.signalRecord ctx queue) := by
  intro _ p h; cases h

theorem Encodable.waitRecord (ctx queue : Nat) : Encodable.Statement (.waitRecord ctx queue) := by
  intro _ p h; cases h

theorem Encodable.phaseMarkRecord (ctx queue : Nat) : Encodable.Statement (.phaseMarkRecord ctx queue) := by
  intro _ p h; cases h

theorem Encodable.cancelRecord (ctx queue : Nat) : Encodable.Statement (.cancelRecord ctx queue) := by
  intro _ p h; cases h

theorem Encodable.waitRecordReread (ctx handle : Nat) : Encodable.Statement (.waitRecordReread ctx handle) := by
  intro _ p h; cases h

theorem Encodable.recordPageResolved (ctx queue : Nat) : Encodable.Statement (.recordPageResolved ctx queue) := by
  intro _ p h; cases h

theorem Encodable.recordCompletion (ctx handle : Nat) : Encodable.Statement (.recordCompletion ctx handle) := by
  intro _ p h; cases h

theorem Encodable.graphNodeBegin (ctx handle node : Nat) : Encodable.Statement (.graphNodeBegin ctx handle node) := by
  intro _ p h; cases h

theorem Encodable.replaySlotDeadline (ctx queue : Nat) : Encodable.Statement (.replaySlotDeadline ctx queue) := by
  intro _ p h; cases h

theorem Encodable.queueReset (ctx queue : Nat) : Encodable.Statement (.queueReset ctx queue) := by
  intro _ p h; cases h

theorem Encodable.queueResetDone (ctx queue : Nat) : Encodable.Statement (.queueResetDone ctx queue) := by
  intro _ p h; cases h

theorem Encodable.spillRefill (q : QueueId) : Encodable.Statement (.spillRefill q) := by
  intro _ p h; cases h

theorem Encodable.powerBudgetEval (ctx queue watts : Nat) : Encodable.Statement (.powerBudgetEval ctx queue watts) := by
  intro _ p h; cases h

theorem Encodable.movementProgramStart (core : Nat) : Encodable.Statement (.movementProgramStart core) := by
  intro _ p h; cases h

theorem Encodable.copyCommandStart (core ticket : Nat) : Encodable.Statement (.copyCommandStart core ticket) := by
  intro _ p h; cases h

theorem Encodable.copySectorDelivery (core ticket : Nat) : Encodable.Statement (.copySectorDelivery core ticket) := by
  intro _ p h; cases h

theorem Encodable.copyComplete (core ticket : Nat) : Encodable.Statement (.copyComplete core ticket) := by
  intro _ p h; cases h

theorem Encodable.cbSlotTake (core ticket : Nat) : Encodable.Statement (.cbSlotTake core ticket) := by
  intro _ p h; cases h

theorem Encodable.omnibusRunStart (die cluster : Nat) : Encodable.Statement (.omnibusRunStart die cluster) := by
  intro _ p h; cases h

theorem Encodable.subtreeLoadComplete (cluster : Nat) : Encodable.Statement (.subtreeLoadComplete cluster) := by
  intro _ p h; cases h

theorem Encodable.rayRetire (cluster : Nat) : Encodable.Statement (.rayRetire cluster) := by
  intro _ p h; cases h

theorem Encodable.runTimeLimit (cluster : Nat) : Encodable.Statement (.runTimeLimit cluster) := by
  intro _ p h; cases h

theorem Encodable.hitListAgeExpiry (launch die : Nat) : Encodable.Statement (.hitListAgeExpiry launch die) := by
  intro _ p h; cases h

theorem Encodable.binnerFlushDone (binner : Nat) : Encodable.Statement (.binnerFlushDone binner) := by
  intro _ p h; cases h

theorem Encodable.rasteriseTile (binner view tile : Nat) : Encodable.Statement (.rasteriseTile binner view tile) := by
  intro _ p h; cases h

theorem Encodable.textureQuadComplete (core op : Nat) : Encodable.Statement (.textureQuadComplete core op) := by
  intro _ p h; cases h

theorem Encodable.tlbMissWalk (core ctx vpn : Nat) : Encodable.Statement (.tlbMissWalk core ctx vpn) := by
  intro _ p h; cases h

theorem Encodable.faultEntryForward (die : Nat) : Encodable.Statement (.faultEntryForward die) := by
  intro _ p h; cases h

theorem Encodable.drayEntryTake (die : Nat) : Encodable.Statement (.drayEntryTake die) := by
  intro _ p h; cases h

theorem Encodable.drayBatchClose (die : Nat) : Encodable.Statement (.drayBatchClose die) := by
  intro _ p h; cases h

theorem Encodable.evictionFrameFree (frame : Nat) : Encodable.Statement (.evictionFrameFree frame) := by
  intro _ p h; cases h

theorem Encodable.migrationTransferDone (die ctx vpn : Nat) : Encodable.Statement (.migrationTransferDone die ctx vpn) := by
  intro _ p h; cases h

theorem Encodable.recordReplay (ctx slot : Nat) : Encodable.Statement (.recordReplay ctx slot) := by
  intro _ p h; cases h

theorem Encodable.replaySlotFreed (ctx : Nat) : Encodable.Statement (.replaySlotFreed ctx) := by
  intro _ p h; cases h

theorem Encodable.pagerReply (die : Nat) (reply : PagerReply) : Encodable.Statement (.pagerReply die reply) := by
  intro _ p h; cases h

theorem Encodable.pagerlimitExpiry (die ctx vpn : Nat) : Encodable.Statement (.pagerlimitExpiry die ctx vpn) := by
  intro _ p h; cases h

theorem Encodable.checkIntervalReport (thread bit : Nat) : Encodable.Statement (.checkIntervalReport thread bit) := by
  intro _ p h; cases h

theorem Encodable.eventHeldWrite (die : Nat) : Encodable.Statement (.eventHeldWrite die) := by
  intro _ p h; cases h

theorem Encodable.notificationMessage (ctx : Nat) : Encodable.Statement (.notificationMessage ctx) := by
  intro _ p h; cases h

theorem Encodable.structureWriteRetry (ctx : Nat) : Encodable.Statement (.structureWriteRetry ctx) := by
  intro _ p h; cases h

theorem Encodable.trapResumeRetry (die ctx slot : Nat) : Encodable.Statement (.trapResumeRetry die ctx slot) := by
  intro _ p h; cases h

theorem Encodable.trapResumeSkip (die ctx slot : Nat) : Encodable.Statement (.trapResumeSkip die ctx slot) := by
  intro _ p h; cases h

theorem Encodable.trapResumeEnd (die ctx slot : Nat) : Encodable.Statement (.trapResumeEnd die ctx slot) := by
  intro _ p h; cases h

theorem Encodable.trapResumeCancel (die ctx slot : Nat) : Encodable.Statement (.trapResumeCancel die ctx slot) := by
  intro _ p h; cases h

theorem Encodable.traplimitExpiry (ctx slot : Nat) : Encodable.Statement (.traplimitExpiry ctx slot) := by
  intro _ p h; cases h

theorem Encodable.svcReply (ctx : Nat) : Encodable.Statement (.svcReply ctx) := by
  intro _ p h; cases h

theorem Encodable.rollback (block : Nat) : Encodable.Statement (.rollback block) := by
  intro _ p h; cases h

theorem Encodable.hostAccessComplete (access : Nat) : Encodable.Statement (.hostAccessComplete access) := by
  intro _ p h; cases h

theorem Encodable.hostAccessTimeout (access : Nat) : Encodable.Statement (.hostAccessTimeout access) := by
  intro _ p h; cases h

theorem Encodable.extentReleaseRequest (extent : Nat) : Encodable.Statement (.extentReleaseRequest extent) := by
  intro _ p h; cases h

theorem Encodable.extentReleaseDone (extent : Nat) : Encodable.Statement (.extentReleaseDone extent) := by
  intro _ p h; cases h

theorem Encodable.extentDrainDeadline (extent : Nat) : Encodable.Statement (.extentDrainDeadline extent) := by
  intro _ p h; cases h

theorem Encodable.extentForcedRelease (extent : Nat) : Encodable.Statement (.extentForcedRelease extent) := by
  intro _ p h; cases h

theorem Encodable.extentReclaim (extent : Nat) : Encodable.Statement (.extentReclaim extent) := by
  intro _ p h; cases h

theorem Encodable.lentMemoryRequest (extent offset : Nat) (data : Option (List Byte)) : Encodable.Statement (.lentMemoryRequest extent offset data) := by
  intro _ p h; cases h

theorem Encodable.xferFetch (ctx : Nat) : Encodable.Statement (.xferFetch ctx) := by
  intro _ p h; cases h

theorem Encodable.xferPush (ctx : Nat) : Encodable.Statement (.xferPush ctx) := by
  intro _ p h; cases h

theorem Encodable.xferComplete (ctx record : Nat) : Encodable.Statement (.xferComplete ctx record) := by
  intro _ p h; cases h

theorem Encodable.budunLinkBringup (port device key : Nat) : Encodable.Statement (.budunLinkBringup port device key) := by
  intro _ p h; cases h

theorem Encodable.crcCorrectionDone (line : Nat) (wrong : List (Nat × Nat)) : Encodable.Statement (.crcCorrectionDone line wrong) := by
  intro _ p h; cases h

theorem Encodable.patrolScrub (frame : Nat) (wrong : List (Nat × Nat × Nat)) : Encodable.Statement (.patrolScrub frame wrong) := by
  intro _ p h; cases h

theorem Encodable.watchdogBeatMiss (die : Nat) : Encodable.Statement (.watchdogBeatMiss die) := by
  intro _ p h; cases h

theorem Encodable.dieLoss (die : Nat) : Encodable.Statement (.dieLoss die) := by
  intro _ p h; cases h

theorem Encodable.censusSweepDone (die : Nat) : Encodable.Statement (.censusSweepDone die) := by
  intro _ p h; cases h

theorem Encodable.translationInvalidate (die ctx vpn count : Nat) : Encodable.Statement (.translationInvalidate die ctx vpn count) := by
  intro _ p h; cases h

theorem Encodable.uptLoad (die ctx unit slot image : Nat) : Encodable.Statement (.uptLoad die ctx unit slot image) := by
  intro _ p h; cases h

theorem Encodable.keyLoad (die ctx index session image : Nat) : Encodable.Statement (.keyLoad die ctx index session image) := by
  intro _ p h; cases h

theorem Encodable.keyInvalidate (die index : Nat) : Encodable.Statement (.keyInvalidate die index) := by
  intro _ p h; cases h

theorem Encodable.opPointRequest (die point : Nat) : Encodable.Statement (.opPointRequest die point) := by
  intro _ p h; cases h

theorem Encodable.partitionDefine (die index mask : Nat) : Encodable.Statement (.partitionDefine die index mask) := by
  intro _ p h; cases h

theorem Encodable.partitionSwitch (die index ctx : Nat) : Encodable.Statement (.partitionSwitch die index ctx) := by
  intro _ p h; cases h

theorem Encodable.partitionFree (die index : Nat) : Encodable.Statement (.partitionFree die index) := by
  intro _ p h; cases h

theorem Encodable.deepSleepEntry (die : Nat) : Encodable.Statement (.deepSleepEntry die) := by
  intro _ p h; cases h

theorem Encodable.deepSleepWake (cause : WakeCause) : Encodable.Statement (.deepSleepWake cause) := by
  intro _ p h; cases h

theorem Encodable.supervisorFieldWrite (field : SupField) (value : Nat) : Encodable.Statement (.supervisorFieldWrite field value) := by
  intro _ p h; cases h

theorem Encodable.boot (images : List BootImage) : Encodable.Statement (.boot images) := by
  intro _ p h; cases h

theorem Encodable.getVersion : Encodable.Statement .getVersion := by
  intro _ p h; cases h

theorem Encodable.getCapabilities : Encodable.Statement .getCapabilities := by
  intro _ p h; cases h

theorem Encodable.negotiateAlgorithms (algos : Nat) : Encodable.Statement (.negotiateAlgorithms algos) := by
  intro _ p h; cases h

theorem Encodable.getDigests : Encodable.Statement .getDigests := by
  intro _ p h; cases h

theorem Encodable.getCertificate (slot : Nat) : Encodable.Statement (.getCertificate slot) := by
  intro _ p h; cases h

theorem Encodable.challenge (nonce : Nat) : Encodable.Statement (.challenge nonce) := by
  intro _ p h; cases h

theorem Encodable.getMeasurements (index : Nat) : Encodable.Statement (.getMeasurements index) := by
  intro _ p h; cases h

theorem Encodable.keyExchange (session : Nat) : Encodable.Statement (.keyExchange session) := by
  intro _ p h; cases h

theorem Encodable.finishSession (session : Nat) : Encodable.Statement (.finishSession session) := by
  intro _ p h; cases h

theorem Encodable.endSession (session : Nat) : Encodable.Statement (.endSession session) := by
  intro _ p h; cases h

theorem Encodable.mlDsaVendorRequest (session : Nat) : Encodable.Statement (.mlDsaVendorRequest session) := by
  intro _ p h; cases h

theorem Encodable.debugAuthToken (session : Nat) (token : Token) : Encodable.Statement (.debugAuthToken session token) := by
  intro _ p h; cases h

theorem Encodable.returnMaterialToken (session : Nat) (token : Token) : Encodable.Statement (.returnMaterialToken session token) := by
  intro _ p h; cases h

theorem Encodable.debugStateSet (session : Nat) (d : DebugMode) : Encodable.Statement (.debugStateSet session d) := by
  intro _ p h; cases h

theorem Encodable.haltCommand (session : Nat) (unit : UnitId) : Encodable.Statement (.haltCommand session unit) := by
  intro _ p h; cases h

theorem Encodable.packagePowerEval (watts amps : Nat) : Encodable.Statement (.packagePowerEval watts amps) := by
  intro _ p h; cases h

theorem Encodable.thermalEval (die celsius : Nat) : Encodable.Statement (.thermalEval die celsius) := by
  intro _ p h; cases h

theorem Encodable.clockGate (unit : UnitId) : Encodable.Statement (.clockGate unit) := by
  intro _ p h; cases h

theorem Encodable.unitWake (unit : UnitId) : Encodable.Statement (.unitWake unit) := by
  intro _ p h; cases h

theorem Encodable.capabilityFault (ctx : Nat) (target : FirmwareItem) : Encodable.Statement (.capabilityFault ctx target) := by
  intro _ p h; cases h

theorem Encodable.contextCreation (ctx : Nat) (p : ContextParams) : Encodable.Statement (.contextCreation ctx p) := by
  intro _ p h; cases h

theorem Encodable.contextDestruction (ctx : Nat) : Encodable.Statement (.contextDestruction ctx) := by
  intro _ p h; cases h

end Sys2Proof.Laws
end

