-- ==== Sys2Proof/Laws/State.lean ====
section
/-!
SUPPORT. What each named update of the state leaves alone: one equation per update and field, so that no later
proof unfolds a record update.
-/

namespace Sys2Proof.Machine

@[simp] theorem modCore_inputs (s : State) (g : Nat) (f : Core → Core) : (modCore s g f).inputs = s.inputs := rfl
@[simp] theorem modCore_ticks (s : State) (g : Nat) (f : Core → Core) : (modCore s g f).ticks = s.ticks := rfl
@[simp] theorem modCore_yields (s : State) (g : Nat) (f : Core → Core) : (modCore s g f).yields = s.yields := rfl
@[simp] theorem modCore_draws (s : State) (g : Nat) (f : Core → Core) : (modCore s g f).draws = s.draws := rfl
@[simp] theorem modCore_dtime (s : State) (g : Nat) (f : Core → Core) : (modCore s g f).dtime = s.dtime := rfl
@[simp] theorem modCore_cur (s : State) (g : Nat) (f : Core → Core) : (modCore s g f).cur = s.cur := rfl
@[simp] theorem modCore_work (s : State) (g : Nat) (f : Core → Core) : (modCore s g f).work = s.work := rfl
@[simp] theorem modCore_coaches (s : State) (g : Nat) (f : Core → Core) : (modCore s g f).coaches = s.coaches := rfl
@[simp] theorem modCore_clusters (s : State) (g : Nat) (f : Core → Core) : (modCore s g f).clusters = s.clusters := rfl
@[simp] theorem modCore_dies (s : State) (g : Nat) (f : Core → Core) : (modCore s g f).dies = s.dies := rfl
@[simp] theorem modCore_ctxs (s : State) (g : Nat) (f : Core → Core) : (modCore s g f).ctxs = s.ctxs := rfl
@[simp] theorem modCore_more (s : State) (g : Nat) (f : Core → Core) : (modCore s g f).more = s.more := rfl
@[simp] theorem modCore_mem (s : State) (g : Nat) (f : Core → Core) : (modCore s g f).mem = s.mem := rfl
@[simp] theorem modCore_pend (s : State) (g : Nat) (f : Core → Core) : (modCore s g f).pend = s.pend := rfl
@[simp] theorem modCore_nextAccess (s : State) (g : Nat) (f : Core → Core) : (modCore s g f).nextAccess = s.nextAccess := rfl
@[simp] theorem modCore_lines (s : State) (g : Nat) (f : Core → Core) : (modCore s g f).lines = s.lines := rfl
@[simp] theorem modCore_engineTlb (s : State) (g : Nat) (f : Core → Core) : (modCore s g f).engineTlb = s.engineTlb := rfl
@[simp] theorem modCore_frames (s : State) (g : Nat) (f : Core → Core) : (modCore s g f).frames = s.frames := rfl
@[simp] theorem modCore_tables (s : State) (g : Nat) (f : Core → Core) : (modCore s g f).tables = s.tables := rfl
@[simp] theorem modCore_security (s : State) (g : Nat) (f : Core → Core) : (modCore s g f).security = s.security := rfl
@[simp] theorem modCore_power (s : State) (g : Nat) (f : Core → Core) : (modCore s g f).power = s.power := rfl
@[simp] theorem modCore_blackBox (s : State) (g : Nat) (f : Core → Core) : (modCore s g f).blackBox = s.blackBox := rfl

@[simp] theorem modCoach_inputs (s : State) (g : Nat) (f : Coach → Coach) : (modCoach s g f).inputs = s.inputs := rfl
@[simp] theorem modCoach_ticks (s : State) (g : Nat) (f : Coach → Coach) : (modCoach s g f).ticks = s.ticks := rfl
@[simp] theorem modCoach_yields (s : State) (g : Nat) (f : Coach → Coach) : (modCoach s g f).yields = s.yields := rfl
@[simp] theorem modCoach_draws (s : State) (g : Nat) (f : Coach → Coach) : (modCoach s g f).draws = s.draws := rfl
@[simp] theorem modCoach_dtime (s : State) (g : Nat) (f : Coach → Coach) : (modCoach s g f).dtime = s.dtime := rfl
@[simp] theorem modCoach_cur (s : State) (g : Nat) (f : Coach → Coach) : (modCoach s g f).cur = s.cur := rfl
@[simp] theorem modCoach_work (s : State) (g : Nat) (f : Coach → Coach) : (modCoach s g f).work = s.work := rfl
@[simp] theorem modCoach_cores (s : State) (g : Nat) (f : Coach → Coach) : (modCoach s g f).cores = s.cores := rfl
@[simp] theorem modCoach_clusters (s : State) (g : Nat) (f : Coach → Coach) : (modCoach s g f).clusters = s.clusters := rfl
@[simp] theorem modCoach_dies (s : State) (g : Nat) (f : Coach → Coach) : (modCoach s g f).dies = s.dies := rfl
@[simp] theorem modCoach_ctxs (s : State) (g : Nat) (f : Coach → Coach) : (modCoach s g f).ctxs = s.ctxs := rfl
@[simp] theorem modCoach_more (s : State) (g : Nat) (f : Coach → Coach) : (modCoach s g f).more = s.more := rfl
@[simp] theorem modCoach_mem (s : State) (g : Nat) (f : Coach → Coach) : (modCoach s g f).mem = s.mem := rfl
@[simp] theorem modCoach_pend (s : State) (g : Nat) (f : Coach → Coach) : (modCoach s g f).pend = s.pend := rfl
@[simp] theorem modCoach_nextAccess (s : State) (g : Nat) (f : Coach → Coach) : (modCoach s g f).nextAccess = s.nextAccess := rfl
@[simp] theorem modCoach_lines (s : State) (g : Nat) (f : Coach → Coach) : (modCoach s g f).lines = s.lines := rfl
@[simp] theorem modCoach_engineTlb (s : State) (g : Nat) (f : Coach → Coach) : (modCoach s g f).engineTlb = s.engineTlb := rfl
@[simp] theorem modCoach_frames (s : State) (g : Nat) (f : Coach → Coach) : (modCoach s g f).frames = s.frames := rfl
@[simp] theorem modCoach_tables (s : State) (g : Nat) (f : Coach → Coach) : (modCoach s g f).tables = s.tables := rfl
@[simp] theorem modCoach_security (s : State) (g : Nat) (f : Coach → Coach) : (modCoach s g f).security = s.security := rfl
@[simp] theorem modCoach_power (s : State) (g : Nat) (f : Coach → Coach) : (modCoach s g f).power = s.power := rfl
@[simp] theorem modCoach_blackBox (s : State) (g : Nat) (f : Coach → Coach) : (modCoach s g f).blackBox = s.blackBox := rfl

@[simp] theorem modCluster_inputs (s : State) (g : Nat) (f : Cluster → Cluster) : (modCluster s g f).inputs = s.inputs := rfl
@[simp] theorem modCluster_ticks (s : State) (g : Nat) (f : Cluster → Cluster) : (modCluster s g f).ticks = s.ticks := rfl
@[simp] theorem modCluster_yields (s : State) (g : Nat) (f : Cluster → Cluster) : (modCluster s g f).yields = s.yields := rfl
@[simp] theorem modCluster_draws (s : State) (g : Nat) (f : Cluster → Cluster) : (modCluster s g f).draws = s.draws := rfl
@[simp] theorem modCluster_dtime (s : State) (g : Nat) (f : Cluster → Cluster) : (modCluster s g f).dtime = s.dtime := rfl
@[simp] theorem modCluster_cur (s : State) (g : Nat) (f : Cluster → Cluster) : (modCluster s g f).cur = s.cur := rfl
@[simp] theorem modCluster_work (s : State) (g : Nat) (f : Cluster → Cluster) : (modCluster s g f).work = s.work := rfl
@[simp] theorem modCluster_cores (s : State) (g : Nat) (f : Cluster → Cluster) : (modCluster s g f).cores = s.cores := rfl
@[simp] theorem modCluster_coaches (s : State) (g : Nat) (f : Cluster → Cluster) : (modCluster s g f).coaches = s.coaches := rfl
@[simp] theorem modCluster_dies (s : State) (g : Nat) (f : Cluster → Cluster) : (modCluster s g f).dies = s.dies := rfl
@[simp] theorem modCluster_ctxs (s : State) (g : Nat) (f : Cluster → Cluster) : (modCluster s g f).ctxs = s.ctxs := rfl
@[simp] theorem modCluster_more (s : State) (g : Nat) (f : Cluster → Cluster) : (modCluster s g f).more = s.more := rfl
@[simp] theorem modCluster_mem (s : State) (g : Nat) (f : Cluster → Cluster) : (modCluster s g f).mem = s.mem := rfl
@[simp] theorem modCluster_pend (s : State) (g : Nat) (f : Cluster → Cluster) : (modCluster s g f).pend = s.pend := rfl
@[simp] theorem modCluster_nextAccess (s : State) (g : Nat) (f : Cluster → Cluster) : (modCluster s g f).nextAccess = s.nextAccess := rfl
@[simp] theorem modCluster_lines (s : State) (g : Nat) (f : Cluster → Cluster) : (modCluster s g f).lines = s.lines := rfl
@[simp] theorem modCluster_engineTlb (s : State) (g : Nat) (f : Cluster → Cluster) : (modCluster s g f).engineTlb = s.engineTlb := rfl
@[simp] theorem modCluster_frames (s : State) (g : Nat) (f : Cluster → Cluster) : (modCluster s g f).frames = s.frames := rfl
@[simp] theorem modCluster_tables (s : State) (g : Nat) (f : Cluster → Cluster) : (modCluster s g f).tables = s.tables := rfl
@[simp] theorem modCluster_security (s : State) (g : Nat) (f : Cluster → Cluster) : (modCluster s g f).security = s.security := rfl
@[simp] theorem modCluster_power (s : State) (g : Nat) (f : Cluster → Cluster) : (modCluster s g f).power = s.power := rfl
@[simp] theorem modCluster_blackBox (s : State) (g : Nat) (f : Cluster → Cluster) : (modCluster s g f).blackBox = s.blackBox := rfl

@[simp] theorem modDie_inputs (s : State) (d : Nat) (f : Die → Die) : (modDie s d f).inputs = s.inputs := rfl
@[simp] theorem modDie_ticks (s : State) (d : Nat) (f : Die → Die) : (modDie s d f).ticks = s.ticks := rfl
@[simp] theorem modDie_yields (s : State) (d : Nat) (f : Die → Die) : (modDie s d f).yields = s.yields := rfl
@[simp] theorem modDie_draws (s : State) (d : Nat) (f : Die → Die) : (modDie s d f).draws = s.draws := rfl
@[simp] theorem modDie_dtime (s : State) (d : Nat) (f : Die → Die) : (modDie s d f).dtime = s.dtime := rfl
@[simp] theorem modDie_cur (s : State) (d : Nat) (f : Die → Die) : (modDie s d f).cur = s.cur := rfl
@[simp] theorem modDie_work (s : State) (d : Nat) (f : Die → Die) : (modDie s d f).work = s.work := rfl
@[simp] theorem modDie_cores (s : State) (d : Nat) (f : Die → Die) : (modDie s d f).cores = s.cores := rfl
@[simp] theorem modDie_coaches (s : State) (d : Nat) (f : Die → Die) : (modDie s d f).coaches = s.coaches := rfl
@[simp] theorem modDie_clusters (s : State) (d : Nat) (f : Die → Die) : (modDie s d f).clusters = s.clusters := rfl
@[simp] theorem modDie_ctxs (s : State) (d : Nat) (f : Die → Die) : (modDie s d f).ctxs = s.ctxs := rfl
@[simp] theorem modDie_more (s : State) (d : Nat) (f : Die → Die) : (modDie s d f).more = s.more := rfl
@[simp] theorem modDie_mem (s : State) (d : Nat) (f : Die → Die) : (modDie s d f).mem = s.mem := rfl
@[simp] theorem modDie_pend (s : State) (d : Nat) (f : Die → Die) : (modDie s d f).pend = s.pend := rfl
@[simp] theorem modDie_nextAccess (s : State) (d : Nat) (f : Die → Die) : (modDie s d f).nextAccess = s.nextAccess := rfl
@[simp] theorem modDie_lines (s : State) (d : Nat) (f : Die → Die) : (modDie s d f).lines = s.lines := rfl
@[simp] theorem modDie_engineTlb (s : State) (d : Nat) (f : Die → Die) : (modDie s d f).engineTlb = s.engineTlb := rfl
@[simp] theorem modDie_frames (s : State) (d : Nat) (f : Die → Die) : (modDie s d f).frames = s.frames := rfl
@[simp] theorem modDie_tables (s : State) (d : Nat) (f : Die → Die) : (modDie s d f).tables = s.tables := rfl
@[simp] theorem modDie_security (s : State) (d : Nat) (f : Die → Die) : (modDie s d f).security = s.security := rfl
@[simp] theorem modDie_power (s : State) (d : Nat) (f : Die → Die) : (modDie s d f).power = s.power := rfl
@[simp] theorem modDie_blackBox (s : State) (d : Nat) (f : Die → Die) : (modDie s d f).blackBox = s.blackBox := rfl

@[simp] theorem modCtx_inputs (s : State) (c : Nat) (f : Context → Context) : (modCtx s c f).inputs = s.inputs := rfl
@[simp] theorem modCtx_ticks (s : State) (c : Nat) (f : Context → Context) : (modCtx s c f).ticks = s.ticks := rfl
@[simp] theorem modCtx_yields (s : State) (c : Nat) (f : Context → Context) : (modCtx s c f).yields = s.yields := rfl
@[simp] theorem modCtx_draws (s : State) (c : Nat) (f : Context → Context) : (modCtx s c f).draws = s.draws := rfl
@[simp] theorem modCtx_dtime (s : State) (c : Nat) (f : Context → Context) : (modCtx s c f).dtime = s.dtime := rfl
@[simp] theorem modCtx_cur (s : State) (c : Nat) (f : Context → Context) : (modCtx s c f).cur = s.cur := rfl
@[simp] theorem modCtx_work (s : State) (c : Nat) (f : Context → Context) : (modCtx s c f).work = s.work := rfl
@[simp] theorem modCtx_cores (s : State) (c : Nat) (f : Context → Context) : (modCtx s c f).cores = s.cores := rfl
@[simp] theorem modCtx_coaches (s : State) (c : Nat) (f : Context → Context) : (modCtx s c f).coaches = s.coaches := rfl
@[simp] theorem modCtx_clusters (s : State) (c : Nat) (f : Context → Context) : (modCtx s c f).clusters = s.clusters := rfl
@[simp] theorem modCtx_dies (s : State) (c : Nat) (f : Context → Context) : (modCtx s c f).dies = s.dies := rfl
@[simp] theorem modCtx_more (s : State) (c : Nat) (f : Context → Context) : (modCtx s c f).more = s.more := rfl
@[simp] theorem modCtx_mem (s : State) (c : Nat) (f : Context → Context) : (modCtx s c f).mem = s.mem := rfl
@[simp] theorem modCtx_pend (s : State) (c : Nat) (f : Context → Context) : (modCtx s c f).pend = s.pend := rfl
@[simp] theorem modCtx_nextAccess (s : State) (c : Nat) (f : Context → Context) : (modCtx s c f).nextAccess = s.nextAccess := rfl
@[simp] theorem modCtx_lines (s : State) (c : Nat) (f : Context → Context) : (modCtx s c f).lines = s.lines := rfl
@[simp] theorem modCtx_engineTlb (s : State) (c : Nat) (f : Context → Context) : (modCtx s c f).engineTlb = s.engineTlb := rfl
@[simp] theorem modCtx_frames (s : State) (c : Nat) (f : Context → Context) : (modCtx s c f).frames = s.frames := rfl
@[simp] theorem modCtx_tables (s : State) (c : Nat) (f : Context → Context) : (modCtx s c f).tables = s.tables := rfl
@[simp] theorem modCtx_security (s : State) (c : Nat) (f : Context → Context) : (modCtx s c f).security = s.security := rfl
@[simp] theorem modCtx_power (s : State) (c : Nat) (f : Context → Context) : (modCtx s c f).power = s.power := rfl
@[simp] theorem modCtx_blackBox (s : State) (c : Nat) (f : Context → Context) : (modCtx s c f).blackBox = s.blackBox := rfl

@[simp] theorem modMore_inputs (s : State) (c : Nat) (f : CtxMore → CtxMore) : (modMore s c f).inputs = s.inputs := rfl
@[simp] theorem modMore_ticks (s : State) (c : Nat) (f : CtxMore → CtxMore) : (modMore s c f).ticks = s.ticks := rfl
@[simp] theorem modMore_yields (s : State) (c : Nat) (f : CtxMore → CtxMore) : (modMore s c f).yields = s.yields := rfl
@[simp] theorem modMore_draws (s : State) (c : Nat) (f : CtxMore → CtxMore) : (modMore s c f).draws = s.draws := rfl
@[simp] theorem modMore_dtime (s : State) (c : Nat) (f : CtxMore → CtxMore) : (modMore s c f).dtime = s.dtime := rfl
@[simp] theorem modMore_cur (s : State) (c : Nat) (f : CtxMore → CtxMore) : (modMore s c f).cur = s.cur := rfl
@[simp] theorem modMore_work (s : State) (c : Nat) (f : CtxMore → CtxMore) : (modMore s c f).work = s.work := rfl
@[simp] theorem modMore_cores (s : State) (c : Nat) (f : CtxMore → CtxMore) : (modMore s c f).cores = s.cores := rfl
@[simp] theorem modMore_coaches (s : State) (c : Nat) (f : CtxMore → CtxMore) : (modMore s c f).coaches = s.coaches := rfl
@[simp] theorem modMore_clusters (s : State) (c : Nat) (f : CtxMore → CtxMore) : (modMore s c f).clusters = s.clusters := rfl
@[simp] theorem modMore_dies (s : State) (c : Nat) (f : CtxMore → CtxMore) : (modMore s c f).dies = s.dies := rfl
@[simp] theorem modMore_ctxs (s : State) (c : Nat) (f : CtxMore → CtxMore) : (modMore s c f).ctxs = s.ctxs := rfl
@[simp] theorem modMore_mem (s : State) (c : Nat) (f : CtxMore → CtxMore) : (modMore s c f).mem = s.mem := rfl
@[simp] theorem modMore_pend (s : State) (c : Nat) (f : CtxMore → CtxMore) : (modMore s c f).pend = s.pend := rfl
@[simp] theorem modMore_nextAccess (s : State) (c : Nat) (f : CtxMore → CtxMore) : (modMore s c f).nextAccess = s.nextAccess := rfl
@[simp] theorem modMore_lines (s : State) (c : Nat) (f : CtxMore → CtxMore) : (modMore s c f).lines = s.lines := rfl
@[simp] theorem modMore_engineTlb (s : State) (c : Nat) (f : CtxMore → CtxMore) : (modMore s c f).engineTlb = s.engineTlb := rfl
@[simp] theorem modMore_frames (s : State) (c : Nat) (f : CtxMore → CtxMore) : (modMore s c f).frames = s.frames := rfl
@[simp] theorem modMore_tables (s : State) (c : Nat) (f : CtxMore → CtxMore) : (modMore s c f).tables = s.tables := rfl
@[simp] theorem modMore_security (s : State) (c : Nat) (f : CtxMore → CtxMore) : (modMore s c f).security = s.security := rfl
@[simp] theorem modMore_power (s : State) (c : Nat) (f : CtxMore → CtxMore) : (modMore s c f).power = s.power := rfl
@[simp] theorem modMore_blackBox (s : State) (c : Nat) (f : CtxMore → CtxMore) : (modMore s c f).blackBox = s.blackBox := rfl

@[simp] theorem modWork_inputs (s : State) (f : Work → Work) : (modWork s f).inputs = s.inputs := rfl
@[simp] theorem modWork_ticks (s : State) (f : Work → Work) : (modWork s f).ticks = s.ticks := rfl
@[simp] theorem modWork_yields (s : State) (f : Work → Work) : (modWork s f).yields = s.yields := rfl
@[simp] theorem modWork_draws (s : State) (f : Work → Work) : (modWork s f).draws = s.draws := rfl
@[simp] theorem modWork_dtime (s : State) (f : Work → Work) : (modWork s f).dtime = s.dtime := rfl
@[simp] theorem modWork_cur (s : State) (f : Work → Work) : (modWork s f).cur = s.cur := rfl
@[simp] theorem modWork_cores (s : State) (f : Work → Work) : (modWork s f).cores = s.cores := rfl
@[simp] theorem modWork_coaches (s : State) (f : Work → Work) : (modWork s f).coaches = s.coaches := rfl
@[simp] theorem modWork_clusters (s : State) (f : Work → Work) : (modWork s f).clusters = s.clusters := rfl
@[simp] theorem modWork_dies (s : State) (f : Work → Work) : (modWork s f).dies = s.dies := rfl
@[simp] theorem modWork_ctxs (s : State) (f : Work → Work) : (modWork s f).ctxs = s.ctxs := rfl
@[simp] theorem modWork_more (s : State) (f : Work → Work) : (modWork s f).more = s.more := rfl
@[simp] theorem modWork_mem (s : State) (f : Work → Work) : (modWork s f).mem = s.mem := rfl
@[simp] theorem modWork_pend (s : State) (f : Work → Work) : (modWork s f).pend = s.pend := rfl
@[simp] theorem modWork_nextAccess (s : State) (f : Work → Work) : (modWork s f).nextAccess = s.nextAccess := rfl
@[simp] theorem modWork_lines (s : State) (f : Work → Work) : (modWork s f).lines = s.lines := rfl
@[simp] theorem modWork_engineTlb (s : State) (f : Work → Work) : (modWork s f).engineTlb = s.engineTlb := rfl
@[simp] theorem modWork_frames (s : State) (f : Work → Work) : (modWork s f).frames = s.frames := rfl
@[simp] theorem modWork_tables (s : State) (f : Work → Work) : (modWork s f).tables = s.tables := rfl
@[simp] theorem modWork_security (s : State) (f : Work → Work) : (modWork s f).security = s.security := rfl
@[simp] theorem modWork_power (s : State) (f : Work → Work) : (modWork s f).power = s.power := rfl
@[simp] theorem modWork_blackBox (s : State) (f : Work → Work) : (modWork s f).blackBox = s.blackBox := rfl

@[simp] theorem modBlock_inputs (s : State) (b : Nat) (f : Block → Block) : (modBlock s b f).inputs = s.inputs := rfl
@[simp] theorem modBlock_ticks (s : State) (b : Nat) (f : Block → Block) : (modBlock s b f).ticks = s.ticks := rfl
@[simp] theorem modBlock_yields (s : State) (b : Nat) (f : Block → Block) : (modBlock s b f).yields = s.yields := rfl
@[simp] theorem modBlock_draws (s : State) (b : Nat) (f : Block → Block) : (modBlock s b f).draws = s.draws := rfl
@[simp] theorem modBlock_dtime (s : State) (b : Nat) (f : Block → Block) : (modBlock s b f).dtime = s.dtime := rfl
@[simp] theorem modBlock_cur (s : State) (b : Nat) (f : Block → Block) : (modBlock s b f).cur = s.cur := rfl
@[simp] theorem modBlock_cores (s : State) (b : Nat) (f : Block → Block) : (modBlock s b f).cores = s.cores := rfl
@[simp] theorem modBlock_coaches (s : State) (b : Nat) (f : Block → Block) : (modBlock s b f).coaches = s.coaches := rfl
@[simp] theorem modBlock_clusters (s : State) (b : Nat) (f : Block → Block) : (modBlock s b f).clusters = s.clusters := rfl
@[simp] theorem modBlock_dies (s : State) (b : Nat) (f : Block → Block) : (modBlock s b f).dies = s.dies := rfl
@[simp] theorem modBlock_ctxs (s : State) (b : Nat) (f : Block → Block) : (modBlock s b f).ctxs = s.ctxs := rfl
@[simp] theorem modBlock_more (s : State) (b : Nat) (f : Block → Block) : (modBlock s b f).more = s.more := rfl
@[simp] theorem modBlock_mem (s : State) (b : Nat) (f : Block → Block) : (modBlock s b f).mem = s.mem := rfl
@[simp] theorem modBlock_pend (s : State) (b : Nat) (f : Block → Block) : (modBlock s b f).pend = s.pend := rfl
@[simp] theorem modBlock_nextAccess (s : State) (b : Nat) (f : Block → Block) : (modBlock s b f).nextAccess = s.nextAccess := rfl
@[simp] theorem modBlock_lines (s : State) (b : Nat) (f : Block → Block) : (modBlock s b f).lines = s.lines := rfl
@[simp] theorem modBlock_engineTlb (s : State) (b : Nat) (f : Block → Block) : (modBlock s b f).engineTlb = s.engineTlb := rfl
@[simp] theorem modBlock_frames (s : State) (b : Nat) (f : Block → Block) : (modBlock s b f).frames = s.frames := rfl
@[simp] theorem modBlock_tables (s : State) (b : Nat) (f : Block → Block) : (modBlock s b f).tables = s.tables := rfl
@[simp] theorem modBlock_security (s : State) (b : Nat) (f : Block → Block) : (modBlock s b f).security = s.security := rfl
@[simp] theorem modBlock_power (s : State) (b : Nat) (f : Block → Block) : (modBlock s b f).power = s.power := rfl
@[simp] theorem modBlock_blackBox (s : State) (b : Nat) (f : Block → Block) : (modBlock s b f).blackBox = s.blackBox := rfl

@[simp] theorem modSync_inputs (s : State) (b : Nat) (f : BlockSync → BlockSync) : (modSync s b f).inputs = s.inputs := rfl
@[simp] theorem modSync_ticks (s : State) (b : Nat) (f : BlockSync → BlockSync) : (modSync s b f).ticks = s.ticks := rfl
@[simp] theorem modSync_yields (s : State) (b : Nat) (f : BlockSync → BlockSync) : (modSync s b f).yields = s.yields := rfl
@[simp] theorem modSync_draws (s : State) (b : Nat) (f : BlockSync → BlockSync) : (modSync s b f).draws = s.draws := rfl
@[simp] theorem modSync_dtime (s : State) (b : Nat) (f : BlockSync → BlockSync) : (modSync s b f).dtime = s.dtime := rfl
@[simp] theorem modSync_cur (s : State) (b : Nat) (f : BlockSync → BlockSync) : (modSync s b f).cur = s.cur := rfl
@[simp] theorem modSync_cores (s : State) (b : Nat) (f : BlockSync → BlockSync) : (modSync s b f).cores = s.cores := rfl
@[simp] theorem modSync_coaches (s : State) (b : Nat) (f : BlockSync → BlockSync) : (modSync s b f).coaches = s.coaches := rfl
@[simp] theorem modSync_clusters (s : State) (b : Nat) (f : BlockSync → BlockSync) : (modSync s b f).clusters = s.clusters := rfl
@[simp] theorem modSync_dies (s : State) (b : Nat) (f : BlockSync → BlockSync) : (modSync s b f).dies = s.dies := rfl
@[simp] theorem modSync_ctxs (s : State) (b : Nat) (f : BlockSync → BlockSync) : (modSync s b f).ctxs = s.ctxs := rfl
@[simp] theorem modSync_more (s : State) (b : Nat) (f : BlockSync → BlockSync) : (modSync s b f).more = s.more := rfl
@[simp] theorem modSync_mem (s : State) (b : Nat) (f : BlockSync → BlockSync) : (modSync s b f).mem = s.mem := rfl
@[simp] theorem modSync_pend (s : State) (b : Nat) (f : BlockSync → BlockSync) : (modSync s b f).pend = s.pend := rfl
@[simp] theorem modSync_nextAccess (s : State) (b : Nat) (f : BlockSync → BlockSync) : (modSync s b f).nextAccess = s.nextAccess := rfl
@[simp] theorem modSync_lines (s : State) (b : Nat) (f : BlockSync → BlockSync) : (modSync s b f).lines = s.lines := rfl
@[simp] theorem modSync_engineTlb (s : State) (b : Nat) (f : BlockSync → BlockSync) : (modSync s b f).engineTlb = s.engineTlb := rfl
@[simp] theorem modSync_frames (s : State) (b : Nat) (f : BlockSync → BlockSync) : (modSync s b f).frames = s.frames := rfl
@[simp] theorem modSync_tables (s : State) (b : Nat) (f : BlockSync → BlockSync) : (modSync s b f).tables = s.tables := rfl
@[simp] theorem modSync_security (s : State) (b : Nat) (f : BlockSync → BlockSync) : (modSync s b f).security = s.security := rfl
@[simp] theorem modSync_power (s : State) (b : Nat) (f : BlockSync → BlockSync) : (modSync s b f).power = s.power := rfl
@[simp] theorem modSync_blackBox (s : State) (b : Nat) (f : BlockSync → BlockSync) : (modSync s b f).blackBox = s.blackBox := rfl

@[simp] theorem modLaunch_inputs (s : State) (l : Nat) (f : Launch → Launch) : (modLaunch s l f).inputs = s.inputs := rfl
@[simp] theorem modLaunch_ticks (s : State) (l : Nat) (f : Launch → Launch) : (modLaunch s l f).ticks = s.ticks := rfl
@[simp] theorem modLaunch_yields (s : State) (l : Nat) (f : Launch → Launch) : (modLaunch s l f).yields = s.yields := rfl
@[simp] theorem modLaunch_draws (s : State) (l : Nat) (f : Launch → Launch) : (modLaunch s l f).draws = s.draws := rfl
@[simp] theorem modLaunch_dtime (s : State) (l : Nat) (f : Launch → Launch) : (modLaunch s l f).dtime = s.dtime := rfl
@[simp] theorem modLaunch_cur (s : State) (l : Nat) (f : Launch → Launch) : (modLaunch s l f).cur = s.cur := rfl
@[simp] theorem modLaunch_cores (s : State) (l : Nat) (f : Launch → Launch) : (modLaunch s l f).cores = s.cores := rfl
@[simp] theorem modLaunch_coaches (s : State) (l : Nat) (f : Launch → Launch) : (modLaunch s l f).coaches = s.coaches := rfl
@[simp] theorem modLaunch_clusters (s : State) (l : Nat) (f : Launch → Launch) : (modLaunch s l f).clusters = s.clusters := rfl
@[simp] theorem modLaunch_dies (s : State) (l : Nat) (f : Launch → Launch) : (modLaunch s l f).dies = s.dies := rfl
@[simp] theorem modLaunch_ctxs (s : State) (l : Nat) (f : Launch → Launch) : (modLaunch s l f).ctxs = s.ctxs := rfl
@[simp] theorem modLaunch_more (s : State) (l : Nat) (f : Launch → Launch) : (modLaunch s l f).more = s.more := rfl
@[simp] theorem modLaunch_mem (s : State) (l : Nat) (f : Launch → Launch) : (modLaunch s l f).mem = s.mem := rfl
@[simp] theorem modLaunch_pend (s : State) (l : Nat) (f : Launch → Launch) : (modLaunch s l f).pend = s.pend := rfl
@[simp] theorem modLaunch_nextAccess (s : State) (l : Nat) (f : Launch → Launch) : (modLaunch s l f).nextAccess = s.nextAccess := rfl
@[simp] theorem modLaunch_lines (s : State) (l : Nat) (f : Launch → Launch) : (modLaunch s l f).lines = s.lines := rfl
@[simp] theorem modLaunch_engineTlb (s : State) (l : Nat) (f : Launch → Launch) : (modLaunch s l f).engineTlb = s.engineTlb := rfl
@[simp] theorem modLaunch_frames (s : State) (l : Nat) (f : Launch → Launch) : (modLaunch s l f).frames = s.frames := rfl
@[simp] theorem modLaunch_tables (s : State) (l : Nat) (f : Launch → Launch) : (modLaunch s l f).tables = s.tables := rfl
@[simp] theorem modLaunch_security (s : State) (l : Nat) (f : Launch → Launch) : (modLaunch s l f).security = s.security := rfl
@[simp] theorem modLaunch_power (s : State) (l : Nat) (f : Launch → Launch) : (modLaunch s l f).power = s.power := rfl
@[simp] theorem modLaunch_blackBox (s : State) (l : Nat) (f : Launch → Launch) : (modLaunch s l f).blackBox = s.blackBox := rfl

@[simp] theorem modGroup_inputs (s : State) (g : Nat) (f : Group → Group) : (modGroup s g f).inputs = s.inputs := rfl
@[simp] theorem modGroup_ticks (s : State) (g : Nat) (f : Group → Group) : (modGroup s g f).ticks = s.ticks := rfl
@[simp] theorem modGroup_yields (s : State) (g : Nat) (f : Group → Group) : (modGroup s g f).yields = s.yields := rfl
@[simp] theorem modGroup_draws (s : State) (g : Nat) (f : Group → Group) : (modGroup s g f).draws = s.draws := rfl
@[simp] theorem modGroup_dtime (s : State) (g : Nat) (f : Group → Group) : (modGroup s g f).dtime = s.dtime := rfl
@[simp] theorem modGroup_cur (s : State) (g : Nat) (f : Group → Group) : (modGroup s g f).cur = s.cur := rfl
@[simp] theorem modGroup_cores (s : State) (g : Nat) (f : Group → Group) : (modGroup s g f).cores = s.cores := rfl
@[simp] theorem modGroup_coaches (s : State) (g : Nat) (f : Group → Group) : (modGroup s g f).coaches = s.coaches := rfl
@[simp] theorem modGroup_clusters (s : State) (g : Nat) (f : Group → Group) : (modGroup s g f).clusters = s.clusters := rfl
@[simp] theorem modGroup_dies (s : State) (g : Nat) (f : Group → Group) : (modGroup s g f).dies = s.dies := rfl
@[simp] theorem modGroup_ctxs (s : State) (g : Nat) (f : Group → Group) : (modGroup s g f).ctxs = s.ctxs := rfl
@[simp] theorem modGroup_more (s : State) (g : Nat) (f : Group → Group) : (modGroup s g f).more = s.more := rfl
@[simp] theorem modGroup_mem (s : State) (g : Nat) (f : Group → Group) : (modGroup s g f).mem = s.mem := rfl
@[simp] theorem modGroup_pend (s : State) (g : Nat) (f : Group → Group) : (modGroup s g f).pend = s.pend := rfl
@[simp] theorem modGroup_nextAccess (s : State) (g : Nat) (f : Group → Group) : (modGroup s g f).nextAccess = s.nextAccess := rfl
@[simp] theorem modGroup_lines (s : State) (g : Nat) (f : Group → Group) : (modGroup s g f).lines = s.lines := rfl
@[simp] theorem modGroup_engineTlb (s : State) (g : Nat) (f : Group → Group) : (modGroup s g f).engineTlb = s.engineTlb := rfl
@[simp] theorem modGroup_frames (s : State) (g : Nat) (f : Group → Group) : (modGroup s g f).frames = s.frames := rfl
@[simp] theorem modGroup_tables (s : State) (g : Nat) (f : Group → Group) : (modGroup s g f).tables = s.tables := rfl
@[simp] theorem modGroup_security (s : State) (g : Nat) (f : Group → Group) : (modGroup s g f).security = s.security := rfl
@[simp] theorem modGroup_power (s : State) (g : Nat) (f : Group → Group) : (modGroup s g f).power = s.power := rfl
@[simp] theorem modGroup_blackBox (s : State) (g : Nat) (f : Group → Group) : (modGroup s g f).blackBox = s.blackBox := rfl

@[simp] theorem modThread_inputs (s : State) (u : Nat) (f : Thread → Thread) : (modThread s u f).inputs = s.inputs := rfl
@[simp] theorem modThread_ticks (s : State) (u : Nat) (f : Thread → Thread) : (modThread s u f).ticks = s.ticks := rfl
@[simp] theorem modThread_yields (s : State) (u : Nat) (f : Thread → Thread) : (modThread s u f).yields = s.yields := rfl
@[simp] theorem modThread_draws (s : State) (u : Nat) (f : Thread → Thread) : (modThread s u f).draws = s.draws := rfl
@[simp] theorem modThread_dtime (s : State) (u : Nat) (f : Thread → Thread) : (modThread s u f).dtime = s.dtime := rfl
@[simp] theorem modThread_cur (s : State) (u : Nat) (f : Thread → Thread) : (modThread s u f).cur = s.cur := rfl
@[simp] theorem modThread_cores (s : State) (u : Nat) (f : Thread → Thread) : (modThread s u f).cores = s.cores := rfl
@[simp] theorem modThread_coaches (s : State) (u : Nat) (f : Thread → Thread) : (modThread s u f).coaches = s.coaches := rfl
@[simp] theorem modThread_clusters (s : State) (u : Nat) (f : Thread → Thread) : (modThread s u f).clusters = s.clusters := rfl
@[simp] theorem modThread_dies (s : State) (u : Nat) (f : Thread → Thread) : (modThread s u f).dies = s.dies := rfl
@[simp] theorem modThread_ctxs (s : State) (u : Nat) (f : Thread → Thread) : (modThread s u f).ctxs = s.ctxs := rfl
@[simp] theorem modThread_more (s : State) (u : Nat) (f : Thread → Thread) : (modThread s u f).more = s.more := rfl
@[simp] theorem modThread_mem (s : State) (u : Nat) (f : Thread → Thread) : (modThread s u f).mem = s.mem := rfl
@[simp] theorem modThread_pend (s : State) (u : Nat) (f : Thread → Thread) : (modThread s u f).pend = s.pend := rfl
@[simp] theorem modThread_nextAccess (s : State) (u : Nat) (f : Thread → Thread) : (modThread s u f).nextAccess = s.nextAccess := rfl
@[simp] theorem modThread_lines (s : State) (u : Nat) (f : Thread → Thread) : (modThread s u f).lines = s.lines := rfl
@[simp] theorem modThread_engineTlb (s : State) (u : Nat) (f : Thread → Thread) : (modThread s u f).engineTlb = s.engineTlb := rfl
@[simp] theorem modThread_frames (s : State) (u : Nat) (f : Thread → Thread) : (modThread s u f).frames = s.frames := rfl
@[simp] theorem modThread_tables (s : State) (u : Nat) (f : Thread → Thread) : (modThread s u f).tables = s.tables := rfl
@[simp] theorem modThread_security (s : State) (u : Nat) (f : Thread → Thread) : (modThread s u f).security = s.security := rfl
@[simp] theorem modThread_power (s : State) (u : Nat) (f : Thread → Thread) : (modThread s u f).power = s.power := rfl
@[simp] theorem modThread_blackBox (s : State) (u : Nat) (f : Thread → Thread) : (modThread s u f).blackBox = s.blackBox := rfl

@[simp] theorem forLanes_inputs (s : State) (f : Nat → Thread → Thread) : (forLanes s f).inputs = s.inputs := rfl
@[simp] theorem forLanes_ticks (s : State) (f : Nat → Thread → Thread) : (forLanes s f).ticks = s.ticks := rfl
@[simp] theorem forLanes_yields (s : State) (f : Nat → Thread → Thread) : (forLanes s f).yields = s.yields := rfl
@[simp] theorem forLanes_draws (s : State) (f : Nat → Thread → Thread) : (forLanes s f).draws = s.draws := rfl
@[simp] theorem forLanes_dtime (s : State) (f : Nat → Thread → Thread) : (forLanes s f).dtime = s.dtime := rfl
@[simp] theorem forLanes_cur (s : State) (f : Nat → Thread → Thread) : (forLanes s f).cur = s.cur := rfl
@[simp] theorem forLanes_cores (s : State) (f : Nat → Thread → Thread) : (forLanes s f).cores = s.cores := rfl
@[simp] theorem forLanes_coaches (s : State) (f : Nat → Thread → Thread) : (forLanes s f).coaches = s.coaches := rfl
@[simp] theorem forLanes_clusters (s : State) (f : Nat → Thread → Thread) : (forLanes s f).clusters = s.clusters := rfl
@[simp] theorem forLanes_dies (s : State) (f : Nat → Thread → Thread) : (forLanes s f).dies = s.dies := rfl
@[simp] theorem forLanes_ctxs (s : State) (f : Nat → Thread → Thread) : (forLanes s f).ctxs = s.ctxs := rfl
@[simp] theorem forLanes_more (s : State) (f : Nat → Thread → Thread) : (forLanes s f).more = s.more := rfl
@[simp] theorem forLanes_mem (s : State) (f : Nat → Thread → Thread) : (forLanes s f).mem = s.mem := rfl
@[simp] theorem forLanes_pend (s : State) (f : Nat → Thread → Thread) : (forLanes s f).pend = s.pend := rfl
@[simp] theorem forLanes_nextAccess (s : State) (f : Nat → Thread → Thread) : (forLanes s f).nextAccess = s.nextAccess := rfl
@[simp] theorem forLanes_lines (s : State) (f : Nat → Thread → Thread) : (forLanes s f).lines = s.lines := rfl
@[simp] theorem forLanes_engineTlb (s : State) (f : Nat → Thread → Thread) : (forLanes s f).engineTlb = s.engineTlb := rfl
@[simp] theorem forLanes_frames (s : State) (f : Nat → Thread → Thread) : (forLanes s f).frames = s.frames := rfl
@[simp] theorem forLanes_tables (s : State) (f : Nat → Thread → Thread) : (forLanes s f).tables = s.tables := rfl
@[simp] theorem forLanes_security (s : State) (f : Nat → Thread → Thread) : (forLanes s f).security = s.security := rfl
@[simp] theorem forLanes_power (s : State) (f : Nat → Thread → Thread) : (forLanes s f).power = s.power := rfl
@[simp] theorem forLanes_blackBox (s : State) (f : Nat → Thread → Thread) : (forLanes s f).blackBox = s.blackBox := rfl

@[simp] theorem writeWord_inputs (s : State) (g : Guard) (d : Dst) (f : Nat → Thread → Word) : (writeWord s g d f).inputs = s.inputs := rfl
@[simp] theorem writeWord_ticks (s : State) (g : Guard) (d : Dst) (f : Nat → Thread → Word) : (writeWord s g d f).ticks = s.ticks := rfl
@[simp] theorem writeWord_yields (s : State) (g : Guard) (d : Dst) (f : Nat → Thread → Word) : (writeWord s g d f).yields = s.yields := rfl
@[simp] theorem writeWord_draws (s : State) (g : Guard) (d : Dst) (f : Nat → Thread → Word) : (writeWord s g d f).draws = s.draws := rfl
@[simp] theorem writeWord_dtime (s : State) (g : Guard) (d : Dst) (f : Nat → Thread → Word) : (writeWord s g d f).dtime = s.dtime := rfl
@[simp] theorem writeWord_cur (s : State) (g : Guard) (d : Dst) (f : Nat → Thread → Word) : (writeWord s g d f).cur = s.cur := rfl
@[simp] theorem writeWord_cores (s : State) (g : Guard) (d : Dst) (f : Nat → Thread → Word) : (writeWord s g d f).cores = s.cores := rfl
@[simp] theorem writeWord_coaches (s : State) (g : Guard) (d : Dst) (f : Nat → Thread → Word) : (writeWord s g d f).coaches = s.coaches := rfl
@[simp] theorem writeWord_clusters (s : State) (g : Guard) (d : Dst) (f : Nat → Thread → Word) : (writeWord s g d f).clusters = s.clusters := rfl
@[simp] theorem writeWord_dies (s : State) (g : Guard) (d : Dst) (f : Nat → Thread → Word) : (writeWord s g d f).dies = s.dies := rfl
@[simp] theorem writeWord_ctxs (s : State) (g : Guard) (d : Dst) (f : Nat → Thread → Word) : (writeWord s g d f).ctxs = s.ctxs := rfl
@[simp] theorem writeWord_more (s : State) (g : Guard) (d : Dst) (f : Nat → Thread → Word) : (writeWord s g d f).more = s.more := rfl
@[simp] theorem writeWord_mem (s : State) (g : Guard) (d : Dst) (f : Nat → Thread → Word) : (writeWord s g d f).mem = s.mem := rfl
@[simp] theorem writeWord_pend (s : State) (g : Guard) (d : Dst) (f : Nat → Thread → Word) : (writeWord s g d f).pend = s.pend := rfl
@[simp] theorem writeWord_nextAccess (s : State) (g : Guard) (d : Dst) (f : Nat → Thread → Word) : (writeWord s g d f).nextAccess = s.nextAccess := rfl
@[simp] theorem writeWord_lines (s : State) (g : Guard) (d : Dst) (f : Nat → Thread → Word) : (writeWord s g d f).lines = s.lines := rfl
@[simp] theorem writeWord_engineTlb (s : State) (g : Guard) (d : Dst) (f : Nat → Thread → Word) : (writeWord s g d f).engineTlb = s.engineTlb := rfl
@[simp] theorem writeWord_frames (s : State) (g : Guard) (d : Dst) (f : Nat → Thread → Word) : (writeWord s g d f).frames = s.frames := rfl
@[simp] theorem writeWord_tables (s : State) (g : Guard) (d : Dst) (f : Nat → Thread → Word) : (writeWord s g d f).tables = s.tables := rfl
@[simp] theorem writeWord_security (s : State) (g : Guard) (d : Dst) (f : Nat → Thread → Word) : (writeWord s g d f).security = s.security := rfl
@[simp] theorem writeWord_power (s : State) (g : Guard) (d : Dst) (f : Nat → Thread → Word) : (writeWord s g d f).power = s.power := rfl
@[simp] theorem writeWord_blackBox (s : State) (g : Guard) (d : Dst) (f : Nat → Thread → Word) : (writeWord s g d f).blackBox = s.blackBox := rfl

@[simp] theorem writePair_inputs (s : State) (g : Guard) (d : Dst) (f : Nat → Thread → DWord) : (writePair s g d f).inputs = s.inputs := rfl
@[simp] theorem writePair_ticks (s : State) (g : Guard) (d : Dst) (f : Nat → Thread → DWord) : (writePair s g d f).ticks = s.ticks := rfl
@[simp] theorem writePair_yields (s : State) (g : Guard) (d : Dst) (f : Nat → Thread → DWord) : (writePair s g d f).yields = s.yields := rfl
@[simp] theorem writePair_draws (s : State) (g : Guard) (d : Dst) (f : Nat → Thread → DWord) : (writePair s g d f).draws = s.draws := rfl
@[simp] theorem writePair_dtime (s : State) (g : Guard) (d : Dst) (f : Nat → Thread → DWord) : (writePair s g d f).dtime = s.dtime := rfl
@[simp] theorem writePair_cur (s : State) (g : Guard) (d : Dst) (f : Nat → Thread → DWord) : (writePair s g d f).cur = s.cur := rfl
@[simp] theorem writePair_cores (s : State) (g : Guard) (d : Dst) (f : Nat → Thread → DWord) : (writePair s g d f).cores = s.cores := rfl
@[simp] theorem writePair_coaches (s : State) (g : Guard) (d : Dst) (f : Nat → Thread → DWord) : (writePair s g d f).coaches = s.coaches := rfl
@[simp] theorem writePair_clusters (s : State) (g : Guard) (d : Dst) (f : Nat → Thread → DWord) : (writePair s g d f).clusters = s.clusters := rfl
@[simp] theorem writePair_dies (s : State) (g : Guard) (d : Dst) (f : Nat → Thread → DWord) : (writePair s g d f).dies = s.dies := rfl
@[simp] theorem writePair_ctxs (s : State) (g : Guard) (d : Dst) (f : Nat → Thread → DWord) : (writePair s g d f).ctxs = s.ctxs := rfl
@[simp] theorem writePair_more (s : State) (g : Guard) (d : Dst) (f : Nat → Thread → DWord) : (writePair s g d f).more = s.more := rfl
@[simp] theorem writePair_mem (s : State) (g : Guard) (d : Dst) (f : Nat → Thread → DWord) : (writePair s g d f).mem = s.mem := rfl
@[simp] theorem writePair_pend (s : State) (g : Guard) (d : Dst) (f : Nat → Thread → DWord) : (writePair s g d f).pend = s.pend := rfl
@[simp] theorem writePair_nextAccess (s : State) (g : Guard) (d : Dst) (f : Nat → Thread → DWord) : (writePair s g d f).nextAccess = s.nextAccess := rfl
@[simp] theorem writePair_lines (s : State) (g : Guard) (d : Dst) (f : Nat → Thread → DWord) : (writePair s g d f).lines = s.lines := rfl
@[simp] theorem writePair_engineTlb (s : State) (g : Guard) (d : Dst) (f : Nat → Thread → DWord) : (writePair s g d f).engineTlb = s.engineTlb := rfl
@[simp] theorem writePair_frames (s : State) (g : Guard) (d : Dst) (f : Nat → Thread → DWord) : (writePair s g d f).frames = s.frames := rfl
@[simp] theorem writePair_tables (s : State) (g : Guard) (d : Dst) (f : Nat → Thread → DWord) : (writePair s g d f).tables = s.tables := rfl
@[simp] theorem writePair_security (s : State) (g : Guard) (d : Dst) (f : Nat → Thread → DWord) : (writePair s g d f).security = s.security := rfl
@[simp] theorem writePair_power (s : State) (g : Guard) (d : Dst) (f : Nat → Thread → DWord) : (writePair s g d f).power = s.power := rfl
@[simp] theorem writePair_blackBox (s : State) (g : Guard) (d : Dst) (f : Nat → Thread → DWord) : (writePair s g d f).blackBox = s.blackBox := rfl

@[simp] theorem writePred_inputs (s : State) (g : Guard) (d : Dst) (f : Nat → Thread → Bool) : (writePred s g d f).inputs = s.inputs := rfl
@[simp] theorem writePred_ticks (s : State) (g : Guard) (d : Dst) (f : Nat → Thread → Bool) : (writePred s g d f).ticks = s.ticks := rfl
@[simp] theorem writePred_yields (s : State) (g : Guard) (d : Dst) (f : Nat → Thread → Bool) : (writePred s g d f).yields = s.yields := rfl
@[simp] theorem writePred_draws (s : State) (g : Guard) (d : Dst) (f : Nat → Thread → Bool) : (writePred s g d f).draws = s.draws := rfl
@[simp] theorem writePred_dtime (s : State) (g : Guard) (d : Dst) (f : Nat → Thread → Bool) : (writePred s g d f).dtime = s.dtime := rfl
@[simp] theorem writePred_cur (s : State) (g : Guard) (d : Dst) (f : Nat → Thread → Bool) : (writePred s g d f).cur = s.cur := rfl
@[simp] theorem writePred_cores (s : State) (g : Guard) (d : Dst) (f : Nat → Thread → Bool) : (writePred s g d f).cores = s.cores := rfl
@[simp] theorem writePred_coaches (s : State) (g : Guard) (d : Dst) (f : Nat → Thread → Bool) : (writePred s g d f).coaches = s.coaches := rfl
@[simp] theorem writePred_clusters (s : State) (g : Guard) (d : Dst) (f : Nat → Thread → Bool) : (writePred s g d f).clusters = s.clusters := rfl
@[simp] theorem writePred_dies (s : State) (g : Guard) (d : Dst) (f : Nat → Thread → Bool) : (writePred s g d f).dies = s.dies := rfl
@[simp] theorem writePred_ctxs (s : State) (g : Guard) (d : Dst) (f : Nat → Thread → Bool) : (writePred s g d f).ctxs = s.ctxs := rfl
@[simp] theorem writePred_more (s : State) (g : Guard) (d : Dst) (f : Nat → Thread → Bool) : (writePred s g d f).more = s.more := rfl
@[simp] theorem writePred_mem (s : State) (g : Guard) (d : Dst) (f : Nat → Thread → Bool) : (writePred s g d f).mem = s.mem := rfl
@[simp] theorem writePred_pend (s : State) (g : Guard) (d : Dst) (f : Nat → Thread → Bool) : (writePred s g d f).pend = s.pend := rfl
@[simp] theorem writePred_nextAccess (s : State) (g : Guard) (d : Dst) (f : Nat → Thread → Bool) : (writePred s g d f).nextAccess = s.nextAccess := rfl
@[simp] theorem writePred_lines (s : State) (g : Guard) (d : Dst) (f : Nat → Thread → Bool) : (writePred s g d f).lines = s.lines := rfl
@[simp] theorem writePred_engineTlb (s : State) (g : Guard) (d : Dst) (f : Nat → Thread → Bool) : (writePred s g d f).engineTlb = s.engineTlb := rfl
@[simp] theorem writePred_frames (s : State) (g : Guard) (d : Dst) (f : Nat → Thread → Bool) : (writePred s g d f).frames = s.frames := rfl
@[simp] theorem writePred_tables (s : State) (g : Guard) (d : Dst) (f : Nat → Thread → Bool) : (writePred s g d f).tables = s.tables := rfl
@[simp] theorem writePred_security (s : State) (g : Guard) (d : Dst) (f : Nat → Thread → Bool) : (writePred s g d f).security = s.security := rfl
@[simp] theorem writePred_power (s : State) (g : Guard) (d : Dst) (f : Nat → Thread → Bool) : (writePred s g d f).power = s.power := rfl
@[simp] theorem writePred_blackBox (s : State) (g : Guard) (d : Dst) (f : Nat → Thread → Bool) : (writePred s g d f).blackBox = s.blackBox := rfl

@[simp] theorem writeCoach_inputs (s : State) (g : Guard) (d : Dst) (f : Coach → DWord) : (writeCoach s g d f).inputs = s.inputs := rfl
@[simp] theorem writeCoach_ticks (s : State) (g : Guard) (d : Dst) (f : Coach → DWord) : (writeCoach s g d f).ticks = s.ticks := rfl
@[simp] theorem writeCoach_yields (s : State) (g : Guard) (d : Dst) (f : Coach → DWord) : (writeCoach s g d f).yields = s.yields := rfl
@[simp] theorem writeCoach_draws (s : State) (g : Guard) (d : Dst) (f : Coach → DWord) : (writeCoach s g d f).draws = s.draws := rfl
@[simp] theorem writeCoach_dtime (s : State) (g : Guard) (d : Dst) (f : Coach → DWord) : (writeCoach s g d f).dtime = s.dtime := rfl
@[simp] theorem writeCoach_cur (s : State) (g : Guard) (d : Dst) (f : Coach → DWord) : (writeCoach s g d f).cur = s.cur := rfl
@[simp] theorem writeCoach_work (s : State) (g : Guard) (d : Dst) (f : Coach → DWord) : (writeCoach s g d f).work = s.work := rfl
@[simp] theorem writeCoach_cores (s : State) (g : Guard) (d : Dst) (f : Coach → DWord) : (writeCoach s g d f).cores = s.cores := rfl
@[simp] theorem writeCoach_clusters (s : State) (g : Guard) (d : Dst) (f : Coach → DWord) : (writeCoach s g d f).clusters = s.clusters := rfl
@[simp] theorem writeCoach_dies (s : State) (g : Guard) (d : Dst) (f : Coach → DWord) : (writeCoach s g d f).dies = s.dies := rfl
@[simp] theorem writeCoach_ctxs (s : State) (g : Guard) (d : Dst) (f : Coach → DWord) : (writeCoach s g d f).ctxs = s.ctxs := rfl
@[simp] theorem writeCoach_more (s : State) (g : Guard) (d : Dst) (f : Coach → DWord) : (writeCoach s g d f).more = s.more := rfl
@[simp] theorem writeCoach_mem (s : State) (g : Guard) (d : Dst) (f : Coach → DWord) : (writeCoach s g d f).mem = s.mem := rfl
@[simp] theorem writeCoach_pend (s : State) (g : Guard) (d : Dst) (f : Coach → DWord) : (writeCoach s g d f).pend = s.pend := rfl
@[simp] theorem writeCoach_nextAccess (s : State) (g : Guard) (d : Dst) (f : Coach → DWord) : (writeCoach s g d f).nextAccess = s.nextAccess := rfl
@[simp] theorem writeCoach_lines (s : State) (g : Guard) (d : Dst) (f : Coach → DWord) : (writeCoach s g d f).lines = s.lines := rfl
@[simp] theorem writeCoach_engineTlb (s : State) (g : Guard) (d : Dst) (f : Coach → DWord) : (writeCoach s g d f).engineTlb = s.engineTlb := rfl
@[simp] theorem writeCoach_frames (s : State) (g : Guard) (d : Dst) (f : Coach → DWord) : (writeCoach s g d f).frames = s.frames := rfl
@[simp] theorem writeCoach_tables (s : State) (g : Guard) (d : Dst) (f : Coach → DWord) : (writeCoach s g d f).tables = s.tables := rfl
@[simp] theorem writeCoach_security (s : State) (g : Guard) (d : Dst) (f : Coach → DWord) : (writeCoach s g d f).security = s.security := rfl
@[simp] theorem writeCoach_power (s : State) (g : Guard) (d : Dst) (f : Coach → DWord) : (writeCoach s g d f).power = s.power := rfl
@[simp] theorem writeCoach_blackBox (s : State) (g : Guard) (d : Dst) (f : Coach → DWord) : (writeCoach s g d f).blackBox = s.blackBox := rfl

@[simp] theorem advance_inputs (s : State) (n : Nat) : (advance s n).inputs = s.inputs := rfl
@[simp] theorem advance_ticks (s : State) (n : Nat) : (advance s n).ticks = s.ticks := rfl
@[simp] theorem advance_yields (s : State) (n : Nat) : (advance s n).yields = s.yields := rfl
@[simp] theorem advance_draws (s : State) (n : Nat) : (advance s n).draws = s.draws := rfl
@[simp] theorem advance_cur (s : State) (n : Nat) : (advance s n).cur = s.cur := rfl
@[simp] theorem advance_work (s : State) (n : Nat) : (advance s n).work = s.work := rfl
@[simp] theorem advance_cores (s : State) (n : Nat) : (advance s n).cores = s.cores := rfl
@[simp] theorem advance_coaches (s : State) (n : Nat) : (advance s n).coaches = s.coaches := rfl
@[simp] theorem advance_clusters (s : State) (n : Nat) : (advance s n).clusters = s.clusters := rfl
@[simp] theorem advance_dies (s : State) (n : Nat) : (advance s n).dies = s.dies := rfl
@[simp] theorem advance_more (s : State) (n : Nat) : (advance s n).more = s.more := rfl
@[simp] theorem advance_mem (s : State) (n : Nat) : (advance s n).mem = s.mem := rfl
@[simp] theorem advance_pend (s : State) (n : Nat) : (advance s n).pend = s.pend := rfl
@[simp] theorem advance_nextAccess (s : State) (n : Nat) : (advance s n).nextAccess = s.nextAccess := rfl
@[simp] theorem advance_lines (s : State) (n : Nat) : (advance s n).lines = s.lines := rfl
@[simp] theorem advance_engineTlb (s : State) (n : Nat) : (advance s n).engineTlb = s.engineTlb := rfl
@[simp] theorem advance_frames (s : State) (n : Nat) : (advance s n).frames = s.frames := rfl
@[simp] theorem advance_tables (s : State) (n : Nat) : (advance s n).tables = s.tables := rfl
@[simp] theorem advance_security (s : State) (n : Nat) : (advance s n).security = s.security := rfl
@[simp] theorem advance_power (s : State) (n : Nat) : (advance s n).power = s.power := rfl
@[simp] theorem advance_blackBox (s : State) (n : Nat) : (advance s n).blackBox = s.blackBox := rfl

@[simp] theorem modThread_work_blocks (s : State) (u : Nat) (f : Thread → Thread) : (modThread s u f).work.blocks = s.work.blocks := rfl
@[simp] theorem modThread_work_sync (s : State) (u : Nat) (f : Thread → Thread) : (modThread s u f).work.sync = s.work.sync := rfl
@[simp] theorem modThread_work_groups (s : State) (u : Nat) (f : Thread → Thread) : (modThread s u f).work.groups = s.work.groups := rfl
@[simp] theorem modThread_work_launches (s : State) (u : Nat) (f : Thread → Thread) : (modThread s u f).work.launches = s.work.launches := rfl
@[simp] theorem modThread_work_rays (s : State) (u : Nat) (f : Thread → Thread) : (modThread s u f).work.rays = s.work.rays := rfl
@[simp] theorem modThread_work_bundles (s : State) (u : Nat) (f : Thread → Thread) : (modThread s u f).work.bundles = s.work.bundles := rfl
@[simp] theorem modThread_work_nextBlock (s : State) (u : Nat) (f : Thread → Thread) : (modThread s u f).work.nextBlock = s.work.nextBlock := rfl
@[simp] theorem modThread_work_nextLaunch (s : State) (u : Nat) (f : Thread → Thread) : (modThread s u f).work.nextLaunch = s.work.nextLaunch := rfl

@[simp] theorem modBlock_work_threads (s : State) (b : Nat) (f : Block → Block) : (modBlock s b f).work.threads = s.work.threads := rfl
@[simp] theorem modBlock_work_sync (s : State) (b : Nat) (f : Block → Block) : (modBlock s b f).work.sync = s.work.sync := rfl
@[simp] theorem modBlock_work_groups (s : State) (b : Nat) (f : Block → Block) : (modBlock s b f).work.groups = s.work.groups := rfl
@[simp] theorem modBlock_work_launches (s : State) (b : Nat) (f : Block → Block) : (modBlock s b f).work.launches = s.work.launches := rfl
@[simp] theorem modBlock_work_rays (s : State) (b : Nat) (f : Block → Block) : (modBlock s b f).work.rays = s.work.rays := rfl
@[simp] theorem modBlock_work_bundles (s : State) (b : Nat) (f : Block → Block) : (modBlock s b f).work.bundles = s.work.bundles := rfl
@[simp] theorem modBlock_work_nextBlock (s : State) (b : Nat) (f : Block → Block) : (modBlock s b f).work.nextBlock = s.work.nextBlock := rfl
@[simp] theorem modBlock_work_nextLaunch (s : State) (b : Nat) (f : Block → Block) : (modBlock s b f).work.nextLaunch = s.work.nextLaunch := rfl

@[simp] theorem modSync_work_threads (s : State) (b : Nat) (f : BlockSync → BlockSync) : (modSync s b f).work.threads = s.work.threads := rfl
@[simp] theorem modSync_work_blocks (s : State) (b : Nat) (f : BlockSync → BlockSync) : (modSync s b f).work.blocks = s.work.blocks := rfl
@[simp] theorem modSync_work_groups (s : State) (b : Nat) (f : BlockSync → BlockSync) : (modSync s b f).work.groups = s.work.groups := rfl
@[simp] theorem modSync_work_launches (s : State) (b : Nat) (f : BlockSync → BlockSync) : (modSync s b f).work.launches = s.work.launches := rfl
@[simp] theorem modSync_work_rays (s : State) (b : Nat) (f : BlockSync → BlockSync) : (modSync s b f).work.rays = s.work.rays := rfl
@[simp] theorem modSync_work_bundles (s : State) (b : Nat) (f : BlockSync → BlockSync) : (modSync s b f).work.bundles = s.work.bundles := rfl
@[simp] theorem modSync_work_nextBlock (s : State) (b : Nat) (f : BlockSync → BlockSync) : (modSync s b f).work.nextBlock = s.work.nextBlock := rfl
@[simp] theorem modSync_work_nextLaunch (s : State) (b : Nat) (f : BlockSync → BlockSync) : (modSync s b f).work.nextLaunch = s.work.nextLaunch := rfl

@[simp] theorem modLaunch_work_threads (s : State) (l : Nat) (f : Launch → Launch) : (modLaunch s l f).work.threads = s.work.threads := rfl
@[simp] theorem modLaunch_work_blocks (s : State) (l : Nat) (f : Launch → Launch) : (modLaunch s l f).work.blocks = s.work.blocks := rfl
@[simp] theorem modLaunch_work_sync (s : State) (l : Nat) (f : Launch → Launch) : (modLaunch s l f).work.sync = s.work.sync := rfl
@[simp] theorem modLaunch_work_groups (s : State) (l : Nat) (f : Launch → Launch) : (modLaunch s l f).work.groups = s.work.groups := rfl
@[simp] theorem modLaunch_work_rays (s : State) (l : Nat) (f : Launch → Launch) : (modLaunch s l f).work.rays = s.work.rays := rfl
@[simp] theorem modLaunch_work_bundles (s : State) (l : Nat) (f : Launch → Launch) : (modLaunch s l f).work.bundles = s.work.bundles := rfl
@[simp] theorem modLaunch_work_nextBlock (s : State) (l : Nat) (f : Launch → Launch) : (modLaunch s l f).work.nextBlock = s.work.nextBlock := rfl
@[simp] theorem modLaunch_work_nextLaunch (s : State) (l : Nat) (f : Launch → Launch) : (modLaunch s l f).work.nextLaunch = s.work.nextLaunch := rfl

@[simp] theorem modGroup_work_threads (s : State) (g : Nat) (f : Group → Group) : (modGroup s g f).work.threads = s.work.threads := rfl
@[simp] theorem modGroup_work_blocks (s : State) (g : Nat) (f : Group → Group) : (modGroup s g f).work.blocks = s.work.blocks := rfl
@[simp] theorem modGroup_work_sync (s : State) (g : Nat) (f : Group → Group) : (modGroup s g f).work.sync = s.work.sync := rfl
@[simp] theorem modGroup_work_launches (s : State) (g : Nat) (f : Group → Group) : (modGroup s g f).work.launches = s.work.launches := rfl
@[simp] theorem modGroup_work_rays (s : State) (g : Nat) (f : Group → Group) : (modGroup s g f).work.rays = s.work.rays := rfl
@[simp] theorem modGroup_work_bundles (s : State) (g : Nat) (f : Group → Group) : (modGroup s g f).work.bundles = s.work.bundles := rfl
@[simp] theorem modGroup_work_nextBlock (s : State) (g : Nat) (f : Group → Group) : (modGroup s g f).work.nextBlock = s.work.nextBlock := rfl
@[simp] theorem modGroup_work_nextLaunch (s : State) (g : Nat) (f : Group → Group) : (modGroup s g f).work.nextLaunch = s.work.nextLaunch := rfl

@[simp] theorem forLanes_work_blocks (s : State) (f : Nat → Thread → Thread) : (forLanes s f).work.blocks = s.work.blocks := rfl
@[simp] theorem forLanes_work_sync (s : State) (f : Nat → Thread → Thread) : (forLanes s f).work.sync = s.work.sync := rfl
@[simp] theorem forLanes_work_groups (s : State) (f : Nat → Thread → Thread) : (forLanes s f).work.groups = s.work.groups := rfl
@[simp] theorem forLanes_work_launches (s : State) (f : Nat → Thread → Thread) : (forLanes s f).work.launches = s.work.launches := rfl
@[simp] theorem forLanes_work_rays (s : State) (f : Nat → Thread → Thread) : (forLanes s f).work.rays = s.work.rays := rfl
@[simp] theorem forLanes_work_bundles (s : State) (f : Nat → Thread → Thread) : (forLanes s f).work.bundles = s.work.bundles := rfl
@[simp] theorem forLanes_work_nextBlock (s : State) (f : Nat → Thread → Thread) : (forLanes s f).work.nextBlock = s.work.nextBlock := rfl
@[simp] theorem forLanes_work_nextLaunch (s : State) (f : Nat → Thread → Thread) : (forLanes s f).work.nextLaunch = s.work.nextLaunch := rfl

@[simp] theorem writeWord_work_blocks (s : State) (g : Guard) (d : Dst) (f : Nat → Thread → Word) : (writeWord s g d f).work.blocks = s.work.blocks := rfl
@[simp] theorem writeWord_work_sync (s : State) (g : Guard) (d : Dst) (f : Nat → Thread → Word) : (writeWord s g d f).work.sync = s.work.sync := rfl
@[simp] theorem writeWord_work_groups (s : State) (g : Guard) (d : Dst) (f : Nat → Thread → Word) : (writeWord s g d f).work.groups = s.work.groups := rfl
@[simp] theorem writeWord_work_launches (s : State) (g : Guard) (d : Dst) (f : Nat → Thread → Word) : (writeWord s g d f).work.launches = s.work.launches := rfl
@[simp] theorem writeWord_work_rays (s : State) (g : Guard) (d : Dst) (f : Nat → Thread → Word) : (writeWord s g d f).work.rays = s.work.rays := rfl
@[simp] theorem writeWord_work_bundles (s : State) (g : Guard) (d : Dst) (f : Nat → Thread → Word) : (writeWord s g d f).work.bundles = s.work.bundles := rfl
@[simp] theorem writeWord_work_nextBlock (s : State) (g : Guard) (d : Dst) (f : Nat → Thread → Word) : (writeWord s g d f).work.nextBlock = s.work.nextBlock := rfl
@[simp] theorem writeWord_work_nextLaunch (s : State) (g : Guard) (d : Dst) (f : Nat → Thread → Word) : (writeWord s g d f).work.nextLaunch = s.work.nextLaunch := rfl

@[simp] theorem writePair_work_blocks (s : State) (g : Guard) (d : Dst) (f : Nat → Thread → DWord) : (writePair s g d f).work.blocks = s.work.blocks := rfl
@[simp] theorem writePair_work_sync (s : State) (g : Guard) (d : Dst) (f : Nat → Thread → DWord) : (writePair s g d f).work.sync = s.work.sync := rfl
@[simp] theorem writePair_work_groups (s : State) (g : Guard) (d : Dst) (f : Nat → Thread → DWord) : (writePair s g d f).work.groups = s.work.groups := rfl
@[simp] theorem writePair_work_launches (s : State) (g : Guard) (d : Dst) (f : Nat → Thread → DWord) : (writePair s g d f).work.launches = s.work.launches := rfl
@[simp] theorem writePair_work_rays (s : State) (g : Guard) (d : Dst) (f : Nat → Thread → DWord) : (writePair s g d f).work.rays = s.work.rays := rfl
@[simp] theorem writePair_work_bundles (s : State) (g : Guard) (d : Dst) (f : Nat → Thread → DWord) : (writePair s g d f).work.bundles = s.work.bundles := rfl
@[simp] theorem writePair_work_nextBlock (s : State) (g : Guard) (d : Dst) (f : Nat → Thread → DWord) : (writePair s g d f).work.nextBlock = s.work.nextBlock := rfl
@[simp] theorem writePair_work_nextLaunch (s : State) (g : Guard) (d : Dst) (f : Nat → Thread → DWord) : (writePair s g d f).work.nextLaunch = s.work.nextLaunch := rfl

@[simp] theorem writePred_work_blocks (s : State) (g : Guard) (d : Dst) (f : Nat → Thread → Bool) : (writePred s g d f).work.blocks = s.work.blocks := rfl
@[simp] theorem writePred_work_sync (s : State) (g : Guard) (d : Dst) (f : Nat → Thread → Bool) : (writePred s g d f).work.sync = s.work.sync := rfl
@[simp] theorem writePred_work_groups (s : State) (g : Guard) (d : Dst) (f : Nat → Thread → Bool) : (writePred s g d f).work.groups = s.work.groups := rfl
@[simp] theorem writePred_work_launches (s : State) (g : Guard) (d : Dst) (f : Nat → Thread → Bool) : (writePred s g d f).work.launches = s.work.launches := rfl
@[simp] theorem writePred_work_rays (s : State) (g : Guard) (d : Dst) (f : Nat → Thread → Bool) : (writePred s g d f).work.rays = s.work.rays := rfl
@[simp] theorem writePred_work_bundles (s : State) (g : Guard) (d : Dst) (f : Nat → Thread → Bool) : (writePred s g d f).work.bundles = s.work.bundles := rfl
@[simp] theorem writePred_work_nextBlock (s : State) (g : Guard) (d : Dst) (f : Nat → Thread → Bool) : (writePred s g d f).work.nextBlock = s.work.nextBlock := rfl
@[simp] theorem writePred_work_nextLaunch (s : State) (g : Guard) (d : Dst) (f : Nat → Thread → Bool) : (writePred s g d f).work.nextLaunch = s.work.nextLaunch := rfl

end Sys2Proof.Machine
end

