-- ==== Sys2Proof/Tests/Slice0.lean ====
section
/-!
SUPPORT. The model's own tests: words of the spec's worked examples, an ill-formed term for each check of 03 R74,
steps whose outcome the spec works out, and states that meet the hypotheses of the statements.
-/

namespace Sys2Proof.Tests

open Sys2Proof.Machine Sys2Proof.Safety

set_option Elab.async false

/-! ### Small states -/

/-- No guard, no modifiers. -/
def x0 : ExtA := { guard := ⟨false, 0⟩, ctr := 0, srcC := .reg 0, rnd := .rn, sat := false, mods := 0 }

/-- A form on v1, v2, v4. -/
def fA : FormA := { dst := .reg 1, a := .reg 2, b := .reg 4, x := x0 }

/-- A plain four-byte access without a counter. -/
def xM : ExtM :=
  { guard := ⟨false, 0⟩, ctr := 0, scope := .dev, ordering := .plain, size := .b4, sext := false, mask := false, off := 0 }

/-- A wait of 10 units. -/
def xW : ExtW := { guard := ⟨false, 0⟩, esc := false, spec := 0, deadline := .rel 10 }

/-- A waiting form on v1, v2. -/
def fW : FormW := { dst := .reg 1, a := .reg 2, x := xW }

/-- One thread at a clause of one word, as a program would stand (log 1). -/
def alone : State := State.reset.withFetchWord 32 0

/-- Words laid out from an address. -/
def wordBytes (a : Nat) : List Nat → List (Nat × Byte)
  | [] => []
  | w :: r => byteWrites a 4 w ++ wordBytes (a + 4) r

/-- A thread of block 1 with some registers and predicates. -/
def thread (tid : Nat) (v : SMap Word) (p : BitVec 7) : Thread :=
  { block := 1, tid := tid, slot := tid, regs := { v := v, p := p }, ctl := { pc := 0x1000, run := .bundled, lane := tid } }

/-- A bundle of some threads, in lane order, at a clause of these words. Page 2 is readable and writable in frame
204H, page 9 is absent, and the block has 8 scratchpad rows. -/
def clause (ws : List Nat) (ts : List Thread) : State :=
  { alone with
    mem := { alone.mem with device := setCells alone.mem.device (wordBytes 0x203000 ws
      ++ byteWrites 0x202010 8 (0xF + 4096 * 0x204) ++ byteWrites 0x202048 8 0x20F) }
    frames := mset alone.frames 0x204 { valid := true, ctx := 1, vpn := 2 }
    work := { alone.work with
      launches := [(1, { ctx := 1, desc := { allot := 128, rows := 8, gangBars := 4, blockBars := 4 } })]
      threads := ts.map fun t => (1024 + t.tid, t)
      bundles := [{ core := 0, block := 1, lanes := ts.map fun t => 1024 + t.tid }] } }

/-- A movement program of block 1 on core 0 at a clause of these words. -/
def program (ws : List Nat) (m : SMap DWord) : State :=
  { clause ws [] with
    coaches := [(0, { running := true, block := 1, pc := 0x1000, program := 0x1000, m := m })]
    work := { (clause ws []).work with bundles := [] } }

/-- The state a step answers. -/
def after (s : State) : State :=
  match step s with
  | .next t => t
  | _ => {}

/-- A register of a thread of block 1. -/
def reg (s : State) (tid n : Nat) : Option Nat := (threadOf s (1024 + tid)).map fun t => (t.regs.get n).toNat

/-- The clause of `alone` under way. -/
def here (s : State) : State :=
  { s with cur := { agent := .core, core := 0, block := 1, lanes := [1024], addr := 0x1000, word := 0x1004, stop := 0x1008 } }

/-- The Coachman's clause under way. -/
def coachHere (s : State) : State :=
  { s with cur := { agent := .coachman, core := 0, block := 1, addr := 0x1000, word := 0x1004, stop := 0x1008 } }

/-- A launch in a cluster group, with barriers of every level and, on page 2, a constant bank, a scene of 4 rays, a
visibility descriptor of 4 atlas blocks and a texture of one texel. -/
def richLaunch : Launch :=
  let d : LaunchDesc := { allot := 128, rows := 8, gangBars := 4, blockBars := 4, group := true, groupBars := 4, launchBars := 4 }
  { ctx := 1, bank := [(0, 0x2000, 4096), (13, 0x2080, 64), (14, 0x2040, 64), (15, 0x2000, 64)], desc := d }

/-- Its block, with a gang barrier of two members and a block barrier of one. -/
def richBlock : Block :=
  let g : Barrier := { members := 2, pending := 2 }
  let b : Barrier := { members := 1, pending := 1 }
  { launch := 1, core := some 0, group := some 1, gangBars := [(0, g)], blockBars := [(0, b)] }

/-- The threads in that block, with lane-private page 3 and host page 4. -/
def rich (ts : List Thread) : State :=
  let s := clause [] ts
  let f : CtxFields := { ptRoot := 0x100000, lpBase := 0x3000 }
  let m := setCells s.mem.device
    (byteWrites 0x202018 8 (0x2F + 4096 * 0x205) ++ byteWrites 0x202020 8 (0x4F + 4096 * 0x300)
      ++ byteWrites 0x204000 4 0x2800 ++ byteWrites 0x204008 4 4 ++ byteWrites 0x20400C 4 1 ++ byteWrites 0x204010 4 0x2400
      ++ byteWrites 0x20401C 4 1 ++ byteWrites 0x204020 4 0x2500
      ++ byteWrites 0x20404C 4 1 ++ byteWrites 0x204050 4 0x2700 ++ byteWrites 0x204058 4 0x2600 ++ byteWrites 0x204060 4 1 ++ byteWrites 0x204064 4 4
      ++ byteWrites 0x204068 4 1
      ++ byteWrites 0x204080 4 0x2000 ++ byteWrites 0x20408C 4 32 ++ byteWrites 0x204090 4 1)
  { s with
    mem := { s.mem with device := m }
    ctxs := [(1, { f := f, upt := [(16, [2, 1, 0, 4] ++ List.replicate 60 0), (24, [3, 1, 6, 0] ++ List.replicate 60 0)] })]
    work := { s.work with
      launches := [(1, richLaunch)], groups := [(1, { launch := 1, cluster := some 0, blocks := [1] })]
      blocks := [(1, richBlock)] } }

/-- One thread of `rich`, with the addresses 2000H in v2, 4000H in v4 and 9000H in v6, its clause under way. -/
def one : State := here (rich [thread 0 [(2, 0x2000), (4, 0x4000), (6, 0x9000), (12, 0x3F800000)] 1])

/-- The thread of `one`. -/
def only : Thread := (threadOf one 1024).getD { block := 0, tid := 0, slot := 0 }

/-- The Coachman of `one`'s core, running for its block. -/
def coachOne : State :=
  coachHere { one with coaches := [(0, { running := true, block := 1, pc := 0x1000, program := 0x1000, m := [(0, 1), (1, 0x2000)] })] }

/-- Whether an answer is there and passes a check. -/
def okWith {ε α : Type} (r : Except ε α) (p : α → Bool) : Bool :=
  match r with
  | .ok x => p x
  | .error _ => false

/-- Whether a plan names bytes. -/
def planOk : Plan → Bool
  | .names _ _ => true
  | .fails _ _ _ _ => false

/-- `plansPass` of a concrete state. -/
theorem plansPass_of (s : State) (g : Guard) (p : Thread → Plan)
    (h : (s.cur.lanes.all fun u => ((threadOf s u).map fun t => planOk (p t)).getD true) = true) :
    plansPass s g p := by
  intro u th hu ht _
  have := List.all_eq_true.1 h u hu
  rw [ht] at this
  cases hp : p th with
  | fails k c a l => simp [hp, planOk] at this
  | names m as => exact ⟨m, as, rfl⟩

/-- `allLanes` of a concrete state. -/
theorem allLanes_of (s : State) (g : Guard) (P : Thread → Prop) [DecidablePred P]
    (h : (s.cur.lanes.all fun u => ((threadOf s u).map fun t => decide (P t)).getD true) = true) :
    allLanes s g P := by
  intro u th hu ht _
  have := List.all_eq_true.1 h u hu
  rw [ht] at this
  simpa using this

/-- What one lane acting alone leaves, up to its registers. -/
theorem fits_one (s start : State) (g : Guard) (d : Dst) (act : State → Nat → Thread → State × Word)
    (P : State → Prop) (u : Nat) (th : Thread) (hl : s.cur.lanes = [u]) (ht : threadOf start u = some th)
    (hg : guardOn g th.regs = true)
    (h : ∀ x, P { (act start u th).1 with work := { (act start u th).1.work with threads := x } }) :
    ∀ t, inTurn s g d act start t → P t := by
  intro t hc
  simp only [inTurn, hl, chain] at hc
  obtain ⟨m, hm, rfl⟩ := hc
  simp only [laneStep, ht, hg, if_true] at hm
  rw [hm.2.2]
  exact h _

/-- `eachMeets` for one lane. -/
theorem meets_one (s a : State) (g : Guard) (d : Dst) (act : State → Nat → Thread → State × Word)
    (P : State → Thread → Prop) (u : Nat) (th : Thread) (hl : s.cur.lanes = [u]) (ht : threadOf a u = some th)
    (h : P a th) : eachMeets s g d act a P := by
  intro xs v ys m hx hc th' ht' _
  rw [hl] at hx
  cases xs with
  | nil =>
    simp only [List.nil_append, List.cons.injEq] at hx
    simp only [chain] at hc
    subst hc
    rw [← hx.1, ht] at ht'
    cases ht'
    exact h
  | cons y r => simp at hx

theorem test_reset_memory : Memory.wf State.reset.mem.device = true := by decide

/-! ### Words from the worked examples (bit fields of 03 R53 to R69) -/

theorem test_ffma : decodeWords 0x2808020C (some 0x00100000)
    = .ok (.ffma { dst := .reg 8, a := .reg 2, b := .reg 12, x := { x0 with srcC := .reg 8 } }) := by rfl

theorem test_vote : decodeWords 0x3A060700 (some 0x10000000)
    = .ok (.vote { dst := .reg 6, a := .reg 7, b := .reg 0, x := { x0 with guard := ⟨false, 1⟩ } }) := by rfl

theorem test_movi : decodeWords 0x20040000 (some 0x00011400)
    = .ok (.movi { dst := .reg 4, imm := 0x00011400 }) := by rfl

theorem test_lds : decodeWords 0x520C0600 (some 0x03020000)
    = .ok (.lds { dst := 12, a := .reg 6, x := { xM with ctr := 3 } }) := by rfl

theorem test_stg : decodeWords 0x58000C09 (some 0x00020004)
    = .ok (.stg { maskSrc := .reg 0, a := .reg 12, data := .reg 9, x := { xM with off := 4 } }) := by rfl

theorem test_rsv : decodeWords 0x7604CCC2 (some 0x00000001)
    = .ok (.rsv { dst := .reg 4, a := .const 12, b := .const 2, x := { x0 with mods := 1 } }) := by rfl

theorem test_kdecl : decodeWords 0x7D06C1E0 (some 0x00000003)
    = .ok (.kdecl { dst := .reg 6, a := .const 1, b := .const 32, x := { x0 with mods := 3 } }) := by rfl

theorem test_mwait : decodeWords 0x7C0B0700 (some 0x0000009D)
    = .ok (.mwait { dst := .reg 11, a := .reg 7, x := { xW with deadline := .rel 157 } }) := by rfl

theorem test_spawn : decodeWords 0xAA0302C0 (some 0x12100000)
    = .ok (.spawn { dst := .reg 3, a := .reg 2, b := .const 0,
                    x := { x0 with guard := ⟨false, 1⟩, ctr := 1, srcC := .reg 8 } }) := by rfl

theorem test_tbw : decodeWords 0xA705C000 (some 0x0005009D)
    = .ok (.tbw { dst := .reg 5, a := .const 0, x := { xW with spec := 5, deadline := .rel 157 } }) := by rfl

theorem test_tbe : decodeWords 0xA609C800 (some 0x00000005)
    = .ok (.tbe { dst := .reg 9, a := .const 8, b := .reg 0, x := { x0 with mods := 5 } }) := by rfl

theorem test_rayq : decodeWords 0x90020110 (some 0x02000000)
    = .ok (.rayq { dst := .reg 2, a := .reg 1, b := .reg 16, x := { x0 with ctr := 1 } }) := by rfl

theorem test_texs : decodeWords 0x940802C0 (some 0x02000000)
    = .ok (.texs { dst := .reg 8, a := .reg 2, b := .const 0, x := { x0 with ctr := 1 } }) := by rfl

theorem test_unassigned : decodeWords 0xFF000000 none = .error (.unassigned 0xFF) := by rfl

/-! ### Ill-formed terms, one for each check (03 R56 to R59, R63 to R69, R73, R74) -/

theorem ill_dst_on_coachman : Instr.wf .coachman (.iadd { fA with dst := .reg 32 }) = false := by decide

theorem ill_coach_form : Instr.wf .coachman (.fadd fA) = false := by decide

theorem ill_copy_on_core : Instr.wf .core (.cpy { fA with a := .reg 4, b := .reg 0 }) = false := by decide

theorem ill_copy_block : Instr.wf .coachman (.cpy { dst := .reg 1, a := .reg 28, b := .reg 0, x := x0 }) = false := by
  decide

theorem ill_pair_odd : Instr.wf .core (.imadw { fA with dst := .reg 3 }) = false := by decide

theorem ill_quad : Instr.wf .core (.texs { fA with dst := .reg 6, x := { x0 with ctr := 1 } }) = false := by decide

theorem ill_source_unused : Instr.wf .core (.notL fA) = false := by decide

theorem ill_pred_source : Instr.wf .core (.vote { dst := .reg 6, a := .reg 9, b := .reg 0, x := x0 }) = false := by decide

theorem ill_modifier : Instr.wf .core (.andL { fA with x := { x0 with mods := 1 } }) = false := by decide

theorem ill_saturation : Instr.wf .core (.andL { fA with x := { x0 with sat := true } }) = false := by decide

theorem ill_rounding : Instr.wf .core (.iadd { fA with x := { x0 with rnd := .rz } }) = false := by decide

theorem ill_counter : Instr.wf .core (.iadd { fA with x := { x0 with ctr := 1 } }) = false := by decide

theorem ill_guard : Instr.wf .core (.iadd { fA with x := { x0 with guard := ⟨true, 0⟩ } }) = false := by decide

theorem ill_condition : Instr.wf .core (.iset { fA with x := { x0 with mods := 12 } }) = false := by decide

theorem ill_iset_on_coachman : Instr.wf .coachman (.iset { fA with b := .reg 3 }) = false := by decide

theorem ill_blocking_size :
    Instr.wf .core (.ldgBlock ⟨4, .reg 2, .reg 4, ⟨⟨false, 0⟩, .dev, .acq, .b16, false, false, .rel 1⟩⟩) = false := by decide

theorem ill_store_order :
    Instr.wf .core (.stg ⟨.reg 0, .reg 2, .reg 4, { xM with ordering := .acq }⟩) = false := by decide

theorem ill_atomic_op : Instr.wf .core (.redg { a := .reg 2, operand := .reg 4, x := { xM with off := 10 * 512 } })
    = false := by decide

theorem ill_select : Instr.wf .core (.rds { dst := .reg 1, a := .reg 0, b := .reg 0, x := { x0 with mods := 31 } }) = false := by
  decide

theorem ill_event : Instr.wf .core .clauseFetch = false := by decide

theorem ill_header_count : headerOk .core 0x00000000 = false := by decide

theorem ill_header_class : headerOk .core 0x1E000000 = false := by decide

theorem ill_header_coachman : headerOk .coachman 0x12000000 = false := by decide

theorem ill_class : checkClause .core 128 [0x12000000, 0x00010204] = .error (0, .clauseClass) := by rfl

theorem ill_latch : checkClause .core 128 [0x10000000, 0x00018004] = .error (0, .latchOrder) := by rfl

theorem ill_range : checkClause .core 4 [0x10000000, 0x00010204] = .error (0, .registerRange) := by rfl

theorem ill_trap_not_alone : checkClause .core 128 [0x2C000000, 0xB2000000, 0xB2000000]
    = .error (0, .clauseClass) := by rfl

/-! ### Steps the worked examples give -/

/-- 03: the clause of five forms, in a thread with v1 = 7, v2 = 5, v3 = 10 and p1 as given. -/
def loop03 (p : BitVec 7) : State :=
  clause [0x50000120, 0x00040102, 0x06058003, 0x01860000, 0x118081C2, 0x00068280, 0x80FFFFFA, 0x20000000]
    [thread 0 [(1, 7), (2, 5), (3, 10)] p]

theorem test_loop_values : reg (after (loop03 2)) 0 4 = some 12 ∧ reg (after (loop03 2)) 0 5 = some 123
    ∧ reg (after (loop03 2)) 0 6 = some 504 := by decide +kernel

theorem test_loop_taken : (threadOf (after (loop03 2)) 1024).map (·.ctl.pc) = some 0x1000 := by decide +kernel

theorem test_loop_left : (threadOf (after (loop03 0)) 1024).map (·.ctl.pc) = some 0x1020 := by decide +kernel

/-- 05: the 64-bit add with a carry check. -/
def add64 : State :=
  clause [0x400000F0, 0x03080406, 0x30, 0x03090507, 0x3, 0x000A0705, 0x2000, 0x1D030806, 0x5]
    [thread 0 [(4, 0xFFFFFFF0), (5, 1), (6, 0x20), (7, 0x7FFFFFFF)] 0]

theorem test_add64_words : reg (after add64) 0 8 = some 0x10 ∧ reg (after add64) 0 9 = some 0x80000001
    ∧ reg (after add64) 0 10 = some 0x7FFFFFFF := by decide +kernel

theorem test_add64_predicates : (threadOf (after add64) 1024).map (fun t => (t.regs.p, t.ctl.pc))
    = some (0x0C, 0x1024) := by decide +kernel

/-- 07: six lanes, lane 3 guarded out. -/
def exch : State :=
  clause [0x400000F0, 0x3C030200, 0x10000008, 0x3B040200, 0x10000008, 0x390502C1, 0x10000002, 0x3A060700, 0x10000000]
    [thread 0 [(2, 0x4B800000)] 1, thread 1 [(2, 0x3F800000)] 1, thread 2 [(2, 0x3F800000)] 1,
     thread 3 [(2, 0x42C80000)] 0, thread 4 [(2, 0x3F800000)] 1, thread 5 [(2, 0x3F800000)] 1]

theorem test_pscan : [0, 1, 2, 3, 4, 5].map (reg (after exch) · 3)
    = [some 0x4B800000, some 0x4B800000, some 0x4B800000, some 0, some 0x4B800000, some 0x4B800000] := by decide +kernel

theorem test_redux : [0, 3, 5].map (reg (after exch) · 4) = [some 0x4B800001, some 0, some 0x4B800001] := by
  decide +kernel

theorem test_shfl : [0, 1, 2, 3, 4, 5].map (reg (after exch) · 5)
    = [some 0x4B800000, some 0x4B800000, some 0x3F800000, some 0, some 0x3F800000, some 0x3F800000] := by decide +kernel

theorem test_vote_mask : [0, 3].map (reg (after exch) · 6) = [some 0x37, some 0] := by decide +kernel

/-- 14: a barrier set up, its sectors expected and the arrival made. -/
def arm : State :=
  program [0x3C000070, 0xA409C100, 5, 0xA609C800, 5, 0xA50A0000, 5]
    [(4, 0x11400), (5, 0x04003002), (6, 0x2000001000), (7, 0x200), (8, 0x4000000100)]

theorem test_transaction_barrier : tbOf (after arm) 0 5 = { valid := true, init := 1, arr := 0, sect := 8 }
    ∧ (coachOf (after arm) 0).get 10 = 0 := by decide +kernel

/-- 14: the copy posted with ticket 1. -/
def post : State :=
  modCore (program [0x24000000, 0x680B0400, 0x85000000]
    [(4, 0x11400), (5, 0x04003002), (6, 0x2000001000), (7, 0x200), (8, 0x4000000100)]) 0
    fun k => { k with tbs := [(5, { valid := true, init := 1, sect := 8 })] }

theorem test_copy_posts : (coachOf (after post) 0).get 11 = 1 ∧ (coreOf (after post) 0).copyQ.length = 1
    ∧ (coachOf (after post) 0).running = false := by decide +kernel

/-- 03 R76: a clause whose second instruction is unassigned has no effect, and its thread traps at the clause. -/
theorem test_fault_discards :
    let t := after (clause [0x20000000, 0x00040102, 0x3E000000] [thread 0 [(1, 7), (2, 5)] 0])
    reg t 0 4 = some 0 ∧ (threadOf t 1024).map (fun x => (x.ctl.run, x.ctl.pc)) = some (.trapped, 0x1000) := by
  decide +kernel

/-- 10 R227: an address that is not aligned; 17 R402: an absent page, which enters its die's fault queue. -/
theorem test_alignment :
    ((after (clause [0x14000010, 0x57010200, 0x00020000] [thread 0 [(2, 0x1001)] 0])).work.threads.map
      fun p => p.2.ctl.run) = [.trapped] := by decide +kernel

theorem test_page_absent :
    ((after (clause [0x14000010, 0x57010200, 0x00020000] [thread 0 [(2, 0x9000)] 0])).work.threads.map
      fun p => p.2.ctl.run) = [.faultWait] := by decide +kernel

/-- 10 R230, R232: a load enters flight and reads nothing yet. -/
theorem test_load_in_flight :
    let t := after (clause [0x14000010, 0x57010200, 0x01020000] [thread 0 [(2, 0x1004)] 0])
    t.pend.map (fun a => (a.kind, a.line, a.lanes.map LaneReq.dst)) = [(.load, 0x203004 / 128, [1])]
    ∧ reg t 0 1 = some 0 := by decide +kernel

/-- 20 R463, R471: `TRAP`. -/
theorem test_trap : ((after (clause [0x1C000000, 0xB2000000] [thread 0 [] 0])).work.threads.map
    fun p => p.2.ctl.run) = [.trapped] := by decide +kernel

/-- 08 R183: the last thread of the only block exits. -/
theorem test_exit : ((after (clause [0x18000000, 0x85000000] [thread 0 [] 0])).work.threads.map
    fun p => p.2.ctl.run) = [.exited] := by decide +kernel

/-- 22 R524: no step but a boot's follows a thermal shutdown. -/
theorem test_thermal : step { State.reset with power := { State.reset.power with off := true } }
    = .fault .thermalShutdown := by rfl

/-! ### States that meet the hypotheses of the statements -/

/-- `AddSubtract`, `Multiply`, … `CrossLane`, `SpecialFunctions`: a bundle on a core, its guard met or not. -/
theorem hyp_laneForm : one.cur.agent = .core ∧ one.cur.lanes.Nodup ∧ one.cur.lanes ≠ []
    ∧ guardOn ⟨false, 1⟩ only.regs = true ∧ guardOn ⟨true, 1⟩ only.regs = false
    ∧ (threadOf one 1024).isSome = true := by decide +kernel

/-- The clauses on forms that no rule assigns. -/
theorem hyp_illegal : ({ fA with x := { x0 with mods := 9 } } : FormA).bit 3 = true
    ∧ ({ fA with x := { x0 with mods := 9 } } : FormA).field 2 0 ≠ 0
    ∧ ({ fA with x := { x0 with mods := 0x1001 } } : FormA).bit 12 = true
    ∧ ({ fA with x := { x0 with mods := 0x1001 } } : FormA).field 11 0 ≠ 0
    ∧ 6 ≤ ({ fA with x := { x0 with mods := 12 } } : FormA).field 3 1
    ∧ 5 ≤ ({ fA with x := { x0 with mods := 5 } } : FormA).field 2 0
    ∧ 6 ≤ ({ fA with x := { x0 with mods := 48 } } : FormA).field 5 3
    ∧ 11 ≤ ({ fA with x := { x0 with mods := 11 } } : FormA).field 3 0 := by decide

/-- `CoachmanForms`, `CoachmanControl`, `CopiesPost`: a Coachman, its guard met or not, its stack empty, partly full
or full. -/
theorem hyp_coachman : coachOne.cur.agent = .coachman
    ∧ guardCoach ⟨false, 1⟩ (coachOf coachOne 0) = true ∧ guardCoach ⟨true, 1⟩ (coachOf coachOne 0) = false
    ∧ (coachOf coachOne 0).stack = [] ∧ (coachOf coachOne 0).stack.length < 8
    ∧ 8 ≤ ({ coachOf coachOne 0 with stack := List.replicate 8 0x1000 } : Coach).stack.length
    ∧ ({ coachOf coachOne 0 with stack := [0x1000] } : Coach).stack = 0x1000 :: [] ∧ 0x1000 % 4 = 0
    ∧ (srcCoach (coachOf coachOne 0) (.reg 1)).toNat % 4 = 0
    ∧ (srcCoach (coachOf coachOne 0) (.reg 1)).toNat < 2 ^ 56 := by decide +kernel

/-- `LoadsIssue`, `StoresIssue`, `AtomicsIssue`, `BlockingLoads`: an address that passes in each space. -/
theorem hyp_plans :
    plansPass one ⟨false, 0⟩ (fun t => planLane one t .laneL { read := true } (.const 0) 0 4)
    ∧ plansPass one ⟨false, 0⟩ (fun t => planLane one t .scratchS { read := true, write := true } (.const 0) 0 16)
    ∧ plansPass one ⟨false, 0⟩ (fun t => planLane one t .clusterC { read := true, write := true } (.const 0) 0 8)
    ∧ plansPass one ⟨false, 0⟩ (fun t => planLane one t .constK { read := true } (.const 0) 0 4)
    ∧ plansPass one ⟨false, 0⟩ (fun t => planLane one t .globalG { read := true, write := true } (.reg 2) 0 16)
    ∧ plansPass one ⟨false, 0⟩
        (fun t => planLane one t .hostH { read := true, write := true, cached := true } (.reg 4) 0 8) := by
  refine ⟨?_, ?_, ?_, ?_, ?_, ?_⟩ <;> exact plansPass_of _ _ _ (by decide +kernel)

/-- `AddressFaults`: a misaligned, an unmapped and an absent address. -/
theorem hyp_fails :
    (∃ c a l, planLane one only .globalG { read := true } (.reg 2) 1 4 = .fails 1 c a l)
    ∧ (∃ c a l, planLane one only .globalG { read := true } (.reg 2) 0x10000 4 = .fails 2 c a l)
    ∧ (∃ c a l, planLane one only .globalG { read := true } (.reg 6) 0 4 = .fails 4 c a l) := by
  refine ⟨⟨.alignment, 0x2001, [], ?_⟩, ⟨.protection, 0x12000, [], ?_⟩, ⟨.pageAbsent, 0x9000, [(9, 0)], ?_⟩⟩ <;>
    decide +kernel

/-- `TrapTaken`. -/
theorem hyp_trap : one.cur.agent = .core ∧ one.cur.lanes ≠ [] ∧ FaultCode.alignment ≠ .pageAbsent := by decide +kernel

/-- The posted copy of 14, and a command block with a misaligned address. -/
theorem hyp_copies :
    let s := coachHere post
    let c := copyCmdOf s 0x68 (coachOf s 0) { dst := .reg 11, a := .reg 4, b := .reg 0, x := x0 }
    copyBad s c = none ∧ (coreOf s 0).copyQ.length < 16
    ∧ copyBad s { c with src := 1 } = some .alignment
    ∧ 16 ≤ ({ coreOf s 0 with copyQ := List.replicate 16 c } : Core).copyQ.length := by decide +kernel

/-- `MatrixPosts`: the owner of tile 0, an entry reserved; a register idle, declared or withdrawn is not bound. -/
theorem hyp_matrix :
    let s := modSync (modCluster one 0 fun c => { c with owners := [(0, .group 1)] }) 1
      fun y => { y with entries := 2, kregs := [(1, { state := .declared }), (2, { state := .withdrawn })] }
    activeLanes s ⟨false, 0⟩ = [(1024, only)] ∧ s.cur.posts < heldAtIssue s 1 ∧ 0 ∈ ownedAtIssue s 1
    ∧ (kregOf s 1 0).state ≠ .bound ∧ (kregOf s 1 1).state ≠ .bound ∧ (kregOf s 1 2).state ≠ .bound
    ∧ allLanes s ⟨false, 0⟩ (fun th => stepTile th.ctl 0 ∈ ownedAtIssue s th.block) := by
  refine ⟨?_, ?_, ?_, ?_, ?_, ?_, allLanes_of _ _ _ ?_⟩ <;> decide +kernel

/-- `TilesAndReads`: nobody's tiles and a full table are free and busy for `RSV`. -/
theorem hyp_tiles : activeLanes one ⟨false, 0⟩ = [(1024, only)] ∧ 2 ≤ clusterFree one 0
    ∧ (syncOf one 1).entries + 2 ≤ 8 ∧ mget (clusterOf one 0).owners 0 = none
    ∧ msorted (clusterOf one 0).tiles = true ∧ msorted (clusterOf one 0).owners = true := by decide +kernel

/-- `Branches`, `Calls`, `Loops`. -/
theorem hyp_control :
    0 ≤ (one.cur.word : Int) + 4 * (-6 : BitVec 24).toInt
    ∧ allLanes one ⟨false, 0⟩ (fun th => (srcPair th .a (.reg 2)).toNat % 4 = 0 ∧ (srcPair th .a (.reg 2)).toNat < 2 ^ 56)
    ∧ allLanes one ⟨false, 0⟩ (fun th => th.ctl.depth < 64) ∧ planOk (planL one only { write := true } 0 8) = true
    ∧ (planNames (planL one only { read := true } 0 8)).2.length = 8 := by
  refine ⟨by decide, allLanes_of _ _ _ ?_, allLanes_of _ _ _ ?_, ?_, ?_⟩ <;> decide +kernel

/-- `Loops`: a count of 0, and a count of 2 with a body of one clause that the buffer captures. -/
theorem hyp_loops :
    let s := here (clause [0x18000010, 0x87030110, 0x48, 0x10000010, 0x2808020C, 0x00100000] [thread 0 [(1, 2)] 0])
    let f : RepeatForm := { words := 3, count := .reg 1, addr := .const 0, guard := ⟨false, 0⟩, tileStep := 0, clauses := 0,
                            dStep := 0, aStep := 1, bStep := 1, cStep := 0 }
    let s1 : State := { s with cur := { s.cur with stop := 0x100C } }
    ((activeLanes s1 f.guard).map fun p => (srcWord p.2 .a f.count).toNat) = [2]
    ∧ (capture s1 f 2 = .ok [0x10000010, 0x2808020C, 0x00100000]) := by
  refine ⟨?_, ?_⟩ <;> decide +kernel

/-- `Convergence`, `MessageQueues`, `SpawnCancelComplete`, `SpecialRegisters`: forms with no condition but the agent. -/
theorem hyp_agents : one.cur.agent = .core ∧ coachOne.cur.agent = .coachman := by decide +kernel

/-- `BarrierForms`: a barrier of each level that the lane may name; one with two arrivals pending and one with one. -/
theorem hyp_barriers :
    allLanes one ⟨false, 0⟩ (fun t => 0 < (launchOfBlock one t.block).desc.gangBars
      ∧ 3 < (launchOfBlock one t.block).desc.blockBars
      ∧ ((launchOfBlock one t.block).desc.group = true ∧ 3 < (launchOfBlock one t.block).desc.groupBars)
      ∧ 3 < (launchOfBlock one t.block).desc.launchBars)
    ∧ (mget one.work.blocks 1).isSome = true ∧ only.block = 1 ∧ only.ctl.run = .bundled
    ∧ inBarrier one (.gang 1 0 0) only = true ∧ inBarrier one (.block 1 0) only = true
    ∧ 1 < (barrierOf one (.gang 1 0 0)).pending ∧ (barrierOf one (.block 1 0)).pending = 1 := by
  refine ⟨allLanes_of _ _ _ ?_, ?_, ?_, ?_, ?_, ?_, ?_, ?_⟩ <;> decide +kernel

/-- `SupervisorCalls`: a free call slot, and a reply that a thread waits for. -/
theorem hyp_calls : activeLanes one ⟨false, 0⟩ ≠ [] ∧ mget (syncOf one 1).calls 0 = none
    ∧ (syncOf one 1).callCounter < 2 ^ 32
    ∧ mget (syncOf (modSync one 1 fun y => { y with calls := [(1, { tag := 1, state := 2, threads := [1024] })] }) 1).calls
        (1 % 4) = some { tag := 1, state := 2, threads := [1024] } := by decide +kernel

/-- The scene of `one`'s launch. -/
def scene : Scene := parseScene (cellsFrom one.mem.device 0x204000 64)

/-- `RAYQ` of ray 0 with the record from v8. -/
def fRay : FormA := { dst := .reg 20, a := .const 0, b := .reg 8, x := x0 }

/-- `RayForms`: a scene, a slot that passes, a thread of a hit shader. -/
theorem hyp_rays : sceneOf one (blockOf one 1).launch = .ok scene
    ∧ plansPass one ⟨false, 0⟩ (rayqPlan one fRay scene)
    ∧ plansPass one ⟨false, 0⟩ (fun t => slotPlanRay one t scene { read := true } 0 64 1)
    ∧ plansPass one ⟨false, 0⟩ (fun t => slotPlanRay one t scene { read := true } 3 48 16)
    ∧ (let s := modThread one 1024 fun t => { t with hitRay := some 2 }
       allLanes s ⟨false, 0⟩ (fun t => t.hitRay.isSome = true))
    ∧ (let slot : Nat := (readVirtualNat one 1 (scene.slot 0 + 64) 1).getD 0
       slot < 5 ∧ ¬ (1 ≤ slot ∧ slot ≤ 3) ∧ degenerate (recordBlock only 8) = false) := by
  refine ⟨?_, plansPass_of _ _ _ ?_, plansPass_of _ _ _ ?_, plansPass_of _ _ _ ?_, allLanes_of _ _ _ ?_, ?_⟩ <;>
    decide +kernel

/-- `TextureForms`. -/
theorem hyp_texture : activeLanes one ⟨false, 0⟩ ≠ []
    ∧ plansPass one ⟨false, 0⟩ (fun _ => texPlan one (blockOf one 1).launch 0 true) := by
  refine ⟨?_, plansPass_of _ _ _ ?_⟩ <;> decide +kernel

/-- The visibility descriptor of `one`'s launch. -/
def vis : VisDesc := parseVis (cellsFrom one.mem.device 0x204040 64)

/-- `VisibilityForms`: a descriptor, a block that passes, and a request whose entry stays within the quota. -/
theorem hyp_visibility : visDesc one (blockOf one 1).launch = .ok vis
    ∧ plansPass one ⟨false, 0⟩ (fun t => atreqPlan one vis t 3)
    ∧ plansPass one ⟨false, 0⟩ (primPlan one vis { fA with a := .const 0, b := .const 0 })
    ∧ (binnerOf one vis.binner).flushing = false ∧ (mget one.work.launches 1).isSome = true
    ∧ allLanes one ⟨false, 0⟩ (fun t => primTooBig one vis (primOf { fA with a := .const 0, b := .const 0 } t 1 0) = false) := by
  refine ⟨?_, plansPass_of _ _ _ ?_, plansPass_of _ _ _ ?_, ?_, ?_, allLanes_of _ _ _ ?_⟩ <;> decide +kernel

/-- `SpawnCancelComplete`: a range of 2 blocks, and the quota after it. -/
theorem hyp_spawn :
    let f : FormA := { dst := .reg 1, a := .const 2, b := .const 0, x := { x0 with srcC := .reg 2 } }
    let act (a : State) (_ : Nat) (_ : Thread) : State × Word :=
      (modLaunch (modLaunch a 1 fun x => { x with nextIndex := x.nextIndex + 2 }) 1
        fun x => enqueueRange x { first := 1, index := 1, count := 2, entry := 0x2000 }, 1)
    ((srcWord only .a f.a).toNat ≤ 2 ^ 20 ∧ (srcPair only .b f.b).toNat % 64 = 0 ∧ (srcPair only .c f.x.srcC).toNat % 4 = 0
      ∧ (launchOf one 1).nextIndex + 2 ≤ 2 ^ 32 - 1)
    ∧ ∀ t, inTurn one ⟨false, 0⟩ f.dst act one t → quotaBreach one t 1 = false := by
  refine ⟨by decide +kernel, ?_⟩
  exact fits_one one one ⟨false, 0⟩ _ _ _ 1024 only (by decide +kernel) (by decide +kernel) (by decide +kernel)
    (fun x => by rfl)

/-! ### Device events -/

/-- A request of `one`'s thread for four bytes at the start of the block's scratchpad. -/
def acc : Access :=
  { id := 0, kind := .load, space := .scratchS, core := 0, ctx := 1, block := 1, ctr := 1
    lanes := [{ uid := 1024, dst := 3, mem := .scratch 1, addrs := [0, 1, 2, 3] }] }

/-- The same for the start of page 2, with four bytes to write. -/
def accG : Access :=
  { acc with
    kind := .store, space := .globalG, line := 0x204000 / 128
    lanes := [{ uid := 1024, dst := 3, mem := .device, addrs := [0x204000, 0x204001, 0x204002, 0x204003],
                writes := byteWrites 0x204000 4 1 }] }

/-- `one` with a request in flight. -/
def flying (a : Access) : State := { one with pend := [a], dtime := 10 }

/-- `AccessEvents`: what each clause asks of its request. -/
theorem hyp_access :
    accessOf (flying acc) 0 = some acc ∧ (acc.lanes.map LaneReq.uid).Nodup
    ∧ onTile acc = false ∧ canPerform (flying acc) acc = true ∧ lineBusy (flying acc) acc = false
    ∧ (∀ r ∈ acc.lanes, ∀ x ∈ r.addrs ++ r.writes.map Prod.fst, isPoisoned (flying acc) r.mem (x / 32) = false)
    ∧ canPerform (flying { acc with kind := .store }) { acc with kind := .store } = true
    ∧ performedAt (flying { acc with kind := .store, applied := true }) { acc with kind := .store, applied := true } .dev = true
    ∧ canPerform (flying accG) accG = true ∧ lineBusy (flying accG) accG = false
    ∧ accG.lanes.flatMap LaneReq.writes ≠ []
    ∧ (∀ r ∈ accG.lanes, ∀ x ∈ r.addrs ++ r.writes.map Prod.fst, isPoisoned (flying accG) r.mem (x / 32) = false)
    ∧ isHotAdd { accG with kind := .atomic, op := 0 } = true := by decide +kernel

/-- `AccessEvents`: a fill and a lease that has run out. -/
theorem hyp_fill :
    let a : Access := { accG with kind := .load }
    let c : L1Copy := { line := accG.line, data := [], fetch := 0, expiry := 5, version := 0 }
    usesL1 a = true ∧ 0 < l1Capacity (flying a) (l1Core (flying a) 0 a.line) ∧ l1Hit (flying a) 0 a.line (floorsOf (flying a) a) = none ∧ fillReady (flying a) 0 a.line = true
    ∧ l1Copy (modCore (flying a) 0 fun k => { k with l1 := [c] }) 0 accG.line = some c
    ∧ c.expiry ≤ (flying a).dtime := by decide +kernel

/-- `one` with its thread blocked on a condition. -/
def waiting (k : WaitKind) (deadline : Nat) : State :=
  modThread { one with dtime := 10, ctxs := one.ctxs.map fun p => (p.1, { p.2 with ctime := 10 }) } 1024 fun t =>
    { t with ctl := { t.ctl with run := .blocked, wait := some {
      kind := k, deadline := deadline, resume := 0x1008, site := 0x1000, dst := .reg 3, esc := false, poll := false } } }

/-- `AccessEvents`: a blocked load of the first word of page 2, whose value is 2800H. -/
theorem hyp_reread :
    let q : LaneReq := { uid := 1024, mem := .device, addrs := [0x204000, 0x204001, 0x204002, 0x204003], cmp := 0x2800 }
    let s := waiting (.blockingLoad .globalG 0x2000 q .b4 false false 3 0) 20
    (threadOf s 1024).map (fun t => (t.ctl.run, t.ctl.wait.isSome)) = some (.blocked, true)
    ∧ rereadPlace s 1 .globalG 0x2000 q = .ok q ∧ lanePoison s none q = false
    ∧ unread s 0 1024 .globalG q = false
    ∧ blockedByLine (dropCopy s (l1Core s 0 (0x204000 / 128)) (0x204000 / 128)) 0 false [] q = false
    ∧ readBytes s q.mem q.addrs = q.cmp.toNat := by decide +kernel

/-- `SchedulingEvents`: a wait whose condition holds, and one whose deadline has passed. -/
theorem hyp_waits :
    let s := modCore (waiting (.tb 0 5 0) 20) 0 fun k => { k with tbs := [(5, { valid := true, phase := 1, init := 1, arr := 1 })] }
    (tbOf s 0 5).result 0 = some .done ∧ Status.done ≠ .timeout ∧ Status.done ≠ .partialDone
    ∧ (ctxOf s (ctxOfBlock s 1)).resident = true
    ∧ phaseResult 1 0 = some .done
    ∧ (let t := modCore (waiting (.tb 0 5 0) 5) 0 fun k => { k with tbs := [(5, { valid := true, phase := 0, init := 1 })] }
       5 ≤ (ctxOf t (ctxOfBlock t 1)).ctime
       ∧ ((threadOf t 1024).map fun x => x.ctl.wait.map fun w => (conditionMet t 1024 x w).isNone) = some (some true)) := by
  decide +kernel

/-- `SchedulingEvents`: a bin to draw, one of more than 32 threads, an aged one, a full set of bins less one. -/
theorem hyp_bins :
    let b : Bin := { block := 1, pc := 0x1000, key := 0, threads := [1024], since := 0 }
    let s := modCore { one with dtime := 100000 } 0 fun k => { k with bins := [(0, b)] }
    drawChoice s 0 = some (0, b) ∧ blockRuns s b.block = true ∧ (coreOf s 0).halted = false
    ∧ binAged s (coreOf s 0) b = true ∧ 32 < ({ b with threads := List.range 33 } : Bin).threads.length
    ∧ (let q := modCore one 0 fun k => { k with fileQ := [1024] }
       (coreOf q 0).fileQ = 1024 :: [] ∧ binOfKey (coreOf q 0) 1 0x1000 0 = none ∧ freeBin (coreOf q 0) = some 0) := by
  decide +kernel

/-- `SchedulingEvents`, `StepRunsDecoded`: a clause that is ready. -/
theorem hyp_ready :
    let s := passTime alone
    let a : ClauseAgent := .bundle { core := 0, block := 1, lanes := [1024] }
    let s0 : State := { s with cur := curFor s a }
    alone.inputs = [] ∧ alone.power.off = false ∧ (eventFirst s).isNone = true ∧ clauseAgents s = [a] ∧ clauseText s0 = .ok [0x10000000, 0]
    ∧ (∃ i, checkClause s0.cur.agent (launchOfBlock s0 s0.cur.block).desc.allot [0x10000000, 0] = .ok (headerOf 0x10000000, [i])
        ∧ clauseReady (loadClause s0 2 (headerOf 0x10000000) [i]) = true) := by
  refine ⟨?_, ?_, ?_, ?_, ?_, .iadd ⟨.reg 0, .reg 0, .reg 0, x0⟩, ?_⟩ <;> decide +kernel

/-- `StepRunsDecoded`: an event before the clauses. -/
theorem hyp_event :
    let s := modCore { alone with dtime := 1 } 0 fun k => { k with fileQ := [1024] }
    s.inputs = [] ∧ s.power.off = false ∧ (eventFirst (passTime s)).isSome = true := by decide +kernel

/-- `StepRunsDecoded`: an input before it. -/
theorem hyp_input : ({ alone with inputs := [.clauseFetch] } : State).inputs = .clauseFetch :: [] := by rfl

/-- A state whose context 1 has a save area: the second GiB of virtual addresses, in one page. -/
def saving (s : State) : State :=
  { modCtx s 1 (fun c => { c with f := { c.f with saveBase := 2 ^ 30 } }) with
    mem := { s.mem with device := setCells s.mem.device (byteWrites 0x200008 8 (0xF + 2 ^ 30)) } }

/-- `BlockEvents`: an entry to place, a block to evict, to place again, to refill, to end. -/
theorem hyp_blocks :
    let e : SpawnEntry := { first := 1, index := 1, count := 1, entry := 0x1000 }
    let s := modCtx { modLaunch alone 1 (fun k => { k with spawnQ := [e] }) with
      tables := { alone.tables with partitions := [(0, { mask := 1, ctx := some 1, state := 1 })] } } 1 fun k => { k with f := { k.f with lpFrames := 4 } }
    nextEntry (launchOf s 1) = some (e, false) ∧ (launchOf s 1).desc.group = false ∧ spawnReady s e = true
    ∧ (launchOf s 1).cancelled = false ∧ fits s 0 1 (gangsOf (launchOf s 1) e.index) = true
    ∧ okWith (readyCore 1 (gangsOf (launchOf s 1) e.index) (.ok s) 0) (fun _ => true) = true
    ∧ (let b := saving (waiting (.tb 0 5 0) 20)
       blockRuns b 1 = true ∧ allBlocked b 1 = true
       ∧ okWith (saveWaits b 1) (fun s1 => (mget s1.work.blocks 1).isSome) = true)
    ∧ (let b := modThread (modBlock alone 1 fun b => { b with evicted := true }) 1024 fun t =>
         { t with ctl := { t.ctl with run := .runnable } }
       (blockOf b 1).evicted = true ∧ (blockOf b 1).parked = false ∧ (blockOf b 1).core = some 0
       ∧ ((threadsOfBlock b 1).any fun p => p.2.ctl.run == .runnable) = true
       ∧ (blockOf b 1).gangs ≤ (freeGangSlots b 0).length ∧ 0 < rampLeft b 0
       ∧ (ctxOf b (ctxOfBlock b 1)).resident = true ∧ okWith (refillBanks (.ok b) 1) (fun _ => true) = true)
    ∧ (let b := modThread { alone with work := { alone.work with bundles := [] } } 1024 fun t =>
         { t with ctl := { t.ctl with run := .exited } }
       (mget b.work.blocks 1).isSome = true ∧ (blockOf b 1).ended = false ∧ blockSettled b 1 = true ∧ blockIdle b 1 = true)
    ∧ (let b := modBlock alone 1 fun b => { b with parked := true }
       (blockOf b 1).parked = true ∧ rowsUsed b 0 + (launchOfBlock b 1).desc.rows
         ≤ capacityWith b 0 (coreOf b 0).roles (launchOfBlock b 1).desc.tobBanks (planVs b)
       ∧ okWith (unparkRows b 1) (fun s0 => okWith (refillBanks (.ok (modBlock s0 1 fun x =>
           { x with parked := false, selected := false
                    rowPlace := givePlaces (launchOfBlock b 1).desc.rows (blockRoom b 0 (planVs b)) })) 1)
           fun _ => true) = true) := by decide +kernel

/-- `BlockEvents`: a held launch, and the phases of a step of the operating point. -/
theorem hyp_steps :
    let s : State := { alone with ctxs := alone.ctxs.map fun p => (p.1, { p.2 with ctime := 1000000 }) }
    let l := modLaunch s 1 fun k => { k with heldSince := some 0 }
    (launchOf l 1).heldSince = some 0 ∧ heldForRows l 1 = true ∧ l.power.holdLimit ≠ 0 ∧ (launchOf l 1).holdReported = false
    ∧ 0 + 1000 * l.power.holdLimit ≤ (ctxOf l (launchOf l 1).ctx).ctime
    ∧ s.power.target = none ∧ (s.tables.partitions.any fun p => p.2.state == 3) = false ∧ s.power.vs < 5 ∧ 1 < s.power.vs
    ∧ (let t : State := { alone with power := { alone.power with target := some 5, phase := 2 } }
       evacuated t 5 = true ∧ lostBanks (moveTobRows (moveBlockRows t 0 5) 0 5) 0 5 = [])
    ∧ (let t : State := saving { alone with power := { alone.power with target := some 5, phase := 1 }, dtime := 10 ^ 9 }
       selectedBlocks t = [] ∧ t.power.orderedAt + evacNs t ≤ t.dtime ∧ t.power.target ≠ none
       ∧ (let p := modBlock t 1 fun b => { b with selected := true }
          selectedBlocks p = [1] ∧ drained p 1 = true
          ∧ okWith (parkRows (parkWork p 1) 1) (fun s1 => okWith (saveWaits s1 1) fun s2 =>
              (mget s2.work.blocks 1).isSome) = true))
    ∧ alone.tables.switches = [] ∧ alone.power.queued = [] := by decide +kernel

/-- A line's home state. -/
def lined (d : LineDir) : State := modLine one 5 fun _ => d

/-- `DirectoryEvents`: line 5, whose home is die 0. -/
theorem hyp_directory :
    canBegin one 1 5 = true ∧ canBegin one (homeDie 5) 5 = true ∧ filterBlocks one 1 5 = false ∧ dieHolds (lineOf one 5) 5 1 = false
    ∧ ownerOf (lineOf one 5) = none ∧ moesiOf (lineOf one 5) 1 = .invalid
    ∧ (let m := lined { states := [(1, .modified)], holderVersion := [(1, 0)] }
       ownerOf (lineOf m 5) = some 1 ∧ dieHolds (lineOf m 5) 5 2 = false ∧ canBegin m 2 5 = true ∧ canBegin m 1 5 = true
       ∧ msorted (lineOf m 5).states = true ∧ moesiOf (lineOf m 5) 1 = .modified ∧ (lineOf m 5).states ≠ []
       ∧ mget (lineOf m 5).holderVersion 1 = some 0
       ∧ ((5 : BitVec 16) - 0).toNat < 2 ^ 15 ∧ 2 ^ 15 < ((0xFFFF : BitVec 16) - 0).toNat)
    ∧ (let h := lined { states := [(1, .shared), (2, .owned)] }
       canBegin h 1 5 = true ∧ moesiOf (lineOf h 5) 1 = .shared ∧ moesiOf (lineOf h 5) 2 = .owned)
    ∧ (let x := lined { transient := true, txn := some { die := 1, own := true, forward := some 2 }, acks := [3] }
       (lineOf x 5).txn = some { die := 1, own := true, forward := some 2 } ∧ 3 ∈ (lineOf x 5).acks) := by decide +kernel

/-- `one` with another frame 204H. -/
def framed (f : Frame) : State := { one with frames := mset one.frames 0x204 f, dtime := 10 }

/-- A state whose decoder 0 maps the first 256 MiB of the pool onto port 1 of D0. -/
def mapped (s : State) : State :=
  modDie { s with tables := { s.tables with hdm := [(0, 0, 2 ^ 28, 4)] } } 0 fun d => { d with portMode := [(1, 2)] }

/-- `SharedPageEvents`: pool page 7, held by the device, being surrendered, and surrendered. -/
theorem hyp_shared :
    (let s := framed { valid := true, shared := true, pool := 7 }
     frameOfPool s 7 = some 0x204 ∧ s.power.asleep = false ∧ (frameOf s 0x204).shared = true ∧ (frameOf s 0x204).hstate = 0
     ∧ (frameOf s 0x204).leaving = false ∧ (frameOf s 0x204).mig = false)
    ∧ (let s := framed { valid := true, shared := true, pool := 7, hstate := 1 }
       (frameOf s 0x204).hstate = 1 ∧ (frameOf s 0x204).lastLease ≤ s.dtime)
    ∧ (let s := mapped (framed { shared := true, pool := 7, hstate := 2 })
       (frameOf s 0x204).hstate = 2 ∧ (∀ l, l / 32 = 0x204 → (lineOf s l).persistent = [])
       ∧ poolCovered s (4096 * (frameOf s 0x204).pool) = true)
    ∧ (let s : State := { lined { transient := true, txn := some { die := 2, own := true }, acks := [1], probedAt := 0 } with dtime := 10 ^ 6 }
       (dieOf s 1).lost = false ∧ lateProbes s 0 1 ≠ []) := by
  refine ⟨by decide +kernel, by decide +kernel, ⟨by decide +kernel, fun _ _ => rfl, by decide +kernel⟩, by decide +kernel⟩

/-- `one` as the firmware leaves it: all layers booted. -/
def booted : State := { one with security := { one.security with booted := 3 }, dtime := 10 }

/-- `booted` with a trap record of its thread in slot 0. -/
def trappedAs (kind : Nat) : State :=
  let r : ReplayRecord := { cause := 3, kind := kind, work := .core 0x1008 1 [1024] }
  modThread { booted with more := [(1, { replay := [(0, r)] })], ctxs := one.ctxs.map fun p => (p.1, { p.2 with ctime := 10 ^ 9 }) }
    1024 fun t => { t with ctl := { t.ctl with run := .trapped } }

/-- `TrapEvents`: a record of a barrier fault, of another fault, of a breakpoint and of an illegal form. -/
theorem hyp_trapped :
    mailOpen (trappedAs 1) 0 = true ∧ (ctxOf (trappedAs 1) 1).resident = true
    ∧ (trapRecord (trappedAs 1) 1 0).map (·.kind) = some 1 ∧ (trapRecord (trappedAs 6) 1 0).map (·.kind) = some 6
    ∧ (trapRecord (trappedAs 9) 1 0).map (·.kind) = some 9 ∧ (trapRecord (trappedAs 4) 1 0).map (·.kind) = some 4
    ∧ ((trapRecord (trappedAs 1) 1 0).map fun r => (trapped (trappedAs 1) 1 0 r, r.since)) = some ([1024], 0)
    ∧ 0 + max 1 (ctxOf (trappedAs 1) 1).f.trapLimit * 1000 ≤ (ctxOf (trappedAs 1) 1).ctime := by decide +kernel

/-- `TrapEvents`: a reply on page 2 to a call of block 1; an image to go back to; an interval over. -/
theorem hyp_replies :
    (let c : Context := { f := { (ctxOf one 1).f with svcrBase := 0x2200, svcrSize := 4 }, svcrWrite := 1 }
     let s : State := { modSync one 1 (fun y => { y with calls := [(1, { tag := 1, state := 1 })] }) with
       ctxs := [(1, c)]
       mem := { one.mem with device := setCells one.mem.device (byteWrites 0x204200 4 1 ++ byteWrites 0x204204 2 1) } }
     mget s.ctxs 1 = some c ∧ c.svcrRead ≠ c.svcrWrite
     ∧ okWith (readVirtual s 1 (c.f.svcrBase + 256 * c.svcrRead) 256) (fun e => fieldOf e 4 2 == 1
        && replyTarget s 1 (fieldOf e 0 4) (fieldOf e 6 2) (fieldOf e 8 1) == some 1) = true)
    ∧ (let img : Image := { threads := [(1024, only)] }
       let s := modSync one 1 fun y => { y with checkpoint := some img, rollbackDue := true }
       (syncOf s 1).checkpoint = some img ∧ rollbackReady s 1 = true ∧ (img.threads.map Prod.fst).Nodup)
    ∧ (let s : State := { one with ctxs := one.ctxs.map fun p => (p.1, { p.2 with ctime := 10 ^ 9 }) }
       let t : Thread := { only with regs := { only.regs with chk := 0x10001 } }
       intervalDue s t 0 = true) := by
  refine ⟨?_, ?_, ?_⟩ <;> decide +kernel

/-- `TrapEvents`: an entry held for a full buffer, a notification owed, a write to be tried again. -/
theorem hyp_held :
    (let e : EventEntry := { ctx := 1, kind := 2 }
     let s : State := { modDie one 0 (fun d => { d with fault := { d.fault with held := [e] } }) with
       ctxs := one.ctxs.map fun p => (p.1, { p.2 with f := { p.2.f with evtBase := 0x2400, evtSize := 4 } }) }
     let s0 := modDie s 0 fun d => { d with fault := { d.fault with held := d.fault.held.erase e } }
     heldEntry s 0 = some e
     ∧ (writeVirtual s0 e.ctx (eventSlot s e.ctx) (e.bytes (dieOf s 0).fault.drops)).isSome = true)
    ∧ (let s : State := { one with more := [(1, { notifyPending := true })] }
       (moreOf s 1).notifyPending = true ∧ mget s.tables.vectors (moreOf s 1).vector = none)
    ∧ (let s : State := { one with more := [(1, { retryAt := some 5 })], dtime := 10 }
       (moreOf s 1).retryAt = some 5 ∧ 5 ≤ s.dtime ∧ (moreOf s 1).replayWaiting = [] ∧ heldFor s 1 = none
       ∧ (ctxOf s 1).resident = true) := by
  refine ⟨?_, ?_, ?_⟩ <;> decide +kernel

/-- `booted` with partition 0 as given. -/
def parted (p : Partition) : State := { booted with tables := { booted.tables with partitions := [(0, p)] } }

/-- `ContextEvents`: the mailbox open, an image in a pinned frame, partitions free to define, to free and to switch. -/
theorem hyp_contexts :
    mailOpen booted 0 = true ∧ booted.pend = [] ∧ (mget booted.ctxs 1).isSome = true ∧ mget booted.ctxs 2 = none
    ∧ (let s := { booted with frames := mset booted.frames 0x206 { pin := true } }
       imageOk s 0x206000 = true)
    ∧ (partOf booted 1).state = 0 ∧ booted.tables.partitions = []
    ∧ (let s := parted { mask := 2, state := 2 }
       (partOf s 0).state ≠ 0 ∧ (∃ p ∈ s.tables.partitions, p.2.state ≠ 0 ∧ (p.2.mask &&& BitVec.ofNat 192 2) ≠ 0)
       ∧ (partOf s 0).ctx = none ∧ (partOf s 0).state ≠ 3 ∧ s.power.target = none ∧ rollbackRuns s 0 = false
       ∧ mayEnter s 0xFFFF (partOf s 0) = true
       ∧ mayEnter s 1 (partOf s 0) = false)
    ∧ (let s := parted { mask := 2, state := 1, ctx := some 1 }
       (partOf s 0).ctx.isSome = true ∧ (partOf s 0).state ≠ 3)
    ∧ (let p : Partition := { mask := 0, state := 3, ctx := some 1, step := 2 }
       let s := modBlock (parted p) 1 fun b => { b with evicted := true }
       switchDrained s 1 (partOf s 0) = true ∧ (moreOf s 1).retryAt = none
       ∧ okWith (saveImages ((List.range 8).foldl (fun acc b => parkRaster acc 1 b)
            ((partOf s 0).clusters.foldl parkCluster ((partOf s 0).cores.foldl parkCore s))) 1 0 (partOf s 0))
          (fun _ => true) = true)
    ∧ (let s := saving (parted { mask := 0, state := 3, next := some 1, step := 4 })
       (partOf s 0).state = 3 ∧ (partOf s 0).step = 4 ∧ (partOf s 0).next = some 1
       ∧ okWith (restoreContext s 1 (partOf s 0)) (fun a => a.tables.switches.isEmpty && a.power.queued.isEmpty) = true)
    ∧ (let s := { booted with power := { booted.power with target := some 5 } }
       s.power.target.isSome = true ∧ mailOpen s 0 = true) := by
  refine ⟨?_, ?_, ?_, ?_, ?_, ?_, ?_, ?_, ?_, ?_, ?_, ?_⟩ <;> decide +kernel

/-- A multiply of one element, and its entry in cluster 0's table. -/
def mul : MatCmd := { op := 0x72, ctx := 1, block := 1, core := 0, cluster := 0, thread := 1024, ticket := 1, seq := 0, tile := 0, vr := 1, vc := 1 }

/-- `one` with an entry in cluster 0's reservation table. -/
def posted (e : MatEntry) : State := modCluster one 0 fun c => { c with table := [(3, e)] }

/-- A copy of one sector from page 2 to the start of the block's scratchpad. -/
def copy : CopyCmd :=
  { ticket := 4, op := 0x68, ctx := 1, block := 1, core := 0, seq := 0, control := 0, shape := 0x1000001, src := 0x2000
    dst := 0, stride := 0 }

/-- `one` with a copy in core 0's queue and a circular buffer of two slots. -/
def copying (c : CopyCmd) : State :=
  modCore one 0 fun k => { k with copyQ := [c], cbufs := [(0, { valid := true, nslot := 2, cons := 1 })] }

/-- `EngineEvents`: entries to release, to grant, of a tag that fails, and granted. -/
theorem hyp_engine :
    mget (clusterOf (posted { cmd := mul }) 0).table 3 = some { cmd := mul } ∧ matEdgesClear (posted { cmd := mul }) mul = true
    ∧ (let e : MatEntry := { cmd := mul, released := true }
       grantChoice (posted e) 0 = some (3, e) ∧ (clusterOf (posted e) 0).granted = none ∧ tagFails (posted e) mul 0 = false
       ∧ tagFails (posted e) { mul with desc := 2 ^ 32 + 2 ^ 13 } 0 = true ∧ isMultiply 0x72 = true ∧ isMultiply 0x78 = false)
    ∧ (let e : MatEntry := { cmd := { mul with op := 0x78 }, released := true }
       grantChoice (posted e) 0 = some (3, e))
    ∧ (let e : MatEntry := { cmd := { mul with op := 0x79 }, released := true }
       grantChoice (posted e) 0 = some (3, e))
    ∧ (let e : MatEntry := { cmd := mul, released := true, stage := .running }
       let s := modCluster (posted e) 0 fun c => { c with granted := some 3 }
       (clusterOf s 0).granted = some 3 ∧ mget (clusterOf s 0).table 3 = some e
       ∧ (∀ p ∈ (clusterOf s 0).table, p.2.stage = .running → isMultiply p.2.cmd.op = true)
       ∧ passMeetsPoison s e.cmd e.pass = false) := by decide +kernel

/-- `EngineEvents`: a program to start, copies to release, to start, with and without a slot, to deliver, to end. -/
theorem hyp_copying :
    (let s : State := { one with coaches := [(0, { starts := [{ block := 1, entry := 0x1000 }] })] }
     (coachOf s 0).starts = { block := 1, entry := 0x1000 } :: [] ∧ (coachOf s 0).running = false)
    ∧ copyOf (copying copy) 0 4 = some copy ∧ copyEdgesClear (copying copy) copy = true
    ∧ (let c := { copy with released := true }
       mayStart (copying c) c = true ∧ dbit c.control 21 = false)
    ∧ (let c := { copy with released := true, control := 2 ^ 21 }
       mayStart (copying c) c = true ∧ dbit c.control 21 = true ∧ (cbufOf (copying c) 0 0).hasRoom = true
       ∧ (let s := modCopy (copying c) 0 4 fun x => { x with started := true }
          engineFree s 0 = true ∧ copyEdgesClear s { c with slot := some (cbufOf (copying c) 0 0).takeSeq } = true))
    ∧ (let c := { copy with started := true }
       let x := (List.range 32).map fun k => (Mem.device, 0x204000 + k)
       let y := (List.range 32).map fun k => (Mem.scratch 1, k)
       canDeliver (copying c) c = true ∧ c.completion = 0 ∧ c.row < c.validRows ∧ c.outward = false
       ∧ engineWaits (copying c) 0 false (deviceLines x) = false
       ∧ sourceSpots (copying c) c c.row c.col = .ok x ∧ destSpots (copying c) c c.row c.col = .ok [y]
       ∧ (x ++ y).all (fun p => !isPoisoned (copying c) p.1 (p.2 / 32)) = true
       ∧ (mget (copying c).work.blocks 1).isSome = true)
    ∧ (let c := { copy with started := true, shape := 1 }
       canDeliver (copying c) c = true ∧ c.validRows ≤ c.row)
    ∧ (let c := { copy with started := true, next := 1 }
       c.total ≤ c.next ∧ c.parked = false) := by
  refine ⟨?_, ?_, ?_, ?_, ?_, ?_, ?_, ?_⟩ <;> decide +kernel

/-- `one` with subtree 0 of its scene at the start of page 2, and a ray filed to it. -/
def traced : State :=
  let m := setCells one.mem.device (byteWrites 0x204400 4 0x2000 ++ byteWrites 0x204408 4 128)
  { modCtx one 1 (fun c => { c with upt := [(8, [1, 1, 6, 2, 0, 0, 0, 0, 48, 0, 0, 0, 0, 0, 0, 0, 0, 0, 0, 0, 64] ++ List.replicate 43 0)] }) with
    mem := { one.mem with device := m }
    tables := { one.tables with partitions := [(0, { mask := 1, ctx := some 1, state := 1 })] }
    work := { one.work with rays := [(1, { queues := [(0, { die := [{ id := 0, stamp := 0, filed := 0 }] })] })] } }

/-- `UnitEvents`: a run to start, to load, to retire from and to end; a hit list that is due. -/
theorem hyp_units :
    ((selectRun traced 0 0).map fun x => (x.launch, x.subtree)) = some (1, 0) ∧ heldScene traced 1 = some scene
    ∧ readSubtree traced 1 scene 0 = .valid { base := 0x2000, size := 128, die := 0 } ∧ (clusterOf traced 0).run = none
    ∧ (let r : RayRun := { launch := 1, subtree := 0, number := 1, rays := [{ id := 0, stamp := 0, filed := 0 }] }
       let s := modCluster traced 0 fun c => { c with run := some r }
       (clusterOf s 0).run = some r ∧ heldScene s 1 = some scene
       ∧ (ctxOf s (launchOf s r.launch).ctx).ctime - r.startedAt < 20000
       ∧ readSubtree s 1 scene 0 = .valid { base := 0x2000, size := 128, die := 0 }
       ∧ okWith (readEngine s (.ray 0) 1 0x2000 128) (fun _ => true) = true
       ∧ okWith (readEngine s (.ray 0) 1 (scene.slot 0) 64) (fun _ => true) = true
       ∧ slotFaultAt s 0 1 0 = none ∧ poisonedRange s 1 (scene.slot 0) 128 = false
       ∧ (runTable { r with upt := runUpt s 1 scene }).isSome = true
       ∧ (let t : State := { s with ctxs := s.ctxs.map fun p => (p.1, { p.2 with ctime := 20000 }) }
          20000 ≤ (ctxOf t (launchOf t r.launch).ctx).ctime - r.startedAt))
    ∧ (let s : State := { one with
         ctxs := one.ctxs.map fun p => (p.1, { p.2 with ctime := 2000 })
         work := { one.work with rays := [(1, { hits := [(0, [(0, 0)])] })] } }
       hitBlockDue s 1 0 = true ∧ (ctxOf s (launchOf s 1).ctx).resident = true ∧ heldScene s 1 = some scene) := by
  refine ⟨?_, ?_, ?_, ?_, ?_, ?_⟩ <;> decide +kernel

/-- `UnitEvents`: a flush with nothing due, one with a tile due, and a sampled quad. -/
theorem hyp_drawing :
    (let s := modBinner one 0 fun x => { x with flushing := true }
     flushOver s 0 = true)
    ∧ (let s := modBinner one 0 fun x =>
         { x with flushing := true, prims := [{ seq := 0, launch := 1, regs := [], mask := 1, refs := [(0, 0)] }] }
       binnerWaits s 0 = false
       ∧ (tilesDue s 0).find? (fun t => t.2 == (0, 0) && (ctxOf s (dueCtx s t)).resident) = some (1, 0, 0)
       ∧ okWith (visDesc s 1) (· == vis) = true)
    ∧ okWith (viewMatrix one 1 vis 0) (fun _ => true) = true
    ∧ (let o : TexOp := { id := 0, op := 0x94, block := 1, channel := 0, ctr := 1, lanes := [{ lane := 0, uid := 1024, dst := 8, desc := 0 }] }
       texReady one o = true ∧ nextQuad o = some 0 ∧ ((quadLanes o 0).map TexLane.uid).Nodup
       ∧ engineWaits one 0 false (rangeLines one (.sampler 0) 1 ((quadLanes o 0).flatMap (tapRanges one 1 1 o.op))) = false
       ∧ ((quadLanes o 0).all fun x => okWith (laneTaps one 0 1 1 o.op o.channel x) (fun _ => true)
           && !laneMeetsPoison one 1 1 o.op x) = true) := by
  refine ⟨?_, ?_, ?_, ?_⟩ <;> decide +kernel

/-- `booted` with a command queue 0 whose next record, at 2100H, begins with these two bytes. -/
def queued (kind flags : Nat) : State :=
  let c : CmdQueue := { base := 0x2100, writeIdx := 1 }
  { modCtx booted 1 (fun x => { x with queues := [(0, c)] }) with
    mem := { booted.mem with device := setCells booted.mem.device (byteWrites 0x204100 2 (kind + 256 * flags)) } }

/-- Whether the reader may take the record of `queued`. -/
def readerReady (s : State) (kind : Nat) : Bool :=
  match cmdQueueOf s 1 0 with
  | none => false
  | some c => readerMay s 1 0 c && servedQueue s c.die == some (1, 0) && okWith (headBytes s 1 c) (fun b => fieldOf b 0 1 == kind) && (openRecords s 1 0).isEmpty

/-- A record that context 1 has begun. -/
def begun (kind : Nat) : Record := { handle := 5, queue := 0, addr := 0x2100, kind := kind, begun := true, addr1 := 0x2000, value := 1 }

/-- `queued` with a record open. -/
def opened (r : Record) : State := modCtx (queued 4 0) 1 fun x => { x with records := [r] }

/-- `RecordEvents`: each kind of record at the head of a queue. -/
theorem hyp_heads : ([0, 1, 2, 3, 4, 5, 6].all fun k => readerReady (queued k 0) k) = true := by decide +kernel

/-- `RecordEvents`: a doorbell, a graph replay that waits for a slot, a wait, a page resolved, a completion, a reset. -/
theorem hyp_records :
    ((cmdQueueOf (queued 4 0) 1 0).map fun c => decide ((1 : Word).toNat < c.size)) = some true
    ∧ (let r : Record := { begun 2 with begun := false }
       waitingReplay (opened r) 1 0 = some r ∧ freeSlots (opened r) 1 r.addr1 ≠ []
       ∧ (let rs : List Replay := (List.range 4).map fun n => { graph := r.addr1, slot := n, handle := 9 + n }
          freeSlots { opened r with more := [(1, { replays := rs })] } 1 r.addr1 = [] ∧ r.deadline ≤ (ctxOf (opened r) 1).ctime))
    ∧ (let s := opened (begun 4)
       recordOf s 1 5 = some (begun 4) ∧ (ctxOf s 1).resident = true ∧ okWith (readWord64 s 1 0x2000) (fun _ => true) = true)
    ∧ (let r : Record := { begun 1 with begun := false, page := some 2 }
       r ∈ openRecords (opened r) 1 0 ∧ readerPresent (opened r) 1 2 = true
       ∧ (∀ x ∈ openRecords (opened r) 1 0, x = r ∨ x.begun = true))
    ∧ (let r : Record := { begun 3 with sigAddr := 0x2800 }
       recordOf (opened r) 1 5 = some r ∧ recordResult (opened r) 1 r = some (.done, .none)
       ∧ (writeSignals 1 5 (signalWrites (opened r) 1 r (.done, .none)) (opened r)).2.isNone = true
       ∧ okWith (translateWalk (opened r) 1 r.addr { write := true }) (fun _ => true) = true)
    ∧ (let s := modCmdQueue (queued 4 0) 1 0 fun c => { c with reset := true }
       ((cmdQueueOf s 1 0).map fun c => (c.reset, c.resetDone)) = some (true, false)
       ∧ (∀ r ∈ openRecords s 1 0, recordSettled s 1 r = true)) := by
  refine ⟨?_, ?_, ?_, ?_, ?_, ?_⟩ <;> decide +kernel

/-- `RecordEvents`: a node of a graph that may begin; queues with parts to refill. -/
theorem hyp_nodes :
    (let x : Replay := { graph := 0x2000, slot := 0, handle := 5, nodes := [{}] }
     let s : State := { opened (begun 2) with more := [(1, { replays := [x] })] }
     replayOf s 1 5 = some x ∧ recordOf s 1 5 = some (begun 2) ∧ x.nodes[0]? = some ({} : GraphNode) ∧ nodeReady x {} = true ∧ x.state = .running)
    ∧ (mget booted.ctxs 1).isSome = true ∧ (mget one.work.launches 1).isSome = true
    ∧ (mget (mgetD traced.work.rays 1 {}).queues 0).isSome = true := by
  refine ⟨?_, ?_, ?_, ?_⟩ <;> decide +kernel

/-- A fault entry of context 1 for an absent page. -/
def missing : FaultEntry := { ctx := 1, vpn := 9, access := 0, unit := 0, record := some 0 }

/-- `one` with a fault entry on die 0 or with a page in its merge table. -/
def faulting (f : DieFault) : State := { modDie one 0 (fun d => { d with fault := f }) with dtime := 10000 }

/-- `DrayEvents`: a walk; an entry of another die and of this one, merged with no page; a batch; a frame to free. -/
theorem hyp_dray :
    ((walk one 1 0x2000).map fun q => dbit q.1 9) = some false ∧ (coreOf one 0).tlb = []
    ∧ (let s := faulting { queue := [missing] }
       (dieOf s 0).fault.queue.find? (fun e => ownerDie s (entryPage s e) != 0) = some missing)
    ∧ (let e := { missing with vpn := 8 }
       let s := faulting { queue := [e] }
       (dieOf s 0).fault.queue.find? (fun e => ownerDie s (entryPage s e) == 0) = some e
       ∧ mergeOf s 0 1 (pageGroup s 1 8).1 = none ∧ walk s 1 (4096 * 8) = none ∧ e.record.isSome = true
       ∧ mergePages s (dieOf s 0).fault.merge + pageWeight (pageGroup s 1 8).2 ≤ 1024)
    ∧ (let e := { missing with vpn := 4 }
       let s := faulting { queue := [e] }
       (dieOf s 0).fault.queue.find? (fun e => ownerDie s (entryPage s e) == 0) = some e)
    ∧ ((walk one 1 (4096 * 2)).map fun q => leafPlace q.1 q.2.1 (4096 * 2)) = some (.device 0x204000)
    ∧ (let s := faulting { batchOpened := some 0 }
       (dieOf s 0).fault.batchOpened = some 0 ∧ 0 + 2000 ≤ s.dtime ∧ waitingPages s 0 = [])
    ∧ (let s := framed { leaving := true }
       (frameOf s 0x204).leaving = true ∧ frameBusy s 0x204 = false ∧ (frameOf s 0x204).lastLease ≤ s.dtime
       ∧ (frameOf s 0x204).dirty = 0 ∧ (∀ d, d < 4 → waitingPages s d = []) ∧ s.tables.freeMin ≤ freeFrames s) := by
  refine ⟨?_, ?_, ?_, ?_, ?_, ?_, ?_, ?_⟩ <;> decide +kernel

/-- 25, the table under R547: the first 12 bytes of the entry E1: page 0x50_0000_0000, unit 1, access 1; location 0x200,
context 9. -/
theorem test_fault_entry :
    let b := ({ ctx := 9, vpn := 0x5000000, access := 1, unit := 1, location := 0x200 } : FaultEntry).bytes State.reset
    leNat (b.take 8) = 0x0000005000000009 ∧ leNat ((b.drop 8).take 4) = 0x00200009 ∧ b.length = 32 := by decide +kernel

/-- `DrayEvents`: a page that has come, one with the pager, and its reply. -/
theorem hyp_pages :
    (let m : MergePage := { ctx := 1, vpn := 9, frame := some 0x300, inBatch := false }
     mergeOf (faulting { merge := [m] }) 0 1 9 = some m ∧ m.frame = some 0x300)
    ∧ (let m : MergePage := { ctx := 1, vpn := 9, waiters := [0], reader := [0], inBatch := false, toPager := true }
       let s : State := { faulting { merge := [m] } with dtime := 10 ^ 9 }
       mergeOf s 0 1 9 = some m ∧ m.pagerSince + 1000 * s.tables.pagerLimit ≤ s.dtime
       ∧ repliedPage s 0 { record := 0, vpn := 9, action := 1, code := 0, ctx := 1 } = some m
       ∧ repliedPage s 0 { record := 0, vpn := 8, action := 1, code := 0, ctx := 1 } = none)
    ∧ pagerCode 0x12 = some .extentGone := by
  refine ⟨?_, ?_, ?_⟩ <;> decide +kernel

/-- `DrayEvents`: records of every unit with no page to wait for, and one that waits for a slot. -/
theorem hyp_replay :
    ([ReplayWork.core 0x1000 2 [1024], .coachman 0 0x1000, .copy 0 4, .raster 0 0 0 0 0 0].all fun w =>
      let r : ReplayRecord := { cause := 1, work := w }
      let s : State := { one with more := [(1, { replay := [(0, r)] })] }
      mget (moreOf s 1).replay 0 == some r && !earlierRecord s 1 r && !unitParked s r.work && (ctxOf s 1).resident) = true
    ∧ (let r : ReplayRecord := { cause := 1, work := .core 0x1000 2 [1024] }
       let s : State := { modCtx one 1 (fun c => { c with f := { c.f with rplBase := 0x2800, rplSlots := 4 } }) with
         more := [(1, { replayWaiting := [r] })] }
       (moreOf s 1).retryAt = none ∧ freeReplaySlot s 1 r.work = some 0
       ∧ (placeRecord (modMore s 1 fun m => { m with replayWaiting := [] }) 1 0 r).isSome = true) := by
  refine ⟨?_, ?_⟩ <;> decide +kernel

/-- A request of `one`'s thread for eight bytes of host memory. -/
def accH : Access :=
  { acc with space := .hostH, size := .b8, issued := true
             lanes := [{ uid := 1024, dst := 4, mem := .host, addrs := (List.range 8).map (0x300000 + ·),
                         writes := byteWrites 0x300000 8 1 }] }

/-- `HostEvents`: an access to complete of each kind, and one that has waited 1 ms. -/
theorem hyp_host :
    ([AccKind.load, .store, .atomic].all fun k =>
      let a := { accH with kind := k }
      accessOf (flying a) 0 == some a && canPerform (flying a) a
        && a.lanes.all fun r => (r.addrs ++ r.writes.map Prod.fst).all fun x => !isPoisoned (flying a) r.mem (x / 32)) = true
    ∧ (let s := { flying accH with dtime := 10 ^ 6 }
       accH.issued = true ∧ accH.since + 1000000 ≤ s.dtime ∧ (accH.lanes.map LaneReq.uid).Nodup
       ∧ (hostPort s (dieOfCore accH.core)).isSome = true) := by
  refine ⟨?_, ?_⟩ <;> decide +kernel

/-- `one` with extent 0 as given. -/
def extended (x : Extent) : State :=
  mapped { one with tables := { one.tables with extents := [(0, x)] }, dtime := 10 }

/-- `HostEvents`: extents and loans in each state, and a request to lent memory. -/
theorem hyp_extents :
    (let s := extended { state := 2, base := 2 ^ 30, len := 4096 }
     (extentOf s 0).kind = 0 ∧ extentFrames s (extentOf s 0) = [] ∧ (extentOf s 0).deadline ≤ s.dtime
     ∧ (∀ d, d < 4 → waitingPages s d = []))
    ∧ (extentOf (extended { state := 1 }) 0).state = 1
    ∧ (let s := extended { state := 4, kind := 1, len := 4096 }
       (extentOf s 0).kind = 1 ∧ 64 % 64 = 0 ∧ 64 + 64 ≤ (extentOf s 0).len ∧ (List.replicate 64 (0 : Byte)).length = 64
       ∧ lentMap s 0 = 0 ∧ lentMap { s with tables := { s.tables with lentMaps := [(0, 2)] } } 0 ≠ 0)
    ∧ (let s := extended { state := 5, kind := 1 }
       (extentOf s 0).state = 5 ∧ (extentOf s 0).deadline ≤ s.dtime) := by
  refine ⟨?_, ?_, ?_, ?_⟩ <;> decide +kernel

/-- `extended` with a transfer record of one page, to 2000H, at 2500H. -/
def moving (kind flags : Nat) : State :=
  let s := extended { state := 1, len := 2 ^ 20 }
  let m := setCells s.mem.device
    (byteWrites 0x204500 2 (kind + 256 * flags) ++ byteWrites 0x204508 4 0x2000 ++ byteWrites 0x204510 4 0x7000
      ++ byteWrites 0x204518 2 0xFFFF ++ byteWrites 0x20451C 4 1)
  { modCtx s 1 (fun c => { c with f := { c.f with xfrBase := 0x2500, xfrSize := 4 }, xfrWrite := 1 }) with
    mem := { s.mem with device := m } }

/-- `HostEvents`: a fetch, a push, a record that is not legal, one of no active extent, one that ends. -/
theorem hyp_moves :
    ([1, 2].all fun k => (nextXfer (moving k 0) 1).any fun x =>
      x.kind == k && x.legal && !x.serial && remoteActive (moving k 0) x && remoteUp (moving k 0) x && x.remote == 0x7000
        && x.target == 0xFFFF && x.pages == 1 && okWith (localPages (moving k 0) 1 x) (· == [0x204000])) = true
    ∧ ((nextXfer (moving 3 0) 1).map Xfer.legal) = some false
    ∧ ((nextXfer (moving 2 8) 1).map Xfer.legal) = some true
    ∧ (let s : State := { moving 1 0 with tables := one.tables }
       ((nextXfer s 1).map fun x => (x.legal, remoteActive s x)) = some (true, false))
    ∧ (let s : State := { moving 1 0 with more := [(1, { xfers := [(0, .done, .none, 5)] })] }
       mget (moreOf s 1).xfers 0 = some (.done, .none, 5) ∧ 5 ≤ s.dtime ∧ (mget s.ctxs 1).isSome = true)
    ∧ (dieOf one (7 / 2)).lost = false ∧ (securityDie one).isSome = true := by
  refine ⟨?_, ?_, ?_, ?_, ?_, ?_, ?_⟩ <;> decide +kernel

/-- `SecurityEvents`: stored lines, a die to lose and to sweep, keys, sessions, tokens and debug states. -/
theorem hyp_security :
    (lineOf one 5).transient = false ∧ (frameOf one 0x204).valid = true ∧ (dieOf one 1).lost = false
    ∧ (dieOf (modDie one 1 fun d => { d with census := true }) 1).census = true
    ∧ hostReach one = true ∧ securityDie (modDie (modDie one 0 fun d => { d with lost := true }) 1 fun d => { d with lost := true }) = none
    ∧ crcMismatch (sectorError [(17, 1)] 1) = true ∧ crcMismatch (sectorError [(17, 1)] 0) = false
    ∧ ((List.range 64).filter fun j => symbolError [(0, 1), (1, 1), (2, 1), (3, 1), (4, 1)] j != 0).length = 5
    ∧ crcMismatch (sectorError [(0, 1), (1, 1), (2, 1), (3, 1), (4, 1)] 0) = true
    ∧ (let x : Spdm := { version := true, capabilities := true, algorithms := some 1, session := some 7, finished := true }
       let s : State := { booted with
         security := { booted.security with spdm := x, state := .debugAuthorised, debug := .halt }
         frames := mset booted.frames 0x206 { pin := true } }
       mailOpen s 0 = true ∧ imageOk s 0x206000 = true ∧ sessionOk s 7 = true ∧ sessionOk s 8 = false
       ∧ (mgetD s.tables.keys 3 {}).valid = false ∧ (mgetD s.tables.keys 0 {}).valid = true
       ∧ s.security.state ≠ .returnMaterial ∧ tokenOk s { device := 0, signed := true } = true
       ∧ tokenOk s { device := 0, signed := false } = false ∧ mayHalt s (.core 0) = true
       ∧ UnitId.core 0 ∉ s.security.haltedUnits)
    ∧ (let c : CmdQueue := { base := 0x2100, writeIdx := 1 }
       cmdQueueOf (queued 1 0) 1 0 = some c ∧ readerMay (queued 1 0) 1 0 c = true
       ∧ c.marks.contains (c.seq % 2 ^ 24) = false
       ∧ okWith (headBytes (queued 1 0) 1 c) (fun _ => true) = true) := by
  refine ⟨?_, ?_, ?_, ?_, ?_, ?_, ?_, ?_, ?_, ?_, ?_, ?_⟩ <;> decide +kernel

/-- `PowerEvents`: the mailbox open, a point in and out of the range, limits passed and not, idle units, fields. -/
theorem hyp_power :
    mailOpen booted 0 = true ∧ booted.power.vsMax ≤ 3 ∧ 3 ≤ booted.power.vsMin ∧ booted.power.vs < 3 ∧ 1 < booted.power.vs
    ∧ booted.power.target = none ∧ (booted.tables.partitions.any fun p => p.2.state == 3) = false ∧ limitsHold booted = true
    ∧ (let s := { booted with power := { booted.power with vsMax := 2, vsMin := 3 } }
       1 < s.power.vsMax ∧ s.power.vsMin < 4)
    ∧ maySleep booted = true ∧ heldShared booted = [] ∧ maySleep (parted { mask := 2, state := 1 }) = false
    ∧ booted.power.pkgLimit < 2000 ∧ 1800 ≤ booted.power.pkgLimit ∧ booted.power.lastThermal = 0
    ∧ unitIdle { booted with dtime := 5000 } (.core 9) = true ∧ unitIdle booted (.clusterUnit 9) = true
    ∧ unitIdle booted (.serviceCore 0) = true ∧ unitExists booted (.core 9) = true ∧ unitExists booted (.clusterUnit 9) = true
    ∧ unitExists booted (.serviceCore 0) = true ∧ unitExists booted (.core 768) = false ∧ fieldExists booted (.dispRamp 3) = true ∧ fieldExists booted (.dispRamp 4) = false
    ∧ (frameOf { one with frames := [] } 7).free = true := by
  refine ⟨?_, ?_, ?_, ?_, ?_, ?_, ?_, ?_, ?_, ?_, ?_, ?_, ?_, ?_, ?_, ?_, ?_, ?_, ?_, ?_, ?_, ?_, ?_, ?_, ?_⟩ <;>
    decide +kernel

/-- `CircularBuffers`: a lane with a configuration that is good, and one that is not. -/
theorem hyp_buffers :
    let f : FormA := { dst := .reg 1, a := .const 0, b := .reg 20, x := x0 }
    activeLanes one ⟨false, 0⟩ = (1024, only) :: []
    ∧ windowOk one 1 0 0 128 = true ∧ (srcWord only .a f.a).toNat % 128 = 0 ∧ (srcWord only .b f.b).toNat / 2 ^ 25 = 0
    ∧ (mgetD (coreOf one 0).cbufs 0 {}).takeSeq = (mgetD (coreOf one 0).cbufs 0 {}).freeSeq
    ∧ (srcWord only .a (.const 1)).toNat % 128 ≠ 0 := by decide +kernel

/-- `Calls`: `CALLX` through a table entry on page 1. -/
theorem hyp_callx :
    let f : FormB := { off := 0, x := x0 }
    okWith (tableTarget one f only) (fun a => a % 4 == 0 && decide (a < 2 ^ 56)) = true ∧ only.ctl.depth < 64 := by
  decide +kernel

/-- `DecodeEncode`. -/
theorem hyp_encode : Instr.wf .core (.iadd fA) = true ∧ Instr.wf .coachman (.iadd { fA with dst := .reg 1 }) = true := by decide

/-- Whether a step answers a next state. -/
def goesOn (s : State) : Bool :=
  match step s with
  | .next _ => true
  | _ => false

/-- Its next state. -/
theorem stepsTo_after (s : State) (h : goesOn s = true) : stepsTo s (after s) := by
  unfold goesOn at h
  unfold stepsTo after
  cases hs : step s <;> simp_all

/-- `ClausesWhole`, `MemoryFormKept`. -/
theorem hyp_steps_on : (∃ t, stepsTo add64 t) ∧ memWf add64 :=
  ⟨⟨_, stepsTo_after add64 (by decide +kernel)⟩, by unfold memWf; decide +kernel⟩

end Sys2Proof.Tests
end

section
/-!
SUPPORT. Reading back what a named update of the state has written, and the frames of the shared operations: what an L2
fill, a home write, an event entry or a failed structure write can change at all.
-/
namespace Sys2Proof.Proofs

open Sys2Proof.Machine

/-! ### Folds -/

/-- What every step of a fold keeps, the fold keeps. -/
theorem foldl_keeps {α β γ : Type} (p : α → γ) (f : α → β → α) (h : ∀ a b, p (f a b) = p a) (l : List β) (a : α) :
    p (l.foldl f a) = p a := by
  induction l generalizing a with
  | nil => rfl
  | cons b r ih => rw [List.foldl_cons, ih, h]

/-- A relation that is reflexive, transitive and met by every step of a fold is met by the fold. -/
theorem foldl_rel {α β : Type} (R : α → α → Prop) (refl : ∀ a, R a a) (trans : ∀ a b c, R a b → R b c → R a c)
    (f : α → β → α) (h : ∀ a b, R a (f a b)) (l : List β) (a : α) : R a (l.foldl f a) := by
  induction l generalizing a with
  | nil => exact refl a
  | cons b r ih => exact trans _ _ _ (h a b) (ih (f a b))

/-! ### Reading back -/

@[simp] theorem coreOf_modCore (s : State) (g h : Nat) (f : Core → Core) :
    coreOf (modCore s g f) h = if h = g then f (coreOf s g) else coreOf s h := by
  simp only [coreOf, modCore, mgetD, mget_mset]
  split <;> rfl

@[simp] theorem dieOf_modDie (s : State) (d e : Nat) (f : Die → Die) :
    dieOf (modDie s d f) e = if e = d then f (dieOf s d) else dieOf s e := by
  simp only [dieOf, modDie, mgetD, mget_mset]
  split <;> rfl

@[simp] theorem ctxOf_modCtx (s : State) (c d : Nat) (f : Context → Context) :
    ctxOf (modCtx s c f) d = if d = c then f (ctxOf s c) else ctxOf s d := by
  simp only [ctxOf, modCtx, mgetD, mget_mset]
  split <;> rfl

@[simp] theorem blockOf_modBlock_of_isSome (s : State) (b : Nat) (f : Block → Block)
    (h : (mget s.work.blocks b).isSome = true) : blockOf (modBlock s b f) b = f (blockOf s b) := by
  obtain ⟨k, hk⟩ := Option.isSome_iff_exists.1 h
  simp [blockOf, modBlock, modWork, mgetD, hk]

@[simp] theorem launchOf_modLaunch_of_isSome (s : State) (l : Nat) (f : Launch → Launch)
    (h : (mget s.work.launches l).isSome = true) : launchOf (modLaunch s l f) l = f (launchOf s l) := by
  obtain ⟨k, hk⟩ := Option.isSome_iff_exists.1 h
  simp [launchOf, modLaunch, modWork, mgetD, hk]

/-! ### The L2 (09 R204) -/

/-- A change of lines and frames at most. -/
def linesOnly (s t : State) : Prop := ∃ ls fs, t = { s with lines := ls, frames := fs }

theorem linesOnly.refl (s : State) : linesOnly s s := ⟨_, _, rfl⟩

theorem linesOnly.trans {s t u : State} : linesOnly s t → linesOnly t u → linesOnly s u := by
  rintro ⟨_, _, rfl⟩ ⟨_, _, rfl⟩
  exact ⟨_, _, rfl⟩

theorem modLine_linesOnly (s : State) (l : Nat) (f : LineDir → LineDir) : linesOnly s (modLine s l f) := ⟨_, _, rfl⟩

theorem modFrame_linesOnly (s : State) (k : Nat) (f : Frame → Frame) : linesOnly s (modFrame s k f) := ⟨_, _, rfl⟩

theorem l2Fill_linesOnly (s : State) (die line : Nat) (dirty : Bool) : linesOnly s (l2Fill s die line dirty) := by
  have marked : linesOnly s (if l2Holds s die line then s else markRef s line) := by
    split
    · exact .refl s
    · exact modFrame_linesOnly s _ _
  unfold l2Fill
  dsimp only
  generalize (if l2Holds s die line then s else markRef s line) = t at marked
  refine marked.trans ?_
  cases l2Victim t die line with
  | none =>
    dsimp only
    split
    · exact .refl t
    · exact modLine_linesOnly t _ _
  | some v =>
    dsimp only
    split
    · exact modLine_linesOnly t v _
    · exact (modLine_linesOnly t v _).trans (modLine_linesOnly _ _ _)

/-- A change of an L1 changes the core, the lines and the frames at most. -/
theorem changeL1_cores (s : State) (g : Nat) (f : Core → Core) : linesOnly (modCore s g f) (changeL1 s g f) :=
  foldl_rel linesOnly .refl (fun _ _ _ => .trans) _ (fun t _ => l2Fill_linesOnly t _ _ _) _ _

/-! ### Writes at a home (11 R267, 20 R554) -/

/-- A change of memory, lines and frames at most. -/
def homeOnly (s t : State) : Prop := ∃ m ls fs, t = { s with mem := m, lines := ls, frames := fs }

theorem homeOnly.refl (s : State) : homeOnly s s := ⟨_, _, _, rfl⟩

theorem homeOnly.trans {s t u : State} : homeOnly s t → homeOnly t u → homeOnly s u := by
  rintro ⟨_, _, _, rfl⟩ ⟨_, _, _, rfl⟩
  exact ⟨_, _, _, rfl⟩

theorem linesOnly.homeOnly {s t : State} : linesOnly s t → homeOnly s t := by
  rintro ⟨_, _, rfl⟩
  exact ⟨_, _, _, rfl⟩

theorem markDirty_linesOnly (s : State) (ws : List (Nat × Byte)) : linesOnly s (markDirty s ws) :=
  foldl_rel linesOnly .refl (fun _ _ _ => .trans) _ (fun t _ => modFrame_linesOnly t _ _) _ _

theorem clearPoison_homeOnly (s : State) (m : Mem) (k : Nat) : homeOnly s (clearPoison s m k) := ⟨_, _, _, rfl⟩

theorem writeBytes_device_homeOnly (s : State) (ws : List (Nat × Byte)) : homeOnly s (writeBytes s .device ws) :=
  (foldl_rel homeOnly .refl (fun _ _ _ => .trans) _ (fun t k => clearPoison_homeOnly t .device k) _ s).trans
    ⟨_, _, _, rfl⟩

theorem homeWriteNow_homeOnly (s : State) (ws : List (Nat × Byte)) : homeOnly s (homeWriteNow s ws) := by
  unfold homeWriteNow
  refine homeOnly.trans (linesOnly.homeOnly ?_)
    ((writeBytes_device_homeOnly _ ws).trans (markDirty_linesOnly _ ws).homeOnly)
  exact foldl_rel linesOnly .refl (fun _ _ _ => .trans) _
    (fun t l => (modLine_linesOnly t _ _).trans (l2Fill_linesOnly _ _ _ _)) _ s

theorem homeWrite_homeOnly (s : State) (ws : List (Nat × Byte)) : homeOnly s (homeWrite s ws) := by
  unfold homeWrite
  dsimp only
  split
  · exact homeWriteNow_homeOnly s ws
  · exact (foldl_rel linesOnly .refl (fun _ _ _ => .trans) _ (fun t l => modLine_linesOnly t _ _) _ s).homeOnly.trans
      (homeWriteNow_homeOnly _ _)

theorem writeVirtual_homeOnly {s t : State} {ctx va : Nat} {bs : List Byte} (h : writeVirtual s ctx va bs = some t) :
    homeOnly s t := by
  unfold writeVirtual at h
  split at h
  · cases h
  · cases h; exact homeWrite_homeOnly s _

/-! ### Reports: event entries, failed structure writes (20 R460, R554) -/

/-- What a report changes at most: memory with its lines and frames, the dies, the contexts and their records, the black
box and the state trace. Work, cores, clusters, power, inputs and the supervisor's tables stand. -/
def reportsOnly (s t : State) : Prop :=
  ∃ m ls fs ds cs ms bb sec, t = { s with
    mem := m, lines := ls, frames := fs, dies := ds, ctxs := cs, more := ms, blackBox := bb, security := sec }

theorem reportsOnly.refl (s : State) : reportsOnly s s := ⟨_, _, _, _, _, _, _, _, rfl⟩

theorem reportsOnly.trans {s t u : State} : reportsOnly s t → reportsOnly t u → reportsOnly s u := by
  rintro ⟨_, _, _, _, _, _, _, _, rfl⟩ ⟨_, _, _, _, _, _, _, _, rfl⟩
  exact ⟨_, _, _, _, _, _, _, _, rfl⟩

theorem homeOnly.reportsOnly {s t : State} : homeOnly s t → reportsOnly s t := by
  rintro ⟨_, _, _, rfl⟩
  exact ⟨_, _, _, _, _, _, _, _, rfl⟩

theorem modDie_reportsOnly (s : State) (d : Nat) (f : Die → Die) : reportsOnly s (modDie s d f) :=
  ⟨_, _, _, _, _, _, _, _, rfl⟩

theorem modCtx_reportsOnly (s : State) (c : Nat) (f : Context → Context) : reportsOnly s (modCtx s c f) :=
  ⟨_, _, _, _, _, _, _, _, rfl⟩

theorem modMore_reportsOnly (s : State) (c : Nat) (f : CtxMore → CtxMore) : reportsOnly s (modMore s c f) :=
  ⟨_, _, _, _, _, _, _, _, rfl⟩

theorem blackBoxAdd_reportsOnly (s : State) (e : BlackBox) : reportsOnly s (blackBoxAdd s e) :=
  ⟨_, _, _, _, _, _, _, _, rfl⟩

theorem structureFailedOn_reportsOnly (s : State) (die ctx addr : Nat) :
    reportsOnly s (structureFailedOn s die ctx addr) := by
  unfold structureFailedOn
  split
  · exact .refl s
  · exact (blackBoxAdd_reportsOnly s _).trans ((modMore_reportsOnly _ _ _).trans (modMore_reportsOnly _ _ _))

theorem structureFailed_reportsOnly (s : State) (ctx addr : Nat) : reportsOnly s (structureFailed s ctx addr) :=
  structureFailedOn_reportsOnly s _ ctx addr

theorem addTrace_reportsOnly (s : State) (ctx kind addr : Nat) : reportsOnly s (addTrace s ctx kind addr) := by
  unfold addTrace
  dsimp only
  split
  · exact ⟨_, _, _, _, _, _, _, _, rfl⟩
  · exact .refl s

theorem startTrapLimit_reportsOnly (s : State) (e : EventEntry) : reportsOnly s (startTrapLimit s e) := by
  unfold startTrapLimit
  split
  · exact .refl s
  · exact modMore_reportsOnly s _ _

theorem writeEvent_reportsOnly {s t : State} {die : Nat} {e : EventEntry} (h : writeEvent s die e = some t) :
    reportsOnly s t := by
  unfold writeEvent at h
  split at h
  · cases h
  · split at h
    · cases h
    · rename_i s1 hw
      cases h
      exact (writeVirtual_homeOnly hw).reportsOnly.trans <| (modCtx_reportsOnly s1 _ _).trans <|
        (modDie_reportsOnly _ _ _).trans <| (modMore_reportsOnly _ _ _).trans <|
        (startTrapLimit_reportsOnly _ e).trans (blackBoxAdd_reportsOnly _ _)

theorem holdEvent_reportsOnly (s : State) (die : Nat) (e : EventEntry) : reportsOnly s (holdEvent s die e) :=
  modDie_reportsOnly s die _

theorem appendEvent_reportsOnly (s : State) (die : Nat) (e : EventEntry) : reportsOnly s (appendEvent s die e) := by
  unfold appendEvent
  dsimp only
  refine (addTrace_reportsOnly s e.ctx e.kind e.addr).trans ?_
  generalize addTrace s e.ctx e.kind e.addr = t
  split
  · exact holdEvent_reportsOnly _ _ _
  · split
    · exact writeEvent_reportsOnly ‹_›
    · split
      · exact (holdEvent_reportsOnly _ _ _).trans (structureFailedOn_reportsOnly _ _ _ _)
      · exact holdEvent_reportsOnly _ _ _

/-! ### Counted events (19 R456) -/

/-- A counted event changes the performance counters of a core and a die. -/
theorem countDieEvent_dies (s : State) (die code n : Nat) : ∃ ds, countDieEvent s die code n = { s with dies := ds } := by
  unfold countDieEvent
  split <;> exact ⟨_, rfl⟩

theorem countEvent_coresDies (s : State) (core code n : Nat) :
    ∃ cs ds, countEvent s core code n = { s with cores := cs, dies := ds } := by
  unfold countEvent
  dsimp only
  obtain ⟨ds, hd⟩ := countDieEvent_dies
    (if (coreOf s core).perf.isEmpty || code = 10 then s
      else modCore s core fun c => { c with perf := c.perf.map fun p =>
        (p.1, if counts s p.2.control code then p.2.bump n else p.2) }) (dieOfCore core) code n
  rw [hd]
  split <;> exact ⟨_, _, rfl⟩

@[simp] theorem countEvent_work (s : State) (core code n : Nat) : (countEvent s core code n).work = s.work := by
  obtain ⟨_, _, h⟩ := countEvent_coresDies s core code n
  rw [h]

@[simp] theorem countEvent_mem (s : State) (core code n : Nat) : (countEvent s core code n).mem = s.mem := by
  obtain ⟨_, _, h⟩ := countEvent_coresDies s core code n
  rw [h]

/-! ### What an accessor reads -/

theorem blockOf_congr {s t : State} (h : t.work.blocks = s.work.blocks) (b : Nat) : blockOf t b = blockOf s b := by
  rw [blockOf, h, blockOf]

end Sys2Proof.Proofs
end

section
/-! PROOF of the statement on reset, O60 (02 R36). -/

namespace Sys2Proof.Proofs
open Sys2Proof.Machine Sys2Proof.Safety

/-- Settles O60: every field of reset is its default, and a memory that lists nothing is in canonical form. -/
theorem resetValues : Obligations.ResetValues := by
  have empty : Memory.wf [] = true := rfl
  have memories : memWf State.reset := ⟨empty, empty, empty⟩
  have dies : ∀ d, (dieOf State.reset d).dispRamp = 64 ∧ (dieOf State.reset d).shadowWays = 4 := fun _ => ⟨rfl, rfl⟩
  exact ⟨rfl, memories, rfl, rfl, rfl, rfl, rfl, rfl, rfl, dies, rfl, rfl, rfl, rfl, rfl, rfl, rfl, rfl⟩
end Sys2Proof.Proofs
end

section
/-! REFUTATION of the statement on scheduling, O44: the deadline of a fence (02 R40, 11 R255). -/
namespace Sys2Proof.Proofs
open Sys2Proof.Machine Sys2Proof.Safety

/-! ### O44: the write horizon of a fence -/

/-- A `FENCE` of class 0 at `.dev`, issued while its thread's write horizon was still 0. -/
def earlyFence : Wait :=
  { kind := .fence 1 .dev [] [] [] 0, deadline := 50, resume := 0x1008, site := 0x1000, dst := .reg 1, esc := false
    poll := false }

/-- The thread blocked in it: a store applied since has raised the write horizon to 500 ns (11 R255). -/
def fencedThread : Thread :=
  { block := 1, tid := 0, slot := 0, regs := { wh := 500 }, ctl := { pc := 0x1008, run := .blocked, wait := some earlyFence } }

/-- The thread's device at 100 ns: the deadline has passed, the store is not yet performed at `.dev`. -/
def fencedState : State :=
  { dtime := 100, ctxs := [(1, { f := { escLimit := 0 }, ctime := 100 })]
    work := { threads := [(1024, fencedThread)], blocks := [(1, { launch := 1, core := some 0 })]
              launches := [(1, { ctx := 1 })] } }

/-- At the deadline the fence counts the raised write horizon: class 0 is not complete, and the word written is `PARTIAL`
with an empty mask. -/
theorem fencedState_expiry_writes :
    ∀ t, exec (.waitDeadlineExpiry (.thread 1024)) fencedState = .next t →
      (threadOf t 1024).map (·.regs.get 1) = some (statusWord .partialDone 0) := by
  have written : (match exec (.waitDeadlineExpiry (.thread 1024)) fencedState with
      | .next t => (threadOf t 1024).map (·.regs.get 1)
      | _ => none) = some (statusWord .partialDone 0) := by decide +kernel
  intro t ht
  rwa [ht] at written

/-- With the write horizon of the fence's issue alone, as the statement has it, class 0 would be complete. -/
theorem fencedState_mask_at_issue : fenceMask fencedState 1 1 .dev [] [] [] [] 0 = 1 := by decide +kernel

/-- Refutes O44: a fence that expires reports the classes complete under the later of the write horizons of its issue and of now
(`max wh t.regs.wh`); the statement's mask takes the former alone. In `fencedState` the two differ. -/
theorem not_schedulingEvents : ¬ Obligations.SchedulingEvents := by
  unfold Obligations.SchedulingEvents
  rintro ⟨-, -, -, -, -, -, deadline, -⟩
  have resident : (ctxOf fencedState (ctxOfBlock fencedState fencedThread.block)).resident = true := by decide +kernel
  have passed : earlyFence.deadline ≤ (ctxOf fencedState (ctxOfBlock fencedState fencedThread.block)).ctime := by
    decide +kernel
  have notMet : conditionMet fencedState 1024 fencedThread earlyFence = none := by decide +kernel
  have noLimit : (ctxOf fencedState (ctxOfBlock fencedState fencedThread.block)).f.escLimit = 0 := by decide +kernel
  obtain ⟨-, expires⟩ := deadline fencedState 1024 fencedThread earlyFence ⟨rfl, rfl, rfl, resident⟩ passed
  obtain ⟨t, ht, th, hth, -, -, -, -, value⟩ := expires notMet rfl noLimit
  have claimed : th.regs.get 1 = statusWord .partialDone 1 := by
    rw [← fencedState_mask_at_issue]; exact value 1 rfl
  have found := fencedState_expiry_writes t ht
  rw [hth, Option.map_some, claimed, Option.some_inj] at found
  exact absurd found (by decide)
end Sys2Proof.Proofs
end
section
/-! SUPPORT. Frames of the operations that schedule blocks: filing, the block-level check, thread slots, the ramp. -/
namespace Sys2Proof.Proofs

open Sys2Proof.Machine

/-! ### Counted state, threads, filing -/

/-- A change of the counted state of blocks at most. -/
def syncOnly (s t : State) : Prop := ∃ y, t = { s with work := { s.work with sync := y } }

theorem syncOnly.refl (s : State) : syncOnly s s := ⟨_, rfl⟩

theorem syncOnly.trans {s t u : State} : syncOnly s t → syncOnly t u → syncOnly s u := by
  rintro ⟨_, rfl⟩ ⟨_, rfl⟩
  exact ⟨_, rfl⟩

theorem modSync_syncOnly (s : State) (b : Nat) (f : BlockSync → BlockSync) : syncOnly s (modSync s b f) := ⟨_, rfl⟩

theorem setKreg_syncOnly (s : State) (b k : Nat) (x : KReg) : syncOnly s (setKreg s b k x) := modSync_syncOnly s b _

theorem dropBound_syncOnly (s : State) (b t : Nat) (st : Status) : syncOnly s (dropBound s b t st) :=
  syncOnly.trans (t := ringPut s b t st .none) (modSync_syncOnly s b _) (modSync_syncOnly _ b _)

theorem checkKreg_syncOnly (s : State) (b k : Nat) : syncOnly s (checkKreg s b k) := by
  unfold checkKreg
  generalize kregOf s b k = r
  dsimp only
  cases unsignedExit s b r with
  | false => exact .refl s
  | true =>
    obtain ⟨d, g, st, cmd⟩ := r
    cases st with
    | declared => exact setKreg_syncOnly s b k _
    | bound =>
      cases cmd with
      | none => exact .refl s
      | some t => exact (dropBound_syncOnly s b t .withdrawn).trans (setKreg_syncOnly _ b k {})
    | _ => exact .refl s

theorem blockCheck_syncOnly (s : State) (b : Nat) : syncOnly s (blockCheck s b) := by
  have checked : syncOnly s ((List.range 16).foldl (fun acc k => checkKreg acc b k) s) :=
    foldl_rel syncOnly .refl (fun _ _ _ => .trans) _ (fun t k => checkKreg_syncOnly t b k) _ s
  unfold blockCheck
  exact checked.trans (modSync_syncOnly _ b _)

@[simp] theorem blockCheck_mem (s : State) (b : Nat) : (blockCheck s b).mem = s.mem := by
  obtain ⟨_, h⟩ := blockCheck_syncOnly s b
  rw [h]

@[simp] theorem blockCheck_work_blocks (s : State) (b : Nat) : (blockCheck s b).work.blocks = s.work.blocks := by
  obtain ⟨_, h⟩ := blockCheck_syncOnly s b
  rw [h]

@[simp] theorem blockCheck_work_threads (s : State) (b : Nat) : (blockCheck s b).work.threads = s.work.threads := by
  obtain ⟨_, h⟩ := blockCheck_syncOnly s b
  rw [h]

/-- A change of threads at most. -/
def threadsOnly (s t : State) : Prop := ∃ ts, t = { s with work := { s.work with threads := ts } }

theorem threadsOnly.refl (s : State) : threadsOnly s s := ⟨_, rfl⟩

theorem threadsOnly.trans {s t u : State} : threadsOnly s t → threadsOnly t u → threadsOnly s u := by
  rintro ⟨_, rfl⟩ ⟨_, rfl⟩
  exact ⟨_, rfl⟩

theorem modThread_threadsOnly (s : State) (u : Nat) (f : Thread → Thread) : threadsOnly s (modThread s u f) := ⟨_, rfl⟩

theorem giveSlots_threadsOnly (s : State) (b core : Nat) : threadsOnly s (giveSlots s b core) :=
  foldl_rel threadsOnly .refl (fun _ _ _ => .trans) _ (fun t _ => modThread_threadsOnly t _ _) _ s

@[simp] theorem giveSlots_mem (s : State) (b core : Nat) : (giveSlots s b core).mem = s.mem := by
  obtain ⟨_, h⟩ := giveSlots_threadsOnly s b core
  rw [h]

@[simp] theorem giveSlots_work_blocks (s : State) (b core : Nat) :
    (giveSlots s b core).work.blocks = s.work.blocks := by
  obtain ⟨_, h⟩ := giveSlots_threadsOnly s b core
  rw [h]

/-- A change of threads and of what cores file at most; each core keeps its blocks. -/
def filesOnly (s t : State) : Prop :=
  (∃ ts cs, t = { s with work := { s.work with threads := ts }, cores := cs })
  ∧ ∀ g, (coreOf t g).blocks = (coreOf s g).blocks

theorem filesOnly.refl (s : State) : filesOnly s s := ⟨⟨_, _, rfl⟩, fun _ => rfl⟩

theorem filesOnly.trans {s t u : State} : filesOnly s t → filesOnly t u → filesOnly s u := by
  rintro ⟨⟨_, _, rfl⟩, hb⟩ ⟨⟨_, _, rfl⟩, hc⟩
  exact ⟨⟨_, _, rfl⟩, fun g => (hc g).trans (hb g)⟩

theorem threadsOnly.filesOnly {s t : State} : threadsOnly s t → filesOnly s t := by
  rintro ⟨_, rfl⟩
  exact ⟨⟨_, _, rfl⟩, fun _ => rfl⟩

theorem enterBin_filesOnly (s : State) (core u : Nat) (t : Thread) : filesOnly s (enterBin s core u t) := by
  refine ⟨⟨_, _, rfl⟩, fun g => ?_⟩
  unfold enterBin
  rw [coreOf_modCore]
  split
  · rename_i hg
    subst hg
    split
    · rfl
    · split <;> rfl
  · rfl

theorem fileThread_filesOnly (s : State) (u : Nat) : filesOnly s (fileThread s u) := by
  unfold fileThread
  split
  · exact .refl s
  · dsimp only
    split
    · exact (modThread_threadsOnly s u _).filesOnly.trans (enterBin_filesOnly _ _ _ _)
    · exact (modThread_threadsOnly s u _).filesOnly

theorem fileThreads_filesOnly (s : State) (us : List Nat) : filesOnly s (fileThreads s us) :=
  foldl_rel filesOnly .refl (fun _ _ _ => .trans) _ fileThread_filesOnly us s

theorem fileBlock_filesOnly (s : State) (b : Nat) : filesOnly s (fileBlock s b) := fileThreads_filesOnly s _

@[simp] theorem fileBlock_mem (s : State) (b : Nat) : (fileBlock s b).mem = s.mem := by
  obtain ⟨⟨_, _, h⟩, -⟩ := fileBlock_filesOnly s b
  rw [h]

@[simp] theorem fileBlock_work_blocks (s : State) (b : Nat) : (fileBlock s b).work.blocks = s.work.blocks := by
  obtain ⟨⟨_, _, h⟩, -⟩ := fileBlock_filesOnly s b
  rw [h]

@[simp] theorem countRamp_mem (s : State) (die : Nat) (n : Int) : (countRamp s die n).mem = s.mem := rfl

@[simp] theorem countRamp_work (s : State) (die : Nat) (n : Int) : (countRamp s die n).work = s.work := rfl

/-! ### Placing a block (02 R35) -/

theorem queueProgram_coaches (s : State) (core b : Nat) : ∃ cs, queueProgram s core b = { s with coaches := cs } := by
  unfold queueProgram
  dsimp only
  split <;> exact ⟨_, rfl⟩

theorem takeCheckpoint_syncOnly (s : State) (b : Nat) : syncOnly s (takeCheckpoint s b) := by
  unfold takeCheckpoint
  exact modSync_syncOnly s b _

/-- R35: what the start of a block leaves: the next block number, the core that holds it, and the block itself. -/
theorem startBlock_placed (s : State) (core l : Nat) (e : SpawnEntry) (hit : Bool) (index gangs gpos : Nat)
    (group : Option Nat) :
    (startBlock s core l e hit index gangs gpos group).work.nextBlock = s.work.nextBlock + 1
      ∧ (coreOf (startBlock s core l e hit index gangs gpos group) core).blocks
          = (coreOf s core).blocks ++ [s.work.nextBlock]
      ∧ ∃ k, mget (startBlock s core l e hit index gangs gpos group).work.blocks s.work.nextBlock = some k
          ∧ k.launch = l ∧ k.index = index ∧ k.core = some core ∧ k.entry = e.entry ∧ k.params = e.params := by
  unfold startBlock
  extract_lets s1 k b slots ts live block s2 s3 s4 s5
  have filed : filesOnly s3 s4 := fileThreads_filesOnly s3 _
  have last : syncOnly s5 (if k.desc.shadow then takeCheckpoint s5 b else s5) := by
    split
    · exact takeCheckpoint_syncOnly s5 b
    · exact .refl s5
  obtain ⟨⟨ths, cores, hs4⟩, hblocks⟩ := filed
  obtain ⟨coaches, hs5⟩ := queueProgram_coaches s4 core b
  obtain ⟨sync, hlast⟩ := last
  have work5 : s5.work = { s3.work with threads := ths } := by rw [show s5 = _ from hs5, hs4]
  have cores5 : (coreOf s5 core).blocks = (coreOf s3 core).blocks := by rw [show s5 = _ from hs5]; exact hblocks core
  rw [hlast]
  refine ⟨?_, ?_, block, ?_, rfl, rfl, rfl, rfl, rfl⟩
  · show s5.work.nextBlock = _
    rw [work5]; rfl
  · show (coreOf s5 core).blocks = _
    rw [cores5, coreOf_modCore, if_pos rfl]; rfl
  · show mget s5.work.blocks _ = _
    rw [work5]
    exact mget_mset_same _ _ _

end Sys2Proof.Proofs
end

section
/-! SUPPORT. Placing a block of a launch without groups, placing an evicted one again, evicting one (02 R35, R41). -/
namespace Sys2Proof.Proofs
open Sys2Proof.Machine Sys2Proof.Safety

/-- R35: the next block of a launch without groups is placed alone, where its core can hold it. -/
theorem placeNext_eq_startNext {s s1 : State} {l core : Nat} {e : SpawnEntry} {hit : Bool}
    (hnext : nextEntry (launchOf s l) = some (e, hit)) (alone : (launchOf s l).desc.group = false)
    (ready : spawnReady s e = true) (onDie : ∀ d, e.die = some d → dieOfCore core = d)
    (live : (launchOf s l).cancelled = false) (room : fits s core l (gangsOf (launchOf s l) e.index) = true)
    (claimed : readyCore l (gangsOf (launchOf s l) e.index) (.ok s) core = .ok s1) :
    placeNext s l core = startNext s1 l core e hit 1 := by
  have one : groupSize (launchOf s l) e hit = 1 := by simp [groupSize, alone]
  have rampRoom : 0 < rampLeft s (dieOfCore core) := by
    simp only [fits, Bool.and_eq_true, decide_eq_true_eq] at room
    exact room.1.2
  have rate : 1 ≤ rampRate (dieOf s (dieOfCore core)) := Nat.le_max_left _ _
  have start : min 1 (rampRate (dieOf s (dieOfCore core))) ≤ rampLeft s (dieOfCore core) := by omega
  unfold placeNext
  simp only [hnext, one]
  cases hd : e.die with
  | none => simp [ready, alone, live, room, start, placeOn, claimed]
  | some d =>
    obtain rfl := onDie d hd
    simp [ready, alone, live, room, start, placeOn, claimed]

/-- R35, R553: what the placing of one block leaves. -/
theorem startNext_one_placed (s : State) (l core : Nat) (e : SpawnEntry) (hit : Bool) :
    (startNext s l core e hit 1).work.nextBlock = s.work.nextBlock + 1
      ∧ (coreOf (startNext s l core e hit 1) core).blocks = (coreOf s core).blocks ++ [s.work.nextBlock]
      ∧ ∃ k, mget (startNext s l core e hit 1).work.blocks s.work.nextBlock = some k ∧ k.launch = l ∧ k.index = e.index
          ∧ k.core = some core ∧ k.entry = e.entry ∧ k.params = e.params := by
  have placed := startBlock_placed s core l e hit e.index (gangsOf (launchOf s l) e.index) 0
  unfold startNext
  simp only [List.range_one, List.foldl_cons, List.foldl_nil, Nat.add_zero]
  split
  · exact placed (some s.work.nextBlock)
  · exact placed none

/-! ### Placing again, eviction, parking (02 R41, 09 R219) -/

/-- R41: an evicted block that wakes, where its core has slots and the ramp has room, is placed again. -/
theorem placeAgain_evicted {s s0 : State} {b core : Nat} (evicted : (blockOf s b).evicted = true)
    (unparked : (blockOf s b).parked = false) (here : (blockOf s b).core = some core)
    (wakes : ((threadsOfBlock s b).any fun p => p.2.ctl.run == .runnable) = true)
    (resident : (ctxOf s (ctxOfBlock s b)).resident = true) (slots : (blockOf s b).gangs ≤ (freeGangSlots s core).length)
    (ramp : 0 < rampLeft s (dieOfCore core)) (refilled : refillBanks (.ok s) b = .ok s0) :
    (blockOf (placeAgain s b core) b).evicted = false := by
  have again : placeAgain s b core = fileBlock (blockCheck (modBlock
      (countRamp (giveSlots s0 b core) (dieOfCore core) 1) b fun x => { x with evicted := false }) b) b := by
    unfold placeAgain
    simp [evicted, unparked, here, wakes, resident, slots, ramp, refilled]
  rw [again, blockOf_congr (fileBlock_work_blocks _ _), blockOf_congr (blockCheck_work_blocks _ _)]
  simp only [blockOf, modBlock, modWork, mgetD, mget_mmod, if_true]
  cases mget (countRamp (giveSlots s0 b core) (dieOfCore core) 1).work.blocks b <;> rfl

/-- R41: an eviction leaves the threads and the memory that the saving of its wait records left. -/
theorem evictBlock_result (s : State) (b : Nat) (listed : (mget s.work.blocks b).isSome = true) :
    (blockOf (evictBlock s b) b).evicted = true ∧ (evictBlock s b).work.threads = s.work.threads
      ∧ (evictBlock s b).mem = s.mem := by
  have blocks : (evictBlock s b).work.blocks
      = (modBlock (blockCheck s b) b fun k => { k with evicted := true }).work.blocks := by simp [evictBlock]
  refine ⟨?_, by simp [evictBlock], by simp [evictBlock]⟩
  have listed' : (mget (blockCheck s b).work.blocks b).isSome = true := by simpa using listed
  rw [blockOf_congr blocks, blockOf_modBlock_of_isSome _ _ _ listed']

end Sys2Proof.Proofs
end

section
/-! SUPPORT. Refilling a parked block, ending a block, parking one, ordering a step of the operating point (09 R217 to R221, 02 R34). -/
namespace Sys2Proof.Proofs
open Sys2Proof.Machine Sys2Proof.Safety

/-- R219: a parked block with its rows back on its core, in free usable places. -/
def rowsReturned (s s0 : State) (b core : Nat) : State :=
  modBlock s0 b fun x =>
    { x with parked := false, selected := false
             rowPlace := givePlaces (launchOfBlock s b).desc.rows (blockRoom s core (planVs s)) }

section
variable {s s0 : State} {b core : Nat} (here : (blockOf s b).core = some core) (parked : (blockOf s b).parked = true)
  (room : rowsUsed s core + (launchOfBlock s b).desc.rows
    ≤ capacityWith s core (coreOf s core).roles (launchOfBlock s b).desc.tobBanks (planVs s))
  (resident : (ctxOf s (ctxOfBlock s b)).resident = true) (unparked : unparkRows s b = .ok s0)
include here parked room resident unparked

/-- R210, R219: a block that has ended gets its rows back and nothing else. -/
theorem refillBlock_of_ended (ended : (blockOf s b).ended = true) : refillBlock s b = rowsReturned s s0 b core := by
  unfold launchOfBlock at room
  unfold refillBlock
  simp [here, parked, room, resident, unparked, ended, rowsReturned, launchOfBlock]

/-- R219: a block that runs on also gets its banks back; what is filed then leaves the block and memory as they are. -/
theorem refillBlock_of_live {s2 : State} (live : (blockOf s b).ended = false)
    (slots : (blockOf s b).gangs ≤ (freeGangSlots s core).length)
    (refilled : refillBanks (.ok (rowsReturned s s0 b core)) b = .ok s2) :
    blockOf (refillBlock s b) b = blockOf s2 b ∧ (refillBlock s b).mem = s2.mem := by
  have result : refillBlock s b = if (blockOf s b).evicted then s2
      else fileBlock (blockCheck (giveSlots (countRamp s2 (dieOfCore core) 1) b core) b) b := by
    unfold launchOfBlock at room
    unfold rowsReturned launchOfBlock at refilled
    unfold refillBlock
    simp [here, parked, room, resident, unparked, live, slots, refilled]
  rw [result]
  split
  · exact ⟨rfl, rfl⟩
  · exact ⟨blockOf_congr (by simp) b, by simp⟩
end

/-! ### The end of a block (02 R34) -/

@[simp] theorem launchSettled_work (s : State) (l : Nat) : (launchSettled s l).work = s.work := by
  unfold launchSettled
  dsimp only
  split <;> rfl

@[simp] theorem launchDown_work_threads (s : State) (l : Nat) : (launchDown s l).work.threads = s.work.threads := by
  unfold launchDown
  split
  · exact foldl_keeps (fun t : State => t.work.threads) startFlush (fun _ _ => rfl) _ _
  · rw [launchSettled_work]; rfl

@[simp] theorem leaveCore_work (s : State) (b : Nat) : (leaveCore s b).work = s.work := by
  unfold leaveCore
  split <;> rfl

theorem forgetBlock_work_threads (s : State) (b : Nat) : (forgetBlock s b).work.threads = s.work.threads := by
  show (leaveCore s b).work.threads = _
  rw [leaveCore_work]

@[simp] theorem freeRows_work_threads (s : State) (b : Nat) : (freeRows s b).work.threads = s.work.threads := by
  unfold freeRows
  split
  · rfl
  · split
    · exact forgetBlock_work_threads s b
    · exact foldl_keeps (fun t : State => t.work.threads) forgetBlock forgetBlock_work_threads _ s

theorem mem_of_mget {α : Type} {m : SMap α} {i : Nat} {x : α} (h : mget m i = some x) : (i, x) ∈ m := by
  induction m with
  | nil => cases h
  | cons p r ih =>
    obtain ⟨k, v⟩ := p
    unfold mget at h
    split at h
    · rename_i hk
      cases h
      rw [hk]
      exact List.mem_cons_self
    · exact List.mem_cons_of_mem _ (ih h)

/-- R34, R468: no thread of a block outlives its end. -/
theorem endBlock_threads_gone (s : State) (b u : Nat) (th : Thread) (h : threadOf (endBlock s b) u = some th) :
    th.block ≠ b := by
  have kept : ∀ t : State, (launchDown (settleHolds (freeRows (forgetThreads t b) b)) (blockOf s b).launch).work.threads
      = t.work.threads.filter fun p => p.2.block != b := by
    intro t
    rw [launchDown_work_threads]
    exact freeRows_work_threads (forgetThreads t b) b
  unfold endBlock threadOf at h
  dsimp only at h
  rw [kept] at h
  simpa using (List.mem_filter.1 (mem_of_mget h)).2

/-! ### Parking (09 R219) -/

@[simp] theorem unfile_work_blocks (s : State) (core : Nat) (us : List Nat) :
    (unfile s core us).work.blocks = s.work.blocks := rfl

theorem settleHolds_work_blocks (s : State) : (settleHolds s).work.blocks = s.work.blocks := rfl

/-- R219: a block that leaves its rows is parked and holds none. -/
theorem leaveRows_parked (s : State) (b : Nat) (listed : (mget s.work.blocks b).isSome = true) :
    (blockOf (leaveRows s b) b).parked = true ∧ (blockOf (leaveRows s b) b).rowPlace = [] := by
  unfold leaveRows
  extract_lets core us s1 s2 s3 s4
  have blocks2 : s2.work.blocks = s.work.blocks := by
    refine (?_ : s2.work.blocks = s1.work.blocks).trans (unfile_work_blocks s core us)
    refine foldl_keeps (fun t : State => t.work.blocks) _ ?_ us s1
    intro _ _
    rfl
  have blocks3 : s3.work.blocks = s.work.blocks := by
    show (if _ then s2 else blockCheck s2 b).work.blocks = _
    split
    · exact blocks2
    · rw [blockCheck_work_blocks, blocks2]
  have blocks4 : s4.work.blocks = s.work.blocks := by
    show (if _ then s3 else countRamp s3 _ _).work.blocks = _
    split
    · exact blocks3
    · exact blocks3
  rw [blockOf_congr (settleHolds_work_blocks _), blockOf_modBlock_of_isSome _ _ _ (by rw [blocks4]; exact listed)]
  exact ⟨rfl, rfl⟩

/-! ### Steps of the operating point (09 R218, R220, R221) -/

@[simp] theorem selectBlock_power (s : State) (b : Nat) : (selectBlock s b).power = s.power := by
  unfold selectBlock
  dsimp only
  refine foldl_keeps (fun t : State => t.power) _ ?_ _ s
  intro _ _
  rfl

@[simp] theorem selectOn_power (core vs fuel : Nat) (s : State) : (selectOn core vs fuel s).power = s.power := by
  induction fuel generalizing s with
  | zero => rfl
  | succ n ih =>
    unfold selectOn
    dsimp only
    split
    · rfl
    · split
      · rfl
      · rw [ih, selectBlock_power]

/-- R220: no step waits where none is in progress and no partition switches. -/
theorem stepWaits_eq_false {s : State} (none : s.power.target = none)
    (still : (s.tables.partitions.any fun p => p.2.state == 3) = false) : stepWaits s = false := by
  simp [stepWaits, none, still]

theorem stepWaits_eq_true {s : State}
    (busy : ¬(s.power.target = none ∧ (s.tables.partitions.any fun p => p.2.state == 3) = false)) :
    stepWaits s = true := by
  unfold stepWaits
  cases target : s.power.target with
  | some n => rfl
  | none =>
    cases still : s.tables.partitions.any fun p => p.2.state == 3 with
    | true => rfl
    | false => exact absurd ⟨target, still⟩ busy

/-- R218 step 1: what the order of a step down leaves of the operating point. -/
theorem orderStepDown_power {s : State} {n : Nat} {urgent : Bool} (down : s.power.vs < n) (top : n ≤ 5)
    (calm : stepWaits s = false) :
    (orderStepDown s n urgent).power =
      { s.power with target := some n, phase := 1, orderedAt := s.dtime, urgent := urgent } := by
  unfold orderStepDown
  rw [if_neg (by omega), if_neg (by simp [calm])]
  exact foldl_keeps (fun t : State => t.power) _ (fun t g => selectOn_power g n 64 t) _ _

theorem orderStepDown_waits {s : State} {n : Nat} {urgent : Bool} (down : s.power.vs < n) (top : n ≤ 5)
    (busy : stepWaits s = true) : orderStepDown s n urgent = queueStep s n urgent := by
  unfold orderStepDown
  rw [if_neg (by omega), if_pos busy]

end Sys2Proof.Proofs
end

section
/-! SUPPORT. The phases of a step of the operating point, and O45. -/
namespace Sys2Proof.Proofs
open Sys2Proof.Machine Sys2Proof.Safety

/-! ### Moving rows, the limits and the ends of a step (09 R217 to R221) -/

@[simp] theorem moveBlockRows_power (s : State) (core vs : Nat) : (moveBlockRows s core vs).power = s.power :=
  foldl_keeps (fun t : State => t.power) (fun acc b =>
    let q := movePlaces acc core vs (blockOf acc b).rowPlace (blockRoom acc core vs)
    modBlock acc b fun k => { k with rowPlace := q.1 }) (fun _ _ => rfl) _ s

theorem moveBlockRows_workOnly (s : State) (core vs : Nat) : ∃ w, moveBlockRows s core vs = { s with work := w } := by
  unfold moveBlockRows
  refine foldl_rel (fun a t : State => ∃ w, t = { a with work := w }) (fun _ => ⟨_, rfl⟩) ?_ _ (fun _ _ => ⟨_, rfl⟩) _ s
  rintro _ _ _ ⟨_, rfl⟩ ⟨_, rfl⟩
  exact ⟨_, rfl⟩

theorem moveTobRows_frame (s : State) (core vs : Nat) :
    (moveTobRows s core vs).power = s.power ∧ (moveTobRows s core vs).mem = s.mem
      ∧ (coreOf (moveTobRows s core vs) core).l1 = (coreOf s core).l1 := by
  unfold moveTobRows
  split
  · exact ⟨rfl, rfl, rfl⟩
  · refine ⟨rfl, rfl, ?_⟩
    dsimp only
    rw [coreOf_modCore, if_pos rfl]

theorem spillLost_of_noneLost {s : State} {core vs : Nat} (kept : lostBanks s core vs = []) : spillLost s core vs = s := by
  simp [spillLost, kept]

/-- R218 steps 4 and 5: where no owner loses a bank, the rows move and the L1 shrinks, and nothing is written. -/
theorem execRowEvacuation_result {s : State} {core n : Nat} (target : s.power.target = some n) (phase : s.power.phase = 2)
    (kept : lostBanks (moveTobRows (moveBlockRows s core n) core n) core n = []) :
    answers (.rowEvacuation core) s fun t => t.power = s.power ∧ t.mem = s.mem
      ∧ (coreOf t core).l1 = (coreOf s core).l1.take (roleRows s core 0 n) := by
  refine ⟨changeL1 (spillLost (moveTobRows (moveBlockRows s core n) core n) core n) core
    (keepCopies (roleRows s core 0 n)), ?_, ?_⟩
  · show execRowEvacuation core s = _
    simp [execRowEvacuation, target, phase]
  · rw [spillLost_of_noneLost kept]
    obtain ⟨power, mem, l1⟩ := moveTobRows_frame (moveBlockRows s core n) core n
    obtain ⟨w, moved⟩ := moveBlockRows_workOnly s core n
    generalize moveTobRows (moveBlockRows s core n) core n = u at power mem l1 ⊢
    rw [moved] at power mem l1
    obtain ⟨ls, fs, shrunk⟩ := changeL1_cores u core (keepCopies (roleRows s core 0 n))
    rw [shrunk]
    refine ⟨power, mem, ?_⟩
    show (coreOf (modCore u core _) core).l1 = _
    rw [coreOf_modCore, if_pos rfl]
    show (coreOf u core).l1.take _ = _
    rw [l1]
    rfl

@[simp] theorem switchPoint_power (s : State) (n : Nat) (p : Power) : (switchPoint s n p).power = p := rfl

/-- R218 step 3: with no block selected the step goes on at once. -/
theorem execEvaclimitExpiry_of_none {s : State} (phase : s.power.phase = 1) (none : selectedBlocks s = []) :
    execEvaclimitExpiry s = .next { s with power := { s.power with phase := 2 } } := by
  simp [execEvaclimitExpiry, phase, none]

/-- R219: the one selected block is parked at the limit. -/
theorem execEvaclimitExpiry_of_one {s : State} {b : Nat} (phase : s.power.phase = 1)
    (limit : s.power.orderedAt + evacNs s ≤ s.dtime) (one : selectedBlocks s = [b]) (idle : drained s b = true) :
    ∃ t, execEvaclimitExpiry s = .next t ∧ blockOf t b = blockOf (parkBlock s b) b := by
  have now : parkTime s = true := by simp [parkTime, phase, limit]
  unfold execEvaclimitExpiry
  rw [if_neg (by simp [phase])]
  simp only [now, if_true, one, List.filter_cons, idle, List.filter_nil, List.foldl_cons, List.foldl_nil]
  split
  · exact ⟨_, rfl, rfl⟩
  · exact ⟨_, rfl, rfl⟩

theorem parkBlock_of_saved {s s1 s2 : State} {b : Nat} (rows : parkRows (parkWork s b) b = .ok s1)
    (waits : saveWaits s1 b = .ok s2) : parkBlock s b = leaveRows s2 b := by
  simp [parkBlock, rows, waits]

/-- R217: the report of a held launch marks it reported. -/
theorem execHoldlimitExpiry_reports {s : State} {l since : Nat} (held : (launchOf s l).heldSince = some since)
    (limited : s.power.holdLimit ≠ 0) (unreported : (launchOf s l).holdReported = false) (noRows : heldForRows s l = true)
    (late : since + 1000 * s.power.holdLimit ≤ (ctxOf s (launchOf s l).ctx).ctime) :
    answers (.holdlimitExpiry l) s fun t => (launchOf t l).holdReported = true := by
  have listed : (mget s.work.launches l).isSome = true := by
    cases found : mget s.work.launches l with
    | some _ => rfl
    | none => simp [launchOf, mgetD, found] at held
  refine ⟨appendEvent (modLaunch s l fun x => { x with holdReported := true }) 0
    { ctx := (launchOf s l).ctx, kind := 3, code := .scratchCapacity, handle := (launchOf s l).handle
      detail := (launchOf s l).desc.rows }, ?_, ?_⟩
  · show execHoldlimitExpiry l s = _
    simp [execHoldlimitExpiry, held, limited, unreported, noRows, late]
  · obtain ⟨m, ls, fs, ds, cs, ms, bb, sec, appended⟩ := appendEvent_reportsOnly
      (modLaunch s l fun x => { x with holdReported := true }) 0
      { ctx := (launchOf s l).ctx, kind := 3, code := .scratchCapacity, handle := (launchOf s l).handle
        detail := (launchOf s l).desc.rows }
    rw [appended]
    show (launchOf (modLaunch s l fun x => { x with holdReported := true }) l).holdReported = true
    rw [launchOf_modLaunch_of_isSome _ _ _ listed]

/-- R218 step 7: with no order and no switch waiting, the end of the slew is the end of the step. -/
theorem takeWaiting_of_none {s : State} (switches : s.tables.switches = []) (queued : s.power.queued = []) :
    takeWaiting s = s := by
  simp [takeWaiting, switches, queued, takeOrders]

theorem stepUp_of_calm {s : State} {n : Nat} (up : n < s.power.vs) (calm : stepWaits s = false) :
    stepUp s n = switchPoint s n { s.power with rail := n, vs := n } := by
  unfold stepUp
  rw [if_neg (by omega), if_neg (by simp [calm])]

theorem stepUp_waits {s : State} {n : Nat} (up : n < s.power.vs) (busy : stepWaits s = true) :
    stepUp s n = queueStep s n false := by
  unfold stepUp
  rw [if_neg (by omega), if_pos busy]

theorem blockOf_of_mget {s : State} {b : Nat} {k : Block} (h : mget s.work.blocks b = some k) : blockOf s b = k := by
  simp [blockOf, mgetD, h]

/-- Settles O45: one lemma per event says what it leaves; each clause is that lemma under the clause's conditions. -/
theorem blockEvents : Obligations.BlockEvents := by
  unfold Obligations.BlockEvents
  intro calm
  refine ⟨?placed, ?again, ?ended, ?evicted, ?refilled, ?held, ?down, ?downWaits, ?unselected, ?parked, ?rows, ?clock,
    ?rail, ?up, ?upWaits⟩
  case placed =>
    intro s s1 l core e hit hnext alone ready onDie live room claimed
    obtain ⟨next, blocks, k, listed, fields⟩ := startNext_one_placed s1 l core e hit
    refine ⟨placeNext s l core, rfl, ?_⟩
    rw [placeNext_eq_startNext hnext alone ready onDie live room claimed]
    refine ⟨next, blocks, ?_⟩
    rw [blockOf_of_mget listed]
    exact fields
  case again =>
    intro s s0 b core evicted unparked here wakes resident slots ramp refilled
    exact ⟨_, rfl, placeAgain_evicted evicted unparked here wakes resident slots ramp refilled⟩
  case ended =>
    intro s b listed live resident settled idle
    refine ⟨endBlock s b, ?_, endBlock_threads_gone s b⟩
    show execBlockEnd b s = _
    simp [execBlockEnd, listed, live, resident, settled, idle]
  case evicted =>
    intro s s1 b runs blocked saved listed
    refine ⟨evictBlock s1 b, ?_, evictBlock_result s1 b listed⟩
    show execBlockEviction b s = _
    simp [execBlockEviction, runs, blocked, saved]
  case refilled =>
    intro s s0 s2 b core here parked room resident unparked s1
    refine ⟨fun ended => ⟨_, rfl, refillBlock_of_ended here parked room resident unparked ended⟩, ?_⟩
    intro live slots refilled
    exact ⟨_, rfl, refillBlock_of_live here parked room resident unparked live slots refilled⟩
  case held =>
    intro s l since held limited unreported noRows late
    exact execHoldlimitExpiry_reports held limited unreported noRows late
  case down =>
    rintro s n ⟨none, still⟩ down top
    exact ⟨_, rfl, orderStepDown_power down top (stepWaits_eq_false none still)⟩
  case downWaits =>
    intro s n busy down top
    exact ⟨_, rfl, orderStepDown_waits down top (stepWaits_eq_true busy)⟩
  case unselected =>
    intro s phase none
    exact ⟨_, execEvaclimitExpiry_of_none phase none, rfl⟩
  case parked =>
    intro s s1 s2 b phase limit one idle rows waits listed
    obtain ⟨t, ht, block⟩ := execEvaclimitExpiry_of_one phase limit one idle
    refine ⟨t, ht, ?_⟩
    have parks : blockOf t b = blockOf (leaveRows s2 b) b := by rw [block, parkBlock_of_saved rows waits]
    dsimp only
    rw [parks]
    exact leaveRows_parked s2 b listed
  case rows =>
    intro s core n target phase kept
    exact execRowEvacuation_result target phase kept
  case clock =>
    intro s n target phase moved
    refine ⟨switchPoint s n { s.power with vs := n, phase := 3 }, ?_, rfl⟩
    show execOpClockSwitch s = _
    simp [execOpClockSwitch, target, phase, moved]
  case rail =>
    intro s phase switches queued
    refine ⟨railDone s, ?_, rfl⟩
    show execRailSlewDone s = _
    have settled : takeWaiting (railDone s) = railDone s := takeWaiting_of_none switches queued
    rw [execRailSlewDone, if_pos phase, settled]
  case up =>
    rintro s n ⟨none, still⟩ up
    exact ⟨_, rfl, congrArg State.power (stepUp_of_calm up (stepWaits_eq_false none still))⟩
  case upWaits =>
    intro s n busy up
    exact ⟨_, rfl, stepUp_waits up (stepWaits_eq_true busy)⟩

end Sys2Proof.Proofs
end

section
/-! SUPPORT. Mailbox commands, partition switches, the ends of contexts, and O47. -/
namespace Sys2Proof.Proofs

open Sys2Proof.Machine Sys2Proof.Safety

/-! ### The mailbox (22 R513, R514) -/

theorem onMail_of_open {s : State} {die : Nat} (f : State) (opened : mailOpen s die = true) : onMail s die f = f :=
  if_pos opened

/-- R513: what a reply leaves at the mailbox. -/
theorem mailReply_mail (s : State) (die status reason : Nat) :
    (dieOf (mailReply s die status reason) die).mailStatus = status
      ∧ (dieOf (mailReply s die status reason) die).mailReason = reason
      ∧ (dieOf (mailReply s die status reason) die).mailBusy = false := by
  unfold mailReply
  rw [dieOf_modDie, if_pos rfl]
  exact ⟨rfl, rfl, rfl⟩

@[simp] theorem partOf_setPart (s : State) (i : Nat) (p : Partition) : partOf (setPart s i p) i = p := by
  simp [partOf, setPart, mgetD]

/-! ### Dropped translations (17 R405) -/

theorem mget_map {α β : Type} (m : SMap α) (f : α → β) (i : Nat) :
    mget (m.map fun p => (p.1, f p.2)) i = (mget m i).map f := by
  induction m with
  | nil => rfl
  | cons p r ih =>
    obtain ⟨k, v⟩ := p
    simp only [List.map_cons, mget]
    split
    · rfl
    · exact ih

/-- R405: the translations that the drop of a page range keeps. -/
def outOfRange (ctx vpn n : Nat) (es : List TlbEntry) : List TlbEntry :=
  es.filter fun e => !(e.ctx == ctx && decide (vpn ≤ e.vpn ∧ e.vpn < vpn + n))

theorem dropTlb_core_tlb (s : State) (ctx vpn n core : Nat) :
    (coreOf (dropTlb s ctx vpn n) core).tlb = outOfRange ctx vpn n (coreOf s core).tlb := by
  have found := mget_map s.cores (fun c : Core => { c with tlb := outOfRange ctx vpn n c.tlb }) core
  show ((mget (dropTlb s ctx vpn n).cores core).getD _).tlb = outOfRange ctx vpn n ((mget s.cores core).getD _).tlb
  rw [show mget (dropTlb s ctx vpn n).cores core = _ from found]
  cases mget s.cores core <;> rfl

theorem dropTlb_engineTlb (s : State) (ctx vpn n x : Nat) :
    mgetD (dropTlb s ctx vpn n).engineTlb x [] = outOfRange ctx vpn n (mgetD s.engineTlb x []) := by
  have found := mget_map s.engineTlb (outOfRange ctx vpn n) x
  rw [mgetD, mgetD, show mget (dropTlb s ctx vpn n).engineTlb x = _ from found]
  cases mget s.engineTlb x <;> rfl

theorem not_mem_outOfRange {ctx vpn n : Nat} {es : List TlbEntry} :
    ∀ e ∈ outOfRange ctx vpn n es, e.ctx = ctx → ¬(vpn ≤ e.vpn ∧ e.vpn < vpn + n) := by
  intro e kept same inside
  have out := (List.mem_filter.1 kept).2
  simp [same, inside] at out

/-! ### Switches (02 R44) -/

/-- R514: a switch of a partition to a listed context, or to none, is in its range. -/
theorem legalSwitch {s : State} {i ctx : Nat} (hi : i < 16) (known : ctx = 0xFFFF ∨ (mget s.ctxs ctx).isSome = true) :
    ¬(16 ≤ i ∨ (ctx ≠ 0xFFFF ∧ (mget s.ctxs ctx).isNone = true)) := by
  rintro (high | ⟨named, absent⟩)
  · omega
  · rcases known with none | listed
    · exact named none
    · rw [Option.isNone_iff_eq_none] at absent
      simp [absent] at listed

/-- R44 step 1: what the start of a switch leaves. -/
theorem startSwitch_result (s : State) (die i ctx : Nat) (p : Partition) :
    (dieOf (startSwitch s die i ctx p) die).mailBusy = true ∧ (dieOf (startSwitch s die i ctx p) die).mailStatus = 1
      ∧ partOf (startSwitch s die i ctx p) i = { p with
          state := 3, next := if ctx = 0xFFFF then none else some ctx
          step := if p.ctx.isSome then 2 else 4, mail := die }
      ∧ ∀ c, p.ctx = some c → (ctxOf (startSwitch s die i ctx p) c).resident = false := by
  unfold startSwitch
  dsimp only
  refine ⟨?_, ?_, partOf_setPart _ _ _, ?_⟩
  · rw [dieOf_modDie, if_pos rfl]
  · rw [dieOf_modDie, if_pos rfl]
  · intro c out
    simp only [out]
    have stopped : (ctxOf (modCtx s c fun x => { x with resident := false }) c).resident = false := by
      rw [ctxOf_modCtx, if_pos rfl]
    exact stopped

/-- R474: what is saved of a context that leaves changes memory in its poisoned sectors at most. -/
def poisonOnly (s t : State) : Prop := t.mem = { s.mem with poisoned := t.mem.poisoned }

theorem poisonOnly_of_mem_eq {s t : State} (h : t.mem = s.mem) : poisonOnly s t := by
  rw [poisonOnly, h]

theorem swapSaved_poisonOnly (s : State) (ctx : Nat) : poisonOnly s (swapSaved s ctx) := by
  unfold swapSaved
  split
  · exact poisonOnly_of_mem_eq rfl
  · extract_lets a m s1 s2 s3
    have mem1 : s1.mem = a.mem := foldl_keeps State.mem _ (by intro _ _; rfl) _ a
    have mem2 : s2.mem = s1.mem := foldl_keeps State.mem _ (by intro _ _; rfl) _ s1
    have mem3 : s3.mem = a.mem := (foldl_keeps State.mem _ (by intro _ _; rfl) _ s2).trans (mem2.trans mem1)
    show s3.mem = { s.mem with poisoned := s3.mem.poisoned }
    rw [mem3]
    rfl

theorem flushL1_mem (s : State) (g : Nat) : (flushL1 s g).mem = s.mem := by
  obtain ⟨_, _, h⟩ := changeL1_cores s g clearL1
  unfold flushL1
  rw [h]
  rfl

theorem saveStructures_poisonOnly (s : State) (ctx : Nat) (p : Partition) : poisonOnly s (saveStructures s ctx p) := by
  unfold saveStructures
  extract_lets s1 s2
  have mem1 : s1.mem = s.mem := by
    refine foldl_keeps (fun t : State => t.mem) _ ?_ _ _
    intro t g
    split
    · exact flushL1_mem t g
    · rfl
  have mem2 : s2.mem = s.mem := mem1
  have swapped := swapSaved_poisonOnly s2 ctx
  rw [poisonOnly, mem2] at swapped
  exact swapped

/-- R44 step 2: with its state saved, a drained partition goes on to the restore. -/
theorem drainEnd_of_saved {s s2 : State} {i ctx : Nat} {p : Partition}
    (saved : saveImages ((List.range 8).foldl (fun acc b => parkRaster acc ctx b)
      (p.clusters.foldl parkCluster (p.cores.foldl parkCore s))) ctx i p = .ok s2) :
    drainEnd s i ctx p = setPart (saveStructures s2 ctx p) i { p with step := 4 } := by
  simp [drainEnd, saved]

/-- R44 step 5: with no order and no switch waiting, the end of a switch is the report of its command. -/
theorem endSwitch_of_noneWaiting {s : State} (i : Nat) (p : Partition) (switches : s.tables.switches = [])
    (queued : s.power.queued = []) :
    endSwitch s i p = mailReply (switchRecorded (setPart s i
      { p with ctx := p.next, next := none, step := 0, state := if p.next.isSome then 1 else 2 }) p) p.mail 0 0 := by
  unfold endSwitch
  generalize hq : ({ p with ctx := p.next, next := none, step := 0, state := if p.next.isSome then 1 else 2 } : Partition) = q
  have switches' : (mailReply (switchRecorded (setPart s i q) p) p.mail 0 0).tables.switches = [] := switches
  have queued' : (mailReply (switchRecorded (setPart s i q) p) p.mail 0 0).power.queued = [] := queued
  simp [takeWaiting, switches', queued', takeOrders]

theorem endSwitch_result {s : State} (i : Nat) (p : Partition) (switches : s.tables.switches = [])
    (queued : s.power.queued = []) :
    ((dieOf (endSwitch s i p) p.mail).mailStatus = 0 ∧ (dieOf (endSwitch s i p) p.mail).mailReason = 0
      ∧ (dieOf (endSwitch s i p) p.mail).mailBusy = false)
    ∧ partOf (endSwitch s i p) i = { p with
        ctx := p.next, next := none, step := 0, state := if p.next.isSome then 1 else 2 }
    ∧ (endSwitch s i p).ctxs = s.ctxs ∧ (endSwitch s i p).work = s.work ∧ (endSwitch s i p).mem = s.mem := by
  rw [endSwitch_of_noneWaiting i p switches queued]
  exact ⟨mailReply_mail _ _ _ _, partOf_setPart s i _, rfl, rfl, rfl⟩

/-! ### What each command does under its conditions -/

/-- R405: a legal invalidate. -/
theorem exec_translationInvalidate {s : State} {die ctx vpn n : Nat} (opened : mailOpen s die = true)
    (legal : ¬(4096 ≤ ctx ∨ 2 ^ 44 ≤ vpn ∨ n = 0 ∨ 2 ^ 44 < n)) :
    exec (.translationInvalidate die ctx vpn n) s = .next
      (if ctxPerformed s ctx then mailReply (dropTlb s ctx vpn n) die 0 0
        else modDie (dropTlb s ctx vpn n) die fun d =>
          { d with mailBusy := true, invalidating := some (ctx, vpn, n) }) := by
  show execTranslationInvalidate die ctx vpn n s = _
  rw [execTranslationInvalidate, onMail_of_open _ opened, if_neg legal]

theorem exec_translationInvalidate_illegal {s : State} {die ctx vpn n : Nat} (opened : mailOpen s die = true)
    (illegal : 4096 ≤ ctx ∨ 2 ^ 44 ≤ vpn ∨ n = 0 ∨ 2 ^ 44 < n) :
    exec (.translationInvalidate die ctx vpn n) s = .next (mailReply s die 3 0) := by
  show execTranslationInvalidate die ctx vpn n s = _
  rw [execTranslationInvalidate, onMail_of_open _ opened, if_pos illegal]
  rfl

/-- R359: the context with a unit's program loaded from an image. -/
def withProgram (s : State) (ctx unit slot image : Nat) : State :=
  modCtx s ctx fun c => { c with upt := mset c.upt (8 * unit + slot) (cellsFrom s.mem.device image 64) }

theorem withProgram_upt (s : State) (ctx unit slot image : Nat) :
    mget (ctxOf (withProgram s ctx unit slot image) ctx).upt (8 * unit + slot)
      = some (cellsFrom s.mem.device image 64) := by
  unfold withProgram
  rw [ctxOf_modCtx, if_pos rfl]
  exact mget_mset_same _ _ _

theorem exec_uptLoad {s : State} {die ctx unit slot image : Nat} (opened : mailOpen s die = true)
    (listed : (mget s.ctxs ctx).isSome = true) (low : 1 ≤ unit) (high : unit ≤ 3) (slots : slot ≤ 7)
    (placed : imageOk s image = true) :
    exec (.uptLoad die ctx unit slot image) s = .next (mailReply (withProgram s ctx unit slot image) die 0 0) := by
  have legal : ¬((mget s.ctxs ctx).isNone ∨ unit = 0 ∨ 3 < unit ∨ 7 < slot ∨ !imageOk s image) := by
    simp only [placed, Option.isNone_iff_eq_none]
    rintro (absent | h | h | h | h)
    · simp [absent] at listed
    · omega
    · omega
    · omega
    · cases h
  show execUptLoad die ctx unit slot image s = _
  rw [execUptLoad, onMail_of_open _ opened, if_neg legal]
  rfl

/-- R514: a definition meets a partition that stands where the entry is taken or a cluster of the mask is. -/
def clashes (s : State) (i mask : Nat) : Prop :=
  (partOf s i).state ≠ 0
    ∨ ∃ p ∈ s.tables.partitions, p.2.state ≠ 0 ∧ (p.2.mask &&& BitVec.ofNat 192 mask) ≠ 0

theorem clashes_iff (s : State) (i mask : Nat) :
    ((partOf s i).state ≠ 0 ∨ s.tables.partitions.any fun p =>
      p.2.state != 0 && (p.2.mask &&& BitVec.ofNat 192 mask) != 0) ↔ clashes s i mask := by
  simp [clashes]

section
variable {s : State} {die i mask : Nat} (opened : mailOpen s die = true) (index : i < 16) (width : mask < 2 ^ 192)
include opened index width

theorem exec_partitionDefine_apart (apart : ¬clashes s i mask) :
    exec (.partitionDefine die i mask) s =
      .next (mailReply (setPart s i { mask := BitVec.ofNat 192 mask, state := 2 }) die 0 0) := by
  show execPartitionDefine die i mask s = _
  rw [execPartitionDefine, onMail_of_open _ opened, if_neg (by omega)]
  dsimp only
  rw [if_neg (mt (clashes_iff s i mask).1 apart)]

theorem exec_partitionDefine_clashes (meets : clashes s i mask) :
    exec (.partitionDefine die i mask) s = .next (mailReply s die 2 4) := by
  show execPartitionDefine die i mask s = _
  rw [execPartitionDefine, onMail_of_open _ opened, if_neg (by omega)]
  dsimp only
  rw [if_pos ((clashes_iff s i mask).2 meets)]
end

theorem exec_partitionFree {s : State} {die i : Nat} (opened : mailOpen s die = true) (index : i < 16) :
    exec (.partitionFree die i) s = .next
      (if (partOf s i).ctx.isSome ∨ (partOf s i).state = 3 then mailReply s die 2 4
        else mailReply { s with tables := { s.tables with partitions := merase s.tables.partitions i } } die 0 0) := by
  show execPartitionFree die i s = _
  rw [execPartitionFree, onMail_of_open _ opened, if_neg (by omega)]

section
variable {s : State} {die i ctx : Nat} (opened : mailOpen s die = true) (index : i < 16)
  (known : ctx = 0xFFFF ∨ (mget s.ctxs ctx).isSome = true)
include opened index known

/-- R514: a switch of a defined partition that does not switch already starts, or is refused. -/
theorem exec_partitionSwitch (noStep : s.power.target = none) (noRollback : rollbackRuns s i = false)
    (defined : (partOf s i).state ≠ 0) (still : (partOf s i).state ≠ 3) :
    exec (.partitionSwitch die i ctx) s = .next
      (if mayEnter s ctx (partOf s i) then startSwitch s die i ctx (partOf s i) else mailReply s die 2 2) := by
  show execPartitionSwitch die i ctx s = _
  rw [execPartitionSwitch, onMail_of_open _ opened, if_neg (legalSwitch index known),
    if_neg (by simp [noStep, noRollback])]
  unfold trySwitch
  dsimp only
  rw [if_neg still]
  cases mayEnter s ctx (partOf s i) <;> simp [defined]

/-- R220, R478: a switch during a step of the operating point or a rollback waits. -/
theorem exec_partitionSwitch_waits (waits : s.power.target.isSome = true ∨ rollbackRuns s i = true) :
    exec (.partitionSwitch die i ctx) s = .next
      (modDie { s with tables := { s.tables with switches := s.tables.switches ++ [(die, i, ctx)] } } die fun d =>
        { d with mailBusy := true, mailStatus := 1, mailReason := 0 }) := by
  show execPartitionSwitch die i ctx s = _
  rw [execPartitionSwitch, onMail_of_open _ opened, if_neg (legalSwitch index known), if_pos (by simpa using waits)]
end

theorem exec_partitionDrainEnd {s : State} {i ctx : Nat} (out : (partOf s i).ctx = some ctx)
    (switching : (partOf s i).state = 3) (draining : (partOf s i).step = 2)
    (drained : switchDrained s ctx (partOf s i) = true) (noRetry : (moreOf s ctx).retryAt = none) :
    exec (.partitionDrainEnd i) s = .next (drainEnd s i ctx (partOf s i)) := by
  show execPartitionDrainEnd i s = _
  simp [execPartitionDrainEnd, out, switching, draining, drained, noRetry]

theorem exec_partitionRestore {s a : State} {i : Nat} (switching : (partOf s i).state = 3)
    (restoring : (partOf s i).step = 4) (empty : (partOf s i).next = none → a = s)
    (entering : ∀ c, (partOf s i).next = some c →
      (moreOf s c).retryAt = none ∧ restoreContext s c (partOf s i) = .ok a) :
    exec (.partitionRestore i) s = .next (endSwitch a i (partOf s i)) := by
  show execPartitionRestore i s = _
  unfold execPartitionRestore
  dsimp only
  rw [if_pos ⟨switching, restoring⟩]
  cases next : (partOf s i).next with
  | none => rw [empty next]
  | some c =>
    obtain ⟨noRetry, restored⟩ := entering c next
    simp [noRetry, restored]

theorem exec_contextCreation {s : State} {ctx : Nat} (p : ContextParams) (range : ctx < 4096)
    (absent : mget s.ctxs ctx = none) :
    exec (.contextCreation ctx p) s = .next
      { s with ctxs := mset s.ctxs ctx { f := createdFields p, resident := false }
               more := mset s.more ctx { trace := p.trace } } := by
  show execContextCreation ctx p s = _
  rw [execContextCreation, if_neg (by simp [absent]; omega)]

theorem exec_contextDestruction {s : State} {ctx : Nat} (listed : (mget s.ctxs ctx).isSome = true)
    (free : ∀ p ∈ s.tables.partitions, p.2.state = 3 → p.2.ctx ≠ some ctx ∧ p.2.next ≠ some ctx) :
    exec (.contextDestruction ctx) s = .next (forgetContext s ctx) := by
  have still : (s.tables.partitions.any fun p =>
      p.2.state == 3 && (p.2.ctx == some ctx || p.2.next == some ctx)) = false := by
    rw [List.any_eq_false]
    intro p hp
    simp only [Bool.and_eq_true, beq_iff_eq, Bool.or_eq_true]
    rintro ⟨switching, inside⟩
    obtain ⟨out, into⟩ := free p hp switching
    exact inside.elim out into
  have present : (mget s.ctxs ctx).isNone = false := by rw [← Option.not_isSome, listed, Bool.not_true]
  show execContextDestruction ctx s = _
  simp only [execContextDestruction, still, present, Bool.or_self, Bool.false_eq_true, if_false]

/-- Settles O47: every command under its own conditions, by what its reply, its table entry and its drops are. -/
theorem contextEvents : Obligations.ContextEvents := by
  unfold Obligations.ContextEvents
  intro mailed
  refine ⟨?invalidate, ?invalidateIllegal, ?upt, ?define, ?free, ?switch, ?switchWaits, ?drain, ?restore, ?create,
    ?destroy⟩
  case invalidate =>
    intro s die ctx vpn n opened hctx hvpn hpos hn
    have cores := fun core => dropTlb_core_tlb s ctx vpn n core ▸ not_mem_outOfRange
    have engines := fun x => dropTlb_engineTlb s ctx vpn n x ▸ not_mem_outOfRange
    refine ⟨_, exec_translationInvalidate opened (by omega), ?_⟩
    cases performed : ctxPerformed s ctx with
    | true => exact ⟨rfl, fun _ => mailReply_mail _ _ _ _, nofun, cores, engines⟩
    | false => exact ⟨rfl, nofun, fun _ => by simp, cores, engines⟩
  case invalidateIllegal =>
    intro s die ctx vpn n opened illegal
    exact exec_translationInvalidate_illegal opened illegal
  case upt =>
    intro s die ctx unit slot image opened listed low high slots placed
    exact ⟨_, exec_uptLoad opened listed low high slots placed, mailReply_mail _ _ _ _,
      withProgram_upt s ctx unit slot image⟩
  case define =>
    intro s die i mask opened index width
    exact ⟨fun apart => ⟨_, exec_partitionDefine_apart opened index width apart, mailReply_mail _ _ _ _,
        partOf_setPart s i _⟩,
      fun meets => ⟨_, exec_partitionDefine_clashes opened index width meets, mailReply_mail _ _ _ _, rfl⟩⟩
  case free =>
    intro s die i opened index used
    have run := exec_partitionFree opened index
    constructor
    · intro unused
      rw [if_neg unused] at run
      exact ⟨_, run, mailReply_mail _ _ _ _, rfl⟩
    · intro busy
      rw [if_pos busy] at run
      exact ⟨_, run, mailReply_mail _ _ _ _, rfl⟩
  case switch =>
    intro s die i ctx opened index known noStep noRollback defined still
    have run := exec_partitionSwitch opened index known noStep noRollback defined still
    constructor
    · intro enters
      rw [if_pos enters] at run
      exact ⟨_, run, startSwitch_result s die i ctx (partOf s i)⟩
    · intro refused
      rw [if_neg (by simp [refused])] at run
      exact ⟨_, run, mailReply_mail _ _ _ _, rfl⟩
  case switchWaits =>
    intro s die i ctx opened index known waits
    exact ⟨_, exec_partitionSwitch_waits opened index known waits, by simp, by simp, rfl⟩
  case drain =>
    intro s s2 i ctx out switching draining drained noRetry stopped saved
    have run := exec_partitionDrainEnd out switching draining drained noRetry
    rw [drainEnd_of_saved saved] at run
    exact ⟨_, run, partOf_setPart _ _ _, saveStructures_poisonOnly s2 ctx (partOf s i)⟩
  case restore =>
    intro s a i switching restoring empty entering switches queued
    exact ⟨_, exec_partitionRestore switching restoring empty entering,
      endSwitch_result i (partOf s i) switches queued⟩
  case create =>
    intro s ctx p range absent
    refine ⟨_, exec_contextCreation p range absent, ?_, ?_, fun c other => ?_, rfl⟩
    · simp [ctxOf, mgetD]
    · simp [moreOf, mgetD]
    · simp [ctxOf, mgetD, other]
  case destroy =>
    intro s ctx listed free
    refine ⟨_, exec_contextDestruction listed free, rfl, rfl, fun a kept => ?_, fun l kept => ?_, rfl⟩
    · simpa using (List.mem_filter.1 kept).2
    · simpa using (List.mem_filter.1 kept).2

end Sys2Proof.Proofs
end

section
/-! SUPPORT. What the time between two steps leaves: the inputs that are to come and whether the device is off. -/
namespace Sys2Proof.Proofs

open Sys2Proof.Machine Sys2Proof.Safety

/-- A change that touches neither the inputs that are to come nor whether the device is off. -/
def keepsPlan (s t : State) : Prop := t.inputs = s.inputs ∧ t.power.off = s.power.off

theorem keepsPlan.refl (s : State) : keepsPlan s s := ⟨rfl, rfl⟩

theorem keepsPlan.trans {s t u : State} : keepsPlan s t → keepsPlan t u → keepsPlan s u := by
  rintro ⟨inputs, off⟩ ⟨inputs', off'⟩
  exact ⟨inputs'.trans inputs, off'.trans off⟩

theorem keepsPlan_foldl {β : Type} (f : State → β → State) (h : ∀ s b, keepsPlan s (f s b)) (l : List β) (s : State) :
    keepsPlan s (l.foldl f s) :=
  foldl_rel keepsPlan .refl (fun _ _ _ => .trans) f h l s

theorem reportsOnly.keepsPlan {s t : State} : reportsOnly s t → keepsPlan s t := by
  rintro ⟨_, _, _, _, _, _, _, _, rfl⟩
  exact ⟨rfl, rfl⟩

/-! ### Records and rays (15 R370, R372, 17 R411) -/

theorem countAbsent_keepsPlan (s : State) (w : ReplayWork) : keepsPlan s (countAbsent s w) := by
  have counted : ∀ core, keepsPlan s (countEvent s core 7 1) := by
    intro core
    obtain ⟨_, _, h⟩ := countEvent_coresDies s core 7 1
    rw [h]
    exact ⟨rfl, rfl⟩
  have onDie : ∀ die, keepsPlan s (countDieEvent s die 7 1) := by
    intro die
    obtain ⟨_, h⟩ := countDieEvent_dies s die 7 1
    rw [h]
    exact ⟨rfl, rfl⟩
  cases w with
  | core _ _ _ => exact counted _
  | coachman _ _ => exact counted _
  | copy _ _ => exact counted _
  | texture _ _ _ => exact counted _
  | matrix _ _ _ _ => exact onDie _
  | ray _ _ _ _ _ _ _ _ => exact onDie _
  | raster _ _ _ _ _ _ => exact onDie _

theorem placeRecord_keepsPlan {s t : State} {ctx slot : Nat} {r : ReplayRecord} (h : placeRecord s ctx slot r = some t) :
    keepsPlan s t := by
  unfold placeRecord at h
  split at h
  · cases h
  · rename_i s1 written
    extract_lets die s2 s3 at h
    have entered : keepsPlan s s3 :=
      (writeVirtual_homeOnly written).reportsOnly.keepsPlan.trans <|
        (modMore_reportsOnly s1 ctx _).keepsPlan.trans <|
        keepsPlan_foldl _ (fun acc _ => (countAbsent_keepsPlan acc r.work).trans (modDie_reportsOnly _ _ _).keepsPlan) _ s2
    split at h
    · exact Option.some.inj h ▸ entered
    · exact Option.some.inj h ▸ entered.trans (appendEvent_reportsOnly s3 _ _).keepsPlan

theorem takeRecord_keepsPlan (s : State) (ctx : Nat) (r : ReplayRecord) : keepsPlan s (takeRecord s ctx r) := by
  unfold takeRecord
  extract_lets wait
  have waits : keepsPlan s wait := (modMore_reportsOnly s ctx _).keepsPlan
  split
  · exact waits
  · split
    · exact waits
    · split
      · exact placeRecord_keepsPlan ‹_›
      · exact waits.trans (structureFailedOn_reportsOnly wait _ _ _).keepsPlan

theorem startFlush_keepsPlan (s : State) (b : Nat) : keepsPlan s (startFlush s b) := ⟨rfl, rfl⟩

theorem launchSettled_keepsPlan (s : State) (l : Nat) : keepsPlan s (launchSettled s l) := by
  unfold launchSettled
  dsimp only
  split
  · exact ⟨rfl, rfl⟩
  · exact .refl s

theorem launchDown_keepsPlan (s : State) (l : Nat) : keepsPlan s (launchDown s l) := by
  unfold launchDown
  split
  · exact keepsPlan.trans (t := modLaunch s l fun k => { k with lastHeld := true }) ⟨rfl, rfl⟩
      (keepsPlan_foldl startFlush startFlush_keepsPlan _ _)
  · exact keepsPlan.trans (t := modLaunch s l fun k => { k with counter := k.counter - 1 }) ⟨rfl, rfl⟩
      (launchSettled_keepsPlan _ l)

theorem clearExits_keepsPlan (s : State) (l id : Nat) : keepsPlan s (clearExits s l id) := by
  unfold clearExits
  split
  · exact ⟨rfl, rfl⟩
  · exact .refl s

theorem writtenOr_keepsPlan (s : State) (ctx va : Nat) (bs : List Byte) :
    keepsPlan s ((writeVirtual s ctx va bs).getD s) := by
  cases written : writeVirtual s ctx va bs with
  | none => exact .refl s
  | some t => exact (writeVirtual_homeOnly written).reportsOnly.keepsPlan

theorem modRays_keepsPlan (s : State) (l : Nat) (f : RayLaunch → RayLaunch) : keepsPlan s (modRays s l f) := ⟨rfl, rfl⟩

theorem closeRay_keepsPlan (s : State) (l id loc : Nat) (st : Status) (code : FaultCode) (report : Bool) :
    keepsPlan s (closeRay s l id loc st code report) := by
  unfold closeRay
  extract_lets ctx fault s1 s2
  split
  · exact (modRays_keepsPlan s l _).trans (takeRecord_keepsPlan _ _ _)
  · have closed : keepsPlan s s2 :=
      (writtenOr_keepsPlan s _ _ _).trans <| (clearExits_keepsPlan _ l id).trans <|
        keepsPlan.trans (t := modLaunch s1 l fun k => { k with rayCount := k.rayCount + 1 }) ⟨rfl, rfl⟩
          (launchDown_keepsPlan _ l)
    split
    · exact closed.trans (appendEvent_reportsOnly s2 _ _).keepsPlan
    · exact closed

theorem closeRays_keepsPlan (s : State) (l : Nat) : keepsPlan s (closeRays s l) := by
  unfold closeRays
  dsimp only
  split
  · exact .refl s
  · refine (modRays_keepsPlan s l fun r =>
      { r with closing := r.closing.filter fun x => !decide (x.time ≤ s.dtime) }).trans ?_
    refine keepsPlan_foldl _ ?_ _ _
    intro acc x
    exact closeRay_keepsPlan acc l x.id x.loc x.status x.code x.report

/-! ### Checkpoint images (20 R479, R480) -/

theorem writeImage_keepsPlan {s : State} (b ctx va : Nat) (bs : List Byte) {done : State → State}
    (h : ∀ t, keepsPlan t (done t)) : keepsPlan s (writeImage s b ctx va bs done) := by
  unfold writeImage
  dsimp only
  split
  · exact ⟨rfl, rfl⟩
  · split
    · exact (structureFailed_reportsOnly s ctx va).keepsPlan.trans ⟨rfl, rfl⟩
    · exact (writeVirtual_homeOnly ‹_›).reportsOnly.keepsPlan.trans (h _)

theorem copyRegs_keepsPlan (b core ctx : Nat) (img : Image) (s : State) (bank : Nat) :
    keepsPlan s (copyRegs b core ctx img s bank) := by
  unfold copyRegs
  dsimp only
  split
  · exact .refl s
  · exact writeImage_keepsPlan b ctx _ _ fun _ => ⟨rfl, rfl⟩

theorem copyRow_keepsPlan (b core ctx : Nat) (img : Image) (dirty : List Nat) (s : State) (q : Nat × Nat) :
    keepsPlan s (copyRow b core ctx img dirty s q) := by
  unfold copyRow
  dsimp only
  split
  · exact .refl s
  · exact writeImage_keepsPlan b ctx _ _ fun _ => ⟨rfl, rfl⟩

theorem copyBlock_keepsPlan (s : State) (b : Nat) : keepsPlan s (copyBlock s b) := by
  unfold copyBlock
  split
  · rename_i img core _ _
    extract_lets k ctx dirty s0
    split
    · exact .refl s
    · have held : keepsPlan s s0 := by
        show keepsPlan s (if _ then _ else s)
        split
        · exact ⟨rfl, rfl⟩
        · exact .refl s
      exact held.trans <| (keepsPlan_foldl _ (copyRegs_keepsPlan b core ctx img) _ s0).trans
        (keepsPlan_foldl _ (copyRow_keepsPlan b core ctx img dirty) _ _)
  · exact .refl s

theorem settleCheckpoint_keepsPlan (s : State) (b : Nat) : keepsPlan s (settleCheckpoint s b) := by
  unfold settleCheckpoint
  split
  · exact ⟨rfl, rfl⟩
  · exact .refl s

/-! ### Invalidates, step orders and switches that waited (17 R405, 09 R220, 20 R478) -/

theorem settleInvalidates_keepsPlan (s : State) : keepsPlan s (settleInvalidates s) := by
  refine keepsPlan_foldl _ (fun acc d => ?_) _ s
  split
  · exact .refl acc
  · split
    · exact ⟨rfl, rfl⟩
    · exact .refl acc

theorem selectBlock_keepsPlan (s : State) (b : Nat) : keepsPlan s (selectBlock s b) := by
  unfold selectBlock
  dsimp only
  refine keepsPlan_foldl _ ?_ _ s
  intro _ _
  exact ⟨rfl, rfl⟩

theorem selectOn_keepsPlan (core vs fuel : Nat) (s : State) : keepsPlan s (selectOn core vs fuel s) := by
  induction fuel generalizing s with
  | zero => exact .refl s
  | succ n ih =>
    unfold selectOn
    dsimp only
    split
    · exact .refl s
    · split
      · exact .refl s
      · exact (selectBlock_keepsPlan s _).trans (ih _)

theorem orderStepDown_keepsPlan (s : State) (n : Nat) (urgent : Bool) : keepsPlan s (orderStepDown s n urgent) := by
  unfold orderStepDown
  split
  · exact .refl s
  · split
    · exact ⟨rfl, rfl⟩
    · dsimp only
      generalize hq : ({ s with power := { s.power with
        target := some n, phase := 1, orderedAt := s.dtime, urgent := urgent } } : State) = q
      have ordered : keepsPlan s q := hq ▸ ⟨rfl, rfl⟩
      exact ordered.trans (keepsPlan_foldl _ (fun acc g => selectOn_keepsPlan g n 64 acc) _ q)

theorem stepUp_keepsPlan (s : State) (n : Nat) : keepsPlan s (stepUp s n) := by
  unfold stepUp
  split
  · exact .refl s
  · split
    · exact ⟨rfl, rfl⟩
    · exact ⟨rfl, rfl⟩

theorem takeQueued_keepsPlan (s : State) : keepsPlan s (takeQueued s) := by
  unfold takeQueued
  split
  · exact .refl s
  · rename_i q r _
    dsimp only
    generalize hu : ({ s with power := { s.power with queued := r } } : State) = u
    have taken : keepsPlan s u := hu ▸ ⟨rfl, rfl⟩
    split
    · exact taken.trans (orderStepDown_keepsPlan u _ _)
    · exact taken.trans (stepUp_keepsPlan u _)

theorem takeOrders_keepsPlan (fuel : Nat) (s : State) : keepsPlan s (takeOrders fuel s) := by
  induction fuel generalizing s with
  | zero => exact .refl s
  | succ n ih =>
    unfold takeOrders
    split
    · exact .refl s
    · exact (takeQueued_keepsPlan s).trans (ih _)

theorem startSwitch_keepsPlan (s : State) (die i ctx : Nat) (p : Partition) : keepsPlan s (startSwitch s die i ctx p) := by
  unfold startSwitch
  cases p.ctx with
  | none => exact ⟨rfl, rfl⟩
  | some c => exact ⟨rfl, rfl⟩

theorem trySwitch_keepsPlan (s : State) (die i ctx : Nat) : keepsPlan s (trySwitch s die i ctx) := by
  unfold trySwitch
  dsimp only
  split
  · exact ⟨rfl, rfl⟩
  · split
    · exact ⟨rfl, rfl⟩
    · exact startSwitch_keepsPlan s die i ctx _

theorem takeWaiting_keepsPlan (s : State) : keepsPlan s (takeWaiting s) := by
  unfold takeWaiting
  split
  · exact takeOrders_keepsPlan _ s
  · rename_i x r _
    split
    · exact .refl s
    · exact keepsPlan.trans (t := { s with tables := { s.tables with switches := r } }) ⟨rfl, rfl⟩
        (trySwitch_keepsPlan _ _ _ _)

/-! ### The passing of time (02 R46) -/

theorem settle_keepsPlan (s : State) : keepsPlan s (settle s) := by
  unfold settle
  extract_lets s1 s2
  have settled : keepsPlan s s2 :=
    (keepsPlan_foldl closeRays closeRays_keepsPlan _ s).trans <| (settleInvalidates_keepsPlan _).trans <|
      keepsPlan_foldl settleCheckpoint settleCheckpoint_keepsPlan _ s1
  split
  · exact settled
  · exact settled.trans (takeWaiting_keepsPlan s2)

theorem passTime_keepsPlan (s : State) : keepsPlan s (passTime s) := by
  have passed : keepsPlan s (settle (copyImages (advance s (s.ticks.headD 1)))) :=
    keepsPlan.trans (t := advance s (s.ticks.headD 1)) ⟨rfl, rfl⟩ <|
      (keepsPlan_foldl copyBlock copyBlock_keepsPlan _ _).trans (settle_keepsPlan _)
  exact passed

end Sys2Proof.Proofs
end

section
/-! SUPPORT. The words of a clause, what its check gives, its issue and the step, and O57. -/
namespace Sys2Proof.Proofs

open Sys2Proof.Machine Sys2Proof.Safety

/-! ### The words of a clause (03 R74 step 1, R77) -/

/-- A word is the value of its bytes, the least significant first. -/
theorem ofNat_leNat_bytes {w : Word} {f : Nat → Byte} (h : ∀ j, j < 4 → w.extractLsb' (8 * j) 8 = f j) :
    BitVec.ofNat 32 (leNat [f 0, f 1, f 2, f 3]) = w := by
  have value : ∀ j, j < 4 → (f j).toNat = w.toNat / 2 ^ (8 * j) % 256 := by
    intro j hj
    rw [← h j hj, BitVec.extractLsb'_toNat, Nat.shiftRight_eq_div_pow]
  have v0 := value 0 (by omega)
  have v1 := value 1 (by omega)
  have v2 := value 2 (by omega)
  have v3 := value 3 (by omega)
  have bound := w.isLt
  apply BitVec.eq_of_toNat_eq
  simp only [leNat, BitVec.toNat_ofNat, v0, v1, v2, v3]
  omega

/-- A word whose bytes stand at a place that the core may fetch is what the fetch gives. -/
theorem fetchWord_of_bytes {s : State} {core ctx va : Nat} {w : Word} {p : Place}
    (place : translate s core ctx va { exec := true } = .ok p)
    (bytes : ∀ j, j < 4 → w.extractLsb' (8 * j) 8 = readByte s p.mem.1 (p.mem.2 + j)) :
    fetchWord s core ctx va = .ok w := by
  have word := ofNat_leNat_bytes (f := fun j => readByte s p.mem.1 (p.mem.2 + j)) bytes
  unfold fetchWord fetchPlace
  rw [place]
  exact congrArg Except.ok word

theorem fetchWords_of_each {s : State} {core ctx : Nat} (ws : List Word) (va : Nat)
    (each : ∀ k w, ws[k]? = some w → fetchWord s core ctx (va + 4 * k) = .ok w) :
    fetchWords s core ctx ws.length va = .ok ws := by
  induction ws generalizing va with
  | nil => rfl
  | cons w r ih =>
    have first : fetchWord s core ctx va = .ok w := each 0 w rfl
    have rest : fetchWords s core ctx r.length (va + 4) = .ok r := by
      refine ih (va + 4) fun k x found => ?_
      rw [show va + 4 + 4 * k = va + 4 * (k + 1) by omega]
      exact each (k + 1) x found
    simp only [List.length_cons, fetchWords, first, rest]

theorem fetchWords_length {s : State} {core ctx n va : Nat} {ws : List Word} (h : fetchWords s core ctx n va = .ok ws) :
    ws.length = n := by
  induction n generalizing va ws with
  | zero => cases h; rfl
  | succ n ih =>
    unfold fetchWords at h
    split at h
    · cases h
    · split at h
      · cases h
      · cases h
        rw [List.length_cons, ih ‹_›]

theorem fetchWords_head {s : State} {core ctx n va : Nat} {ws : List Word}
    (h : fetchWords s core ctx (n + 1) va = .ok ws) : fetchWord s core ctx va = .ok (ws.headD 0) := by
  unfold fetchWords at h
  split at h
  · cases h
  · split at h
    · cases h
    · cases h
      assumption

theorem clauseWords_eq_succ (h : Header) : clauseWords h = h.count + countBits h.extMap 15 + 1 := by
  unfold clauseWords
  omega

/-- R77: a clause has as many words as its header counts, at most. -/
theorem clauseText_length {s : State} {ws : List Word} (h : clauseText s = .ok ws) :
    ws.length ≤ clauseWords (headerOf (ws.headD 0)) := by
  unfold clauseText at h
  split at h
  · rename_i body _
    cases h
    cases body with
    | nil => simp
    | cons w r =>
      rw [List.headD_cons, clauseWords_eq_succ, List.take_succ_cons, List.headD_cons, clauseWords_eq_succ,
        List.length_cons]
      exact Nat.succ_le_succ (List.length_take_le _ r)
  · split at h
    · cases h
    · rename_i header one
      have length := fetchWords_length h
      rw [clauseWords_eq_succ] at h
      have same := (fetchWords_head one).symm.trans (fetchWords_head h)
      rw [length, Except.ok.inj same]

/-- R74 step 1: the words that stand at a clause's places are its text. -/
theorem clauseText_of_bytes {s : State} {ws : List Word} (outside : capturedWords s = none) (words : ws ≠ [])
    (length : ws.length = clauseWords (headerOf (ws.headD 0)))
    (stand : ∀ k w, ws[k]? = some w → ∃ p : Place,
      translate s s.cur.core (ctxOfBlock s s.cur.block) (s.cur.addr + 4 * k) { exec := true } = .ok p
      ∧ ∀ j, j < 4 → w.extractLsb' (8 * j) 8 = readByte s p.mem.1 (p.mem.2 + j)) :
    clauseText s = .ok ws := by
  have each : ∀ k w, ws[k]? = some w →
      fetchWord s s.cur.core (ctxOfBlock s s.cur.block) (s.cur.addr + 4 * k) = .ok w := by
    intro k w found
    obtain ⟨p, place, bytes⟩ := stand k w found
    exact fetchWord_of_bytes place bytes
  have whole := fetchWords_of_each ws s.cur.addr each
  obtain ⟨w, r, rfl⟩ := List.exists_cons_of_ne_nil words
  have header : fetchWords s s.cur.core (ctxOfBlock s s.cur.block) 1 s.cur.addr = .ok [w] := by
    refine fetchWords_of_each [w] s.cur.addr fun k x found => ?_
    cases k with
    | zero => exact each 0 x found
    | succ k => cases found
  unfold clauseText
  simp only [outside, header]
  rw [← whole, length]
  rfl

/-! ### The check of a clause (03 R74 steps 2 and 3) -/

/-- What passes a guard does not meet it. -/
theorem ok_of_guard {ε α : Type} {c : Prop} [Decidable c] {e : ε} {x : Except ε α} {y : α}
    (h : (if c then .error e else x) = .ok y) : ¬c ∧ x = .ok y := by
  by_cases hc : c
  · rw [if_pos hc] at h
    cases h
  · rw [if_neg hc] at h
    exact ⟨hc, h⟩

/-- R74: an instruction that the check admits is the decoder's, in the agent's form. -/
theorem decode_of_checkAt {ag : Agent} {allot pos : Nat} {h : Header} {seen seen' : Seen} {base : Word}
    {ext : Option Word} {i : Instr} (checked : checkAt ag allot h pos seen base ext = .ok (i, seen')) :
    decodeWords base ext = .ok i ∧ i.wf ag = true := by
  unfold checkAt at checked
  split at checked
  · cases checked
  · rename_i j decoded
    obtain ⟨formed, checked⟩ := ok_of_guard checked
    obtain ⟨-, checked⟩ := ok_of_guard checked
    obtain ⟨-, checked⟩ := ok_of_guard checked
    obtain ⟨-, checked⟩ := ok_of_guard checked
    cases checked
    exact ⟨decoded, by simpa using formed⟩

theorem checkFrom_length {ag : Agent} {allot fuel pos : Nat} {h : Header} {seen : Seen} {ws : List Word}
    {is : List Instr} (checked : checkFrom ag allot h fuel pos seen ws = .ok is) : is.length = fuel := by
  induction fuel generalizing pos seen ws is with
  | zero => cases checked; rfl
  | succ n ih =>
    unfold checkFrom at checked
    split at checked
    · cases checked
    · dsimp only at checked
      split at checked
      · cases checked
      · split at checked
        · cases checked
        · cases checked
          rw [List.length_cons, ih ‹_›]

/-- What an admitted clause's header and instructions are. -/
theorem checkClause_ok {ag : Agent} {allot : Nat} {ws : List Word} {h : Header} {is : List Instr}
    (checked : checkClause ag allot ws = .ok (h, is)) :
    ∃ hw r, ws = hw :: r ∧ h = headerOf hw ∧ headerOk ag hw = true
      ∧ checkFrom ag allot h h.count 0 ⟨[], false⟩ r = .ok is := by
  unfold checkClause at checked
  split at checked
  · cases checked
  · split at checked
    · cases checked
    · rename_i hw r formed
      split at checked
      · cases checked
      · cases checked
        exact ⟨hw, r, rfl, rfl, by simpa using formed, ‹_›⟩

/-- R74: a clause has an instruction. -/
theorem checkClause_ne_nil {ag : Agent} {allot : Nat} {ws : List Word} {h : Header} {is : List Instr}
    (checked : checkClause ag allot ws = .ok (h, is)) : is ≠ [] := by
  obtain ⟨hw, r, -, rfl, formed, instrs⟩ := checkClause_ok checked
  rintro rfl
  have none : (headerOf hw).count = 0 := (checkFrom_length instrs).symm
  simp [headerOk, none] at formed

/-- R52: the words of a clause of one instruction: one, or two where its bit of the map is set. -/
theorem clauseWords_of_one {ag : Agent} {hw : Word} (formed : headerOk ag hw = true) (one : (headerOf hw).count = 1) :
    clauseWords (headerOf hw) = if (headerOf hw).extMap.getLsbD 0 then 3 else 2 := by
  have map : (headerOf hw).extMap.toNat / 2 = 0 := by
    simp only [headerOk, one, Bool.and_eq_true, beq_iff_eq] at formed
    exact formed.1.2
  have small : (headerOf hw).extMap = 0 ∨ (headerOf hw).extMap = 1 := by
    generalize (headerOf hw).extMap = m at map
    rcases (by omega : m.toNat = 0 ∨ m.toNat = 1) with zero | one
    · exact .inl (BitVec.eq_of_toNat_eq zero)
    · exact .inr (BitVec.eq_of_toNat_eq one)
  unfold clauseWords
  rcases small with empty | full
  · rw [one, empty]; decide
  · rw [one, full]; decide

/-- R74: the instruction of a clause of one is what the decoder makes of the words after the header. -/
theorem decode_of_checkClause {ag : Agent} {allot : Nat} {ws : List Word} {h : Header} {i : Instr}
    (checked : checkClause ag allot ws = .ok (h, [i])) (length : ws.length ≤ clauseWords (headerOf (ws.headD 0))) :
    decode ws.tail = .ok i ∧ i.wf ag = true := by
  obtain ⟨hw, r, rfl, rfl, formed, instrs⟩ := checkClause_ok checked
  have one : (headerOf hw).count = 1 := (checkFrom_length instrs).symm
  rw [List.headD_cons, clauseWords_of_one formed one, List.length_cons] at length
  rw [one] at instrs
  unfold checkFrom at instrs
  cases r with
  | nil => cases instrs
  | cons base rest =>
    dsimp only at instrs
    split at instrs
    · cases instrs
    · rename_i j seen' checkedAt
      obtain rfl : j = i := by
        simp only [checkFrom] at instrs
        exact (List.cons.inj (Except.ok.inj instrs)).1
      obtain ⟨decoded, agent⟩ := decode_of_checkAt checkedAt
      refine ⟨?_, agent⟩
      rw [← decoded, List.tail_cons]
      cases mapped : (headerOf hw).extMap.getLsbD 0 with
      | false =>
        rw [mapped] at length
        obtain rfl : rest = [] := by
          cases rest with
          | nil => rfl
          | cons x r => simp at length
        rfl
      | true =>
        rw [mapped] at length
        cases rest with
        | nil => rfl
        | cons x r =>
          obtain rfl : r = [] := by
            cases r with
            | nil => rfl
            | cons y r => simp at length; omega
          rfl

/-! ### The issue of a clause and the step (03 R76) -/

theorem curFor_fault (s : State) (a : ClauseAgent) : (curFor s a).fault = none := by
  cases a <;> rfl

/-- R77: where the first agent's clause is fetched and ready, the step issues it. -/
theorem step_issues {s : State} {a : ClauseAgent} {rest : List ClauseAgent} {ws : List Word} {h : Header}
    {is : List Instr} (inputs : s.inputs = []) (on : s.power.off = false) (noEvent : eventFirst (passTime s) = none)
    (first : clauseAgents (passTime s) = a :: rest) {s0 : State}
    (here : s0 = { passTime s with cur := curFor (passTime s) a }) (text : clauseText s0 = .ok ws)
    (checked : checkClause s0.cur.agent (launchOfBlock s0 s0.cur.block).desc.allot ws = .ok (h, is))
    (ready : clauseReady (loadClause s0 ws.length h is) = true) :
    step s = issueClause (loadClause s0 ws.length h is) := by
  have fetched : fetchClause s0 = loadClause s0 ws.length h is := by
    unfold fetchClause
    simp only [text, checked]
  have noFault : (loadClause s0 ws.length h is).cur.fault = none := by rw [here]; exact curFor_fault _ a
  have loaded : exec .clauseFetch (passTime s) = .next (loadClause s0 ws.length h is) := by
    show execClauseFetch (passTime s) = _
    rw [execClauseFetch, first, nextClause, ← here, fetched]
    simp only [ready, Bool.or_true, if_true, Option.getD_some]
  have code : (loadClause s0 ws.length h is).cur.code.isEmpty = false := by
    cases is with
    | nil => exact absurd rfl (checkClause_ne_nil checked)
    | cons i r => rfl
  obtain ⟨inputs', off'⟩ := passTime_keepsPlan s
  rw [inputs] at inputs'
  rw [on] at off'
  have issued : afterFetch (loadClause s0 ws.length h is) = issueClause (loadClause s0 ws.length h is) := by
    unfold afterFetch
    simp only [noFault, code, Option.isSome_none, Bool.false_eq_true, if_false]
  unfold step runStep
  simp only [inputs', off', noEvent, loaded, issued, Bool.false_eq_true, if_false]

theorem cur_of_released {c : Cur} (fault : c.fault = none) (hold : c.hold = false) :
    { c with fault := none, hold := false } = c := by
  cases c
  cases fault
  cases hold
  rfl

/-- R76: a position whose instruction faults leaves the fault alone. -/
theorem runPosition_of_fault {s t : State} {va : Nat} {i : Instr} {q : FaultReport} (noFault : s.cur.fault = none)
    (ran : exec i { consumeBad s i with cur := { s.cur with pos := 0, word := va } } = .next t)
    (fault : t.cur.fault = some q) :
    runPosition 0 (va, i) s = .next { s with cur := { s.cur with fault := some q } } := by
  have run : exec i { consumeBad s i with cur := { s.cur with pos := 0, word := va, fault := none } } = .next t := by
    rw [← noFault]
    exact ran
  unfold runPosition
  dsimp only at run ⊢
  rw [run]
  simp only [fault, noFault, mergeFault]

/-- R76, R62: a position whose instruction does not fault leaves what that answers, and holds where a counter is full. -/
theorem runPosition_of_noFault {s t : State} {va : Nat} {i : Instr} (noFault : s.cur.fault = none)
    (ran : exec i { consumeBad s i with cur := { s.cur with pos := 0, word := va } } = .next t)
    (fault : t.cur.fault = none) :
    runPosition 0 (va, i) s
      = .next { t with cur := { t.cur with fault := none, hold := t.cur.hold || counterFull s i } } := by
  have run : exec i { consumeBad s i with cur := { s.cur with pos := 0, word := va, fault := none } } = .next t := by
    rw [← noFault]
    exact ran
  unfold runPosition
  dsimp only at run ⊢
  rw [run]
  simp only [fault, noFault]

theorem runPositions_of_one {s t : State} {p : Nat × Instr} (ran : runPosition 0 p s = .next t) :
    runPositions 0 [p] s = .next t := by
  simp only [runPositions, ran]

section
variable {s t : State} {va : Nat} {i : Instr} (code : s.cur.code = [(va, i)]) (noFault : s.cur.fault = none)
  (ran : exec i { consumeBad s i with cur := { s.cur with pos := 0, word := va } } = .next t)
include code noFault ran

/-- R76: a faulting instruction leaves nothing; its fault is taken before the clause. -/
theorem issueClause_of_fault {q : FaultReport} (fault : t.cur.fault = some q) :
    issueClause s = .next { deliver { s with cur := { s.cur with pos := q.pos } } q with cur := {} } := by
  unfold issueClause
  rw [code, runPositions_of_one (runPosition_of_fault noFault ran fault)]

/-- R62: an instruction that must wait leaves nothing; a due event happens. -/
theorem issueClause_of_hold (fault : t.cur.fault = none) (hold : t.cur.hold = true ∨ counterFull s i = true) :
    issueClause s = background { s with cur := {} } := by
  have held : (t.cur.hold || counterFull s i) = true := by simpa using hold
  unfold issueClause
  rw [code, runPositions_of_one (runPosition_of_noFault noFault ran fault), held]
  rfl

/-- R76, 16 R388: an instruction that neither faults nor waits ends the clause, or has its binners flushed. -/
theorem issueClause_of_done (fault : t.cur.fault = none) (free : ¬(t.cur.hold = true ∨ counterFull s i = true)) :
    issueClause s = if t.cur.flush = [] then .next (endClause t) else flushFirst s t := by
  obtain ⟨hold, room⟩ : t.cur.hold = false ∧ counterFull s i = false := by simpa using free
  have same : ({ t with cur := { t.cur with fault := none, hold := false } } : State) = t := by
    rw [cur_of_released fault hold]
  unfold issueClause
  rw [code, runPositions_of_one (runPosition_of_noFault noFault ran fault), hold, room, Bool.or_self, same]
  simp only [fault, hold, Bool.false_eq_true, if_false, List.isEmpty_iff]
end

/-- Settles O57: the inputs and the power stand while time passes, so the step takes the branch that the clause names; the
clause of one instruction is then run by cases on its fault, its wait and its flush. -/
theorem stepRunsDecoded : Obligations.StepRunsDecoded := by
  unfold Obligations.StepRunsDecoded
  refine ⟨?input, ?clause, ?event, ?text⟩
  case input =>
    intro s i r inputs on
    obtain ⟨inputs', off'⟩ := passTime_keepsPlan s
    rw [inputs] at inputs'
    rw [on] at off'
    unfold step runStep
    simp only [inputs', off', Bool.false_and, Bool.false_eq_true, if_false]
  case clause =>
    intro s a rest ws h is inputs on noEvent first s0 text checked s1 ready
    have issues : step s = issueClause s1 := step_issues inputs on noEvent first rfl text checked ready
    refine ⟨issues, ?_⟩
    rintro i rfl
    obtain ⟨decoded, agent⟩ := decode_of_checkClause checked (clauseText_length text)
    refine ⟨decoded, agent, fun t ran => ?_⟩
    have code : s1.cur.code = [(s0.cur.addr + 4, i)] := rfl
    have noFault : s1.cur.fault = none := curFor_fault (passTime s) a
    rw [issues]
    cases fault : t.cur.fault with
    | some q => exact issueClause_of_fault code noFault ran fault
    | none =>
      dsimp only
      split
      · exact issueClause_of_hold code noFault ran fault ‹_›
      · have done' := issueClause_of_done code noFault ran fault ‹_›
        split
        · rw [done', if_pos ‹_›]
        · rw [done', if_neg ‹_›]
  case event =>
    intro s x inputs on event
    obtain ⟨inputs', off'⟩ := passTime_keepsPlan s
    rw [inputs] at inputs'
    rw [on] at off'
    unfold step runStep
    simp only [inputs', off', event, Bool.false_eq_true, if_false]
  case text =>
    intro s ws outside words length stand
    exact clauseText_of_bytes outside words length stand

end Sys2Proof.Proofs
end

section
/-! PROOF of the statements on the encoding, O55 and O56: the fields of an encoded word, one after another, then the formats
that the decoder asks (03 R55 to R72). -/

namespace Sys2Proof.Proofs

/-! ### Fields laid side by side -/

/-- A field read where it was laid. -/
@[simp] theorem bits_field_same {n lo : Nat} (f : BitVec n) (h : lo + n ≤ 32) :
    bits (f.setWidth 32 <<< lo) lo n = f := by
  ext i hi
  simp only [bits, BitVec.getElem_extractLsb', BitVec.getLsbD_shiftLeft, BitVec.getLsbD_setWidth]
  grind

/-- What is laid elsewhere does not reach a field. -/
@[simp] theorem bits_field_other {n lo lo' w : Nat} (f : BitVec n) (h : lo + n ≤ lo' ∨ lo' + w ≤ lo) :
    bits (f.setWidth 32 <<< lo) lo' w = 0#w := by
  ext i hi
  simp only [bits, BitVec.getElem_extractLsb', BitVec.getLsbD_shiftLeft, BitVec.getLsbD_setWidth]
  grind

@[simp] theorem bits_lowest_same {n : Nat} (f : BitVec n) (h : n ≤ 32) : bits (f.setWidth 32) 0 n = f := by
  simpa using bits_field_same (lo := 0) f (by omega)

@[simp] theorem bits_lowest_other {n lo w : Nat} (f : BitVec n) (h : n ≤ lo) : bits (f.setWidth 32) lo w = 0#w := by
  simpa using bits_field_other (lo := 0) f (.inl (by omega))

@[simp] theorem bits_or (x y : Word) (lo w : Nat) : bits (x ||| y) lo w = bits x lo w ||| bits y lo w :=
  BitVec.extractLsb'_or

@[simp] theorem bits_zero (lo w : Nat) : bits 0#32 lo w = 0#w := by simp [bits]

@[simp] theorem bits_ofNat (n lo w : Nat) : bits (BitVec.ofNat 32 n) lo w = BitVec.ofNat w ((n % 2 ^ 32) >>> lo) := by
  simp [bits, BitVec.extractLsb']

/-- A flag's bit does not reach a field beside it. -/
@[simp] theorem bits_flag_other {b : Bool} {x : Word} {lo w : Nat} (h : bits x lo w = 0#w) :
    bits (if b then x else 0#32) lo w = 0#w := by
  cases b
  · exact bits_zero lo w
  · exact h

@[simp] theorem getElem_flag (b : Bool) (x : Word) {i : Nat} (h : i < 32) :
    (if b then x else 0#32)[i] = (b && x[i]) := by
  cases b <;> simp

/-! ### The codes of a field -/

@[simp] theorem decSrc_encSrc (x : Src) : decSrc (encSrc x) = some x := by
  cases x with
  | reg n =>
    have below : n.toNat % 256 < 0x80 := by omega
    simp [encSrc, decSrc, below]
  | latch j => revert j; decide
  | const c => revert c; decide

@[simp] theorem decDst_encDst (x : Dst) : decDst (encDst x) = some x := by
  cases x with
  | reg n =>
    have below : n.toNat % 256 < 0x80 := by omega
    simp [encDst, decDst, below]
  | suppress => rfl

@[simp] theorem decRnd_encRnd (r : Rnd) : decRnd (encRnd r) = some r := by cases r <;> rfl

@[simp] theorem decScope_encScope (x : Scope) : decScope (encScope x) = some x := by cases x <;> rfl

@[simp] theorem decOrdering_encOrdering (x : Ordering3) : decOrdering (encOrdering x) = some x := by
  cases x <;> rfl

@[simp] theorem decSize_encSize (x : Size) : decSize (encSize x) = some x := by cases x <;> rfl

@[simp] theorem decDeadline_encDeadline (x : Deadline) : decDeadline x.kind (encDeadline x) = some x := by
  cases x with
  | rel u => rfl
  | abs r =>
    have below : r.toNat % 65536 < 0x80 := by omega
    simp [encDeadline, decDeadline, Deadline.kind, below]

/-! ### Extension words -/

theorem decExtA_encExtA (e : ExtA) : decExtA (encExtA e) = .ok e := by
  simp [decExtA, encExtA, encGuard, decGuard]

theorem decExtM_encExtM (e : ExtM) : decExtM (encExtM e) = .ok e := by
  simp [decExtM, encExtM, encGuard, decGuard]

theorem decExtMB_encExtMB (e : ExtMB) : decExtMB (encExtMB e) = .ok e := by
  simp [decExtMB, encExtMB, encGuard, decGuard]

theorem decExtW_encExtW (e : ExtW) : decExtW (encExtW e) = .ok e := by
  simp [decExtW, encExtW, encGuard, decGuard]

/-- 03 R67: bit 27 tells the blocking layout from the other. -/
theorem encExtM_plain (e : ExtM) : (encExtM e)[27] = false := by
  simp [encExtM, encGuard]

theorem encExtMB_blocking (e : ExtMB) : (encExtMB e)[27] = true := by
  simp [encExtMB, encGuard]

/-! ### Base words -/

@[simp] theorem bits_encBase_op (op d a b : BitVec 8) : bits (encBase op d a b) 24 8 = op := by simp [encBase]

@[simp] theorem bits_encBase_dst (op d a b : BitVec 8) : bits (encBase op d a b) 16 8 = d := by simp [encBase]

@[simp] theorem bits_encBase_a (op d a b : BitVec 8) : bits (encBase op d a b) 8 8 = a := by simp [encBase]

@[simp] theorem bits_encBase_b (op d a b : BitVec 8) : bits (encBase op d a b) 0 8 = b := by simp [encBase]

/-! ### One format to an opcode (03 R70, R72)

The decoder asks the opcode maps one after another; an opcode of one is in none that is asked before it. -/

theorem extRule_of_mkA {op : Nat} {k : FormA → Instr} (h : mkA op = some k) :
    extRule op = .required ∨ extRule op = .optional := by
  cases rule : extRule op with
  | required => exact .inl rfl
  | optional => exact .inr rfl
  | forbidden =>
    unfold extRule at rule
    split at rule
    case h_1 | h_2 | h_3 | h_4 => simp [mkA] at h
    all_goals cases rule

theorem alone_of_mkB {op : Nat} {k : FormB → Instr} (h : mkB op = some k) :
    extRule op = .optional ∧ mkA op = none := by
  unfold mkB at h
  split at h
  case h_4 => cases h
  all_goals exact ⟨rfl, rfl⟩

theorem alone_of_mkI {op : Nat} {k : FormI → Instr} (h : mkI op = some k) :
    extRule op = .required ∧ mkA op = none ∧ mkB op = none := by
  unfold mkI at h
  split at h
  case h_3 => cases h
  all_goals exact ⟨rfl, rfl, rfl⟩

theorem alone_of_mkW {op : Nat} {k : FormW → Instr} (h : mkW op = some k) :
    extRule op = .required ∧ mkA op = none ∧ mkB op = none ∧ mkI op = none := by
  unfold mkW at h
  split at h
  case h_11 => cases h
  all_goals exact ⟨rfl, rfl, rfl, rfl⟩

theorem alone_of_mkLoad {op : Nat} {k : LoadForm → Instr} (h : mkLoad op = some k) :
    extRule op = .optional ∧ mkA op = none ∧ mkB op = none ∧ mkI op = none ∧ mkW op = none := by
  unfold mkLoad at h
  split at h
  case h_7 => cases h
  all_goals exact ⟨rfl, rfl, rfl, rfl, rfl⟩

theorem isSome_mkLoad_of_mkBlock {op : Nat} {k : BlockForm → Instr} (h : mkBlock op = some k) :
    ∃ l, mkLoad op = some l := by
  unfold mkBlock at h
  split at h
  case h_4 => cases h
  all_goals exact ⟨_, rfl⟩

theorem alone_of_mkStore {op : Nat} {k : StoreForm → Instr} (h : mkStore op = some k) :
    extRule op = .optional ∧ mkA op = none ∧ mkB op = none ∧ mkI op = none ∧ mkW op = none ∧ mkLoad op = none := by
  unfold mkStore at h
  split at h
  case h_6 => cases h
  all_goals exact ⟨rfl, rfl, rfl, rfl, rfl, rfl⟩

theorem alone_of_mkAtom {op : Nat} {k : AtomForm → Instr} (h : mkAtom op = some k) :
    extRule op = .optional ∧ mkA op = none ∧ mkB op = none ∧ mkI op = none ∧ mkW op = none ∧ mkLoad op = none
      ∧ mkStore op = none := by
  unfold mkAtom at h
  split at h
  case h_5 => cases h
  all_goals exact ⟨rfl, rfl, rfl, rfl, rfl, rfl, rfl⟩

theorem alone_of_mkRed {op : Nat} {k : RedForm → Instr} (h : mkRed op = some k) :
    extRule op = .optional ∧ mkA op = none ∧ mkB op = none ∧ mkI op = none ∧ mkW op = none ∧ mkLoad op = none
      ∧ mkStore op = none ∧ mkAtom op = none := by
  unfold mkRed at h
  split at h
  case h_3 => cases h
  all_goals exact ⟨rfl, rfl, rfl, rfl, rfl, rfl, rfl, rfl⟩

/-! ### Each format decoded -/

section
variable {base x : Word} {op : Nat} (code : (bits base 24 8).toNat = op)
include code

theorem decodeWords_of_mkA {k : FormA → Instr} (h : mkA op = some k) {d : Dst} {a b : Src} {m : ExtA}
    (fields : decFields base = .ok (d, a, b)) (ext : decExtA x = .ok m) :
    decodeWords base (some x) = .ok (k { dst := d, a := a, b := b, x := m }) := by
  unfold decodeWords
  rw [code]
  obtain rule | rule := extRule_of_mkA h <;> simp [rule, h, fields, ext]

theorem decodeWords_of_mkB {k : FormB → Instr} (h : mkB op = some k) {o : BitVec 24} {m : ExtA}
    (off : bits base 0 24 = o) (ext : decExtA x = .ok m) :
    decodeWords base (some x) = .ok (k { off := o, x := m }) := by
  obtain ⟨rule, noA⟩ := alone_of_mkB h
  unfold decodeWords
  rw [code]
  simp [rule, noA, h, off, ext]

theorem decodeWords_of_mkI {k : FormI → Instr} (h : mkI op = some k) {d : Dst} (dst : decDst (bits base 16 8) = some d)
    (unused : bits base 0 16 = 0#16) : decodeWords base (some x) = .ok (k { dst := d, imm := x }) := by
  obtain ⟨rule, noA, noB⟩ := alone_of_mkI h
  unfold decodeWords
  rw [code]
  simp [rule, noA, noB, h, dst, unused]

theorem decodeWords_of_mkW {k : FormW → Instr} (h : mkW op = some k) {d : Dst} {a b : Src} {m : ExtW}
    (fields : decFields base = .ok (d, a, b)) (unused : bits base 0 8 = 0#8) (ext : decExtW x = .ok m) :
    decodeWords base (some x) = .ok (k { dst := d, a := a, x := m }) := by
  obtain ⟨rule, noA, noB, noI⟩ := alone_of_mkW h
  unfold decodeWords
  rw [code]
  simp [rule, noA, noB, noI, h, fields, unused, ext]

theorem decodeWords_of_mkLoad {k : LoadForm → Instr} (h : mkLoad op = some k) {d : BitVec 7} {a b : Src} {m : ExtM}
    (dst : decDst7 base = .ok d) (srcs : decSrcs base = .ok (a, b)) (unused : bits base 0 8 = 0#8)
    (plain : x[27] = false) (ext : decExtM x = .ok m) :
    decodeWords base (some x) = .ok (k { dst := d, a := a, x := m }) := by
  obtain ⟨rule, noA, noB, noI, noW⟩ := alone_of_mkLoad h
  unfold decodeWords
  rw [code]
  simp [rule, noA, noB, noI, noW, h, dst, srcs, unused, plain, ext]

theorem decodeWords_of_mkBlock {k : BlockForm → Instr} (h : mkBlock op = some k) {d : BitVec 7} {a b : Src} {m : ExtMB}
    (dst : decDst7 base = .ok d) (srcs : decSrcs base = .ok (a, b)) (blocking : x[27] = true)
    (ext : decExtMB x = .ok m) : decodeWords base (some x) = .ok (k { dst := d, a := a, cmp := b, x := m }) := by
  obtain ⟨l, load⟩ := isSome_mkLoad_of_mkBlock h
  obtain ⟨rule, noA, noB, noI, noW⟩ := alone_of_mkLoad load
  unfold decodeWords
  rw [code]
  simp [rule, noA, noB, noI, noW, load, h, dst, srcs, blocking, ext]

theorem decodeWords_of_mkStore {k : StoreForm → Instr} (h : mkStore op = some k) {mask a b : Src} {m : ExtM}
    (dst : decSrc (bits base 16 8) = some mask) (srcs : decSrcs base = .ok (a, b)) (plain : x[27] = false)
    (ext : decExtM x = .ok m) : decodeWords base (some x) = .ok (k { maskSrc := mask, a := a, data := b, x := m }) := by
  obtain ⟨rule, noA, noB, noI, noW, noLoad⟩ := alone_of_mkStore h
  unfold decodeWords
  rw [code]
  simp [rule, noA, noB, noI, noW, noLoad, h, dst, srcs, plain, ext]

theorem decodeWords_of_mkAtom {k : AtomForm → Instr} (h : mkAtom op = some k) {d : BitVec 7} {a b : Src} {m : ExtM}
    (dst : decDst7 base = .ok d) (srcs : decSrcs base = .ok (a, b)) (plain : x[27] = false)
    (ext : decExtM x = .ok m) : decodeWords base (some x) = .ok (k { dst := d, a := a, operand := b, x := m }) := by
  obtain ⟨rule, noA, noB, noI, noW, noLoad, noStore⟩ := alone_of_mkAtom h
  unfold decodeWords
  rw [code]
  simp [rule, noA, noB, noI, noW, noLoad, noStore, h, dst, srcs, plain, ext]

theorem decodeWords_of_mkRed {k : RedForm → Instr} (h : mkRed op = some k) {a b : Src} {m : ExtM}
    (unused : bits base 16 8 = 0#8) (srcs : decSrcs base = .ok (a, b)) (plain : x[27] = false)
    (ext : decExtM x = .ok m) : decodeWords base (some x) = .ok (k { a := a, operand := b, x := m }) := by
  obtain ⟨rule, noA, noB, noI, noW, noLoad, noStore, noAtom⟩ := alone_of_mkRed h
  unfold decodeWords
  rw [code]
  simp [rule, noA, noB, noI, noW, noLoad, noStore, noAtom, h, unused, srcs, plain, ext]

theorem decodeWords_of_pref (h : op = 0x62) {a b : Src} {m : ExtM} (unused : bits base 16 8 = 0#8)
    (unused' : bits base 0 8 = 0#8) (srcs : decSrcs base = .ok (a, b)) (plain : x[27] = false)
    (ext : decExtM x = .ok m) : decodeWords base (some x) = .ok (.pref { a := a, x := m }) := by
  subst h
  unfold decodeWords
  rw [code]
  simp [extRule, mkA, mkB, mkI, mkW, mkLoad, mkStore, mkAtom, mkRed, unused, unused', srcs, plain, ext]

theorem decodeWords_of_repeat (h : op = 0x87) {f : RepeatForm} (fields : decRepeat base x = .ok f) :
    decodeWords base (some x) = .ok (.repeatLoop f) := by
  subst h
  unfold decodeWords
  rw [code]
  simp [extRule, mkA, mkB, mkI, mkW, mkLoad, mkStore, mkAtom, mkRed, fields]

theorem decodeWords_of_mkPlain {i : Instr} (h : mkPlain op = some i) (unused : bits base 0 24 = 0#24) :
    decodeWords base none = .ok i := by
  unfold decodeWords
  rw [code]
  revert h
  unfold mkPlain
  split
  case h_5 => nofun
  all_goals
    rintro ⟨⟩
    simp [extRule, mkA, mkB, mkI, mkW, mkLoad, mkStore, mkAtom, mkRed, unused]

end

/-! ### The fields of a base word -/

theorem decFields_encBase (op : BitVec 8) (d : Dst) (a b : Src) :
    decFields (encBase op (encDst d) (encSrc a) (encSrc b)) = .ok (d, a, b) := by
  simp [decFields]

theorem decSrcs_encBase (op d : BitVec 8) (a b : Src) : decSrcs (encBase op d (encSrc a) (encSrc b)) = .ok (a, b) := by
  simp [decSrcs]

theorem decDst7_encBase (op : BitVec 8) (n : BitVec 7) (a b : BitVec 8) :
    decDst7 (encBase op (encReg n) a b) = .ok n := by
  have field := bits_encBase_dst op (encReg n) a b
  have clear : (encBase op (encReg n) a b).getLsbD 23 = false := by
    simpa [bits, encReg] using congrArg (·.getLsbD 7) field
  have reg : bits (encBase op (encReg n) a b) 16 7 = n := by
    ext i hi
    have below : i < 8 := by omega
    simpa [bits, encReg, hi, below] using congrArg (·.getLsbD i) field
  unfold decDst7
  rw [clear, reg]
  rfl

theorem decRepeat_encode (op : BitVec 8) (f : RepeatForm) :
    decRepeat (encBase op f.words (encSrc f.count) (encSrc f.addr))
      (encGuard f.guard ||| (f.clauses.setWidth 32 <<< 20) ||| (f.tileStep.setWidth 32 <<< 17)
        ||| (f.cStep.setWidth 32 <<< 9) ||| (f.bStep.setWidth 32 <<< 6) ||| (f.aStep.setWidth 32 <<< 3)
        ||| f.dStep.setWidth 32) = .ok f := by
  simp [decRepeat, decSrcs_encBase, encGuard, decGuard]

/-! ### The opcode map read back (03 R70) -/

/-- The opcode and operand form of a well-formed instruction name it again. -/
theorem rebuild_parts {ag : Agent} {i : Instr} {op : BitVec 8} {form : Form} (wf : i.wf ag = true)
    (parts : i.parts = some (op, form)) : Laws.rebuild op form = some i := by
  have either : i.wf .core = true ∨ i.wf .coachman = true := by
    cases ag with
    | core => exact .inl wf
    | coachman => exact .inr wf
  have named : Laws.Encodable.Statement i := by
    cases i with
    | cbput f => exact Laws.Encodable.cbput f
    | cbputInit f => exact Laws.Encodable.cbputInit f
    | _ => intro _ p h; cases h <;> rfl
  exact named either _ parts

/-- A device event is no word of any agent. -/
theorem parts_of_wf {ag : Agent} {i : Instr} (wf : i.wf ag = true) : ∃ op form, i.parts = some (op, form) := by
  cases parts : i.parts with
  | some p => exact ⟨p.1, p.2, rfl⟩
  | none => cases i with
    | _ => cases parts <;> cases ag <;> cases wf

/-- Settles O55: the opcode map read back names the instruction's format, and that format reads its own words field by
field. -/
theorem decodeEncode : Obligations.DecodeEncode := by
  intro ag i wf
  obtain ⟨op, form, parts⟩ := parts_of_wf wf
  have named := rebuild_parts wf parts
  have code : ∀ d a b, (bits (encBase op d a b) 24 8).toNat = op.toNat := fun d a b => by rw [bits_encBase_op]
  unfold encodeWords
  rw [parts]
  cases form with
  | a f =>
    obtain ⟨k, h, rfl⟩ := Option.map_eq_some_iff.1 named
    exact ⟨_, _, rfl, decodeWords_of_mkA (code ..) h (decFields_encBase op f.dst f.a f.b) (decExtA_encExtA f.x)⟩
  | b f =>
    obtain ⟨k, h, rfl⟩ := Option.map_eq_some_iff.1 named
    exact ⟨_, _, rfl, decodeWords_of_mkB (op := op.toNat) (by simp) h (by simp) (decExtA_encExtA f.x)⟩
  | i f =>
    obtain ⟨k, h, rfl⟩ := Option.map_eq_some_iff.1 named
    exact ⟨_, _, rfl, decodeWords_of_mkI (code ..) h (by simp) (by simp [encBase])⟩
  | w f =>
    obtain ⟨k, h, rfl⟩ := Option.map_eq_some_iff.1 named
    exact ⟨_, _, rfl, decodeWords_of_mkW (code ..) h (decFields_encBase op f.dst f.a (.reg 0)) (by simp)
      (decExtW_encExtW f.x)⟩
  | load f =>
    obtain ⟨k, h, rfl⟩ := Option.map_eq_some_iff.1 named
    exact ⟨_, _, rfl, decodeWords_of_mkLoad (code ..) h (decDst7_encBase ..) (decSrcs_encBase op _ f.a (.reg 0))
      (by simp) (encExtM_plain f.x) (decExtM_encExtM f.x)⟩
  | block f =>
    obtain ⟨k, h, rfl⟩ := Option.map_eq_some_iff.1 named
    exact ⟨_, _, rfl, decodeWords_of_mkBlock (code ..) h (decDst7_encBase ..) (decSrcs_encBase ..)
      (encExtMB_blocking f.x) (decExtMB_encExtMB f.x)⟩
  | store f =>
    obtain ⟨k, h, rfl⟩ := Option.map_eq_some_iff.1 named
    exact ⟨_, _, rfl, decodeWords_of_mkStore (code ..) h (by simp) (decSrcs_encBase ..)
      (encExtM_plain f.x) (decExtM_encExtM f.x)⟩
  | atom f =>
    obtain ⟨k, h, rfl⟩ := Option.map_eq_some_iff.1 named
    exact ⟨_, _, rfl, decodeWords_of_mkAtom (code ..) h (decDst7_encBase ..) (decSrcs_encBase ..)
      (encExtM_plain f.x) (decExtM_encExtM f.x)⟩
  | red f =>
    obtain ⟨k, h, rfl⟩ := Option.map_eq_some_iff.1 named
    exact ⟨_, _, rfl, decodeWords_of_mkRed (code ..) h (by simp) (decSrcs_encBase ..)
      (encExtM_plain f.x) (decExtM_encExtM f.x)⟩
  | pref f =>
    obtain ⟨rfl, ⟨⟩⟩ := Option.ite_none_right_eq_some.1 named
    exact ⟨_, _, rfl, decodeWords_of_pref (code ..) rfl (by simp) (by simp) (decSrcs_encBase _ _ f.a (.reg 0))
      (encExtM_plain f.x) (decExtM_encExtM f.x)⟩
  | rep f =>
    obtain ⟨rfl, ⟨⟩⟩ := Option.ite_none_right_eq_some.1 named
    exact ⟨_, _, rfl, decodeWords_of_repeat (code ..) rfl (decRepeat_encode ..)⟩
  | plain =>
    exact ⟨_, _, rfl, decodeWords_of_mkPlain (code ..) named (by simp [encBase])⟩

/-- Settles O56: each word's opcode picks its format, and the fields are the numerals that the words hold. -/
theorem decodeWords_examples : Obligations.DecodeWords :=
  ⟨rfl, rfl, rfl, rfl, rfl, rfl, rfl, rfl, rfl, rfl, rfl, rfl, rfl, rfl, rfl⟩

end Sys2Proof.Proofs
end

section
/-! PROOF of the statement that a clause issues whole, O58 (03 R76). -/

namespace Sys2Proof.Proofs
open Sys2Proof.Machine Sys2Proof.Safety

/-- A result that leaves no clause under way, where it answers a next state. -/
def endsQuiet (x : Result) : Prop := ∀ t, x = .next t → quiet t

theorem endsQuiet_next {t : State} (h : quiet t) : endsQuiet (.next t) := by
  rintro _ ⟨⟩
  exact h

theorem endsQuiet_fault {r : Fault} : endsQuiet (.fault r) := by
  intro _ h
  cases h

theorem endsQuiet_refused {r : Refusal} : endsQuiet (.refused r) := by
  intro _ h
  cases h

theorem endsQuiet_ite {c : Prop} [Decidable c] {x y : Result} (hx : endsQuiet x) (hy : endsQuiet y) :
    endsQuiet (if c then x else y) := by
  split
  · exact hx
  · exact hy

/-- An event of the schedule ends with no clause under way, whatever it leaves. -/
theorem firstChange_quiet (s : State) (es : List (State → Result)) {x : Result} (h : firstChange s es = some x) :
    endsQuiet x := by
  induction es with
  | nil => cases h
  | cons e r ih =>
    rw [firstChange] at h
    cases out : e s with
    | next t =>
      simp only [out] at h
      split at h
      · exact ih h
      · cases h
        exact endsQuiet_next rfl
    | fault r =>
      rw [out] at h
      cases h
      exact endsQuiet_fault
    | refused r =>
      rw [out] at h
      cases h
      exact endsQuiet_refused

theorem background_quiet {s : State} (h : quiet s) : endsQuiet (background s) := by
  unfold background
  cases due : firstChange s (dueEvents s) with
  | none => exact endsQuiet_next h
  | some x => exact firstChange_quiet s _ due

theorem flushFirst_quiet (s t : State) : endsQuiet (flushFirst s t) := by
  have flushed : quiet (t.cur.flush.foldl startFlush (endClause t)) :=
    foldl_keeps (fun u : State => u.cur) startFlush (fun _ _ => rfl) _ (endClause t)
  unfold flushFirst
  exact endsQuiet_ite (background_quiet rfl) (endsQuiet_ite (background_quiet rfl) (endsQuiet_next flushed))

theorem issueClause_quiet (s : State) : endsQuiet (issueClause s) := by
  unfold issueClause
  cases runPositions 0 s.cur.code s with
  | next t =>
    dsimp only
    cases t.cur.fault with
    | some r => exact endsQuiet_next rfl
    | none => exact endsQuiet_ite (background_quiet rfl) (endsQuiet_ite (endsQuiet_next rfl) (flushFirst_quiet s t))
  | fault r => exact endsQuiet_fault
  | refused r => exact endsQuiet_refused

theorem afterFetch_quiet (s : State) : endsQuiet (afterFetch s) := by
  unfold afterFetch
  exact endsQuiet_ite (endsQuiet_next rfl) (endsQuiet_ite (background_quiet rfl) (issueClause_quiet s))

theorem happen_quiet (i : Instr) (s : State) : endsQuiet (happen i s) := by
  unfold happen
  cases exec i s with
  | next t => exact endsQuiet_ite (endsQuiet_next rfl) (afterFetch_quiet t)
  | fault r => exact endsQuiet_fault
  | refused r => exact endsQuiet_refused

theorem eventFirst_quiet {s : State} {x : Result} (h : eventFirst s = some x) : endsQuiet x := by
  unfold eventFirst at h
  split at h
  · exact firstChange_quiet s _ h
  · cases h

theorem runStep_quiet (s : State) : endsQuiet (runStep s) := by
  unfold runStep
  generalize passTime s = s1
  dsimp only
  cases s1.inputs with
  | cons i r => exact endsQuiet_ite endsQuiet_fault (happen_quiet i _)
  | nil =>
    refine endsQuiet_ite endsQuiet_fault ?_
    cases first : eventFirst s1 with
    | some x => exact eventFirst_quiet first
    | none =>
      cases exec .clauseFetch s1 with
      | next t => exact afterFetch_quiet t
      | fault r => exact endsQuiet_fault
      | refused r => exact endsQuiet_refused

/-- Settles O58: every branch of the step ends its clause, or takes it from the state it leaves. -/
theorem clausesWhole : Obligations.ClausesWhole := fun s => runStep_quiet s

end Sys2Proof.Proofs
end

section
/-! PROOF of the statement on a trap taken, O19: the threads that an exception which is not restartable traps, and the record
it leaves for the supervisor (17 R411, 20 R460, R463). -/

namespace Sys2Proof.Proofs
open Sys2Proof.Machine

/-! ### Maps -/

/-- A map read after a change of its values, each by its key. -/
theorem mget_map_keyed {α β : Type} (m : SMap α) (f : Nat × α → Nat × β) (keys : ∀ p, (f p).1 = p.1) (n : Nat) :
    mget (m.map f) n = (mget m n).map fun v => (f (n, v)).2 := by
  induction m with
  | nil => rfl
  | cons p r ih =>
    rw [List.map_cons, mget, mget, keys, ih]
    split
    · rename_i here
      rw [here]
      rfl
    · rfl

@[simp] theorem moreOf_modMore (s : State) (c d : Nat) (f : CtxMore → CtxMore) :
    moreOf (modMore s c f) d = if d = c then f (moreOf s c) else moreOf s d := by
  simp only [moreOf, modMore, mgetD, mget_mset]
  split <;> rfl

theorem moreOf_congr {s t : State} (h : t.more = s.more) (c : Nat) : moreOf t c = moreOf s c := by
  rw [moreOf, h, moreOf]

/-! ### The threads that trap (20 R463) -/

/-- A trapped thread: it waits for nothing and stands at `pc`. -/
def trappedAt (pc : Nat) (t : Thread) : Thread :=
  t.modCtl fun c => { c with run := .trapped, wait := none, pc := pc, npc := none, refile := false, leaving := false }

/-- Every thread of a list trapped. -/
def trapAll (s : State) (uids : List Nat) (pc : Nat) : State := uids.foldl (fun acc u => modThread acc u (trappedAt pc)) s

theorem trapAll_eq (uids : List Nat) (pc : Nat) (s : State) :
    trapAll s uids pc
      = { s with work := { s.work with threads := uids.foldl (fun m u => mmod m u (trappedAt pc)) s.work.threads } } := by
  induction uids generalizing s with
  | nil => rfl
  | cons u r ih => exact ih (modThread s u (trappedAt pc))

theorem threadOf_trapAll (uids : List Nat) (pc : Nat) (s : State) (v : Nat) :
    threadOf (trapAll s uids pc) v = if v ∈ uids then (threadOf s v).map (trappedAt pc) else threadOf s v := by
  induction uids generalizing s with
  | nil => simp [trapAll]
  | cons u r ih =>
    have first : threadOf (modThread s u (trappedAt pc)) v
        = if v = u then (threadOf s v).map (trappedAt pc) else threadOf s v := mget_mmod s.work.threads u v (trappedAt pc)
    have again : trappedAt pc ∘ trappedAt pc = trappedAt pc := rfl
    rw [show trapAll s (u :: r) pc = trapAll (modThread s u (trappedAt pc)) r pc from rfl, ih, first]
    by_cases here : v = u
    · simp [here, again]
    · simp [here]

/-- R463: threads that trap leave one record, held for the supervisor. -/
theorem trapThreads_takesRecord {s : State} {uids : List Nat} (nonempty : uids ≠ []) (block resume words addr : Nat)
    (r : FaultReport) :
    ∃ q : ReplayRecord, (q.cause = 3 ∧ q.work = .core resume words uids ∧ q.code = r.code ∧ q.pos = r.pos)
      ∧ trapThreads s block uids resume words addr r = takeRecord (trapAll s uids resume) (ctxOfBlock s block) q := by
  unfold trapThreads
  rw [if_neg (by simpa using nonempty)]
  refine ⟨_, ⟨?_, ?_, ?_, ?_⟩, rfl⟩ <;> rfl

/-- The bundle of the clause under way off the issue list, each of its threads trapped at the clause. -/
def bundleTrapped (s : State) : State := trapAll (dropBundle s) s.cur.lanes s.cur.addr

/-- What is left of the threads and bundles; the rest of the state stands. -/
theorem bundleTrapped_eq (s : State) : bundleTrapped s = { s with work := { s.work with
    threads := s.cur.lanes.foldl (fun m u => mmod m u (trappedAt s.cur.addr)) s.work.threads
    bundles := s.work.bundles.filter fun b =>
      !(b.core == s.cur.core && b.block == s.cur.block && b.lanes == s.cur.lanes) } } :=
  trapAll_eq s.cur.lanes s.cur.addr (dropBundle s)

theorem threadOf_bundleTrapped (s : State) (v : Nat) : threadOf (bundleTrapped s) v
    = if v ∈ s.cur.lanes then (threadOf s v).map (trappedAt s.cur.addr) else threadOf s v :=
  threadOf_trapAll s.cur.lanes s.cur.addr (dropBundle s) v

theorem mem_bundles_bundleTrapped (s : State) (b : Bundle) : b ∈ (bundleTrapped s).work.bundles
    ↔ b ∈ s.work.bundles ∧ ¬(b.core = s.cur.core ∧ b.block = s.cur.block ∧ b.lanes = s.cur.lanes) := by
  rw [bundleTrapped_eq, List.mem_filter, Bool.not_eq_true', ← Bool.not_eq_true]
  simp only [Bool.and_eq_true, beq_iff_eq, and_assoc]

/-- R75, R463: an exception of a core that is not restartable traps the bundle and takes a record; the fault stands in
`cur`. -/
theorem deliver_traps {s : State} {r : FaultReport} (agent : s.cur.agent = .core) (nonempty : s.cur.lanes ≠ [])
    (code : r.code ≠ .pageAbsent) :
    ∃ q : ReplayRecord, (q.cause = 3 ∧ q.work = .core s.cur.addr ((s.cur.stop - s.cur.addr) / 4) s.cur.lanes
        ∧ q.code = r.code ∧ q.pos = r.pos)
      ∧ ∃ c : Cur, deliver s r = { takeRecord (bundleTrapped s) (ctxOfBlock s s.cur.block) q with cur := c }
        ∧ c.fault = some r := by
  obtain ⟨q, fields, taken⟩ := trapThreads_takesRecord (s := dropBundle s) nonempty s.cur.block s.cur.addr
    ((s.cur.stop - s.cur.addr) / 4) s.cur.addr r
  refine ⟨q, fields, ?_⟩
  unfold deliver
  rw [agent]
  dsimp only
  rw [if_neg code, taken]
  exact ⟨_, rfl, rfl⟩

/-! ### What a report leaves of the records (17 R411, 20 R464) -/

/-- The waiting records stand, and so do those in slots but for the time from which a trap's limit counts (log 11). -/
def recordsKept (s t : State) : Prop :=
  ∀ ctx, (moreOf t ctx).replayWaiting = (moreOf s ctx).replayWaiting
    ∧ ∀ n r, mget (moreOf s ctx).replay n = some r →
      ∃ since, mget (moreOf t ctx).replay n = some { r with since := since }

theorem recordsKept.trans {s t u : State} (h : recordsKept s t) (h' : recordsKept t u) : recordsKept s u := by
  intro ctx
  obtain ⟨waiting, slots⟩ := h ctx
  obtain ⟨waiting', slots'⟩ := h' ctx
  refine ⟨waiting'.trans waiting, fun n r held => ?_⟩
  obtain ⟨since, held'⟩ := slots n r held
  obtain ⟨since', held''⟩ := slots' n _ held'
  exact ⟨since', held''⟩

theorem recordsKept_of_more {s t : State} (h : t.more = s.more) : recordsKept s t := by
  intro ctx
  rw [moreOf_congr h]
  exact ⟨rfl, fun n r held => ⟨r.since, held⟩⟩

theorem recordsKept_modMore (s : State) (ctx : Nat) (f : CtxMore → CtxMore)
    (waiting : (f (moreOf s ctx)).replayWaiting = (moreOf s ctx).replayWaiting)
    (slots : (f (moreOf s ctx)).replay = (moreOf s ctx).replay) : recordsKept s (modMore s ctx f) := by
  intro c
  rw [moreOf_modMore]
  split
  · rename_i here
    rw [here, waiting, slots]
    exact ⟨rfl, fun n r held => ⟨r.since, held⟩⟩
  · exact ⟨rfl, fun n r held => ⟨r.since, held⟩⟩

theorem writeVirtual_more {s t : State} {ctx va : Nat} {bs : List Byte} (h : writeVirtual s ctx va bs = some t) :
    t.more = s.more := by
  obtain ⟨_, _, _, rfl⟩ := writeVirtual_homeOnly h
  rfl

theorem structureFailedOn_recordsKept (s : State) (die ctx addr : Nat) :
    recordsKept s (structureFailedOn s die ctx addr) := by
  unfold structureFailedOn
  split
  · exact recordsKept_of_more rfl
  · exact (recordsKept_modMore (blackBoxAdd s _) ctx _ rfl rfl).trans (recordsKept_modMore _ ctx _ rfl rfl)

theorem startTrapLimit_recordsKept (s : State) (e : EventEntry) : recordsKept s (startTrapLimit s e) := by
  unfold startTrapLimit
  split
  · exact recordsKept_of_more rfl
  · intro ctx
    rw [moreOf_modMore]
    split
    · rename_i here
      refine ⟨by rw [here], fun n r held => ?_⟩
      rw [here] at held
      dsimp only
      rw [mget_map_keyed _ _ (fun p => by split <;> rfl), held, Option.map_some]
      split
      · exact ⟨_, rfl⟩
      · exact ⟨r.since, rfl⟩
    · exact ⟨rfl, fun n r held => ⟨r.since, held⟩⟩

theorem writeEvent_recordsKept {s t : State} {die : Nat} {e : EventEntry} (h : writeEvent s die e = some t) :
    recordsKept s t := by
  unfold writeEvent at h
  split at h
  · cases h
  · split at h
    · cases h
    · rename_i s1 written
      extract_lets s2 s3 s4 at h
      cases h
      have before : recordsKept s s1 := recordsKept_of_more (writeVirtual_more written)
      have counted : recordsKept s1 s3 := recordsKept_of_more rfl
      have limit : recordsKept s3 s4 :=
        (recordsKept_modMore s3 e.ctx _ rfl rfl).trans (startTrapLimit_recordsKept (notify s3 e.ctx) e)
      exact ((before.trans counted).trans limit).trans (recordsKept_of_more rfl)

theorem appendEvent_recordsKept (s : State) (die : Nat) (e : EventEntry) : recordsKept s (appendEvent s die e) := by
  have traced : recordsKept s (addTrace s e.ctx e.kind e.addr) := by
    unfold addTrace
    dsimp only
    split <;> exact recordsKept_of_more rfl
  unfold appendEvent
  dsimp only
  refine traced.trans ?_
  generalize addTrace s e.ctx e.kind e.addr = t
  have held : recordsKept t (holdEvent t die e) := recordsKept_of_more rfl
  split
  · exact held
  · split
    · exact writeEvent_recordsKept ‹_›
    · split
      · exact held.trans (structureFailedOn_recordsKept _ _ _ _)
      · exact held

/-! ### A record's slot (17 R411, R416) -/

theorem countAbsent_coresDies (s : State) (w : ReplayWork) :
    ∃ cs ds, countAbsent s w = { s with cores := cs, dies := ds } := by
  have onDie (die : Nat) : ∃ cs ds, countDieEvent s die 7 1 = { s with cores := cs, dies := ds } := by
    obtain ⟨ds, h⟩ := countDieEvent_dies s die 7 1
    exact ⟨s.cores, ds, h⟩
  cases w with
  | core _ _ _ => exact countEvent_coresDies s _ 7 1
  | coachman _ _ => exact countEvent_coresDies s _ 7 1
  | copy _ _ => exact countEvent_coresDies s _ 7 1
  | texture _ _ _ => exact countEvent_coresDies s _ 7 1
  | matrix _ _ _ _ => exact onDie _
  | ray _ _ _ _ _ _ _ _ => exact onDie _
  | raster _ _ _ _ _ _ => exact onDie _

/-- A record placed stands in its slot, without the event that it made. -/
theorem placeRecord_held {s t : State} {ctx slot : Nat} {r : ReplayRecord} (h : placeRecord s ctx slot r = some t) :
    t.work = s.work ∧ ∃ since, mget (moreOf t ctx).replay slot
      = some { r with event := none, order := (moreOf s ctx).recordSeq, since := since } := by
  unfold placeRecord at h
  split at h
  · cases h
  · rename_i s1 written
    extract_lets die s2 s3 at h
    obtain ⟨work, more⟩ : s3.work = s.work ∧ s3.more = s2.more := by
      have entered : (s3.work, s3.more) = (s2.work, s2.more) :=
        foldl_keeps (fun u : State => (u.work, u.more)) _ (fun u v => by
          obtain ⟨_, _, counted⟩ := countAbsent_coresDies u r.work
          rw [counted]
          rfl) _ s2
      obtain ⟨_, _, _, rfl⟩ := writeVirtual_homeOnly written
      exact Prod.mk.inj entered
    have held : mget (moreOf s3 ctx).replay slot
        = some { r with event := none, order := (moreOf s ctx).recordSeq } := by
      rw [moreOf_congr more, moreOf_modMore, if_pos rfl, ← moreOf_congr (writeVirtual_more written)]
      exact mget_mset_same _ _ _
    split at h
    · rw [← Option.some.inj h]
      exact ⟨work, r.since, held⟩
    · rw [← Option.some.inj h]
      obtain ⟨-, slots⟩ := appendEvent_recordsKept s3 die _ ctx
      obtain ⟨_, _, _, _, _, _, _, _, reported⟩ := appendEvent_reportsOnly s3 die _
      exact ⟨by rw [reported]; exact work, slots slot _ held⟩

/-- R411: a record waits, or stands in the slot that is free for it. -/
theorem takeRecord_held (s : State) (ctx : Nat) (r : ReplayRecord) :
    (takeRecord s ctx r).work = s.work
    ∧ ((moreOf (takeRecord s ctx r) ctx).replayWaiting = (moreOf s ctx).replayWaiting ++ [r]
      ∨ ∃ n since, freeReplaySlot s ctx r.work = some n ∧ mget (moreOf (takeRecord s ctx r) ctx).replay n
          = some { r with event := none, order := (moreOf s ctx).recordSeq, since := since }) := by
  unfold takeRecord
  extract_lets wait
  have waits : (moreOf wait ctx).replayWaiting = (moreOf s ctx).replayWaiting ++ [r] := by
    rw [moreOf_modMore, if_pos rfl]
  split
  · exact ⟨rfl, .inl waits⟩
  · split
    · exact ⟨rfl, .inl waits⟩
    · rename_i n free
      split
      · rename_i s1 placed
        obtain ⟨work, since, held⟩ := placeRecord_held placed
        exact ⟨work, .inr ⟨n, since, free, held⟩⟩
      · obtain ⟨_, _, _, _, _, _, _, _, reported⟩ :=
          structureFailedOn_reportsOnly wait (r.location % 4) ctx (replayAddr s ctx n)
        obtain ⟨stand, -⟩ := structureFailedOn_recordsKept wait (r.location % 4) ctx (replayAddr s ctx n) ctx
        exact ⟨by rw [reported]; rfl, .inl (stand.trans waits)⟩

section
variable {s t : State} {w : Work} (change : t = { s with work := w }) {us : List Nat}
  (others : ∀ u, u ∉ us → threadOf t u = threadOf s u)
include change others

/-- R416: whether a replay is under way does not depend on the threads of other work. -/
theorem replayUnderWay_of_otherThreads {v : ReplayWork} {resume words : Nat}
    (apart : v.same (.core resume words us) = false) : replayUnderWay t v = replayUnderWay s v := by
  cases v with
  | core _ _ vs =>
    have outside : ∀ u ∈ vs, u ∉ us := fun u hu => by simpa using List.any_eq_false.1 apart u hu
    simp only [replayUnderWay]
    rw [Bool.eq_iff_iff, List.any_eq_true, List.any_eq_true]
    exact exists_congr fun u => and_congr_right fun hu => by rw [others u (outside u hu)]
  | _ => subst change; rfl

/-- R416: a change of a record's own threads leaves its slot: a free slot from which one of them was replayed is taken
first of all, under way or not. -/
theorem freeReplaySlot_of_otherThreads (ctx resume words : Nat) :
    freeReplaySlot t ctx (.core resume words us) = freeReplaySlot s ctx (.core resume words us) := by
  have more : moreOf t ctx = moreOf s ctx := by rw [change]; rfl
  have slotOpen : ∀ n, replaySlotOpen t ctx n = replaySlotOpen s ctx n := fun n => by rw [change]; rfl
  have slots : (ctxOf t ctx).f.rplSlots = (ctxOf s ctx).f.rplSlots := by rw [change]; rfl
  unfold freeReplaySlot replayedSlot
  simp only [more, slotOpen, slots]
  cases replayed : (moreOf s ctx).replayed.find? fun p => p.2.same (.core resume words us) && replaySlotOpen s ctx p.1 with
  | some p => rfl
  | none =>
    refine List.find?_congr fun n _ => ?_
    cases opened : replaySlotOpen s ctx n with
    | false => rfl
    | true =>
      cases last : mget (moreOf s ctx).replayed n with
      | none => rfl
      | some v =>
        have apart : v.same (.core resume words us) = false := by
          simpa [opened] using List.find?_eq_none.1 replayed _ (mem_of_mget last)
        simp [replayUnderWay_of_otherThreads change others apart]
end

/-- Settles O19: the bundle leaves the issue list and its threads are trapped; the record then waits or takes a slot, and
neither that nor the report of its event touches the work of the device. -/
theorem trapTaken : Obligations.TrapTaken := by
  intro s r agent nonempty code
  obtain ⟨q, ⟨cause, work, qcode, qpos⟩, c, delivered, fault⟩ := deliver_traps agent nonempty code
  obtain ⟨kept, held⟩ := takeRecord_held (bundleTrapped s) (ctxOfBlock s s.cur.block) q
  rw [delivered]
  have threads (v : Nat) : threadOf (takeRecord (bundleTrapped s) (ctxOfBlock s s.cur.block) q) v
      = if v ∈ s.cur.lanes then (threadOf s v).map (trappedAt s.cur.addr) else threadOf s v := by
    rw [← threadOf_bundleTrapped, threadOf, kept, threadOf]
  have others : ∀ u, u ∉ s.cur.lanes → threadOf (bundleTrapped s) u = threadOf s u := fun u apart => by
    rw [threadOf_bundleTrapped, if_neg apart]
  have more : moreOf (bundleTrapped s) (ctxOfBlock s s.cur.block) = moreOf s (ctxOfBlock s s.cur.block) := by
    rw [bundleTrapped_eq]
    rfl
  refine ⟨fault, ?trapped, ?others, ?bundles, ?record⟩
  case trapped =>
    intro u th lane found
    exact ⟨trappedAt s.cur.addr th, (threads u).trans (by rw [if_pos lane, found, Option.map_some]), rfl⟩
  case others => exact fun u apart => (threads u).trans (if_neg apart)
  case bundles =>
    intro b
    rw [← mem_bundles_bundleTrapped, ← kept]
  case record =>
    rw [more] at held
    obtain waits | ⟨n, since, free, slot⟩ := held
    · exact ⟨q, cause, work, qcode, qpos, .inl waits⟩
    · rw [work, freeReplaySlot_of_otherThreads (bundleTrapped_eq s) others, ← work] at free
      exact ⟨{ q with since := since }, cause, work, qcode, qpos, .inr ⟨n, free, slot⟩⟩

end Sys2Proof.Proofs
end

section
/-! SUPPORT. What the integer forms compute (05 R106 to R120): each computation of Flags.lean in the terms of the
library's bit vectors, at every width where the form has one. -/

namespace Sys2Proof.Proofs

open Sys2Proof.Machine

/-! ### Exact integers wrapped (05 R106) -/

@[simp] theorem ofInt_readInt (u : Bool) {w : Nat} (x : BitVec w) : BitVec.ofInt w (readInt u x) = x := by
  cases u <;> simp [readInt]

theorem ofInt_negIf (n : Bool) {w : Nat} (x : Int) :
    BitVec.ofInt w (negIf n x) = if n then -BitVec.ofInt w x else BitVec.ofInt w x := by
  cases n
  · rfl
  · exact BitVec.ofInt_neg

/-- Without saturation `Fin` wraps. -/
theorem fin_wrap (u : Bool) (w : Nat) (x : Int) : fin false u w x = BitVec.ofInt w x := rfl

theorem fin_sat_unsigned (w : Nat) (x : Int) : fin true true w x = BitVec.ofInt w (max 0 (min (2 ^ w - 1) x)) := rfl

theorem fin_sat_signed (w : Nat) (x : Int) :
    fin true false w x = BitVec.ofInt w (max (-2 ^ (w - 1)) (min (2 ^ (w - 1) - 1) x)) := rfl

/-- The unsigned range clamps a natural number from above only. -/
theorem fin_sat_unsigned_natCast (w n : Nat) : fin true true w n = BitVec.ofNat w (min (2 ^ w - 1) n) := by
  have cast : ((2 ^ w - 1 : Nat) : Int) = 2 ^ w - 1 := by
    have := Nat.two_pow_pos w
    push_cast [Nat.cast_sub this]
    rfl
  rw [fin_sat_unsigned, ← cast, ← Nat.cast_min, max_eq_right (Int.natCast_nonneg _), BitVec.ofInt_natCast]

/-- The unsigned range clamps a difference of natural numbers to their truncated difference. -/
theorem fin_sat_unsigned_sub {w : Nat} (a b : BitVec w) :
    fin true true w ((a.toNat : Int) - b.toNat) = BitVec.ofNat w (a.toNat - b.toNat) := by
  have below : (a.toNat : Int) ≤ 2 ^ w - 1 := by
    have := a.isLt
    have : (a.toNat : Int) < 2 ^ w := by exact_mod_cast this
    omega
  rw [fin_sat_unsigned, min_eq_right (by omega), ← BitVec.ofInt_natCast]
  congr 1
  omega

theorem iaddV_wrap (u : Bool) {w : Nat} (a b : BitVec w) : iaddV false u a b = a + b := by
  simp [iaddV, fin_wrap, BitVec.ofInt_add]

theorem isubV_wrap (u : Bool) {w : Nat} (a b : BitVec w) : isubV false u a b = a - b := by
  simp [isubV, fin_wrap, Int.sub_eq_add_neg, BitVec.ofInt_add, BitVec.ofInt_neg, BitVec.sub_eq_add_neg]

theorem iadd3V_wrap (u na nb nc : Bool) {w : Nat} (a b c : BitVec w) :
    iadd3V false u na nb nc a b c = (if na then -a else a) + (if nb then -b else b) + (if nc then -c else c) := by
  simp [iadd3V, fin_wrap, BitVec.ofInt_add, ofInt_negIf]

theorem imulV_wrap (u : Bool) {w : Nat} (a b : BitVec w) : imulV false u a b = a * b := by
  simp [imulV, fin_wrap, BitVec.ofInt_mul]

theorem imadV_wrap (u : Bool) {w : Nat} (a b c : BitVec w) : imadV false u a b c = a * b + c := by
  simp [imadV, fin_wrap, BitVec.ofInt_mul, BitVec.ofInt_add]

/-! ### Order, absolute value, negation (05 R110, R116) -/

theorem readInt_le (u : Bool) {w : Nat} (a b : BitVec w) :
    readInt u a ≤ readInt u b ↔ (if u then a.ule b else a.sle b) = true := by
  cases u <;> simp [readInt, BitVec.ule_iff_toNat_le, BitVec.sle_iff_toInt_le]

theorem readInt_lt (u : Bool) {w : Nat} (a b : BitVec w) :
    readInt u a < readInt u b ↔ (if u then a.ult b else a.slt b) = true := by
  cases u <;> simp [readInt, BitVec.ult_iff_toNat_lt, BitVec.slt_iff_toInt_lt]

theorem readInt_inj (u : Bool) {w : Nat} (a b : BitVec w) : readInt u a = readInt u b ↔ a = b := by
  cases u <;> simp [readInt, BitVec.toInt_inj, BitVec.toNat_inj]

theorem iminV_eq (u : Bool) {w : Nat} (a b : BitVec w) :
    iminV u a b = if (if u then a.ule b else a.sle b) then a else b := by
  simp only [iminV, readInt_le]

theorem imaxV_eq (u : Bool) {w : Nat} (a b : BitVec w) :
    imaxV u a b = if (if u then b.ule a else b.sle a) then a else b := by
  simp only [imaxV, readInt_le]

/-- The six comparisons, each in the order that `.u` selects. -/
theorem compareV_eq (u : Bool) (cond : Nat) {w : Nat} (a b : BitVec w) :
    compareV u cond a b = match cond with
      | 0 => a == b
      | 1 => a != b
      | 2 => if u then a.ult b else a.slt b
      | 3 => if u then a.ule b else a.sle b
      | 4 => if u then b.ult a else b.slt a
      | _ => if u then b.ule a else b.sle a := by
  unfold compareV
  simp only [readInt_le, readInt_lt]
  split <;> simp [readInt_inj, bne, BEq.beq]

/-- What lies within the signed range stays, saturated or not. -/
theorem fin_signed_of_range (sat : Bool) {w : Nat} {x : Int} (low : -2 ^ (w - 1) ≤ x) (high : x ≤ 2 ^ (w - 1) - 1) :
    fin sat false w x = BitVec.ofInt w x := by
  cases sat
  · rfl
  · rw [fin_sat_signed, min_eq_right high, max_eq_right low]

/-- Every word but the lowest has an opposite within the signed range. -/
theorem toInt_range_of_ne_lowest {a : Word} (h : a ≠ 0x80000000) : -2 ^ 31 < a.toInt ∧ a.toInt < 2 ^ 31 := by
  have low := a.le_toInt
  have high := a.toInt_lt
  have apart : a.toInt ≠ -2 ^ 31 := fun e => h (BitVec.eq_of_toInt_eq e)
  omega

theorem inegV_eq (sat : Bool) (a : Word) :
    inegV sat a = if sat && a == 0x80000000 then 0x7FFFFFFF else -a := by
  by_cases h : a = 0x80000000
  · subst h
    cases sat <;> decide
  · have range := toInt_range_of_ne_lowest h
    rw [beq_false_of_ne h, inegV, fin_signed_of_range sat (by omega) (by omega)]
    simp [BitVec.ofInt_neg]

theorem iabsV_eq (sat : Bool) (a : Word) :
    iabsV sat a = if sat && a == 0x80000000 then 0x7FFFFFFF else if a.slt 0 then -a else a := by
  by_cases h : a = 0x80000000
  · subst h
    cases sat <;> decide
  · have range := toInt_range_of_ne_lowest h
    rw [beq_false_of_ne h, iabsV, fin_signed_of_range sat (by omega) (by omega)]
    by_cases neg : a.toInt < 0
    · have opposite : (a.toInt.natAbs : Int) = -a.toInt := by omega
      simp [BitVec.slt_iff_toInt_lt, neg, opposite, BitVec.ofInt_neg]
    · have same : (a.toInt.natAbs : Int) = a.toInt := by omega
      simp [BitVec.slt_iff_toInt_lt, neg, same]

/-! ### Shifts (05 R112) -/

theorem shlV_eq (wrap : Bool) {w : Nat} (a n : BitVec w) : shlV wrap a n = a <<< shiftAmount wrap n :=
  BitVec.eq_of_toNat_eq (by simp [shlV, Nat.shiftLeft_eq])

theorem shrV_eq (wrap : Bool) {w : Nat} (a n : BitVec w) : shrV wrap a n = a >>> shiftAmount wrap n := by
  refine BitVec.eq_of_toNat_eq ?_
  have below : a.toNat / 2 ^ shiftAmount wrap n < 2 ^ w := Nat.lt_of_le_of_lt (Nat.div_le_self _ _) a.isLt
  simp [shrV, Nat.shiftRight_eq_div_pow, Nat.mod_eq_of_lt below]

theorem sarV_eq (wrap : Bool) {w : Nat} (a n : BitVec w) : sarV wrap a n = a.sshiftRight (shiftAmount wrap n) := by
  rw [← BitVec.ofInt_toInt (x := a.sshiftRight _), BitVec.toInt_sshiftRight, Int.shiftRight_eq_div_pow]
  rfl

theorem rotlV_eq (a n : Word) : rotlV a n = a.rotateLeft (n.toNat % 32) := by
  refine BitVec.eq_of_getLsbD_eq fun i hi => ?_
  have amount : n.toNat % 32 < 32 := Nat.mod_lt _ (by decide)
  simp only [rotlV]
  generalize n.toNat % 32 = k at amount
  have low : a.toNat / 2 ^ (32 - k) < 2 ^ k := by
    rw [Nat.div_lt_iff_lt_mul (Nat.two_pow_pos _), ← pow_add, Nat.add_sub_of_le amount.le]
    exact a.isLt
  rw [BitVec.getLsbD_ofNat, Nat.mul_comm, Nat.testBit_two_pow_mul_add a.toNat low, BitVec.getLsbD_rotateLeft,
    Nat.mod_eq_of_lt amount, Nat.testBit_div_two_pow, BitVec.testBit_toNat, BitVec.testBit_toNat, Nat.add_comm i]
  by_cases wraps : i < k <;> simp [wraps, hi]

/-- The two words of `FSH`, the high one above the low one. -/
theorem toNat_wordPair (hi lo : Word) : (hi.append lo : BitVec 64).toNat = hi.toNat * 2 ^ 32 + lo.toNat := by
  rw [BitVec.append_eq, BitVec.toNat_append, ← Nat.shiftLeft_add_eq_or_of_lt lo.isLt, Nat.shiftLeft_eq]

theorem fshV_eq (fold : Bool) (lo hi n : Word) :
    fshV fold lo hi n =
      let w : BitVec 64 := hi.append lo
      let k := fshAmount fold n
      if 0 ≤ k then (w <<< k.toNat).extractLsb' 32 32 else (w >>> (-k).toNat).setWidth 32 := by
  simp only [fshV, ← toNat_wordPair]
  generalize hi.append lo = w
  split
  · refine BitVec.eq_of_toNat_eq ?_
    rw [BitVec.toNat_ofNat, BitVec.extractLsb'_toNat, BitVec.toNat_shiftLeft, Nat.shiftLeft_eq,
      Nat.shiftRight_eq_div_pow]
    omega
  · refine BitVec.eq_of_toNat_eq ?_
    rw [BitVec.toNat_ofNat, BitVec.toNat_setWidth, BitVec.toNat_ushiftRight, Nat.shiftRight_eq_div_pow]

/-! ### Bits laid one by one (05 R111, R114) -/

theorem getLsbD_foldl_setBits {w : Nat} (f : Nat → Bool) (n i : Nat) (h : n ≤ w) :
    ((List.range n).foldl (fun acc i => if f i then acc ||| BitVec.ofNat w (2 ^ i) else acc) 0).getLsbD i
      = (decide (i < n) && f i) := by
  induction n with
  | zero => simp
  | succ n ih =>
    have one : (BitVec.ofNat w (2 ^ n)).getLsbD i = decide (i = n) := by
      rw [BitVec.getLsbD_ofNat, Nat.testBit_two_pow]
      grind
    rw [List.range_succ, List.foldl_append, List.foldl_cons, List.foldl_nil]
    split <;> grind

@[simp] theorem getLsbD_buildBits (w : Nat) (f : Nat → Bool) (i : Nat) :
    (buildBits w f).getLsbD i = (decide (i < w) && f i) :=
  getLsbD_foldl_setBits f w i le_rfl

theorem getLsbD_logtV (table : Nat) (a b c : Word) {i : Nat} (h : i < 32) :
    (logtV table a b c).getLsbD i =
      table.testBit ((a.getLsbD i).toNat + 2 * (b.getLsbD i).toNat + 4 * (c.getLsbD i).toNat) := by
  rw [logtV, getLsbD_buildBits, decide_eq_true h, Bool.true_and]

theorem brevV_eq (a : Word) : brevV a = a.reverse := by
  refine BitVec.eq_of_getLsbD_eq fun i hi => ?_
  rw [brevV, getLsbD_buildBits, BitVec.getLsbD_reverse, BitVec.getMsbD_eq_getLsbD]

/-! ### Bit fields (05 R113) -/

theorem getLsbD_bfiV {w : Nat} (insert base q : BitVec w) (i : Nat) (hi : i < w) :
    (bfiV insert base q).getLsbD i =
      if fieldPos q ≤ i ∧ i < fieldPos q + fieldLen q then insert.getLsbD (i - fieldPos q) else base.getLsbD i := by
  have mask : (BitVec.ofNat w ((2 ^ fieldLen q - 1) * 2 ^ fieldPos q)).getLsbD i
      = decide (fieldPos q ≤ i ∧ i < fieldPos q + fieldLen q) := by
    rw [BitVec.getLsbD_ofNat, Nat.testBit_mul_two_pow, Nat.testBit_two_pow_sub_one]
    grind
  rw [bfiV, BitVec.getLsbD_or, BitVec.getLsbD_and, BitVec.getLsbD_and, BitVec.getLsbD_not, mask, BitVec.getLsbD_ofNat,
    Nat.testBit_mul_two_pow, BitVec.testBit_toNat]
  by_cases inside : fieldPos q ≤ i ∧ i < fieldPos q + fieldLen q <;> simp [hi, inside]

/-- The field taken, read as signed with `.s` when its top bit is set. -/
theorem bfxV_eq (s : Bool) {w : Nat} (a q : BitVec w) :
    bfxV s a q =
      let l := fieldLen q
      let x := a.toNat / 2 ^ fieldPos q % 2 ^ l
      if s ∧ 0 < l ∧ 2 ^ (l - 1) ≤ x then BitVec.ofInt w ((x : Int) - 2 ^ l) else BitVec.ofNat w x := by
  simp only [bfxV, Bool.and_eq_true, decide_eq_true_eq, and_assoc]

/-! ### Leading and trailing zeros (05 R114) -/

/-- The bits below n read upwards, the count is w or names the highest one that is set. -/
theorem foldl_highest_spec {w : Nat} (a : BitVec w) (n : Nat) (h : n ≤ w) :
    let c := (List.range n).foldl (fun c i => if a.getLsbD i then w - 1 - i else c) w
    c ≤ w ∧ (∀ i, w - c ≤ i → i < n → a.getLsbD i = false) ∧ (c < w → a.getLsbD (w - 1 - c) = true) := by
  induction n with
  | zero => simp
  | succ n ih =>
    obtain ⟨le, clear, set⟩ := ih (by omega)
    rw [List.range_succ, List.foldl_append, List.foldl_cons, List.foldl_nil]
    cases bit : a.getLsbD n with
    | false =>
      refine ⟨le, fun i above below => ?_, set⟩
      obtain rfl | lower : i = n ∨ i < n := by omega
      · exact bit
      · exact clear i above lower
    | true =>
      have back : w - 1 - (w - 1 - n) = n := by omega
      simp only [if_true]
      exact ⟨by omega, fun i above below => by omega, fun _ => back.symm ▸ bit⟩

theorem clzCount_spec {w : Nat} (a : BitVec w) :
    clzCount a ≤ w ∧ (∀ i, w - clzCount a ≤ i → a.getLsbD i = false)
      ∧ (clzCount a < w → a.getLsbD (w - 1 - clzCount a) = true) := by
  obtain ⟨le, clear, set⟩ := foldl_highest_spec a w le_rfl
  refine ⟨le, fun i above => ?_, set⟩
  by_cases below : i < w
  · exact clear i above below
  · exact BitVec.getLsbD_of_ge a i (by omega)

theorem ctzCount_eq_find? {w : Nat} (a : BitVec w) : ctzCount a = ((List.range w).find? a.getLsbD).getD w := by
  unfold ctzCount
  induction List.range w with
  | nil => rfl
  | cons i l ih =>
    rw [List.foldr_cons, List.find?_cons, ih]
    cases a.getLsbD i <;> rfl

theorem ctzCount_spec {w : Nat} (a : BitVec w) :
    ctzCount a ≤ w ∧ (∀ i, i < ctzCount a → a.getLsbD i = false)
      ∧ (ctzCount a < w → a.getLsbD (ctzCount a) = true) := by
  rw [ctzCount_eq_find?]
  cases found : (List.range w).find? a.getLsbD with
  | none =>
    rw [List.find?_range_eq_none] at found
    exact ⟨le_rfl, fun i below => by simpa using found i below, fun h => absurd h (lt_irrefl w)⟩
  | some n =>
    obtain ⟨set, below, least⟩ := List.find?_range_eq_some.1 found
    exact ⟨(List.mem_range.1 below).le, fun i lower => by simpa using least i lower, fun _ => set⟩

/-! ### Bytes (05 R115) -/

theorem extractLsb'_wordOfBytes (f : Nat → Byte) {j : Nat} (h : j < 4) :
    (wordOfBytes f).extractLsb' (8 * j) 8 = f j := by
  refine BitVec.eq_of_toNat_eq ?_
  have b0 := (f 0).isLt
  have b1 := (f 1).isLt
  have b2 := (f 2).isLt
  have b3 := (f 3).isLt
  rw [BitVec.extractLsb'_toNat, Nat.shiftRight_eq_div_pow, wordOfBytes, BitVec.toNat_ofNat]
  obtain rfl | rfl | rfl | rfl : j = 0 ∨ j = 1 ∨ j = 2 ∨ j = 3 := by omega
  all_goals omega

/-- A byte of a number is the byte of the bits that hold it. -/
theorem ofNat_byte_eq_extractLsb' {w : Nat} (x : BitVec w) (i : Nat) :
    BitVec.ofNat 8 (x.toNat / 2 ^ (8 * i)) = x.extractLsb' (8 * i) 8 := by
  refine BitVec.eq_of_toNat_eq ?_
  rw [BitVec.toNat_ofNat, BitVec.extractLsb'_toNat, Nat.shiftRight_eq_div_pow]

theorem bselFill_eq (fill : Nat) (b : Byte) :
    bselFill fill b = if fill = 0 then b else if fill = 1 then 0
      else if fill = 2 then (if b.getLsbD 7 then 0xFF else 0) else 0xFF := by
  have sign : 0x80 ≤ b.toNat ↔ b.getLsbD 7 = true := by
    revert b; decide
  unfold bselFill
  split <;> simp_all

theorem extractLsb'_bselV (byReg : Bool) (mods : Nat) (a b sel : Word) {j : Nat} (h : j < 4) :
    (bselV byReg mods a b sel).extractLsb' (8 * j) 8 =
      let ba : BitVec 64 := b.append a
      let c := sel.toNat / 256 ^ j % 256
      if byReg then bselFill (c / 8 % 4) (ba.extractLsb' (8 * (c % 8)) 8)
      else ba.extractLsb' (8 * (mods / 8 ^ j % 8)) 8 := by
  have source : a.toNat + 2 ^ 32 * b.toNat = (b.append a : BitVec 64).toNat := by
    rw [toNat_wordPair]; omega
  have selector : (byteOf sel j).toNat = sel.toNat / 256 ^ j % 256 := by
    rw [byteOf, BitVec.toNat_ofNat, show 256 = 2 ^ 8 from rfl, pow_mul]
  have code : mods / 2 ^ (3 * j) = mods / 8 ^ j := by rw [show 8 = 2 ^ 3 from rfl, pow_mul]
  rw [bselV, extractLsb'_wordOfBytes _ h]
  simp only [source, selector, code, ofNat_byte_eq_extractLsb']

/-! ### Scaled addresses (05 R120) -/

theorem leaV_eq (shift : Nat) {w : Nat} (a b : BitVec w) : leaV shift a b = a + b <<< shift :=
  BitVec.eq_of_toNat_eq (by simp [leaV, Nat.shiftLeft_eq])

theorem leawV_eq (s : Bool) (shift : Nat) (a : DWord) (b : Word) :
    leawV s shift a b = a + (if s then b.signExtend 64 else b.setWidth 64) <<< shift := by
  have index : BitVec.ofInt 64 (readInt (!s) b) = if s then b.signExtend 64 else b.setWidth 64 := by
    cases s
    · simp [readInt]
    · rfl
  have power : BitVec.ofInt 64 ((2 : Int) ^ shift) = BitVec.twoPow 64 shift :=
    BitVec.eq_of_toNat_eq (by rw [BitVec.toNat_twoPow, ← BitVec.toNat_ofNat, ← BitVec.ofInt_natCast]; norm_cast)
  rw [leawV, BitVec.ofInt_add, BitVec.ofInt_mul, index, power, BitVec.shiftLeft_eq_mul_twoPow, BitVec.ofInt_natCast,
    BitVec.ofNat_toNat, BitVec.setWidth_eq]

end Sys2Proof.Proofs
end

section
/-! PROOF of the statements on the integer forms of the cores, O1 to O7 (05 R107 to R120). -/

namespace Sys2Proof.Proofs

open Sys2Proof.Machine Sys2Proof.Safety

/-! ### One rule for each way of writing a result -/

section
variable {i : Instr} {g : Guard} {d : Dst}

theorem wordResult_of_writeWord {op val : Thread → Word}
    (arm : ∀ s, s.cur.agent = .core → exec i s = .next (writeWord s g d fun _ t => op t))
    (value : ∀ t, op t = val t) : wordResult i g d fun _ t => val t := by
  obtain rfl : op = val := funext value
  exact fun s agent nodup => ⟨_, arm s agent, writeWord_onlyLanes s _ _ _ nodup⟩

theorem pairResult_of_writePair {op val : Thread → DWord}
    (arm : ∀ s, s.cur.agent = .core → exec i s = .next (writePair s g d fun _ t => op t))
    (value : ∀ t, op t = val t) : pairResult i g d fun _ t => val t := by
  obtain rfl : op = val := funext value
  exact fun s agent nodup => ⟨_, arm s agent, writePair_onlyLanes s _ _ _ nodup⟩

theorem predResult_of_writePred {op val : Thread → Bool}
    (arm : ∀ s, s.cur.agent = .core → exec i s = .next (writePred s g d fun _ t => op t))
    (value : ∀ t, op t = val t) : predResult i g d fun _ t => val t := by
  obtain rfl : op = val := funext value
  exact fun s agent nodup => ⟨_, arm s agent, writePred_onlyLanes s _ _ _ nodup⟩

/-- A form that changes each lane by itself. -/
theorem laneForm_of_forLanes {act : State → Nat → Thread → Thread} {R : State → Nat → Thread → Thread → Prop}
    (arm : ∀ s, s.cur.agent = .core → exec i s = .next (forLanes s (act s)))
    (lane : ∀ s u t, R s u t (act s u t)) : laneForm i R :=
  fun s agent nodup => ⟨_, arm s agent, forLanes_onlyLanes s _ _ nodup (lane s)⟩

theorem aluForm_core {s : State} (agent : s.cur.agent = .core) (f : FormA)
    (op : (w : Nat) → BitVec w → BitVec w → BitVec w → BitVec w) :
    aluForm s f op = writeWord s f.x.guard f.dst fun _ t =>
      op 32 (srcWord t .a f.a) (srcWord t .b f.b) (srcWord t .c f.x.srcC) := by
  simp only [aluForm, agent]

/-- A form that computes one value of the agent's width gives a word in every participating lane of a core. -/
theorem wordResult_of_aluForm {f : FormA} {op : (w : Nat) → BitVec w → BitVec w → BitVec w → BitVec w}
    {val : Thread → Word} (arm : ∀ s, exec i s = .next (aluForm s f op))
    (value : ∀ t, op 32 (srcWord t .a f.a) (srcWord t .b f.b) (srcWord t .c f.x.srcC) = val t) :
    wordResult i f.x.guard f.dst fun _ t => val t :=
  wordResult_of_writeWord (fun s agent => (arm s).trans (congrArg _ (aluForm_core agent f op))) value

end

theorem wf_false_of_fieldsOk {ag : Agent} {i : Instr} (h : i.fieldsOk ag = false) : i.wf ag = false := by
  simp [Instr.wf, h]

/-! ### O1 (05 R107, R108) -/

theorem iaddV_value (sat u : Bool) (a b : Word) :
    iaddV sat u a b = if !sat then a + b
      else if u then BitVec.ofNat 32 (min (2 ^ 32 - 1) (a.toNat + b.toNat))
      else BitVec.ofInt 32 (max (-2 ^ 31) (min (2 ^ 31 - 1) (a.toInt + b.toInt))) := by
  cases sat
  · exact iaddV_wrap u a b
  · cases u
    · rfl
    · exact fin_sat_unsigned_natCast 32 (a.toNat + b.toNat)

theorem isubV_value (sat u : Bool) (a b : Word) :
    isubV sat u a b = if !sat then a - b
      else if u then BitVec.ofNat 32 (a.toNat - b.toNat)
      else BitVec.ofInt 32 (max (-2 ^ 31) (min (2 ^ 31 - 1) (a.toInt - b.toInt))) := by
  cases sat
  · exact isubV_wrap u a b
  · cases u
    · rfl
    · exact fin_sat_unsigned_sub a b

theorem iadd3V_value (sat u na nb nc : Bool) (a b c : Word) :
    iadd3V sat u na nb nc a b c =
      if !sat then (if na then -a else a) + (if nb then -b else b) + (if nc then -c else c)
      else if u then BitVec.ofInt 32
        (max 0 (min (2 ^ 32 - 1) (negIf na a.toNat + negIf nb b.toNat + negIf nc c.toNat)))
      else BitVec.ofInt 32
        (max (-2 ^ 31) (min (2 ^ 31 - 1) (negIf na a.toInt + negIf nb b.toInt + negIf nc c.toInt))) := by
  cases sat
  · exact iadd3V_wrap u na nb nc a b c
  · cases u <;> rfl

theorem sameButRegs_setPred {t t' : Thread} (h : sameButRegs t t') (n : Nat) (b : Bool) :
    sameButRegs t (t'.modRegs fun r => r.setPred n b) := by
  unfold sameButRegs at h ⊢
  rw [h]
  simp only [Thread.modRegs, Regs.setPred]
  split <;> rfl

theorem pred_of_wroteWord {j : Nat} {d : Dst} {x : Word} {t t' : Thread} (h : wroteWord j d x t t') (n : Nat) :
    t'.regs.pred n = t.regs.pred n := by
  obtain ⟨-, -, -, preds, -⟩ := h
  simp only [Regs.pred, preds]

/-- One lane of `ADDC`: the sum to the register and the latch, the carry to the predicate of the carry-out select. -/
theorem addcLane_wrote (j : Nat) (f : FormA) (t : Thread) :
    let sum := (srcWord t .a f.a).toNat + (srcWord t .b f.b).toNat + (carryIn f t.regs.pred).toNat
    let t' := addcLane j f t
    (∀ m, t'.regs.get m = if destReg t f.dst = some m then BitVec.ofNat 32 sum else t.regs.get m)
    ∧ (∀ k, t'.regs.getLatch k = if k = j then (BitVec.ofNat 32 sum).setWidth 64 else t.regs.getLatch k)
    ∧ (∀ n, n < 7 → t'.regs.pred n = if n + 1 = f.field 6 4 then decide (2 ^ 32 ≤ sum) else t.regs.pred n)
    ∧ freshens (fun m => destReg t f.dst = some m) t.regs t'.regs ∧ sameButRegs t t' := by
  have wrote := putWord_wrote j f.dst (addcV (srcWord t .a f.a) (srcWord t .b f.b) (carryIn f t.regs.pred)) t
  have pred := pred_of_wroteWord wrote
  obtain ⟨regs, latches, fresh, -, same⟩ := wrote
  simp only [addcLane]
  by_cases discard : f.field 6 4 = 0
  · rw [if_pos discard]
    exact ⟨regs, latches, fun n _ => by rw [discard, if_neg n.succ_ne_zero, pred], fresh, same⟩
  · rw [if_neg discard]
    refine ⟨fun m => ?regs, fun k => ?latches, fun n below => ?preds, fun m => ?fresh, ?same⟩
    case regs => exact (regs_get_setPred ..).trans (regs m)
    case latches => exact (regs_getLatch_setPred ..).trans (latches k)
    case preds =>
      have select : n = f.field 6 4 - 1 ↔ n + 1 = f.field 6 4 := by omega
      simp only [Thread.modRegs, regs_pred_setPred _ _ _ _ below, select, pred, addcCarry]
    case fresh => simpa [Thread.modRegs] using fresh m
    case same => exact sameButRegs_setPred same _ _

/-- Settles O1: the value of each form as an exact integer, and `ADDC` lane by lane. -/
theorem addSubtract : Obligations.AddSubtract := by
  refine ⟨⟨fun f => ?iadd, fun f => ?isub, fun f => ?iadd3⟩, fun f => ?addc, fun f carry select => ?illegal⟩
  case iadd => exact wordResult_of_aluForm (fun _ => rfl) fun t => iaddV_value _ _ _ _
  case isub => exact wordResult_of_aluForm (fun _ => rfl) fun t => isubV_value _ _ _ _
  case iadd3 => exact wordResult_of_aluForm (fun _ => rfl) fun t => iadd3V_value _ _ _ _ _ _ _ _
  case addc =>
    have arm (s : State) (agent : s.cur.agent = .core) : exec (.addc f) s = .next (forLanes s fun _ t =>
        if guardOn f.x.guard t.regs then addcLane (latchIndex s) f t else skipWord (latchIndex s) f.dst t) := by
      show execAddc f s = _
      simp only [execAddc, agent]
    refine laneForm_of_forLanes arm fun s u t => ?_
    dsimp only
    split
    · exact addcLane_wrote _ f t
    · exact skipWord_skipped _ f.dst t
  case illegal => exact wf_false_of_fieldsOk (by simp [Instr.fieldsOk, Instr.specA, FormA.wf, carry, select])

/-! ### O2 (05 R109) -/

/-- Settles O2: saturated values are the clamped exact ones; the wrapped ones are products of the words. -/
theorem multiply : Obligations.Multiply := by
  refine ⟨fun f => ?imul, fun f => ?imulh, fun f => ?imad, fun f => ?imadw, fun f n odd pair => ?illegal⟩
  case imul =>
    refine wordResult_of_aluForm (fun _ => rfl) fun t => ?_
    cases sat : f.x.sat
    · exact imulV_wrap _ _ _
    · rfl
  case imulh => exact wordResult_of_aluForm (fun _ => rfl) fun t => rfl
  case imad =>
    refine wordResult_of_aluForm (fun _ => rfl) fun t => ?_
    cases sat : f.x.sat
    · exact imadV_wrap _ _ _ _
    · rfl
  case imadw => exact pairResult_of_writePair (fun _ _ => rfl) fun t => rfl
  case illegal =>
    refine wf_false_of_fieldsOk ?_
    obtain dst | src := pair
    · simp [Instr.fieldsOk, Instr.specA, FormA.wf, Dst.wf, dst, odd]
    · simp [Instr.fieldsOk, Instr.specA, FormA.wf, Src.wf, src, odd]

/-! ### O3 (05 R110) -/

/-- Settles O3, with −2^31 as the one word without an opposite. -/
theorem minMaxAbsNegate : Obligations.MinMaxAbsNegate := by
  refine ⟨fun f => ?imin, fun f => ?imax, fun f => ?iabs, fun f => ?ineg⟩
  case imin => exact wordResult_of_aluForm (fun _ => rfl) fun t => iminV_eq _ _ _
  case imax => exact wordResult_of_aluForm (fun _ => rfl) fun t => imaxV_eq _ _ _
  case iabs => exact wordResult_of_writeWord (fun _ _ => rfl) fun t => iabsV_eq _ _
  case ineg => exact wordResult_of_writeWord (fun _ _ => rfl) fun t => inegV_eq _ _

/-! ### O4 (05 R111, R112) -/

/-- Settles O4: the shifts and the rotation as those of bit vectors, `LOGT` bit by bit. -/
theorem logicAndShifts : Obligations.LogicAndShifts := by
  refine ⟨⟨fun f => ?and, fun f => ?or, fun f => ?xor, fun f => ?not,
      ⟨fun f t => logtV (f.field 7 0) (srcWord t .a f.a) (srcWord t .b f.b) (srcWord t .c f.x.srcC),
        fun f => ?logt, fun f t i below => ?table⟩⟩,
    fun f => ?shl, fun f => ?shr, fun f => ?sar, fun f => ?rotl, fun f => ?fsh⟩
  case and => exact wordResult_of_aluForm (fun _ => rfl) fun t => rfl
  case or => exact wordResult_of_aluForm (fun _ => rfl) fun t => rfl
  case xor => exact wordResult_of_aluForm (fun _ => rfl) fun t => rfl
  case not => exact wordResult_of_aluForm (fun _ => rfl) fun t => rfl
  case logt => exact wordResult_of_writeWord (fun _ _ => rfl) fun t => rfl
  case table => exact getLsbD_logtV _ _ _ _ below
  case shl => exact wordResult_of_aluForm (fun _ => rfl) fun t => shlV_eq _ _ _
  case shr => exact wordResult_of_aluForm (fun _ => rfl) fun t => shrV_eq _ _ _
  case sar => exact wordResult_of_aluForm (fun _ => rfl) fun t => sarV_eq _ _ _
  case rotl => exact wordResult_of_writeWord (fun _ _ => rfl) fun t => rotlV_eq _ _
  case fsh => exact wordResult_of_writeWord (fun _ _ => rfl) fun t => fshV_eq _ _ _ _

/-! ### O5 (05 R113 to R115) -/

/-- Settles O5: fields and permuted bytes bit by bit, the counts by the bits they pass over. -/
theorem bitsAndBytes : Obligations.BitsAndBytes := by
  refine ⟨fun f => ?bfx,
    ⟨fun f t => bfiV (srcWord t .a f.a) (srcWord t .b f.b) (srcWord t .c f.x.srcC),
      fun f => ?bfi, fun f t i below => ?field⟩,
    fun f => ?popc, ⟨fun f t => clzCount (srcWord t .a f.a), fun f => ?clz, fun f t => ?leading⟩,
    ⟨fun f t => ctzCount (srcWord t .a f.a), fun f => ?ctz, fun f t => ?trailing⟩, fun f => ?brev,
    ⟨fun f t => bselV (f.bit 12) (f.field 11 0) (srcWord t .a f.a) (srcWord t .b f.b) (srcWord t .c f.x.srcC),
      fun f => ?bsel, fun f t j below => ?bytes⟩,
    fun f byReg selectors => ?illegal⟩
  case bfx => exact wordResult_of_aluForm (fun _ => rfl) fun t => bfxV_eq _ _ _
  case bfi => exact wordResult_of_aluForm (fun _ => rfl) fun t => rfl
  case field => exact getLsbD_bfiV _ _ _ i below
  case popc => exact wordResult_of_aluForm (fun _ => rfl) fun t => rfl
  case clz => exact wordResult_of_aluForm (fun _ => rfl) fun t => rfl
  case leading => exact clzCount_spec _
  case ctz => exact wordResult_of_aluForm (fun _ => rfl) fun t => rfl
  case trailing => exact ctzCount_spec _
  case brev => exact wordResult_of_writeWord (fun _ _ => rfl) fun t => brevV_eq _
  case bsel => exact wordResult_of_writeWord (fun _ _ => rfl) fun t => rfl
  case bytes =>
    rw [extractLsb'_bselV _ _ _ _ _ below]
    cases f.bit 12
    · rfl
    · exact bselFill_eq _ _
  case illegal => exact wf_false_of_fieldsOk (by simp [Instr.fieldsOk, Instr.specA, FormA.wf, byReg, selectors])

/-! ### O6 (05 R116 to R118) -/

/-- Settles O6: the comparison of exact integers is the one of words in the order that `.u` selects. -/
theorem compareSelect : Obligations.CompareSelect := by
  refine ⟨fun f toReg => ?isetReg, fun f toPred => ?isetPred, fun f => ?sel, fun f => ?plop, fun f cond => ?illegal⟩
  case isetReg =>
    have arm (s : State) (agent : s.cur.agent = .core) :
        exec (.iset f) s = .next (wordForm s f fun t => boolV 32
          (compareV (f.bit 0) (f.field 3 1) (srcWord t .a f.a) (srcWord t .b f.b))) := by
      show execIset f s = _
      simp only [execIset, agent, toReg, if_true]
    refine wordResult_of_writeWord arm fun t => ?_
    rw [compareV_eq]
    rfl
  case isetPred =>
    have arm (s : State) (agent : s.cur.agent = .core) :
        exec (.iset f) s = .next (writePred s f.x.guard f.dst fun _ t =>
          compareV (f.bit 0) (f.field 3 1) (srcWord t .a f.a) (srcWord t .b f.b)) := by
      show execIset f s = _
      simp only [execIset, agent, toPred, Bool.false_eq_true, if_false]
    exact predResult_of_writePred arm fun t => compareV_eq _ _ _ _
  case sel => exact wordResult_of_writeWord (fun _ _ => rfl) fun t => rfl
  case plop => exact predResult_of_writePred (fun _ _ => rfl) fun t => rfl
  case illegal =>
    have above : ¬ f.field 3 1 < 6 := by omega
    exact wf_false_of_fieldsOk (by simp [Instr.fieldsOk, Instr.specA, FormA.wf, above])

/-! ### O7 (05 R119, R120) -/

/-- One lane of `MOVH`: the high register of the pair and the latch. -/
theorem movhLane_wrote (j : Nat) (f : FormI) (t : Thread) :
    let t' := movhLane j f t
    (∀ m, t'.regs.get m = if (destReg t f.dst).map (· + 1) = some m then f.imm else t.regs.get m)
    ∧ (∀ k, t'.regs.getLatch k = if k = j then f.imm.setWidth 64 else t.regs.getLatch k)
    ∧ freshens (fun m => (destReg t f.dst).map (· + 1) = some m) t.regs t'.regs
    ∧ t'.regs.p = t.regs.p ∧ sameButRegs t t' := by
  obtain ⟨d, imm⟩ := f
  cases d with
  | reg n =>
    refine ⟨fun m => ?_, fun k => ?_, fun m => ?_, rfl, rfl⟩
    · simp [movhLane, Thread.modRegs, destReg, eq_comm]
    · simp [movhLane, Thread.modRegs]
    · simp [movhLane, Thread.modRegs, destReg, eq_comm (a := m)]
  | suppress =>
    refine ⟨fun m => ?_, fun k => ?_, fun m => ?_, rfl, rfl⟩
    · simp [movhLane, Thread.modRegs, destReg]
    · simp [movhLane, Thread.modRegs]
    · simp [movhLane, Thread.modRegs, destReg]

/-- Settles O7: moves, and scaled addresses wrapped to their width. -/
theorem movesAndAddresses : Obligations.MovesAndAddresses := by
  refine ⟨fun f => ?mov, fun f => ?movi, fun f => ?movh, fun f => ?lea, fun f => ?leaw⟩
  case mov => exact wordResult_of_aluForm (fun _ => rfl) fun t => rfl
  case movi =>
    have arm (s : State) (agent : s.cur.agent = .core) :
        exec (.movi f) s = .next (writeWord s ⟨false, 0⟩ f.dst fun _ _ => f.imm) := by
      show execMovi f s = _
      simp only [execMovi, agent]
    exact wordResult_of_writeWord arm fun t => rfl
  case movh =>
    have arm (s : State) (agent : s.cur.agent = .core) :
        exec (.movh f) s = .next (forLanes s fun _ t => movhLane (latchIndex s) f t) := by
      show execMovh f s = _
      simp only [execMovh, agent]
    exact laneForm_of_forLanes arm fun s _ t => movhLane_wrote _ f t
  case lea => exact wordResult_of_aluForm (fun _ => rfl) fun t => leaV_eq _ _ _
  case leaw => exact pairResult_of_writePair (fun _ _ => rfl) fun t => leawV_eq _ _ _ _

end Sys2Proof.Proofs
end

section
/-! SUPPORT. What the floating forms compute (06 R124, 07 R149 to R153): NaN results, the order of the values, formats
and sources by their codes. -/

namespace Sys2Proof.Proofs

open Sys2Proof.Machine

/-! ### NaN (06 R124) -/

theorem eq_nan_of_isNan {v : FVal} (h : v.isNan = true) : v = .nan := by
  cases v with
  | nan => rfl
  | inf _ => cases h
  | num _ _ _ => cases h

@[simp] theorem isNan_negV (v : FVal) : v.negV.isNan = v.isNan := by cases v <;> rfl

theorem addVal_nan_right (r : Rnd) (a : FVal) : addVal r a .nan = .nan := by cases a <;> rfl

theorem mulVal_nan_right (a : FVal) : mulVal a .nan = .nan := by cases a <;> rfl

theorem addVal_of_isNan (r : Rnd) {a b : FVal} (h : (a.isNan || b.isNan) = true) : addVal r a b = .nan := by
  obtain ha | hb := Bool.or_eq_true_iff.1 h
  · rw [eq_nan_of_isNan ha]; rfl
  · rw [eq_nan_of_isNan hb, addVal_nan_right]

theorem mulVal_of_isNan {a b : FVal} (h : (a.isNan || b.isNan) = true) : mulVal a b = .nan := by
  obtain ha | hb := Bool.or_eq_true_iff.1 h
  · rw [eq_nan_of_isNan ha]; rfl
  · rw [eq_nan_of_isNan hb, mulVal_nan_right]

/-- A case in which the value is a NaN may be answered with the canonical one. -/
theorem ofNat_roundVal_f32 (r : Rnd) (sat : Bool) {v : FVal} {p : Bool} (nan : p = true → v = .nan) :
    BitVec.ofNat 32 (roundVal .f32 r sat v) = if p then 0x7FC00000 else BitVec.ofNat 32 (roundVal .f32 r sat v) := by
  cases p
  · rfl
  · rw [nan rfl]; rfl

/-! ### The smaller and the larger value (07 R150) -/

theorem ofNat_fminFmt_f32 (a b : Word) :
    BitVec.ofNat 32 (fminFmt .f32 a.toNat b.toNat) =
      if (readFmt .f32 a.toNat).isNan && (readFmt .f32 b.toNat).isNan then 0x7FC00000
      else if (readFmt .f32 a.toNat).isNan then b else if (readFmt .f32 b.toNat).isNan then a
      else if ltVal (readFmt .f32 a.toNat) (readFmt .f32 b.toNat)
        || (eqVal (readFmt .f32 a.toNat) (readFmt .f32 b.toNat) && a.getLsbD 31) then a else b := by
  simp only [fminFmt, apply_ite (BitVec.ofNat 32), BitVec.ofNat_toNat, BitVec.setWidth_eq]
  rfl

theorem ofNat_fmaxFmt_f32 (a b : Word) :
    BitVec.ofNat 32 (fmaxFmt .f32 a.toNat b.toNat) =
      if (readFmt .f32 a.toNat).isNan && (readFmt .f32 b.toNat).isNan then 0x7FC00000
      else if (readFmt .f32 a.toNat).isNan then b else if (readFmt .f32 b.toNat).isNan then a
      else if ltVal (readFmt .f32 b.toNat) (readFmt .f32 a.toNat)
        || (eqVal (readFmt .f32 a.toNat) (readFmt .f32 b.toNat) && !a.getLsbD 31) then a else b := by
  simp only [fmaxFmt, apply_ite (BitVec.ofNat 32), BitVec.ofNat_toNat, BitVec.setWidth_eq]
  rfl

/-! ### Comparison (07 R151) -/

theorem numLt_asymm {s1 : Bool} {m1 : Nat} {e1 : Int} {s2 : Bool} {m2 : Nat} {e2 : Int}
    (h : numLt s1 m1 e1 s2 m2 e2 = true) : numLt s2 m2 e2 s1 m1 e1 = false := by
  simp only [numLt, decide_eq_true_eq, decide_eq_false_iff_not, min_comm e2] at h ⊢
  exact lt_asymm h

theorem ltVal_asymm {a b : FVal} (h : ltVal a b = true) : ltVal b a = false := by
  cases a with
  | nan => cases h
  | inf s =>
    cases b with
    | nan => rfl
    | inf _ => cases s <;> simp_all [ltVal]
    | num _ _ _ => simp_all [ltVal]
  | num _ _ _ =>
    cases b with
    | nan => rfl
    | inf _ => simp_all [ltVal]
    | num _ _ _ => exact numLt_asymm h

theorem eqVal_of_isNan {a b : FVal} (h : (a.isNan || b.isNan) = true) : eqVal a b = false := by
  obtain ha | hb := Bool.or_eq_true_iff.1 h
  · simp [eqVal, ha]
  · simp [eqVal, hb]

theorem ltVal_of_isNan {a b : FVal} (h : (a.isNan || b.isNan) = true) : ltVal a b = false := by
  obtain ha | hb := Bool.or_eq_true_iff.1 h
  · rw [eq_nan_of_isNan ha]; rfl
  · rw [eq_nan_of_isNan hb]; cases a <;> rfl

/-- Apart from NaN the order is total: what is not above is below or equal. -/
theorem ltVal_or_eqVal {a b : FVal} (h : (a.isNan || b.isNan) = false) : (ltVal a b || eqVal a b) = !ltVal b a := by
  obtain ⟨ha, hb⟩ := Bool.or_eq_false_iff.1 h
  cases lt : ltVal a b
  · simp [eqVal, ha, hb, lt]
  · simp [ltVal_asymm lt]

theorem eqVal_comm (a b : FVal) : eqVal a b = eqVal b a := by
  simp only [eqVal, Bool.and_comm, Bool.and_left_comm]

/-- Of the conditions, only `.ne` and `.nan` hold with a NaN. -/
theorem fcompare_of_isNan {a b : FVal} (h : (a.isNan || b.isNan) = true) {cond : Nat} (legal : cond < 8) :
    fcompare cond a b = (cond == 1 || cond == 7) := by
  have h' : (b.isNan || a.isNan) = true := by rwa [Bool.or_comm]
  have neither : (!a.isNan && !b.isNan) = false := by rw [← Bool.not_or, h]; rfl
  match cond, legal with
  | 0, _ => exact eqVal_of_isNan h
  | 1, _ => simp [fcompare, eqVal_of_isNan h]
  | 2, _ => exact ltVal_of_isNan h
  | 3, _ => simp [fcompare, eqVal_of_isNan h, ltVal_of_isNan h]
  | 4, _ => exact ltVal_of_isNan h'
  | 5, _ => simp [fcompare, eqVal_of_isNan h, ltVal_of_isNan h']
  | 6, _ => exact neither
  | 7, _ => exact h

/-- The conditions without a NaN. -/
theorem fcompare_of_not_isNan {a b : FVal} (h : (a.isNan || b.isNan) = false) (cond : Nat) :
    fcompare cond a b = match cond with
      | 0 => eqVal a b
      | 1 => !eqVal a b
      | 2 => ltVal a b
      | 3 => !ltVal b a
      | 4 => ltVal b a
      | 5 => !ltVal a b
      | 6 => true
      | _ => false := by
  have h' : (b.isNan || a.isNan) = false := by rwa [Bool.or_comm]
  unfold fcompare
  split
  case h_4 => exact ltVal_or_eqVal h
  case h_6 => rw [eqVal_comm]; exact ltVal_or_eqVal h'
  case h_7 => rw [← Bool.not_or, h]; rfl
  case h_8 => simpa using h
  all_goals rfl

/-! ### Fields, formats and sources by their codes (07 R145, R153) -/

theorem field_lt (f : FormA) (hi lo : Nat) : f.field hi lo < 2 ^ (hi + 1 - lo) := Nat.mod_lt _ (Nat.two_pow_pos _)

/-- The code of an integer type is its two bits. -/
theorem field_lowest_two (f : FormA) : f.field 1 0 = (f.bit 0).toNat + 2 * (f.bit 1).toNat := by
  simp only [FormA.field, FormA.bit, BitVec.getLsbD, Nat.toNat_testBit]
  omega

theorem fmtOfCode_eq (c : Nat) : fmtOfCode c = if c = 0 then .f32 else if c = 1 then .h16 else .bf16 := by
  match c with
  | 0 => rfl
  | 1 => rfl
  | _ + 2 => rfl

theorem srcInFmt_fmtOfCode (c : Nat) (hi : Bool) (t : Thread) (x : Src) :
    srcInFmt (fmtOfCode c) hi t x =
      if c = 0 then (srcF32 t .a x).toNat else half (srcPacked (fmtOfCode c) t .a x) hi.toNat := by
  match c with
  | 0 => rfl
  | 1 => rfl
  | _ + 2 => rfl

/-- A NaN converts to the integer 0. -/
theorem ofInt_valToInt (w : Nat) (r : Rnd) (lo hi : Int) (v : FVal) :
    BitVec.ofInt w (valToInt r lo hi v) = match v with
      | .nan => 0
      | v => BitVec.ofInt w (valToInt r lo hi v) := by
  cases v <;> rfl

theorem i2fValue_eq (f : FormA) (t : Thread) :
    i2fValue f t = match f.field 1 0 with
      | 0 => (srcWord t .a f.a).toInt
      | 1 => (srcWord t .a f.a).toNat
      | 2 => (srcPair t .a f.a).toInt
      | _ => (srcPair t .a f.a).toNat := by
  rw [field_lowest_two, i2fValue]
  cases f.bit 0 <;> cases f.bit 1 <;> rfl

end Sys2Proof.Proofs
end

section
/-! PROOF of the statements on the floating forms, O9 to O11 (07 R149 to R159). -/

namespace Sys2Proof.Proofs

open Sys2Proof.Machine Sys2Proof.Safety

/-! ### O9 (07 R149, R150) -/

/-- Settles O9: a NaN among the operands makes the exact value a NaN, which rounds to the canonical one. -/
theorem floatArithmetic : Obligations.FloatArithmetic := by
  refine ⟨fun f => ?fadd, fun f => ?fsub, fun f => ?fmul, fun f => ?ffma, fun f => ?fmin, fun f => ?fmax⟩
  case fadd => exact wordResult_of_writeWord (fun _ _ => rfl) fun t => ofNat_roundVal_f32 _ _ (addVal_of_isNan _)
  case fsub =>
    exact wordResult_of_writeWord (fun _ _ => rfl) fun t =>
      ofNat_roundVal_f32 _ _ fun nan => addVal_of_isNan _ (by rwa [isNan_negV])
  case fmul => exact wordResult_of_writeWord (fun _ _ => rfl) fun t => ofNat_roundVal_f32 _ _ mulVal_of_isNan
  case ffma => exact wordResult_of_writeWord (fun _ _ => rfl) fun t => ofNat_roundVal_f32 _ _ (addVal_of_isNan _)
  case fmin => exact wordResult_of_writeWord (fun _ _ => rfl) fun t => ofNat_fminFmt_f32 _ _
  case fmax => exact wordResult_of_writeWord (fun _ _ => rfl) fun t => ofNat_fmaxFmt_f32 _ _

/-! ### O10 (07 R151 to R153, R157 to R159) -/

/-- The comparison of one lane: a NaN decides it, else the order does. -/
theorem fsetLane_eq (f : FormA) (t : Thread) :
    fsetLane f t =
      let a := readFmt .f32 (operandA f t).toNat
      let b := readFmt .f32 (operandB f t).toNat
      if a.isNan || b.isNan then f.field 3 1 == 1 || f.field 3 1 == 7
      else match f.field 3 1 with
        | 0 => eqVal a b
        | 1 => !eqVal a b
        | 2 => ltVal a b
        | 3 => !ltVal b a
        | 4 => ltVal b a
        | 5 => !ltVal a b
        | 6 => true
        | _ => false := by
  dsimp only [fsetLane]
  split
  next nan => exact fcompare_of_isNan nan (field_lt f 3 1)
  next finite => exact fcompare_of_not_isNan (Bool.eq_false_iff.2 finite) _

/-- Settles O10: the comparison by its NaN case, the sources by the code of their format. -/
theorem floatCompareConvert : Obligations.FloatCompareConvert := by
  refine ⟨fun f toReg => ?fsetReg, fun f toPred => ?fsetPred, fun f => ?frnd, fun f => ?fclass,
    fun f word => ?f2iWord, fun f pair => ?f2iPair, fun f => ?i2f, fun f => ?f2f⟩
  case fsetReg =>
    have arm (s : State) (_ : s.cur.agent = .core) :
        exec (.fset f) s = .next (wordForm s f fun t => boolV 32 (fsetLane f t)) := if_pos toReg
    refine wordResult_of_writeWord arm fun t => ?_
    rw [fsetLane_eq]
    rfl
  case fsetPred =>
    have arm (s : State) (_ : s.cur.agent = .core) :
        exec (.fset f) s = .next (writePred s f.x.guard f.dst fun _ t => fsetLane f t) :=
      if_neg (Bool.eq_false_iff.1 toPred)
    exact predResult_of_writePred arm fun t => fsetLane_eq f t
  case frnd => exact wordResult_of_writeWord (fun _ _ => rfl) fun t => rfl
  case fclass =>
    refine wordResult_of_writeWord (fun _ _ => rfl) fun t => ?_
    dsimp only
    rw [srcInFmt_fmtOfCode, fmtOfCode_eq]
  case f2iWord =>
    have arm (s : State) (_ : s.cur.agent = .core) :
        exec (.f2i f) s = .next (wordForm s f fun t => BitVec.ofInt 32 (f2iLane f t)) :=
      if_neg (Bool.eq_false_iff.1 word)
    refine wordResult_of_writeWord arm fun t => ?_
    rw [f2iLane, srcInFmt_fmtOfCode, fmtOfCode_eq]
    exact ofInt_valToInt _ _ _ _ _
  case f2iPair =>
    have arm (s : State) (_ : s.cur.agent = .core) :
        exec (.f2i f) s = .next (writePair s f.x.guard f.dst fun _ t => BitVec.ofInt 64 (f2iLane f t)) := if_pos pair
    refine pairResult_of_writePair arm fun t => ?_
    rw [f2iLane, srcInFmt_fmtOfCode, fmtOfCode_eq]
    exact ofInt_valToInt _ _ _ _ _
  case i2f =>
    refine wordResult_of_writeWord (fun _ _ => rfl) fun t => ?_
    rw [fmtOfCode_eq]
    exact congrArg (fun x => BitVec.ofNat 32 (roundVal _ f.x.rnd f.x.sat (intToVal x))) (i2fValue_eq f t)
  case f2f =>
    refine wordResult_of_writeWord (fun _ _ => rfl) fun t => ?_
    dsimp only
    rw [srcInFmt_fmtOfCode, fmtOfCode_eq (f.field 1 0), fmtOfCode_eq (f.field 3 2)]

/-! ### O11 (07 R154) -/

/-- A packed form: each half of the result is the operation on the same halves of the operands. -/
theorem wordResult_of_packedForm {i : Instr} {k : Fmt} {f : FormA} {op : Nat → Nat → Nat → Nat} {val : Thread → Word}
    (arm : ∀ s, exec i s = .next (packedForm s k f op))
    (value : ∀ t, packHalves
      (op (half (packedA k f t) 0) (half (packedB k f t) 0) (half (packedC k f t) 0))
      (op (half (packedA k f t) 1) (half (packedB k f t) 1) (half (packedC k f t) 1)) = val t) :
    wordResult i f.x.guard f.dst fun _ t => val t :=
  wordResult_of_writeWord (fun s _ => arm s) value

/-- Settles O11: each form by the one operation that both its halves take. -/
theorem packedArithmetic : Obligations.PackedArithmetic := by
  refine ⟨fun f => ?hadd2, fun f => ?hmul2, fun f => ?hfma2, fun f => ?badd2, fun f => ?bmul2, fun f => ?bfma2,
    fun f => ?hmin2, fun f => ?hmax2⟩
  all_goals exact wordResult_of_packedForm (fun _ => rfl) fun t => rfl

end Sys2Proof.Proofs
end

section
/-! SUPPORT. What the lane-exchange forms compute over the lane positions (07 R163 to R169), and what a class-1 form
leaves in flight (07 R148, 03 R62). -/

namespace Sys2Proof.Proofs

open Sys2Proof.Machine Sys2Proof.Safety

/-! ### The values of the lane positions (07 R163) -/

section
variable {α : Type} (s : State) (g : Guard) (f : Thread → α)

theorem getElem?_laneValues {i : Nat} (h : i < 32) : (laneValues s g f)[i]? = some ((laneAt s g i).map f) := by
  rw [laneValues, List.getElem?_map, List.getElem?_range h]
  rfl

/-- The present values in lane order. -/
theorem filterMap_laneValues : (laneValues s g f).filterMap id = (participants s g f).map Prod.snd := by
  simp only [laneValues, participants, List.filterMap_map, List.map_filterMap, Option.map_map]
  rfl

/-- A bit laid where a position's value meets a condition. -/
theorem getElem?_laneValues_beq [DecidableEq α] (x : α) {i : Nat} (h : i < 32) :
    ((laneValues s g f)[i]? == some (some x)) = ((laneAt s g i).map fun o => decide (f o = x)).getD false := by
  rw [getElem?_laneValues s g f h]
  cases laneAt s g i with
  | none => rfl
  | some o => rw [Bool.eq_iff_iff]; simp

end

theorem take_range_eq_filter (m n : Nat) : (List.range m).take n = (List.range m).filter fun i => decide (i < n) := by
  induction m with
  | zero => simp
  | succ m ih =>
    rw [List.range_succ, List.take_append, List.filter_append, ih, List.length_range]
    obtain below | above := lt_or_ge m n
    · rw [List.take_of_length_le (by rw [List.length_singleton]; omega)]
      simp [below]
    · simp [Nat.not_lt.2 above, Nat.sub_eq_zero_of_le above]

/-- The present values of the positions below n. -/
theorem filterMap_take_laneValues {α : Type} (s : State) (g : Guard) (f : Thread → α) (n : Nat) :
    ((laneValues s g f).take n).filterMap id
      = ((participants s g f).filter fun p => decide (p.1 < n)).map Prod.snd := by
  rw [laneValues, ← List.map_take, take_range_eq_filter, participants, List.filter_filterMap, List.map_filterMap,
    List.filterMap_map, List.filterMap_filter]
  refine List.filterMap_congr fun i _ => ?_
  dsimp only [Function.comp_apply]
  cases laneAt s g i with
  | none => simp
  | some o =>
    obtain below | above := lt_or_ge i n
    · simp [below]
    · simp [above, Nat.not_lt.2 above]

/-! ### `SHFL` and `VOTE` (07 R164, R165) -/

theorem shflLane_of_outside {s : State} {f : FormA} {lane : Nat} {t : Thread}
    (h : shflTarget (f.field 2 0) (32 / 2 ^ f.field 5 3) lane (srcWord t .b f.b).toNat = none) :
    shflLane s f lane t = srcWord t .a f.a := by
  simp only [shflLane, h]

theorem shflLane_of_target {s : State} {f : FormA} {lane j : Nat} {t : Thread}
    (h : shflTarget (f.field 2 0) (32 / 2 ^ f.field 5 3) lane (srcWord t .b f.b).toNat = some j) :
    shflLane s f lane t = ((laneAt s f.x.guard j).map fun o => srcWord o .a f.a).getD (srcWord t .a f.a) := by
  simp only [shflLane, h]
  cases laneAt s f.x.guard j <;> rfl

/-- The position that a mode of `SHFL` names, within the segment or not. -/
def shflPosition (mode seg lane k : Nat) : Int :=
  let base := lane - lane % seg
  match mode with
  | 0 => (base + Nat.xor (lane - base) (k % seg) : Nat)
  | 1 => (lane : Int) + k
  | 2 => (lane : Int) - k
  | 3 => (base + k % seg : Nat)
  | _ => (base + (lane - base + k) % seg : Nat)

theorem shflTarget_eq (mode seg lane k : Nat) :
    shflTarget mode seg lane k =
      let base := lane - lane % seg
      let target := shflPosition mode seg lane k
      if target < base ∨ (base : Int) + seg ≤ target then none else some target.toNat := rfl

theorem shflLane_eq (s : State) (f : FormA) (t : Thread) :
    shflLane s f t.ctl.lane t =
      let seg := 32 / 2 ^ f.field 5 3
      let base := t.ctl.lane - t.ctl.lane % seg
      let target := shflPosition (f.field 2 0) seg t.ctl.lane (srcWord t .b f.b).toNat
      if target < base ∨ (base : Int) + seg ≤ target then srcWord t .a f.a
      else ((laneAt s f.x.guard target.toNat).map fun o => srcWord o .a f.a).getD (srcWord t .a f.a) := by
  dsimp only
  split
  next outside => exact shflLane_of_outside ((shflTarget_eq ..).trans (if_pos outside))
  next inside => exact shflLane_of_target ((shflTarget_eq ..).trans (if_neg inside))

theorem voteResult_eq (mode : Nat) (s : State) (g : Guard) (p : Thread → Bool) :
    voteResult mode (laneValues s g p) =
      let ps := (participants s g p).map Prod.snd
      match mode with
      | 1 => ps.any (· == true)
      | 2 => ps.all (· == true)
      | _ => ps.all (· == true) || ps.all (· == false) := by
  simp only [voteResult, filterMap_laneValues, beq_true, beq_false]
  rfl

theorem getLsbD_voteMask (f : FormA) (s : State) {i : Nat} (h : i < 32) :
    (voteMask (votes s f)).getLsbD i =
      ((laneAt s f.x.guard i).map fun o => srcPred o f.a != f.bit 2).getD false := by
  rw [voteMask, getLsbD_buildBits, decide_eq_true h, Bool.true_and, votes, getElem?_laneValues_beq _ _ _ _ h]
  simp only [Bool.decide_eq_true]

/-! ### The tree of `REDUX` (07 R167) -/

section
variable (op : Word → Word → Word) (x : Nat → Option Word)

theorem treeNode_succ (k j : Nat) :
    treeNode op x (k + 1) j = combineOpt op (treeNode op x k (2 * j)) (treeNode op x k (2 * j + 1)) := by
  rw [treeNode]
  cases treeNode op x k (2 * j) <;> cases treeNode op x k (2 * j + 1) <;> rfl

theorem treeLevel_range (n : Nat) : treeLevel op ((List.range (2 * n)).map x)
    = (List.range n).map fun j => combineOpt op (x (2 * j)) (x (2 * j + 1)) := by
  induction n generalizing x with
  | zero => rfl
  | succ n ih =>
    have front (m : Nat) : List.range (m + 1) = 0 :: (List.range m).map Nat.succ := List.range_succ_eq_map
    rw [show 2 * (n + 1) = 2 * n + 1 + 1 from rfl, front, front, front, List.map_cons, List.map_cons, List.map_cons,
      List.map_map, List.map_map, treeLevel, ih]
    simp [Nat.mul_add]

/-- A level of the tree is the row of nodes at that level. -/
theorem treeLevel_treeNode (k n : Nat) : treeLevel op ((List.range (2 * n)).map (treeNode op x k))
    = (List.range n).map (treeNode op x (k + 1)) := by
  rw [treeLevel_range]
  exact List.map_congr_left fun j _ => (treeNode_succ op x k j).symm

theorem reduceTree_eq_treeNode : reduceTree op ((List.range 32).map x) = treeNode op x 5 0 := by
  have leaves : x = treeNode op x 0 := rfl
  rw [reduceTree]
  rw [leaves, treeLevel_treeNode op x 0 16, treeLevel_treeNode op x 1 8, treeLevel_treeNode op x 2 4,
    treeLevel_treeNode op x 3 2, treeLevel_treeNode op x 4 1]
  rfl

end

/-! ### The scan of `PSCAN` (07 R168) -/

theorem scanOf_some_cons (op : Word → Word → Word) (a : Word) (xs : List (Option Word)) :
    scanOf op (some a :: xs) = some ((xs.filterMap id).foldl op a) := by
  induction xs generalizing a with
  | nil => rfl
  | cons x xs ih =>
    cases x with
    | none => exact ih a
    | some y => exact ih (op a y)

theorem scanOf_eq (op : Word → Word → Word) (xs : List (Option Word)) :
    scanOf op xs = match xs.filterMap id with
      | [] => none
      | x :: r => some (r.foldl op x) := by
  induction xs with
  | nil => rfl
  | cons x xs ih =>
    cases x with
    | none => exact ih
    | some y => exact scanOf_some_cons op y xs

theorem combined_identityOf (op : Nat) : combined op (identityOf op) = identityOf op := by
  match op with
  | 0 | 1 | 2 | 3 | 4 | 5 | 6 | 7 | 8 | 9 => rfl
  | _ + 10 => simp [combined, identityOf]

/-- The positions that `.excl` leaves out of the scan. -/
theorem filterMap_take_scanned (s : State) (g : Guard) (x : Thread → Word) (excl : Bool) (lane : Nat) :
    ((laneValues s g x).take (if excl then lane else lane + 1)).filterMap id
      = ((participants s g x).filter fun p =>
          if excl then decide (p.1 < lane) else decide (p.1 ≤ lane)).map Prod.snd := by
  rw [filterMap_take_laneValues]
  cases excl
  · simp only [Bool.false_eq_true, if_false, Nat.lt_succ_iff]
  · rfl

/-- The source of a lane in `REDUX` and `PSCAN`, by the operation's code. -/
def exchangeSource (f : FormA) (t : Thread) : Word := if f.field 3 0 < 8 then srcWord t .a f.a else srcF32 t .a f.a

theorem reduxValue_eq (s : State) (f : FormA) :
    reduceTree (combine (f.field 3 0) f.x.rnd) (laneValues s f.x.guard (exchangeSource f))
      = treeNode (combine (f.field 3 0) f.x.rnd) (fun i => (laneAt s f.x.guard i).map (exchangeSource f)) 5 0 :=
  reduceTree_eq_treeNode _ _

theorem pscanValue_eq (s : State) (f : FormA) (lane : Nat) :
    combined (f.field 3 0) ((scanOf (combine (f.field 3 0) f.x.rnd)
        ((laneValues s f.x.guard (exchangeSource f)).take (if f.bit 4 then lane else lane + 1))).getD
          (identityOf (f.field 3 0)))
      = match ((participants s f.x.guard (exchangeSource f)).filter fun p =>
            if f.bit 4 then decide (p.1 < lane) else decide (p.1 ≤ lane)).map Prod.snd with
        | [] => identityOf (f.field 3 0)
        | x :: r => combined (f.field 3 0) (r.foldl (combine (f.field 3 0) f.x.rnd) x) := by
  rw [scanOf_eq, filterMap_take_scanned]
  generalize List.map Prod.snd _ = present
  cases present with
  | nil => exact combined_identityOf _
  | cons x r => rfl

/-! ### The groups of `MATCH` (07 R169) -/

/-- The lanes of a mask, rising. -/
def maskLanes (m : Word) : List Nat := (List.range 32).filter fun i => m.getLsbD i

theorem ctzCount_eq_headD (m : Word) : ctzCount m = (maskLanes m).headD 32 := by
  rw [ctzCount_eq_find?, List.headD_eq_head?_getD, maskLanes, List.head?_filter]

theorem popCount_eq_length (m : Word) : popCount m = (maskLanes m).length := List.countP_eq_length_filter

/-- The rank of a lane: how many lanes of the mask are below it. -/
theorem popCount_below (m : Word) (lane : Nat) :
    popCount (m &&& BitVec.ofNat 32 (2 ^ lane - 1)) = ((maskLanes m).filter fun i => decide (i < lane)).length := by
  rw [popCount_eq_length, maskLanes, maskLanes, List.filter_filter]
  refine congrArg List.length (List.filter_congr fun i member => ?_)
  have inWord : i < 32 := List.mem_range.1 member
  rw [BitVec.getLsbD_and, BitVec.getLsbD_ofNat, Nat.testBit_two_pow_sub_one, decide_eq_true inWord, Bool.true_and,
    Bool.and_comm]

/-- The leader, the size and the rank packed, from the lanes of the group. -/
theorem matchInfo_eq (m : Word) (lane : Nat) :
    BitVec.ofNat 32 (ctzCount m + popCount m * 32 + popCount (m &&& BitVec.ofNat 32 (2 ^ lane - 1)) * 2048)
      = BitVec.ofNat 32 ((maskLanes m).headD 32 + 32 * (maskLanes m).length
          + 2048 * ((maskLanes m).filter fun i => decide (i < lane)).length) := by
  rw [ctzCount_eq_headD, popCount_below, popCount_eq_length, Nat.mul_comm 32, Nat.mul_comm 2048]

/-- The group of a lane in `MATCH`. -/
def matchMask (f : FormA) (s : State) (t : Thread) : Word :=
  groupMask (laneValues s f.x.guard (matchValue f)) (matchValue f t)

theorem getLsbD_matchMask (f : FormA) (s : State) (t : Thread) {i : Nat} (h : i < 32) :
    (matchMask f s t).getLsbD i =
      ((laneAt s f.x.guard i).map fun o => decide (matchValue f o = matchValue f t)).getD false := by
  rw [matchMask, groupMask, getLsbD_buildBits, decide_eq_true h, Bool.true_and, getElem?_laneValues_beq _ _ _ _ h]

/-! ### Results in flight (07 R148, 03 R62) -/

theorem mem_activeLanes {s : State} {g : Guard} {u : Nat} {t : Thread} (lane : u ∈ s.cur.lanes)
    (found : threadOf s u = some t) (active : guardOn g t.regs = true) : (u, t) ∈ activeLanes s g := by
  refine List.mem_filter.2 ⟨List.mem_filterMap.2 ⟨u, lane, ?_⟩, active⟩
  rw [found]
  rfl

section
variable {s : State} {f : FormA} {val : Thread → Word} {l : List (Nat × Thread)} {id : Nat}

theorem mem_resultAccesses {a : Access} (h : a ∈ resultAccesses s f val l id) :
    ∃ (p : Nat × Thread) (n : Nat), a = resultAccess s n f (val p.2) p.1 p.2 := by
  induction l generalizing id with
  | nil => cases h
  | cons p l ih =>
    obtain rfl | rest := List.mem_cons.1 h
    · exact ⟨p, id, rfl⟩
    · exact ih rest

theorem exists_mem_resultAccesses {p : Nat × Thread} (h : p ∈ l) :
    ∃ n, resultAccess s n f (val p.2) p.1 p.2 ∈ resultAccesses s f val l id := by
  induction l generalizing id with
  | nil => cases h
  | cons q l ih =>
    obtain rfl | rest := List.mem_cons.1 h
    · exact ⟨id, List.mem_cons_self⟩
    · obtain ⟨n, member⟩ := ih rest
      exact ⟨n, List.mem_cons_of_mem _ member⟩

end

/-- The results that a class-1 form leaves in flight. -/
def resultsInFlight (s : State) (f : FormA) (val : Thread → Word) : List Access :=
  match f.dst with
  | .suppress => if f.x.ctr = 0 then [] else resultAccesses s f val (activeLanes s f.x.guard) s.nextAccess
  | .reg _ => resultAccesses s f val (activeLanes s f.x.guard) s.nextAccess

theorem resultsInFlight_form {s : State} {f : FormA} {val : Thread → Word} {a : Access}
    (h : a ∈ resultsInFlight s f val) : a.kind = .result ∧ a.ctr = f.x.ctr.toNat := by
  have listed : a ∈ resultAccesses s f val (activeLanes s f.x.guard) s.nextAccess := by
    unfold resultsInFlight at h
    split at h
    · split at h
      · cases h
      · exact h
    · exact h
  obtain ⟨p, n, rfl⟩ := mem_resultAccesses listed
  exact ⟨rfl, rfl⟩

/-- Each participating lane with a destination has its result in flight, with the value it replaces. -/
theorem exists_mem_resultsInFlight {s : State} {f : FormA} {val : Thread → Word} {u n : Nat} {t : Thread}
    (lane : u ∈ s.cur.lanes) (found : threadOf s u = some t) (active : guardOn f.x.guard t.regs = true)
    (dst : destReg t f.dst = some n) :
    ∃ a ∈ resultsInFlight s f val, a.lanes =
      [{ uid := u, dst := n, operand := (val t).setWidth 64, old := (t.regs.get n).setWidth 64 }] := by
  obtain ⟨id, member⟩ := exists_mem_resultAccesses (s := s) (f := f) (val := val) (id := s.nextAccess)
    (mem_activeLanes lane found active)
  cases d : f.dst with
  | suppress => rw [d] at dst; cases dst
  | reg r =>
    rw [d] at dst
    obtain rfl : stepReg t.ctl .dst r.toNat = n := Option.some.inj dst
    refine ⟨resultAccess s id f (val t) u t, ?_, ?_⟩
    · rw [resultsInFlight, d]; exact member
    · simp only [resultAccess, d]

/-! ### The threads of a class-1 form -/

@[simp] theorem regs_getCtr_ctrUp (r : Regs) (c k : Nat) :
    (r.ctrUp c).getCtr k = if k + 1 = c then r.getCtr k + 1 else r.getCtr k := by
  cases c with
  | zero => rfl
  | succ n => by_cases same : k = n <;> simp [Regs.ctrUp, same]

theorem guardOn_congr {r r' : Regs} (h : r'.p = r.p) (g : Guard) : guardOn g r' = guardOn g r := by
  simp only [guardOn, Regs.pred, h]

theorem putWord_preds (j : Nat) (d : Dst) (x : Word) (t : Thread) : (putWord j d x t).regs.p = t.regs.p := by
  cases d <;> rfl

theorem skipWord_preds (j : Nat) (d : Dst) (t : Thread) : (skipWord j d t).regs.p = t.regs.p := by
  cases d <;> rfl

theorem putWord_ctr (j : Nat) (d : Dst) (x : Word) (t : Thread) : (putWord j d x t).regs.ctr = t.regs.ctr := by
  cases d <;> rfl

/-- One lane of a class-1 form: the word and the count, or what a false guard leaves. -/
def classOneLane (j : Nat) (f : FormA) (val : Thread → Word) (t : Thread) : Thread :=
  if guardOn f.x.guard t.regs then (putWord j f.dst (val t) t).modRegs fun r => r.ctrUp f.x.ctr.toNat
  else skipWord j f.dst t

theorem threadOf_classOne (s : State) (f : FormA) (val : Thread → Word) (u : Nat) (nodup : s.cur.lanes.Nodup) :
    threadOf (classOne s f val) u =
      if u ∈ s.cur.lanes then (threadOf s u).map (classOneLane (s.cur.pos % 4) f val) else threadOf s u := by
  have counted := threadOf_forLanes (writeWord s f.x.guard f.dst fun _ t => val t)
    (fun _ t => if guardOn f.x.guard t.regs then t.modRegs fun r => r.ctrUp f.x.ctr.toNat else t) u nodup
  rw [writeWord_cur, writeWord, threadOf_forLanes _ _ _ nodup] at counted
  refine counted.trans ?_
  split
  case isFalse => rfl
  rw [Option.map_map]
  congr 1
  funext t
  rw [Function.comp_apply, classOneLane]
  by_cases active : guardOn f.x.guard t.regs = true
  · rw [if_pos active, guardOn_congr (putWord_preds ..), if_pos active, if_pos active]
    rfl
  · rw [if_neg active, guardOn_congr (skipWord_preds ..), if_neg active, if_neg active]
    rfl

/-- Its counters apart, a thread that has written and counted is one that has written. -/
theorem putWord_ctrUp_withCtr (j : Nat) (d : Dst) (x : Word) (c : Nat) (t : Thread) :
    let t' := (putWord j d x t).modRegs fun r => r.ctrUp c
    { t' with regs := { t'.regs with ctr := t.regs.ctr } } = putWord j d x t := by
  simp only [Thread.modRegs, Regs.ctrUp, ← putWord_ctr j d x t]
  split <;> rfl

theorem classOneLane_active {j : Nat} {f : FormA} {val : Thread → Word} {t : Thread}
    (active : guardOn f.x.guard t.regs = true) :
    let t' := classOneLane j f val t
    wroteWord j f.dst (val t) t { t' with regs := { t'.regs with ctr := t.regs.ctr } }
    ∧ ∀ k, t'.regs.getCtr k = if k + 1 = f.x.ctr.toNat then t.regs.getCtr k + 1 else t.regs.getCtr k := by
  simp only [classOneLane, if_pos active]
  refine ⟨?wrote, fun k => ?count⟩
  case wrote =>
    rw [putWord_ctrUp_withCtr]
    exact putWord_wrote j f.dst (val t) t
  case count =>
    simp only [Thread.modRegs, regs_getCtr_ctrUp]
    simp only [Regs.getCtr, putWord_ctr]

theorem classOneLane_inactive {j : Nat} {f : FormA} {val : Thread → Word} {t : Thread}
    (inactive : ¬ guardOn f.x.guard t.regs = true) : classOneLane j f val t = skipWord j f.dst t := if_neg inactive

theorem landsLater_of_classOne {i : Instr} {f : FormA} {val : Thread → Word}
    (arm : ∀ s, exec i s = .next (classOne s f val)) : landsLater i f val := by
  intro s _ nodup
  refine ⟨_, arm s, fun u t lane found => ?lane, fun u apart => ?others,
    resultsInFlight s f val, rfl, fun a => resultsInFlight_form,
    fun u t n lane found active dst => exists_mem_resultsInFlight lane found active dst⟩
  case lane =>
    refine ⟨classOneLane (s.cur.pos % 4) f val t, ?_, ?_⟩
    · rw [threadOf_classOne s f val u nodup, if_pos lane, found, Option.map_some]
    · split
      next active => exact classOneLane_active active
      next inactive =>
        rw [classOneLane_inactive inactive]
        exact skipWord_skipped _ f.dst t
  case others => rw [threadOf_classOne s f val u nodup, if_neg apart]

end Sys2Proof.Proofs
end

section
/-! PROOF of the statements on the class-1 forms and the lane exchange, O12 and O13 (07 R148, R155 to R169). -/

namespace Sys2Proof.Proofs

open Sys2Proof.Machine Sys2Proof.Safety

/-! ### O12 (07 R148, R155, R160 to R162) -/

/-- A special function that answers a NaN with the canonical NaN. -/
theorem landsLater_of_specialForm {i : Instr} {f : FormA} {op : Word → Nat}
    (arm : ∀ s, exec i s = .next (specialForm s f op))
    (nan : ∀ a : Word, readFmt .f32 a.toNat = .nan → op a = Fmt.f32.nanCode) :
    landsLater i f fun t =>
      if (readFmt .f32 (operandA f t).toNat).isNan then 0x7FC00000 else BitVec.ofNat 32 (op (operandA f t)) := by
  have value : (fun t => BitVec.ofNat 32 (op (operandA f t))) = fun t =>
      if (readFmt .f32 (operandA f t).toNat).isNan then 0x7FC00000 else BitVec.ofNat 32 (op (operandA f t)) := by
    funext t
    split
    next h => rw [nan _ (eq_nan_of_isNan h)]; rfl
    next => rfl
  exact value ▸ landsLater_of_classOne arm

/-- Settles O12: what every class-1 form leaves, and the NaN case of each special function. -/
theorem specialFunctions : Obligations.SpecialFunctions := by
  refine ⟨fun f => ?frcp, fun f => ?frsq, fun f => ?fsqrt, fun f => ?fex2, fun f => ?flg2, fun f => ?fsin,
    fun f => ?fcos, fun f => ?ftanh, fun f => ?cvt8, fun f => ?cvt4, fun f => ?cvtl, fun f => ?scv⟩
  case frcp =>
    exact landsLater_of_specialForm (op := fun a => frcpV f.x.rnd f.x.sat (readFmt .f32 a.toNat)) (fun _ => rfl)
      fun a nan => by rw [nan, frcpV]
  case frsq => exact landsLater_of_specialForm (fun _ => rfl) fun a nan => by rw [frsqV, nan]
  case fsqrt =>
    exact landsLater_of_specialForm (op := fun a => fsqrtV f.x.rnd (readFmt .f32 a.toNat)) (fun _ => rfl)
      fun a nan => by rw [nan, fsqrtV]
  case fex2 => exact landsLater_of_specialForm (fun _ => rfl) fun a nan => by rw [fex2V, nan]
  case flg2 => exact landsLater_of_specialForm (fun _ => rfl) fun a nan => by rw [flg2V, nan]
  case fsin => exact landsLater_of_specialForm (fun _ => rfl) fun a nan => by rw [fsinV, nan]
  case fcos => exact landsLater_of_specialForm (fun _ => rfl) fun a nan => by rw [fcosV, nan]
  case ftanh => exact landsLater_of_specialForm (fun _ => rfl) fun a nan => by rw [ftanhV, nan]
  case cvt8 => exact landsLater_of_classOne fun _ => rfl
  case cvt4 => exact landsLater_of_classOne fun _ => rfl
  case cvtl => exact landsLater_of_classOne fun _ => rfl
  case scv => exact landsLater_of_classOne fun _ => rfl

/-! ### O13 (07 R163 to R169) -/

/-- A form of lane exchange, whose value at a lane depends on the other lanes. -/
theorem wordResult_of_exchange {i : Instr} {f : FormA} {val : State → Nat → Thread → Word}
    {want : State → Thread → Word} (arm : ∀ s, exec i s = .next (exchange s f (val s))) (value : ∀ s t, val s t.ctl.lane t = want s t) :
    wordResult i f.x.guard f.dst want := by
  obtain rfl : (fun s t => val s t.ctl.lane t) = want := funext fun s => funext (value s)
  exact fun s _ nodup => ⟨_, arm s, writeWord_onlyLanes s _ _ _ nodup⟩

/-- A vote, whose outcome is one for all lanes. -/
theorem predResult_of_ballot {i : Instr} {g : Guard} {d : Dst} {outcome want : State → Bool}
    (arm : ∀ s, exec i s = .next (writePred s g d fun _ _ => outcome s)) (value : ∀ s, outcome s = want s) :
    predResult i g d fun s _ => want s := by
  obtain rfl : outcome = want := funext value
  exact fun s _ nodup => ⟨_, arm s, writePred_onlyLanes s _ _ _ nodup⟩

/-- Settles O13: the tree of `REDUX` node by node, the scan as a fold over the lanes below, the masks bit by bit. -/
theorem crossLane : Obligations.CrossLane := by
  refine ⟨⟨fun f => ?shfl, ⟨fun f s => voteMask (votes s f), fun f mask => ?voteMask, fun f s i below => ?ballot⟩,
      fun f test => ?votePred⟩,
    ⟨fun f => ?redux, fun f => ?pscan,
      ⟨matchMask, fun f mask => ?matchMask, fun f s t i below => ?group, fun f info => ?matchInfo⟩⟩,
    fun f code => ?shflIllegal, fun f code => ⟨?reduxIllegal, ?pscanIllegal⟩⟩
  case shfl => exact wordResult_of_exchange (fun _ => rfl) fun s t => shflLane_eq s f t
  case voteMask => exact wordResult_of_exchange (fun s => if_pos mask) fun _ _ => rfl
  case ballot => exact getLsbD_voteMask f s below
  case votePred =>
    exact predResult_of_ballot (fun _ => if_neg test) fun s => voteResult_eq _ s _ _
  case redux =>
    exact wordResult_of_exchange (fun _ => rfl) fun s _ =>
      congrArg (fun v => combined (f.field 3 0) (v.getD 0)) (reduxValue_eq s f)
  case pscan => exact wordResult_of_exchange (fun _ => rfl) fun s t => pscanValue_eq s f t.ctl.lane
  case matchMask => exact wordResult_of_exchange (fun _ => rfl) fun s t => if_neg (Bool.eq_false_iff.1 mask)
  case group => exact getLsbD_matchMask f s t below
  case matchInfo =>
    exact wordResult_of_exchange (fun _ => rfl) fun s t =>
      (if_pos info).trans (matchInfo_eq (matchMask f s t) t.ctl.lane)
  case shflIllegal =>
    refine wf_false_of_fieldsOk ?_
    obtain mode | segment := code
    · have above : ¬ f.field 2 0 < 5 := by omega
      simp [Instr.fieldsOk, Instr.specA, FormA.wf, above]
    · have above : ¬ f.field 5 3 < 6 := by omega
      simp [Instr.fieldsOk, Instr.specA, FormA.wf, above]
  case reduxIllegal =>
    have above : ¬ f.field 3 0 < 11 := by omega
    exact wf_false_of_fieldsOk (by simp [Instr.fieldsOk, Instr.specA, FormA.wf, above])
  case pscanIllegal =>
    have above : ¬ f.field 3 0 < 11 := by omega
    exact wf_false_of_fieldsOk (by simp [Instr.fieldsOk, Instr.specA, FormA.wf, above])

end Sys2Proof.Proofs
end

section
/-! SUPPORT. The lanes of a position on the core: updates of the participating lanes as one update of every lane, checks
that pass, and positions whose lanes act in turn (03 R61, 10 R227). -/

namespace Sys2Proof.Proofs

open Sys2Proof.Machine Sys2Proof.Safety

/-! ### Participating lanes (03 R61) -/

theorem of_mem_activeLanes {s : State} {g : Guard} {p : Nat × Thread} (h : p ∈ activeLanes s g) :
    p.1 ∈ s.cur.lanes ∧ threadOf s p.1 = some p.2 ∧ guardOn g p.2.regs = true := by
  obtain ⟨listed, active⟩ := List.mem_filter.1 h
  obtain ⟨u, lane, found⟩ := List.mem_filterMap.1 listed
  obtain ⟨t, thread, rfl⟩ := Option.map_eq_some_iff.1 found
  exact ⟨lane, thread, active⟩

/-- The guard that a form without one has. -/
@[simp] theorem guardOn_always (neg : Bool) (r : Regs) : guardOn ⟨neg, 0⟩ r = true := rfl

theorem lanes_eq_activeLanes (s : State) : lanes s = activeLanes s ⟨false, 0⟩ :=
  (List.filter_eq_self.2 fun _ _ => guardOn_always _ _).symm

/-! ### The participating lanes changed -/

theorem mmod_congr {α : Type} {m : SMap α} {u : Nat} {f h : α → α} (same : ∀ x, mget m u = some x → f x = h x) :
    mmod m u f = mmod m u h := by
  induction m with
  | nil => rfl
  | cons p r ih =>
    obtain ⟨k, v⟩ := p
    by_cases key : u = k
    · simp [mmod, key, same v (by simp [mget, key])]
    · simp [mmod, key, ih fun x found => same x (by simpa [mget, key] using found)]

@[simp] theorem mmod_id {α : Type} (m : SMap α) (u : Nat) : mmod m u (fun x => x) = m := by
  induction m with
  | nil => rfl
  | cons p r ih =>
    simp only [mmod, ih]
    split <;> rfl

theorem mmod_of_none {α : Type} {m : SMap α} {u : Nat} (absent : mget m u = none) (f : α → α) : mmod m u f = m := by
  rw [mmod_congr (h := fun x => x) fun x found => by simp [absent] at found, mmod_id]

/-- A fold of changes to single threads changes the thread map alone. -/
theorem foldl_modThread_eq {β : Type} (key : β → Nat) (f : β → Thread → Thread) (l : List β) (s : State) :
    l.foldl (fun acc p => modThread acc (key p) (f p)) s
      = { s with work := { s.work with threads := l.foldl (fun m p => mmod m (key p) (f p)) s.work.threads } } := by
  induction l generalizing s with
  | nil => rfl
  | cons p r ih => rw [List.foldl_cons, ih]; rfl

/-- A change made from the thread found at a number, if it participates, is one that tests the guard itself. -/
theorem mmod_active (g : Guard) (f : Thread → Thread → Thread) {m : SMap Thread} {u : Nat} {t : Thread}
    (here : mget m u = some t) :
    (if guardOn g t.regs then mmod m u (f t) else m) = mmod m u fun x => if guardOn g x.regs then f x x else x := by
  have only (x : Thread) (found : mget m u = some x) : x = t := Option.some_inj.1 (found.symm.trans here)
  split
  next active => exact mmod_congr fun x found => by rw [only x found, if_pos active]
  next inactive => exact (mmod_id m u).symm.trans (mmod_congr fun x found => by rw [only x found, if_neg inactive])

theorem foldl_mmod_active (g : Guard) (f : Nat → Thread → Thread → Thread) (threads : SMap Thread) {us : List Nat}
    (nodup : us.Nodup) (m : SMap Thread) (same : ∀ u ∈ us, mget m u = mget threads u) :
    ((us.filterMap fun u => (mget threads u).map fun t => (u, t)).filter fun p => guardOn g p.2.regs).foldl
        (fun acc p => mmod acc p.1 (f p.1 p.2)) m
      = us.foldl (fun acc u => mmod acc u fun t => if guardOn g t.regs then f u t t else t) m := by
  rw [List.foldl_filter, List.foldl_filterMap]
  induction us generalizing m with
  | nil => rfl
  | cons u us ih =>
    obtain ⟨fresh, nodup⟩ := List.nodup_cons.1 nodup
    have here := same u List.mem_cons_self
    rw [List.foldl_cons, List.foldl_cons, ← ih nodup]
    · congr 1
      cases thread : mget threads u with
      | none => exact (mmod_of_none (here.trans thread) _).symm
      | some t => exact mmod_active g (f u) (here.trans thread)
    · intro v later
      have other : v ≠ u := fun e => fresh (e ▸ later)
      rw [mget_mmod, if_neg other]
      exact same v (List.mem_cons_of_mem u later)

/-- Changes to the participating lanes, each made from the thread as the position found it, are one update of every lane. -/
theorem foldl_activeLanes_eq_forLanes {s : State} (g : Guard) (f : Nat → Thread → Thread → Thread)
    (nodup : s.cur.lanes.Nodup) :
    (activeLanes s g).foldl (fun acc p => modThread acc p.1 (f p.1 p.2)) s
      = forLanes s fun u t => if guardOn g t.regs then f u t t else t := by
  rw [foldl_modThread_eq Prod.fst fun p => f p.1 p.2]
  exact congrArg (fun m => { s with work := { s.work with threads := m } })
    (foldl_mmod_active g f s.work.threads nodup s.work.threads fun _ _ => rfl)

theorem foldl_lanes_eq_forLanes {s : State} (f : Nat → Thread → Thread → Thread) (nodup : s.cur.lanes.Nodup) :
    (lanes s).foldl (fun acc p => modThread acc p.1 (f p.1 p.2)) s = forLanes s fun u t => f u t t := by
  simp only [lanes_eq_activeLanes, foldl_activeLanes_eq_forLanes _ f nodup, guardOn_always, if_true]

/-- Two folds whose steps agree while a part of the state stands, which the steps keep. -/
theorem foldl_congr_of_keeps {α β γ : Type} (part : α → γ) {f h : α → β → α} {a : α}
    (same : ∀ x b, part x = part a → f x b = h x b) (keeps : ∀ x b, part (h x b) = part x) (l : List β) :
    l.foldl f a = l.foldl h a := by
  induction l generalizing a with
  | nil => rfl
  | cons b r ih =>
    rw [List.foldl_cons, List.foldl_cons, same a b rfl]
    exact ih fun x c stands => same x c (stands.trans (keeps a b))

theorem onlyLanes_mono {s t : State} {R R' : Nat → Thread → Thread → Prop} (h : onlyLanes s t R)
    (weaker : ∀ u th th', u ∈ s.cur.lanes → threadOf s u = some th → R u th th' → R' u th th') : onlyLanes s t R' := by
  obtain ⟨lanes, others, rest⟩ := h
  refine ⟨fun u th lane found => ?_, others, rest⟩
  obtain ⟨th', after, changed⟩ := lanes u th lane found
  exact ⟨th', after, weaker u th th' lane found changed⟩

/-- An update of every participating lane, told of the threads that the bundle has. -/
theorem forLanes_active_onlyLanes {s : State} {g : Guard} {f : Nat → Thread → Thread}
    {R : Nat → Thread → Thread → Prop} (nodup : s.cur.lanes.Nodup)
    (on : ∀ u t, u ∈ s.cur.lanes → threadOf s u = some t → guardOn g t.regs = true → R u t (f u t))
    (off : ∀ u t, guardOn g t.regs = false → R u t t) :
    onlyLanes s (forLanes s fun u t => if guardOn g t.regs then f u t else t) R := by
  refine onlyLanes_mono (forLanes_onlyLanes s _ (fun u t t' => t' = if guardOn g t.regs then f u t else t) nodup
    fun _ _ => rfl) fun u t t' lane found changed => ?_
  rw [changed]
  split
  next active => exact on u t lane found active
  next inactive => exact off u t (Bool.eq_false_iff.2 inactive)

/-! ### Checks that pass (10 R227) -/

theorem worstPlan_of_names {plans : List Plan} (pass : ∀ p ∈ plans, ∃ m as, p = .names m as) : worstPlan plans = none := by
  induction plans with
  | nil => rfl
  | cons p r ih =>
    obtain ⟨m, as, rfl⟩ := pass p List.mem_cons_self
    exact ih fun q listed => pass q (List.mem_cons_of_mem _ listed)

theorem planFault_of_names (s : State) {plans : List Plan} (pass : ∀ p ∈ plans, ∃ m as, p = .names m as) :
    planFault s plans = none := by
  rw [planFault, worstPlan_of_names pass]

/-! ### Lanes in turn (03 R61) -/

theorem chain_foldl {α : Type} {R : State → α → State → Prop} {f : State → α → State} (step : ∀ a x, R a x (f a x))
    (l : List α) (a : State) : chain R l a (l.foldl f a) := by
  induction l generalizing a with
  | nil => rfl
  | cons x r ih => exact ⟨f a x, step a x, ih (f a x)⟩

theorem modThread_others (a : State) (u : Nat) (f : Thread → Thread) :
    ∀ v, v ≠ u → threadOf (modThread a u f) v = threadOf a v := fun v other =>
  (mget_mmod a.work.threads u v f).trans (if_neg other)

theorem threadOf_modThread_same {a : State} {u : Nat} {t : Thread} (found : threadOf a u = some t)
    (f : Thread → Thread) : threadOf (modThread a u f) u = some (f t) := by
  refine (mget_mmod a.work.threads u u f).trans ?_
  rw [if_pos rfl]
  exact congrArg (Option.map f) found

theorem modThread_putsWord (a : State) (u j : Nat) (d : Dst) (x : Word) :
    putsWord a u j d x (modThread a u (putWord j d x)) :=
  ⟨fun th found => ⟨_, threadOf_modThread_same found _, putWord_wrote j d x th⟩, modThread_others a u _, rfl⟩

theorem modThread_keepsWord (a : State) (u j : Nat) (d : Dst) : keepsWord a u j d (modThread a u (skipWord j d)) :=
  ⟨fun th found => ⟨_, threadOf_modThread_same found _, skipWord_skipped j d th⟩, modThread_others a u _, rfl⟩

theorem eachLane_inTurn (s : State) (g : Guard) (d : Dst) (act : State → Nat → Thread → State × Word) :
    inTurn s g d act s (eachLane s g d act) := by
  refine chain_foldl (fun a u => ?_) s.cur.lanes s
  unfold laneStep
  cases threadOf a u with
  | none => rfl
  | some th =>
    by_cases active : guardOn g th.regs = true
    · simp only [active, if_true]
      exact modThread_putsWord _ u _ d _
    · simp only [active]
      exact modThread_keepsWord a u _ d

/-- A form without conditions whose lanes act in turn. -/
theorem turnForm_of_eachLane {i : Instr} {g : Guard} {d : Dst} {act : State → State → Nat → Thread → State × Word}
    (arm : ∀ s, exec i s = .next (eachLane s g d (act s))) :
    turnForm i g d (fun _ => True) (fun s => s) (fun _ _ => True) act :=
  fun s _ _ _ => ⟨_, arm s, eachLane_inTurn s g d (act s)⟩

end Sys2Proof.Proofs
end

section
/-! PROOF of the statements on control flow, O26, O28, O29 and O30 (08 R171 to R176, R181 to R185, R187,
R191 to R195). -/

namespace Sys2Proof.Proofs

open Sys2Proof.Machine Sys2Proof.Safety

/-! ### O26 (08 R171 to R176, R181 to R183) -/

/-- A thread sent to a target (08 R171). -/
def sentTo (target : Nat) (t : Thread) : Thread := { t with ctl := { t.ctl with npc := some (target % 2 ^ 56) } }

theorem sentTo_of_lt {target : Nat} (small : target < 2 ^ 56) (t : Thread) :
    sentTo target t = { t with ctl := { t.ctl with npc := some target } } := by
  rw [sentTo, Nat.mod_eq_of_lt small]

theorem relTarget_lt (s : State) (off : BitVec 24) : relTarget s off < 2 ^ 56 := BitVec.isLt _

theorem relTarget_of_nonneg {s : State} {off : BitVec 24} (nonneg : 0 ≤ (s.cur.word : Int) + 4 * off.toInt) :
    relTarget s off = ((s.cur.word : Int) + 4 * off.toInt).toNat % 2 ^ 56 := by
  rw [relTarget, BitVec.toNat_ofInt, Int.toNat_emod nonneg (by decide)]
  rfl

theorem targetPlan_of_aligned {t : Nat} (aligned : t % 4 = 0) (small : t < 2 ^ 56) : targetPlan t = .names .device [] := by
  simp only [targetPlan, aligned, Nat.div_eq_of_lt small, ne_eq, not_true_eq_false, if_false]

theorem execBra_core {s : State} (f : FormB) (agent : s.cur.agent = .core) (nodup : s.cur.lanes.Nodup) :
    exec (.bra f) s
      = .next (forLanes s fun _ t => if guardOn f.x.guard t.regs then sentTo (relTarget s f.off) t else t) := by
  have arm : exec (.bra f) s = execBra f s := rfl
  rw [arm, execBra, agent]
  exact congrArg _ (foldl_activeLanes_eq_forLanes _ (fun _ _ => sentTo (relTarget s f.off)) nodup)

theorem execBrx_core {s : State} (f : FormA) (agent : s.cur.agent = .core) (nodup : s.cur.lanes.Nodup)
    (pass : ∀ p ∈ activeLanes s f.x.guard, targetPlan (srcPair p.2 .a f.a).toNat = .names .device []) :
    exec (.brx f) s = .next (forLanes s fun _ t =>
      if guardOn f.x.guard t.regs then sentTo (srcPair t .a f.a).toNat t else t) := by
  have arm : exec (.brx f) s = execBrx f s := rfl
  have noFault : planFault s ((activeLanes s f.x.guard).map fun p => targetPlan (srcPair p.2 .a f.a).toNat) = none :=
    planFault_of_names s <| List.forall_mem_map.2 fun p listed => ⟨_, _, pass p listed⟩
  simp only [arm, execBrx, agent, noFault]
  exact congrArg _ (foldl_activeLanes_eq_forLanes _ (fun _ t => sentTo (srcPair t .a f.a).toNat) nodup)

theorem execReform_eq {s : State} (f : FormA) (nodup : s.cur.lanes.Nodup) :
    exec (.reform f) s = .next (forLanes s fun _ t => if guardOn f.x.guard t.regs then
      { t with ctl := { t.ctl with key := (srcWord t .a f.a).toNat % 65536, refile := true } } else t) :=
  congrArg _ (foldl_activeLanes_eq_forLanes f.x.guard (fun _ t x => x.modCtl fun c =>
    { c with key := (srcWord t .a f.a).toNat % 65536, refile := true }) nodup)

theorem execYieldThread_eq {s : State} (nodup : s.cur.lanes.Nodup) :
    exec .yieldThread s = .next (forLanes s fun _ t => { t with ctl := { t.ctl with refile := true } }) :=
  congrArg _ (foldl_lanes_eq_forLanes (fun _ _ x => x.modCtl fun c => { c with refile := true }) nodup)

theorem execExitThread_core {s : State} (agent : s.cur.agent = .core) (nodup : s.cur.lanes.Nodup) :
    exec .exitThread s = .next (forLanes s fun _ t => { t with ctl := { t.ctl with leaving := true } }) := by
  have arm : exec .exitThread s = execExitThread s := rfl
  rw [arm, execExitThread, agent]
  exact congrArg _ (foldl_lanes_eq_forLanes (fun _ _ x => x.modCtl fun c => { c with leaving := true }) nodup)

/-- Settles O26: each form changes the control state of its lanes one by one. -/
theorem branches : Obligations.Branches := by
  refine ⟨fun f s agent nodup nonneg => ?bra, fun f s agent nodup targets => ?brx, fun f s _ nodup => ?reform,
    fun s _ nodup => ?yieldThread, fun s agent nodup => ?exitThread, fun s => rfl⟩
  case bra =>
    refine ⟨_, execBra_core f agent nodup, forLanes_onlyLanes s _ _ nodup fun _ t => ?_⟩
    rw [sentTo_of_lt (relTarget_lt s f.off), relTarget_of_nonneg nonneg]
  case brx =>
    refine ⟨_, execBrx_core f agent nodup fun p listed => ?_, forLanes_active_onlyLanes nodup
      (fun u t lane found active => ?_) fun _ _ inactive => (if_neg (Bool.eq_false_iff.1 inactive)).symm⟩
    · obtain ⟨lane, found, active⟩ := of_mem_activeLanes listed
      obtain ⟨aligned, small⟩ := targets p.1 p.2 lane found active
      exact targetPlan_of_aligned aligned small
    · rw [if_pos active, sentTo_of_lt (targets u t lane found active).2]
  case reform => exact ⟨_, execReform_eq f nodup, forLanes_onlyLanes s _ _ nodup fun _ _ => rfl⟩
  case yieldThread => exact ⟨_, execYieldThread_eq nodup, forLanes_onlyLanes s _ _ nodup fun _ _ => rfl⟩
  case exitThread => exact ⟨_, execExitThread_core agent nodup, forLanes_onlyLanes s _ _ nodup fun _ _ => rfl⟩

/-! ### O28 (08 R185, R187) -/

/-- What `REPEAT` makes of a thread: past the body at a count of 0, else in the first pass of its loop. -/
def repeated (s : State) (f : RepeatForm) (body : List Word) (count : Nat) (t : Thread) : Thread :=
  if count = 0 then sentTo (s.cur.stop + 4 * f.words.toNat) t
  else { t with ctl := { t.ctl with loop := some (startLoop s f count body), npc := some s.cur.stop } }

theorem takeRepeat_eq {s a : State} (f : RepeatForm) (body : List Word) (u : Nat) (t : Thread) (same : a.cur = s.cur) :
    takeRepeat a f body u t = modThread a u (repeated s f body (srcWord t .a f.count).toNat) := by
  have loop : startLoop a f = startLoop s f := by
    funext count body
    simp only [startLoop, same]
  by_cases zero : (srcWord t .a f.count).toNat = 0
  · rw [zero, takeRepeat, if_pos zero, same]
    rfl
  · rw [takeRepeat, if_neg zero, loop, same]
    exact congrArg (modThread a u) (funext fun _ => (if_neg zero).symm)

theorem foldl_takeRepeat {s : State} (f : RepeatForm) (body : List Word) (nodup : s.cur.lanes.Nodup) :
    (activeLanes s f.guard).foldl (fun acc p => takeRepeat acc f body p.1 p.2) s
      = forLanes s fun _ t =>
          if guardOn f.guard t.regs then repeated s f body (srcWord t .a f.count).toNat t else t := by
  rw [← foldl_activeLanes_eq_forLanes f.guard (fun _ t => repeated s f body (srcWord t .a f.count).toNat) nodup]
  exact foldl_congr_of_keeps State.cur (fun _ _ same => takeRepeat_eq f body _ _ same) (fun _ _ => rfl) _

/-- The largest count of the participating lanes. -/
def mostPasses (s : State) (f : RepeatForm) : Nat :=
  ((activeLanes s f.guard).map fun p => (srcWord p.2 .a f.count).toNat).foldl max 0

theorem execRepeatLoop_eq {s : State} (f : RepeatForm) {body : List Word} (nodup : s.cur.lanes.Nodup)
    (captured : (mostPasses s f = 0 ∧ body = []) ∨ (mostPasses s f ≠ 0 ∧ capture s f (mostPasses s f) = .ok body)) :
    exec (.repeatLoop f) s = .next (forLanes s fun _ t =>
      if guardOn f.guard t.regs then repeated s f body (srcWord t .a f.count).toNat t else t) := by
  have arm : exec (.repeatLoop f) s = execRepeatLoop f s := rfl
  have most : (activeLanes s f.guard).foldl (fun m p => max m (srcWord p.2 .a f.count).toNat) 0 = mostPasses s f :=
    List.foldl_map.symm
  rw [arm, execRepeatLoop, most, ← foldl_takeRepeat f body nodup]
  obtain ⟨zero, rfl⟩ | ⟨positive, words⟩ := captured
  · exact if_pos zero
  · simp only [if_neg positive, words]

/-- Settles O28: a thread at a count of 0 goes past the body, any other keeps the loop that the bundle's body gives. -/
theorem loops : Obligations.Loops := by
  intro f s ws agent nodup most captured
  refine ⟨_, execRepeatLoop_eq f nodup captured, forLanes_onlyLanes s _ _ nodup fun _ t => ?_⟩
  cases active : guardOn f.guard t.regs with
  | false => rfl
  | true =>
    by_cases zero : (srcWord t .a f.count).toNat = 0
    · simp [zero, repeated, sentTo]
    · simp only [zero, repeated, if_true, if_false, Bool.true_eq_false]
      exact ⟨_, rfl, rfl, rfl, rfl, rfl, rfl, rfl, rfl, rfl, rfl, rfl, rfl, rfl⟩

/-! ### O29 (08 R184, 14 R331) -/

theorem modCoach_current (s : State) (f : Coach → Coach) :
    coachOf (modCoach s s.cur.core f) s.cur.core = f (coachOf s s.cur.core)
      ∧ (∀ h, h ≠ s.cur.core → coachOf (modCoach s s.cur.core f) h = coachOf s h)
      ∧ modCoach s s.cur.core f = { s with coaches := (modCoach s s.cur.core f).coaches } :=
  ⟨by simp, fun h other => by simp [other], rfl⟩

theorem coachTarget_of_aligned (s go : State) {t : Nat} (aligned : t % 4 = 0) (small : t < 2 ^ 56) :
    coachTarget s t go = go := by
  rw [coachTarget, targetPlan_of_aligned aligned small]

section
variable {s : State}

theorem execBra_coachman (f : FormB) (agent : s.cur.agent = .coachman) :
    exec (.bra f) s = .next (modCoach s s.cur.core fun c =>
      if guardCoach f.x.guard c then { c with npc := some (relTarget s f.off) } else c) := by
  have arm : exec (.bra f) s = execBra f s := rfl
  rw [arm, execBra, agent]

theorem execBrx_coachman (f : FormA) (agent : s.cur.agent = .coachman)
    (active : guardCoach f.x.guard (coachOf s s.cur.core) = true)
    (aligned : (srcCoach (coachOf s s.cur.core) f.a).toNat % 4 = 0)
    (small : (srcCoach (coachOf s s.cur.core) f.a).toNat < 2 ^ 56) :
    exec (.brx f) s = .next (modCoach s s.cur.core fun c =>
      { c with npc := some (srcCoach (coachOf s s.cur.core) f.a).toNat }) := by
  have arm : exec (.brx f) s = execBrx f s := rfl
  simp only [arm, execBrx, agent, active, if_true, coachTarget_of_aligned s _ aligned small]

theorem execCall_coachman (f : FormB) (agent : s.cur.agent = .coachman)
    (active : guardCoach f.x.guard (coachOf s s.cur.core) = true) :
    exec (.call f) s = if 8 ≤ (coachOf s s.cur.core).stack.length then .next (faultAt s .protection s.cur.word)
      else .next (modCoach s s.cur.core fun c =>
        { c with stack := s.cur.stop :: c.stack, npc := some (relTarget s f.off) }) := by
  have arm : exec (.call f) s = execCall f s := rfl
  simp only [arm, execCall, agent, active, Bool.not_true, Bool.false_eq_true, if_false]

theorem execExitThread_coachman (agent : s.cur.agent = .coachman) : exec .exitThread s = .next (endProgram s) := by
  have arm : exec .exitThread s = execExitThread s := rfl
  rw [arm, execExitThread, agent]

theorem execRet_coachman_empty (agent : s.cur.agent = .coachman) (empty : (coachOf s s.cur.core).stack = []) :
    exec .ret s = .next (endProgram s) := by
  have arm : exec .ret s = execRet s := rfl
  simp only [arm, execRet, agent, empty]

theorem execRet_coachman_top (agent : s.cur.agent = .coachman) {x : Nat} {r : List Nat}
    (stack : (coachOf s s.cur.core).stack = x :: r) (aligned : x % 4 = 0) (small : x < 2 ^ 56) :
    exec .ret s = .next (modCoach s s.cur.core fun c => { c with stack := r, npc := some x }) := by
  have arm : exec .ret s = execRet s := rfl
  simp only [arm, execRet, agent, stack, coachTarget_of_aligned s _ aligned small]

end

/-- Settles O29: each form changes the Coachman of its core, or takes the fault of a full return stack. -/
theorem coachmanControl : Obligations.CoachmanControl := by
  refine ⟨fun f s agent => ⟨_, execBra_coachman f agent, modCoach_current s _⟩,
    fun f s agent active aligned small => ⟨_, execBrx_coachman f agent active aligned small, modCoach_current s _⟩,
    fun f s agent active => ⟨fun room => ?call, fun full => ?callFaults⟩,
    fun s agent => ⟨⟨_, execExitThread_coachman agent, modCoach_current s _⟩,
      fun empty => ⟨_, execRet_coachman_empty agent empty, modCoach_current s _⟩,
      fun x r stack aligned small => ⟨_, execRet_coachman_top agent stack aligned small, modCoach_current s _⟩⟩⟩
  case call =>
    exact ⟨_, (execCall_coachman f agent active).trans (if_neg (Nat.not_le.2 room)), modCoach_current s _⟩
  case callFaults => exact (execCall_coachman f agent active).trans (if_pos full)

/-! ### O30 (08 R191 to R195) -/

/-- `KDECL` declares on an idle or a withdrawn register. -/
theorem declareK_of_free {r : KReg} (free : r.state = .idle ∨ r.state = .withdrawn) (declared : BitVec 1024) :
    declareK r declared
      = ({ declared := declared, signed := 0, state := if declared = 0 then .signed else .declared }, .done) := by
  obtain state | state := free <;> simp only [declareK, state]

theorem declareK_of_busy {r : KReg} (busy : ¬(r.state = .idle ∨ r.state = .withdrawn)) (declared : BitVec 1024) :
    declareK r declared = (r, .busy) := by
  unfold declareK
  split
  next idle => exact absurd (.inl idle) busy
  next withdrawn => exact absurd (.inr withdrawn) busy
  next => rfl

theorem getLsbD_foldl_or {α : Type} (bit : α → Nat) (l : List α) (m : BitVec 1024) {n : Nat} (h : n < 1024) :
    (l.foldl (fun m p => m ||| BitVec.ofNat 1024 (2 ^ bit p)) m).getLsbD n = true
      ↔ m.getLsbD n = true ∨ ∃ p ∈ l, bit p = n := by
  induction l generalizing m with
  | nil => simp
  | cons p r ih =>
    rw [List.foldl_cons, ih, BitVec.getLsbD_or, BitVec.getLsbD_ofNat, Nat.testBit_two_pow]
    simp [h, or_assoc]

/-- A thread is declared where its gang and its number in the gang are selected and it has not exited. -/
theorem getLsbD_declaredSet (s : State) (b : Nat) (gangs threads : Word) {n : Nat} (h : n < 1024) :
    (declaredSet s b gangs threads).getLsbD n = true ↔ ∃ p ∈ threadsOfBlock s b, p.2.tid = n
      ∧ p.2.ctl.run ≠ .exited ∧ gangs.getLsbD (n / 32) = true ∧ threads.getLsbD (n % 32) = true := by
  rw [declaredSet, getLsbD_foldl_or _ _ _ h]
  simp only [List.mem_filter, BitVec.ofNat_eq_ofNat, BitVec.getLsbD_zero, Bool.and_eq_true, bne_iff_ne, ne_eq,
    Bool.false_eq_true, false_or]
  constructor
  · rintro ⟨p, ⟨listed, ⟨live, gang⟩, thread⟩, rfl⟩
    exact ⟨p, listed, rfl, live, gang, thread⟩
  · rintro ⟨p, listed, rfl, live, gang, thread⟩
    exact ⟨p, ⟨listed, ⟨live, gang⟩, thread⟩, rfl⟩

/-- Settles O30: the lanes act in turn, each on its register as the lanes before it left it. -/
theorem convergence : Obligations.Convergence := by
  refine ⟨fun f => ?kdecl, fun f => ?sign, fun s b gangs threads n small => getLsbD_declaredSet s b gangs threads small⟩
  case kdecl =>
    refine turnForm_of_eachLane fun s => congrArg (fun act => Host.Outcome.next (eachLane s f.x.guard f.dst act)) ?_
    funext a u t
    by_cases free : (kregOf a t.block (f.field 3 0)).state = .idle ∨ (kregOf a t.block (f.field 3 0)).state = .withdrawn
    · simp only [declareK_of_free free, if_pos free]
      rfl
    · simp only [declareK_of_busy free, if_neg free]
      rfl
  case sign =>
    refine turnForm_of_eachLane fun s => congrArg (fun act => Host.Outcome.next (eachLane s f.x.guard f.dst act)) ?_
    funext a u t
    obtain ⟨r, reg⟩ : ∃ r, kregOf a t.block (f.field 3 0) = r := ⟨_, rfl⟩
    simp only [signK, reg]
    cases listed : r.declared.getLsbD t.tid with
    | false => rfl
    | true =>
      cases state : r.state with
      | bound =>
        by_cases all : (r.signed ||| BitVec.ofNat 1024 (2 ^ t.tid)) &&& r.declared = r.declared
        · simp only [all, decide_true, if_true]
          rfl
        · simp only [all, decide_false, if_false]
          rfl
      | declared => simp only [decide_eq_true_eq]; rfl
      | idle => rfl
      | signed => rfl
      | withdrawn => rfl

end Sys2Proof.Proofs
end

section
/-! REFUTATION of the statement on calls, O27: a return slot in a memory that is not in canonical form (08 R178, log 3). -/

namespace Sys2Proof.Proofs

open Sys2Proof.Machine Sys2Proof.Safety

/-! ### O27: a byte that the memory lists twice -/

/-- A thread at depth 0: its return slot is bytes 0 to 7 of its L space. -/
def caller : Thread := { block := 1, tid := 0, slot := 0 }

/-- A `CALL` to its own base word, under no guard. -/
def plainCall : FormB :=
  { off := 0, x := { guard := ⟨false, 0⟩, ctr := 0, srcC := .reg 0, rnd := .rn, sat := false, mods := 0 } }

/-- The thread's clause under way, with return address 1008H. The core's TLB maps page 0, marked for L accesses, to frame 1,
and the device memory lists address 1002H twice. -/
def doubledState : State :=
  { cores := [(0, { tlb := [{ ctx := 1, vpn := 0, leaf := 0x102F, level := 3 }] })]
    mem := { device := [(0x1002, 7), (0x1002, 7)] }
    work := { threads := [(1024, caller)], blocks := [(1, { launch := 1, core := some 0 })]
              launches := [(1, { ctx := 1 })] }
    cur := { block := 1, lanes := [1024], addr := 0x1000, word := 0x1004, stop := 0x1008 } }

/-- The bytes of the return slot: words of a lane lie 128 bytes apart (09 R208). -/
def returnSlot : List Nat := [0x1000, 0x1001, 0x1002, 0x1003, 0x1080, 0x1081, 0x1082, 0x1083]

theorem planL_doubledState :
    planL doubledState caller { write := true } (8 * caller.ctl.depth) 8 = .names .device returnSlot := by decide +kernel

/-- Byte 2 of the return address is 0: the store takes one entry of 1002H out of the list, and the other one is read. -/
theorem readBytes_of_call_doubledState :
    ∀ t, exec (.call plainCall) doubledState = .next t → readBytes t .device returnSlot = 0x71008 := by
  have stored : (match exec (.call plainCall) doubledState with
      | .next t => readBytes t .device returnSlot
      | _ => 0) = 0x71008 := by decide +kernel
  intro t answer
  simpa only [answer] using stored

/-- Refutes O27: the statement asks no canonical form of the memory. Where the list of bytes holds an address of the return
slot twice, a byte 0 of the return address takes out the first entry alone and the slot reads otherwise. -/
theorem not_calls : ¬ Obligations.Calls := by
  unfold Obligations.Calls
  rintro ⟨call, -, -⟩
  have pass : allLanes doubledState plainCall.x.guard fun th => th.ctl.depth < 64
      ∧ ∃ m as, planL doubledState th { write := true } (8 * th.ctl.depth) 8 = .names m as := by
    intro u th lane found _
    obtain rfl := List.mem_singleton.1 lane
    obtain rfl : caller = th := Option.some_inj.1 found
    exact ⟨by decide, _, _, planL_doubledState⟩
  obtain ⟨t, answer, steps⟩ := call plainCall doubledState rfl pass
  have active : activeLanes doubledState plainCall.x.guard = [(1024, caller)] := rfl
  rw [active] at steps
  obtain ⟨m, called, rfl⟩ := steps
  obtain ⟨-, -, stored, -, -⟩ := called returnSlot planL_doubledState
  have claimed := stored (by decide) rfl (fun x _ => rfl)
  rw [readBytes_of_call_doubledState _ answer] at claimed
  exact absurd claimed (by decide)

end Sys2Proof.Proofs
end

section

/-! SUPPORT. For O59: the canonical form of the memories (`memWf`), through the results of the machine. In the blocks
that follow a function that makes a state has one lemma: that it leaves the form as it is (`memWf (f s …) ↔ memWf s`)
where it writes no byte, and that it keeps the form where it may write some. They are `simp` lemmas, so a function made
of others has its lemma from theirs; one that has a single place of use may be unfolded there instead. -/

namespace Sys2Proof.Proofs
open Sys2Proof.Machine Sys2Proof.Safety

/-- Where a result goes on, the memories are in form. -/
structure NextWf (r : Result) : Prop where
  of_eq : ∀ {t}, r = .next t → memWf t

/-- Where a state is given, its memories are in form. -/
structure SomeWf (o : Option State) : Prop where
  of_eq : ∀ {t}, o = some t → memWf t

/-- Where an act succeeds, the memories it leaves are in form. -/
structure OkWf {ε : Type} (q : Except ε State) : Prop where
  of_eq : ∀ {t}, q = .ok t → memWf t

theorem NextWf.next {t : State} (h : memWf t) : NextWf (.next t) := ⟨fun e => by cases e; exact h⟩

theorem SomeWf.some {t : State} (h : memWf t) : SomeWf (some t) := ⟨fun e => by cases e; exact h⟩

theorem OkWf.ok {ε : Type} {t : State} (h : memWf t) : OkWf (.ok t : Except ε State) :=
  ⟨fun e => by cases e; exact h⟩

@[simp] theorem nextWf_next (t : State) : NextWf (.next t) ↔ memWf t := ⟨fun w => w.of_eq rfl, .next⟩

@[simp] theorem nextWf_fault (x : Fault) : NextWf (.fault x) := ⟨nofun⟩

@[simp] theorem nextWf_refused (x : Refusal) : NextWf (.refused x) := ⟨nofun⟩

@[simp] theorem someWf_some (t : State) : SomeWf (some t) ↔ memWf t := ⟨fun w => w.of_eq rfl, .some⟩

@[simp] theorem someWf_none : SomeWf none := ⟨nofun⟩

@[simp] theorem okWf_ok {ε : Type} (t : State) : OkWf (.ok t : Except ε State) ↔ memWf t :=
  ⟨fun w => w.of_eq rfl, .ok⟩

@[simp] theorem okWf_error {ε : Type} (x : ε) : OkWf (.error x : Except ε State) := ⟨nofun⟩

/-! ### The memories of a state -/

/-- A state whose memories are in form: what a fold may be taken to start each of its rounds from. -/
abbrev WfState := { s : State // memWf s }

@[simp] theorem memWf_val (s : WfState) : memWf s.1 := s.2

/-- `memWf` of a state, as a property of its memories alone. -/
def BytesWf (m : Memories) : Prop :=
  Memory.wf m.device = true ∧ Memory.wf m.host = true ∧ Memory.wf m.pool = true

@[simp] theorem bytesWf_mem (s : State) : BytesWf s.mem ↔ memWf s := Iff.rfl

@[simp] theorem bytesWf_poisoned (m : Memories) (p : List Nat) :
    BytesWf { m with poisoned := p } ↔ BytesWf m := Iff.rfl

/-- An update of any field of the state but `mem` leaves the form as it is. -/
@[simp] theorem memWf_mk (a b c d e f g h i j k l m n o p q r t u v w x) :
    memWf ⟨a, b, c, d, e, f, g, h, i, j, k, l, m, n, o, p, q, r, t, u, v, w, x⟩ ↔ BytesWf n := Iff.rfl

theorem filter_wf {m : List Host.Cell} (p : Host.Cell → Bool) (h : Memory.wf m = true) :
    Memory.wf (m.filter p) = true := by
  rw [memory_wf_iff, msorted_iff] at h ⊢
  obtain ⟨sorted, cells⟩ := h
  exact ⟨sorted.sublist (List.filter_sublist.map _), fun c hc => cells c (List.mem_of_mem_filter hc)⟩

/-! ### Choices -/

@[simp] theorem memWf_ite (c : Prop) [Decidable c] (a b : State) :
    memWf (if c then a else b) ↔ if c then memWf a else memWf b := by
  split <;> rfl

@[simp] theorem nextWf_ite (c : Prop) [Decidable c] (a b : Result) :
    NextWf (if c then a else b) ↔ if c then NextWf a else NextWf b := by
  split <;> rfl

@[simp] theorem someWf_ite (c : Prop) [Decidable c] (a b : Option State) :
    SomeWf (if c then a else b) ↔ if c then SomeWf a else SomeWf b := by
  split <;> rfl

@[simp] theorem okWf_ite {ε : Type} (c : Prop) [Decidable c] (a b : Except ε State) :
    OkWf (if c then a else b) ↔ if c then OkWf a else OkWf b := by
  split <;> rfl

@[simp] theorem memWf_getD {o : Option State} {s : State} (ho : SomeWf o) (hs : memWf s) : memWf (o.getD s) := by
  cases o with
  | none => exact hs
  | some t => exact ho.of_eq rfl

@[simp] theorem nextWf_getD {o : Option Result} {r : Result} (ho : ∀ x, o = some x → NextWf x)
    (hs : NextWf r) : NextWf (o.getD r) := by
  cases o with
  | none => exact hs
  | some x => exact ho x rfl

@[simp] theorem someWf_map {β : Type} {o : Option β} {f : β → State} (h : ∀ x, memWf (f x)) :
    SomeWf (o.map f) := by
  cases o <;> simp [h]

theorem okWf_bind {α ε : Type} {x : Except ε α} {f : α → Except ε State}
    (h : ∀ a, x = .ok a → OkWf (f a)) : OkWf (x >>= f) := by
  cases x with
  | error e => exact okWf_error e
  | ok a => exact h a rfl

/-! ### Folds -/

@[simp] theorem foldl_memWf_iff {β : Type} {f : State → β → State} (h : ∀ a b, memWf (f a b) ↔ memWf a)
    {l : List β} {s : State} : memWf (l.foldl f s) ↔ memWf s :=
  iff_of_eq (foldl_keeps memWf f (fun a b => propext (h a b)) l s)

@[simp] theorem foldr_memWf_iff {β : Type} {f : β → State → State} (h : ∀ a b, memWf (f b a) ↔ memWf a)
    {l : List β} {s : State} : memWf (l.foldr f s) ↔ memWf s := by
  induction l with
  | nil => rfl
  | cons b r ih => exact (h _ b).trans ih

@[simp] theorem foldl_memWf {β : Type} {f : State → β → State} {l : List β} {s : State} (h : memWf s)
    (step : ∀ (a : WfState) b, memWf (f a b)) : memWf (l.foldl f s) := by
  induction l generalizing s with
  | nil => exact h
  | cons b r ih => exact ih (step ⟨s, h⟩ b)

@[simp] theorem foldl_fst_memWf {β γ : Type} {f : State × γ → β → State × γ} {l : List β} {p : State × γ}
    (h : memWf p.1) (step : ∀ (a : WfState) x b, memWf (f (a, x) b).1) : memWf (l.foldl f p).1 := by
  induction l generalizing p with
  | nil => exact h
  | cons b r ih => exact ih (step ⟨p.1, h⟩ p.2 b)

theorem foldl_okWf {β ε : Type} {f : Except ε State → β → Except ε State} {l : List β} {q : Except ε State}
    (h : OkWf q) (step : ∀ q b, OkWf q → OkWf (f q b)) : OkWf (l.foldl f q) := by
  induction l generalizing q with
  | nil => exact h
  | cons b r ih => exact ih (step q b h)

/-! ### Lists of events -/

/-- Every event of the list keeps the form. -/
def EventsKeep (l : List Due) : Prop := ∀ f ∈ l, ∀ s : WfState, NextWf (f s)

@[simp] theorem eventsKeep_nil : EventsKeep [] := nofun

@[simp] theorem eventsKeep_cons (f : Due) (l : List Due) :
    EventsKeep (f :: l) ↔ (∀ s : WfState, NextWf (f s)) ∧ EventsKeep l :=
  List.forall_mem_cons

@[simp] theorem eventsKeep_append (k l : List Due) : EventsKeep (k ++ l) ↔ EventsKeep k ∧ EventsKeep l :=
  List.forall_mem_append

@[simp] theorem eventsKeep_ite (c : Prop) [Decidable c] (k l : List Due) :
    EventsKeep (if c then k else l) ↔ if c then EventsKeep k else EventsKeep l := by
  split <;> rfl

@[simp] theorem eventsKeep_map {α : Type} (l : List α) (f : α → Due) :
    EventsKeep (l.map f) ↔ ∀ x ∈ l, ∀ s : WfState, NextWf (f x s) := List.forall_mem_map

@[simp] theorem eventsKeep_flatMap {α : Type} (l : List α) (f : α → List Due) :
    EventsKeep (l.flatMap f) ↔ ∀ x ∈ l, EventsKeep (f x) := by
  simp only [EventsKeep, List.mem_flatMap]
  exact ⟨fun h x hx g hg => h g ⟨x, hx, hg⟩, fun h g ⟨x, hx, hg⟩ => h x hx g hg⟩

end Sys2Proof.Proofs
end

section

/-! SUPPORT. For O59: what the named operations of the state, the directory and the translation leave of the form;
`writeCells` is the one that writes bytes. -/

namespace Sys2Proof.Proofs
open Sys2Proof.Machine Sys2Proof.Safety

variable {s : State}

/-! ### The updates of the state -/

@[simp] theorem memWf_modCore {g f} : memWf (modCore s g f) ↔ memWf s := Iff.rfl

@[simp] theorem memWf_modCoach {g f} : memWf (modCoach s g f) ↔ memWf s := Iff.rfl

@[simp] theorem memWf_modCluster {g f} : memWf (modCluster s g f) ↔ memWf s := Iff.rfl

@[simp] theorem memWf_modDie {d f} : memWf (modDie s d f) ↔ memWf s := Iff.rfl

@[simp] theorem memWf_modCtx {c f} : memWf (modCtx s c f) ↔ memWf s := Iff.rfl

@[simp] theorem memWf_modMore {c f} : memWf (modMore s c f) ↔ memWf s := Iff.rfl

@[simp] theorem memWf_modWork {f} : memWf (modWork s f) ↔ memWf s := Iff.rfl

@[simp] theorem memWf_modBlock {b f} : memWf (modBlock s b f) ↔ memWf s := Iff.rfl

@[simp] theorem memWf_modSync {b f} : memWf (modSync s b f) ↔ memWf s := Iff.rfl

@[simp] theorem memWf_modLaunch {l f} : memWf (modLaunch s l f) ↔ memWf s := Iff.rfl

@[simp] theorem memWf_modGroup {g f} : memWf (modGroup s g f) ↔ memWf s := Iff.rfl

@[simp] theorem memWf_modThread {u f} : memWf (modThread s u f) ↔ memWf s := Iff.rfl

@[simp] theorem memWf_forLanes {f} : memWf (forLanes s f) ↔ memWf s := Iff.rfl

@[simp] theorem memWf_writeWord {g d f} : memWf (writeWord s g d f) ↔ memWf s := Iff.rfl

@[simp] theorem memWf_writePair {g d f} : memWf (writePair s g d f) ↔ memWf s := Iff.rfl

@[simp] theorem memWf_writePred {g d f} : memWf (writePred s g d f) ↔ memWf s := Iff.rfl

@[simp] theorem memWf_writeCoach {g d f} : memWf (writeCoach s g d f) ↔ memWf s := Iff.rfl

@[simp] theorem memWf_advance {n} : memWf (advance s n) ↔ memWf s := Iff.rfl

/-! ### Lines, frames and the L2 -/

@[simp] theorem memWf_modLine {line f} : memWf (modLine s line f) ↔ memWf s := Iff.rfl

@[simp] theorem memWf_modFrame {f g} : memWf (modFrame s f g) ↔ memWf s := Iff.rfl

@[simp] theorem memWf_markRef {line} : memWf (markRef s line) ↔ memWf s := Iff.rfl

@[simp] theorem memWf_markDirty {ws} : memWf (markDirty s ws) ↔ memWf s := by simp [markDirty]

@[simp] theorem memWf_l2Drop {die line} : memWf (l2Drop s die line) ↔ memWf s := Iff.rfl

@[simp] theorem memWf_l2Fill {die line dirty} : memWf (l2Fill s die line dirty) ↔ memWf s := by
  unfold l2Fill
  dsimp only
  repeat' split
  all_goals simp

@[simp] theorem memWf_l2Trim {die} : memWf (l2Trim s die) ↔ memWf s := by
  refine foldl_memWf_iff fun a b => ?_
  split <;> simp

@[simp] theorem memWf_askBack {lines} : memWf (askBack s lines) ↔ memWf s := by simp [askBack]

@[simp] theorem memWf_engineReads {die lines} : memWf (engineReads s die lines) ↔ memWf s := by simp [engineReads]

/-! ### Writes of bytes, and the engines' TLBs -/

@[simp] theorem memWf_engineFill {x ctx vpn} : memWf (engineFill s x ctx vpn) ↔ memWf s := by
  unfold engineFill
  split <;> simp

@[simp] theorem memWf_engineUsed {x ctx rs} : memWf (engineUsed s x ctx rs) ↔ memWf s := by simp [engineUsed]

@[simp] theorem memWf_writeCells (h : memWf s) {m ws} : memWf (writeCells s m ws) := by
  obtain ⟨hd, hh, hp⟩ := id h
  cases m with
  | device => exact ⟨setCells_wf ws _ hd, hh, hp⟩
  | host => exact ⟨hd, setCells_wf ws _ hh, hp⟩
  | pool => exact ⟨hd, hh, setCells_wf ws _ hp⟩
  | scratch b => exact h
  | tob c => exact h
  | tile _ _ => exact h

@[simp] theorem memWf_addPoison {m sector} : memWf (addPoison s m sector) ↔ memWf s := by simp [addPoison]

@[simp] theorem memWf_clearPoison {m sector} : memWf (clearPoison s m sector) ↔ memWf s := Iff.rfl

@[simp] theorem memWf_writeBytes (h : memWf s) {m ws} : memWf (writeBytes s m ws) := by simp [writeBytes, h]

@[simp] theorem memWf_homeWriteNow (h : memWf s) {ws} : memWf (homeWriteNow s ws) := by simp [homeWriteNow, h]

@[simp] theorem memWf_homeWrite (h : memWf s) {ws} : memWf (homeWrite s ws) := by simp [homeWrite, h]

@[simp] theorem someWf_writeVirtual (h : memWf s) {ctx va bs} : SomeWf (writeVirtual s ctx va bs) := by
  unfold writeVirtual
  split <;> simp [h]

/-! ### Counters -/

@[simp] theorem memWf_countDieEvent {die code n} : memWf (countDieEvent s die code n) ↔ memWf s := by
  simp [countDieEvent]

@[simp] theorem memWf_countEvent {core code n} : memWf (countEvent s core code n) ↔ memWf s := by simp [countEvent]

end Sys2Proof.Proofs
end

section

/-! SUPPORT. For O59: traps, waits, completions and barriers keep the form. -/

namespace Sys2Proof.Proofs
open Sys2Proof.Machine Sys2Proof.Safety

variable {s : State}

/-! ### Event rings, faults, replay records and traps -/

@[simp] theorem memWf_blackBoxAdd {e} : memWf (blackBoxAdd s e) ↔ memWf s := Iff.rfl

@[simp] theorem memWf_notify {ctx} : memWf (notify s ctx) ↔ memWf s := Iff.rfl

@[simp] theorem memWf_structureFailedOn {die ctx addr} : memWf (structureFailedOn s die ctx addr) ↔ memWf s := by
  simp [structureFailedOn]

@[simp] theorem memWf_structureFailed {ctx addr} : memWf (structureFailed s ctx addr) ↔ memWf s := by
  simp [structureFailed]

@[simp] theorem memWf_startTrapLimit {e} : memWf (startTrapLimit s e) ↔ memWf s := by simp [startTrapLimit]

@[simp] theorem someWf_writeEvent (h : memWf s) {die e} : SomeWf (writeEvent s die e) := by
  unfold writeEvent
  split
  · simp
  · split
    · simp
    · next w => simpa using (someWf_writeVirtual h).of_eq w

@[simp] theorem memWf_holdEvent {die e} : memWf (holdEvent s die e) ↔ memWf s := Iff.rfl

@[simp] theorem memWf_addTrace {ctx kind addr} : memWf (addTrace s ctx kind addr) ↔ memWf s := by simp [addTrace]

@[simp] theorem memWf_appendEvent (h : memWf s) {die e} : memWf (appendEvent s die e) := by
  have traced : memWf (addTrace s e.ctx e.kind e.addr) := memWf_addTrace.2 h
  unfold appendEvent
  dsimp only
  split
  · simpa using h
  · split
    · next w => exact (someWf_writeEvent traced).of_eq w
    · simp [h]

@[simp] theorem memWf_enterFault {die e} : memWf (enterFault s die e) ↔ memWf s := Iff.rfl

@[simp] theorem memWf_enterAbsent {core ctx va access} : memWf (enterAbsent s core ctx va access) ↔ memWf s := by
  simp [enterAbsent]

@[simp] theorem memWf_countAbsent {r} : memWf (countAbsent s r) ↔ memWf s := by
  unfold countAbsent
  split <;> simp

@[simp] theorem someWf_placeRecord (h : memWf s) {ctx slot r} : SomeWf (placeRecord s ctx slot r) := by
  unfold placeRecord
  split
  · simp
  · next w =>
    have written := (someWf_writeVirtual h).of_eq w
    dsimp only
    split <;> simp [written]

@[simp] theorem memWf_takeRecord (h : memWf s) {ctx r} : memWf (takeRecord s ctx r) := by
  unfold takeRecord
  dsimp only
  split
  · simpa using h
  · split
    · simpa using h
    · split
      · next w => exact (someWf_placeRecord h).of_eq w
      · simpa using h

@[simp] theorem memWf_freeRecord {ctx slot} : memWf (freeRecord s ctx slot) ↔ memWf s := Iff.rfl

@[simp] theorem memWf_trapThreads (h : memWf s) {block uids resume words addr r} :
    memWf (trapThreads s block uids resume words addr r) := by
  simp [trapThreads, h]

@[simp] theorem memWf_dropBundle : memWf (dropBundle s) ↔ memWf s := Iff.rfl

@[simp] theorem memWf_deliver (h : memWf s) {r} : memWf (deliver s r) := by
  unfold deliver
  split <;> simp [restartableFault, coachFault, h]

@[simp] theorem memWf_faultAt (h : memWf s) {code addr} : memWf (faultAt s code addr) := by simp [faultAt, h]

/-! ### Bins, waits and their ends -/

@[simp] theorem memWf_enterBin {core u t} : memWf (enterBin s core u t) ↔ memWf s := Iff.rfl

@[simp] theorem memWf_fileThread {u} : memWf (fileThread s u) ↔ memWf s := by
  unfold fileThread
  split <;> simp

@[simp] theorem memWf_fileThreads {us} : memWf (fileThreads s us) ↔ memWf s := by simp [fileThreads]

@[simp] theorem memWf_drainQueue {core} : memWf (drainQueue s core) ↔ memWf s := by
  unfold drainQueue
  dsimp only
  repeat' split
  all_goals simp

@[simp] theorem memWf_unfile {core us} : memWf (unfile s core us) ↔ memWf s := Iff.rfl

@[simp] theorem memWf_skipLanes {g d} : memWf (skipLanes s g d) ↔ memWf s := by
  refine foldl_memWf_iff fun a b => ?_
  split <;> simp

@[simp] theorem memWf_eachLane (h : memWf s) {g} {d} {f : State → Nat → Thread → State × Word}
    (step : ∀ (a : WfState) u t, memWf (f a u t).1) : memWf (eachLane s g d f) := by
  refine foldl_memWf h fun a u => ?_
  dsimp only
  split <;> simp [step]

@[simp] theorem memWf_countTimeout {core st} : memWf (countTimeout s core st) ↔ memWf s := by simp [countTimeout]

@[simp] theorem memWf_escalate (h : memWf s) {block us resume site q} :
    memWf (escalate s block us resume site q) := by
  simp [escalate, h]

@[simp] theorem memWf_endWaitRegs {u w st val acquire more} :
    memWf (endWaitRegs s u w st val acquire more) ↔ memWf s := by
  unfold endWaitRegs
  split <;> simp

@[simp] theorem memWf_endWait (h : memWf s) {u w st val acquire more} :
    memWf (endWait s u w st val acquire more) := by
  unfold endWait
  dsimp only
  repeat' split
  all_goals simp [h]

@[simp] theorem memWf_endAtIssue {u d x esc st val acquire more} :
    memWf (endAtIssue s u d x esc st val acquire more) ↔ memWf s := by
  unfold endAtIssue
  split <;> simp

@[simp] theorem memWf_blockThread {u d x esc k} : memWf (blockThread s u d x esc k) ↔ memWf s := by
  unfold blockThread
  split <;> simp

@[simp] theorem memWf_blockOrExpire {u t d x esc k late val} :
    memWf (blockOrExpire s u t d x esc k late val) ↔ memWf s := by
  simp [blockOrExpire]

@[simp] theorem memWf_endCoachWait (h : memWf s) {core w st val more} :
    memWf (endCoachWait s core w st val more) := by
  unfold endCoachWait
  dsimp only
  split <;> simp [coachEscalate, h]

@[simp] theorem memWf_endCoachAtIssue (h : memWf s) {d x esc st val more} :
    memWf (endCoachAtIssue s d x esc st val more) := by
  simp [endCoachAtIssue, h]

@[simp] theorem memWf_blockCoach (h : memWf s) {d x esc k late val} : memWf (blockCoach s d x esc k late val) := by
  simp [blockCoach, h]

/-! ### Engine faults and the ends of commands, launches and rays -/

@[simp] theorem memWf_engineFault (h : memWf s) {ctx die unit location slot handle code detail} :
    memWf (engineFault s ctx die unit location slot handle code detail) := by
  simp [engineFault, h]

@[simp] theorem memWf_setSticky {u bit} : memWf (setSticky s u bit) ↔ memWf s := by
  unfold setSticky
  split <;> simp

@[simp] theorem memWf_rollbackExhausted (h : memWf s) {b w} : memWf (rollbackExhausted s b w) := by
  unfold rollbackExhausted
  dsimp only
  refine memWf_takeRecord ((foldl_memWf_iff fun _ _ => by simp).2 (foldl_memWf (memWf_unfile.2 h) fun a u => ?_))
  split <;> simp

@[simp] theorem memWf_consumePoison (h : memWf s) {u block w} : memWf (consumePoison s u block w) := by
  simp [consumePoison, h]

@[simp] theorem memWf_markLaunch {l st} : memWf (markLaunch s l st) ↔ memWf s := Iff.rfl

@[simp] theorem memWf_modBinner {b f} : memWf (modBinner s b f) ↔ memWf s := Iff.rfl

@[simp] theorem memWf_startFlush {b} : memWf (startFlush s b) ↔ memWf s := Iff.rfl

@[simp] theorem memWf_launchSettled {l} : memWf (launchSettled s l) ↔ memWf s := by simp [launchSettled]

@[simp] theorem memWf_launchDown {l} : memWf (launchDown s l) ↔ memWf s := by simp [launchDown]

@[simp] theorem memWf_ringPut {block ticket st code} : memWf (ringPut s block ticket st code) ↔ memWf s := Iff.rfl

@[simp] theorem memWf_dropBound {block ticket st} : memWf (dropBound s block ticket st) ↔ memWf s := Iff.rfl

@[simp] theorem memWf_postMatrix {m} : memWf (postMatrix s m) ↔ memWf s := Iff.rfl

@[simp] theorem memWf_postBound {block ticket} : memWf (postBound s block ticket) ↔ memWf s := by
  unfold postBound
  split <;> simp

@[simp] theorem memWf_engineConsumes (h : memWf s) {block w} : memWf (engineConsumes s block w) := by
  simp [engineConsumes, h]

@[simp] theorem memWf_completeMatrix (h : memWf s) {cluster entry st code detail} :
    memWf (completeMatrix s cluster entry st code detail) := by
  unfold completeMatrix
  split <;> simp [commandSticky, h]

@[simp] theorem memWf_modRays {l f} : memWf (modRays s l f) ↔ memWf s := Iff.rfl

@[simp] theorem memWf_holdRay (h : memWf s) {l id loc act} : memWf (holdRay s l id loc act) := by simp [holdRay, h]

@[simp] theorem memWf_clearExits {l id} : memWf (clearExits s l id) ↔ memWf s := by simp [clearExits]

@[simp] theorem memWf_closeRay (h : memWf s) {l id loc st code report} :
    memWf (closeRay s l id loc st code report) := by
  unfold closeRay
  dsimp only
  split
  · simp [h]
  · have written : memWf
        ((writeVirtual s (launchOf s l).ctx (raySlot s l id + 64) (rayStateBytes st code)).getD s) := by
      simp [h]
    split
    · exact memWf_engineFault (by simp [written])
    · simp [written]

@[simp] theorem memWf_completeRay (h : memWf s) {l id loc st code report} :
    memWf (completeRay s l id loc st code report) := by
  simp [completeRay, h]

@[simp] theorem memWf_closeRays (h : memWf s) {l} : memWf (closeRays s l) := by simp [closeRays, h]

/-! ### Barriers, checkpoints and the exit of a thread -/

@[simp] theorem memWf_setBarrier {id x} : memWf (setBarrier s id x) ↔ memWf s := by
  unfold setBarrier
  split <;> simp

@[simp] theorem memWf_setArrival {u id a} : memWf (setArrival s u id a) ↔ memWf s := Iff.rfl

@[simp] theorem memWf_setBlockArrivals {b id n} : memWf (setBlockArrivals s b id n) ↔ memWf s := by
  unfold setBlockArrivals
  split <;> simp

@[simp] theorem memWf_eraseBlockArrivals {b id} : memWf (eraseBlockArrivals s b id) ↔ memWf s := by
  unfold eraseBlockArrivals
  split <;> simp

@[simp] theorem memWf_setKreg {b k x} : memWf (setKreg s b k x) ↔ memWf s := Iff.rfl

@[simp] theorem memWf_checkKreg {b k} : memWf (checkKreg s b k) ↔ memWf s := by
  unfold checkKreg
  dsimp only
  repeat' split
  all_goals simp

@[simp] theorem memWf_blockCheck {b} : memWf (blockCheck s b) ↔ memWf s := by
  unfold blockCheck
  rw [memWf_modSync]
  exact foldl_memWf_iff fun _ _ => memWf_checkKreg

@[simp] theorem memWf_takeCheckpoint {b} : memWf (takeCheckpoint s b) ↔ memWf s := Iff.rfl

@[simp] theorem memWf_completeBarrier (h : memWf s) {id} : memWf (completeBarrier s id) := by
  unfold completeBarrier
  split <;> simp [h]

@[simp] theorem memWf_arriveCount {id} : memWf (arriveCount s id) ↔ memWf s := by simp [arriveCount]

@[simp] theorem memWf_exitCount {id arrived} : memWf (exitCount s id arrived) ↔ memWf s := by simp [exitCount]

@[simp] theorem memWf_arrive (h : memWf s) {u t id} : memWf (arrive s u t id) := by simp [arrive, h]

@[simp] theorem memWf_exitBarrier (h : memWf s) {t id} : memWf (exitBarrier s t id) := by
  unfold exitBarrier
  dsimp only
  repeat' split
  all_goals simp [h]

@[simp] theorem memWf_blockLeaves (h : memWf s) {b} : memWf (blockLeaves s b) := by
  refine foldl_memWf h fun a id => ?_
  split <;> simp

@[simp] theorem memWf_exitSummary {t} : memWf (exitSummary s t) ↔ memWf s := by simp [exitSummary]

@[simp] theorem memWf_collectCall {b slot u} : memWf (collectCall s b slot u) ↔ memWf s := Iff.rfl

@[simp] theorem memWf_hitExit (h : memWf s) {t st code} : memWf (hitExit s t st code) := by
  unfold hitExit
  split <;> simp [h]

@[simp] theorem memWf_exitThreadWith (h : memWf s) {u st code} : memWf (exitThreadWith s u st code) := by
  unfold exitThreadWith
  split
  · exact h
  · split
    · exact h
    · refine memWf_hitExit (foldl_memWf (foldl_memWf ?_ fun _ _ => by simp) fun _ _ => by simp)
      simp [h]

@[simp] theorem memWf_exitThreadNow (h : memWf s) {u} : memWf (exitThreadNow s u) := by simp [exitThreadNow, h]

@[simp] theorem memWf_settleCheckpoint {b} : memWf (settleCheckpoint s b) ↔ memWf s := by simp [settleCheckpoint]

end Sys2Proof.Proofs
end

section

/-! SUPPORT. For O59: accesses keep the form. -/

namespace Sys2Proof.Proofs
open Sys2Proof.Machine Sys2Proof.Safety

variable {s : State}

/-! ### Copies of lines in the L1s -/

@[simp] theorem memWf_dropCopy {core line} : memWf (dropCopy s core line) ↔ memWf s := by simp [dropCopy]

@[simp] theorem memWf_dropClusterCopies {cluster line} : memWf (dropClusterCopies s cluster line) ↔ memWf s :=
  foldl_memWf_iff fun _ _ => by simp

@[simp] theorem memWf_changeL1 {g f} : memWf (changeL1 s g f) ↔ memWf s := by simp [changeL1]

@[simp] theorem memWf_flushL1 {g} : memWf (flushL1 s g) ↔ memWf s := by simp [flushL1]

@[simp] theorem memWf_fillCopy {core ctx line} : memWf (fillCopy s core ctx line) ↔ memWf s := by simp [fillCopy]

@[simp] theorem memWf_applyWrite (h : memWf s) {die ws} : memWf (applyWrite s die ws) := by simp [applyWrite, h]

@[simp] theorem memWf_dropWritten {core ws} : memWf (dropWritten s core ws) ↔ memWf s := by simp [dropWritten]

@[simp] theorem memWf_raiseWh {u t} : memWf (raiseWh s u t) ↔ memWf s := Iff.rfl

@[simp] theorem memWf_raiseFloorTo {u t} : memWf (raiseFloorTo s u t) ↔ memWf s := Iff.rfl

/-! ### Accesses: issue, service and end -/

@[simp] theorem someWf_planFault (h : memWf s) {plans} : SomeWf (planFault s plans) := by
  unfold planFault
  split <;> simp [h]

@[simp] theorem memWf_issueRequests {proto reqs} : memWf (issueRequests s proto reqs) ↔ memWf s := by
  simp [issueRequests]

@[simp] theorem memWf_noteFrames {u ws} : memWf (noteFrames s u ws) ↔ memWf s := Iff.rfl

@[simp] theorem memWf_holdClause {wait} : memWf (holdClause s wait) ↔ memWf s := Iff.rfl

@[simp] theorem memWf_holdUntilSettled {g x} : memWf (holdUntilSettled s g x) ↔ memWf s := Iff.rfl

@[simp] theorem memWf_modAccess {i f} : memWf (modAccess s i f) ↔ memWf s := Iff.rfl

@[simp] theorem memWf_dropAccess {i} : memWf (dropAccess s i) ↔ memWf s := Iff.rfl

@[simp] theorem memWf_countDown {a} : memWf (countDown s a) ↔ memWf s := by simp [countDown]

@[simp] theorem memWf_consumeLane (h : memWf s) {block bad u} : memWf (consumeLane s block bad u) := by
  simp [consumeLane, h]

@[simp] theorem memWf_consumeRequest (h : memWf s) {a bad r} : memWf (consumeRequest s a bad r) := by
  simp [consumeRequest, h]

@[simp] theorem memWf_finishLoad (h : memWf s) {a src} : memWf (finishLoad s a src) := by simp [finishLoad, h]

@[simp] theorem memWf_refuse {a} : memWf (refuse s a) ↔ memWf s := by simp [refuse]

@[simp] theorem memWf_finishTile (h : memWf s) {a} : memWf (finishTile s a) := by
  unfold finishTile
  simp only [memWf_dropAccess, memWf_countDown]
  refine foldl_memWf h fun t r => ?_
  split <;> simp

@[simp] theorem memWf_privateLines {a dirty} : memWf (privateLines s a dirty) ↔ memWf s := by
  simp [privateLines, privateLine]

@[simp] theorem memWf_serveLoad (h : memWf s) {a} : memWf (serveLoad s a) := by
  unfold serveLoad
  dsimp only
  repeat' split
  all_goals simp [h]

@[simp] theorem memWf_noteAhead {a c} : memWf (noteAhead s a c) ↔ memWf s := by simp [noteAhead]

@[simp] theorem memWf_serveStore (h : memWf s) {a} : memWf (serveStore s a) := by simp [serveStore, h]

@[simp] theorem memWf_untag {m ws} : memWf (untag s m ws) ↔ memWf s := by
  unfold untag
  split <;> simp

@[simp] theorem memWf_portWrite (h : memWf s) {m ws} : memWf (portWrite s m ws) := by simp [portWrite, h]

@[simp] theorem memWf_finishStore (h : memWf s) {a} : memWf (finishStore s a) := by simp [finishStore, h]

@[simp] theorem memWf_serveAtomic (h : memWf s) {a} : memWf (serveAtomic s a) := by simp [serveAtomic, applyAtomic, h]

@[simp] theorem memWf_finishAtomic (h : memWf s) {a} : memWf (finishAtomic s a) := by simp [finishAtomic, h]

@[simp] theorem memWf_finishResult {a} : memWf (finishResult s a) ↔ memWf s := by simp [finishResult]

@[simp] theorem memWf_atLine (h : memWf s) {a} {serve : State → Access → State} (hs : memWf (serve s a)) :
    memWf (atLine s a serve) := by
  simp [atLine, h, hs]

@[simp] theorem memWf_serveAccess (h : memWf s) {a} : memWf (serveAccess s a) := by
  unfold serveAccess
  split <;> simp [h]

@[simp] theorem memWf_performCreated (h : memWf s) {g} {which : Access → Bool} :
    memWf (performCreated s g which) := by
  refine foldl_memWf h fun a i => ?_
  split <;> simp

@[simp] theorem memWf_holdForRelease (h : memWf s) {g x} : memWf (holdForRelease s g x) := by simp [holdForRelease, h]

@[simp] theorem memWf_settleOwn (h : memWf s) {g} : memWf (settleOwn s g) := by simp [settleOwn, h]

/-! ### Poisoned operands -/

@[simp] theorem memWf_consumeBad (h : memWf s) {i} : memWf (consumeBad s i) :=
  foldl_memWf h fun _ _ => memWf_consumeLane (memWf_val _)

end Sys2Proof.Proofs
end

section

/-! SUPPORT. For O59: the instruction forms of cores and Coachmen keep the form. -/

namespace Sys2Proof.Proofs
open Sys2Proof.Machine Sys2Proof.Safety

variable {s : State}

/-! ### Branches, calls, loops and the K registers -/

@[simp] theorem memWf_setNpc {u target} : memWf (setNpc s u target) ↔ memWf s := Iff.rfl

@[simp] theorem nextWf_execBra (h : memWf s) {f} : NextWf (execBra f s) := by
  unfold execBra
  split <;> simp [h]

@[simp] theorem memWf_coachTarget (h : memWf s) {t} {go : State} (hg : memWf go) : memWf (coachTarget s t go) := by
  unfold coachTarget
  split <;> simp [h, hg]

@[simp] theorem nextWf_execBrx (h : memWf s) {f} : NextWf (execBrx f s) := by
  unfold execBrx
  split
  · dsimp only
    split
    · next w => exact .next ((someWf_planFault h).of_eq w)
    · simp [h]
  · simp [h]

@[simp] theorem memWf_takeCall (h : memWf s) {u t target} : memWf (takeCall s u t target) := by
  unfold takeCall
  split <;> simp [storeSlot, h]

@[simp] theorem nextWf_execCall (h : memWf s) {f} : NextWf (execCall f s) := by
  unfold execCall
  split
  · dsimp only
    split
    · next w => exact .next ((someWf_planFault h).of_eq w)
    · simp [h]
  · simp [h]

@[simp] theorem nextWf_execCallx (h : memWf s) {f} : NextWf (execCallx f s) := by
  unfold execCallx
  dsimp only
  split
  · next w => exact .next ((someWf_planFault h).of_eq w)
  · refine .next (foldl_memWf (by simp [h]) fun a p => ?_)
    split <;> simp

@[simp] theorem memWf_leaveThread {u} : memWf (leaveThread s u) ↔ memWf s := Iff.rfl

@[simp] theorem memWf_takeRet (h : memWf s) {u t} : memWf (takeRet s u t) := by simp [takeRet, h]

@[simp] theorem memWf_endProgram : memWf (endProgram s) ↔ memWf s := Iff.rfl

@[simp] theorem nextWf_execRet (h : memWf s) : NextWf (execRet s) := by
  unfold execRet
  split
  · dsimp only
    split
    · next w => exact .next ((someWf_planFault h).of_eq w)
    · simp [h]
  · split <;> simp [h]

@[simp] theorem nextWf_execExitThread (h : memWf s) : NextWf (execExitThread s) := by
  unfold execExitThread
  split <;> simp [h]

@[simp] theorem nextWf_execRepeatLoop (h : memWf s) {f} : NextWf (execRepeatLoop f s) := by
  unfold execRepeatLoop
  dsimp only
  repeat' split
  all_goals simp [takeRepeat, h]

@[simp] theorem memWf_signK {b k tid} : memWf (signK s b k tid).1 ↔ memWf s := by
  unfold signK
  dsimp only
  repeat' split
  all_goals simp

/-! ### Barrier forms -/

@[simp] theorem memWf_barrierForm (h : memWf s) {g} {scope i} {act : State} (ha : memWf act) :
    memWf (barrierForm s g scope i act) := by
  simp [barrierForm, h, ha]

@[simp] theorem memWf_baraLane (h : memWf s) {scope i u t} : memWf (baraLane scope i s u t).1 := by
  unfold baraLane
  dsimp only
  split <;> simp [h]

@[simp] theorem nextWf_execBara (h : memWf s) {f} : NextWf (execBara f s) :=
  .next (memWf_barrierForm h (memWf_eachLane (by simp [h]) fun _ _ _ => by simp))

@[simp] theorem memWf_barwLane {f scope i u} : memWf (barwLane f scope i s u) ↔ memWf s := by
  unfold barwLane
  dsimp only
  repeat' split
  all_goals simp

@[simp] theorem memWf_barsArrive {acc : State × List (Nat × Bool × Nat)} (h : memWf acc.1) {scope i u} :
    memWf (barsArrive scope i acc u).1 := by
  unfold barsArrive
  split
  · exact h
  · dsimp only; split <;> simp [h]

@[simp] theorem memWf_barsPoint {start : State} {scope i} {q : State × List (Nat × Bool × Nat)} (h : memWf q.1) :
    memWf (barsPoint start scope i q) := by
  simp [barsPoint, h]

@[simp] theorem memWf_barsWait {f scope i u rejected phase} :
    memWf (barsWait f scope i s u rejected phase) ↔ memWf s := by
  unfold barsWait
  split <;> simp

@[simp] theorem memWf_barsLanes (h : memWf s) {f} : memWf (barsLanes f s) := by
  have arrived : memWf ((activeLanes s f.x.guard).foldl
      (fun acc p => barsArrive (f.field 5 4) (f.field 3 0) acc p.1) (s, [])).1 :=
    foldl_fst_memWf h fun _ _ _ => memWf_barsArrive (memWf_val _)
  exact foldl_memWf (memWf_barsPoint arrived) fun _ _ => by simp

@[simp] theorem memWf_barxLane {scope i u t} : memWf (barxLane scope i s u t).1 ↔ memWf s := by
  unfold barxLane
  dsimp only
  split <;> simp [withdraw, withdrawCount]

/-! ### Integer forms -/

@[simp] theorem memWf_aluForm {f op} : memWf (aluForm s f op) ↔ memWf s := by
  unfold aluForm
  split <;> simp

@[simp] theorem memWf_wordForm {f op} : memWf (wordForm s f op) ↔ memWf s := Iff.rfl

@[simp] theorem nextWf_execAddc (h : memWf s) {f} : NextWf (execAddc f s) := by
  unfold execAddc
  split <;> simp [h]

@[simp] theorem nextWf_execIset (h : memWf s) {f} : NextWf (execIset f s) := by
  unfold execIset
  split <;> simp [h]

@[simp] theorem nextWf_execMovi (h : memWf s) {f} : NextWf (execMovi f s) := by
  unfold execMovi
  split <;> simp [h]

@[simp] theorem nextWf_execMovh (h : memWf s) {f} : NextWf (execMovh f s) := by
  unfold execMovh
  split <;> simp [h]

/-! ### Floating forms -/

@[simp] theorem memWf_f32Form {f op} : memWf (f32Form s f op) ↔ memWf s := Iff.rfl

@[simp] theorem memWf_packedForm {k f op} : memWf (packedForm s k f op) ↔ memWf s := Iff.rfl

@[simp] theorem memWf_classOne {f val} : memWf (classOne s f val) ↔ memWf s := Iff.rfl

@[simp] theorem memWf_specialForm {f op} : memWf (specialForm s f op) ↔ memWf s := Iff.rfl

/-! ### Lane-exchange forms -/

@[simp] theorem memWf_exchange {f val} : memWf (exchange s f val) ↔ memWf s := Iff.rfl

/-! ### Matrix forms -/

@[simp] theorem memWf_keepReserved {b} : memWf (keepReserved s b) ↔ memWf s := by
  unfold keepReserved
  split <;> simp

@[simp] theorem memWf_bindCommand {k m} : memWf (bindCommand s k m) ↔ memWf s := by
  unfold bindCommand
  dsimp only
  split <;> simp

@[simp] theorem memWf_postingForm (h : memWf s) {f op bad fill} : memWf (postingForm s f op bad fill) := by
  unfold postingForm
  dsimp only
  repeat' split
  all_goals simp [takeTicket, h]

@[simp] theorem memWf_multiplyForm (h : memWf s) {f op} : memWf (multiplyForm s f op) := by simp [multiplyForm, h]

@[simp] theorem memWf_reserve {b tiles n prio} : memWf (reserve s b tiles n prio).1 ↔ memWf s := by
  unfold reserve
  dsimp only
  split <;> simp [clearTiles]

@[simp] theorem memWf_release {b tiles n} : memWf (release s b tiles n).1 ↔ memWf s := by
  unfold release
  dsimp only
  split <;> simp

@[simp] theorem memWf_oncePerBundle (h : memWf s) {f} {act : State → Thread → State × Status}
    (ha : ∀ (a : WfState) t, memWf (act a t).1) : memWf (oncePerBundle s f act) := by
  unfold oncePerBundle
  split
  · simp [h]
  · next t _ _ => 
    have : memWf (act (keepReserved s t.block) t).1 := ha ⟨_, memWf_keepReserved.2 h⟩ t
    simp [this]

@[simp] theorem memWf_mwaitLane {f u t} : memWf (mwaitLane s f u t) ↔ memWf s := by
  unfold mwaitLane
  dsimp only
  split <;> simp

/-! ### Copy, transaction-barrier and circular-buffer forms -/

@[simp] theorem memWf_coachAct (h : memWf s) {g} {d} {f : Coach → State × DWord}
    (hf : ∀ c, memWf (f c).1) : memWf (coachAct s g d f) := by
  simp [coachAct, h, hf]

@[simp] theorem memWf_setTb {core i b} : memWf (setTb s core i b) ↔ memWf s := Iff.rfl

@[simp] theorem memWf_readTb (h : memWf s) {core i u block} : memWf (readTb s core i u block) := by simp [readTb, h]

@[simp] theorem memWf_tbForm (h : memWf s) {f whole act} : memWf (tbForm s f whole act) := by
  unfold tbForm
  split <;> simp [putTb, h]

@[simp] theorem memWf_tbwLane (h : memWf s) {f u t} : memWf (tbwLane s f u t) := by
  unfold tbwLane
  dsimp only
  split <;> simp [h]

@[simp] theorem nextWf_execTbw (h : memWf s) {f} : NextWf (execTbw f s) := by
  unfold execTbw
  dsimp only
  repeat' split
  all_goals simp [h]

@[simp] theorem memWf_copyForm (h : memWf s) {op f} : memWf (copyForm s op f) := by
  unfold copyForm
  dsimp only
  repeat' split
  all_goals simp [postCopy, h]

@[simp] theorem nextWf_execCpw (h : memWf s) {f} : NextWf (execCpw f s) := by
  unfold execCpw
  dsimp only
  repeat' split
  all_goals simp [h]

@[simp] theorem memWf_setCbuf {core i b} : memWf (setCbuf s core i b) ↔ memWf s := Iff.rfl

@[simp] theorem memWf_cbgetLane {f u t} : memWf (cbgetLane s f u t) ↔ memWf s := by
  unfold cbgetLane
  dsimp only
  split <;> simp

@[simp] theorem nextWf_execCbputInit (h : memWf s) {f} : NextWf (execCbputInit f s) := by
  unfold execCbputInit
  split <;> simp [h]

/-! ### Loads, stores, atomics and fences -/

@[simp] theorem memWf_loadForm (h : memWf s) {sp f} : memWf (loadForm s sp f) := by
  unfold loadForm
  dsimp only
  split
  · next w => exact (someWf_planFault h).of_eq w
  · simp [h]

@[simp] theorem memWf_storeForm (h : memWf s) {sp f} : memWf (storeForm s sp f) := by
  unfold storeForm
  dsimp only
  split
  · next w => exact (someWf_planFault h).of_eq w
  · simp [h]

@[simp] theorem memWf_atomForm (h : memWf s) {sp f} : memWf (atomForm s sp f) := by
  unfold atomForm
  dsimp only
  split
  · next w => exact (someWf_planFault h).of_eq w
  · simp [h]

@[simp] theorem memWf_redForm (h : memWf s) {sp f} : memWf (redForm s sp f) := by
  unfold redForm
  dsimp only
  split
  · next w => exact (someWf_planFault h).of_eq w
  · simp [h]

@[simp] theorem memWf_readBlocking {core ctx sp acq floors r} :
    memWf (readBlocking s core ctx sp acq floors r).1 ↔ memWf s := by
  unfold readBlocking
  dsimp only
  repeat' split
  all_goals simp

@[simp] theorem memWf_blockLane (h : memWf s) {sp f floors u t r} : memWf (blockLane s sp f floors u t r) := by
  simp [blockLane, h]

@[simp] theorem memWf_blockForm (h : memWf s) {sp f} : memWf (blockForm s sp f) := by
  unfold blockForm
  dsimp only
  split
  · next w => exact (someWf_planFault h).of_eq w
  · simp [h]

@[simp] theorem memWf_orderAhead {u block classes scope done} :
    memWf (orderAhead s u block classes scope done) ↔ memWf s := by
  simp [orderAhead]

@[simp] theorem memWf_prefLane {f t} : memWf (prefLane s f t) ↔ memWf s := by
  unfold prefLane
  dsimp only
  repeat' split
  all_goals simp

@[simp] theorem nextWf_execFence (h : memWf s) {f} : NextWf (execFence f s) := by
  unfold execFence
  split <;> simp [fenceLane, fenceCoach, h]

end Sys2Proof.Proofs
end

section

/-! SUPPORT. For O59: cancels and clauses keep the form. -/

namespace Sys2Proof.Proofs
open Sys2Proof.Machine Sys2Proof.Safety

variable {s : State}

/-! ### What a cancel does to each level of work -/

@[simp] theorem memWf_completeCopy (h : memWf s) {c st code detail} : memWf (completeCopy s c st code detail) := by
  unfold completeCopy
  dsimp only
  repeat' split
  all_goals simp [flagTb, h]

@[simp] theorem memWf_dropBounds {b st} : memWf (dropBounds s b st) ↔ memWf s := by simp [dropBounds]

@[simp] theorem memWf_cancelEntry (h : memWf s) {cluster i e} : memWf (cancelEntry s cluster i e) := by
  simp [cancelEntry, h]

@[simp] theorem memWf_cancelMatrix (h : memWf s) {b} {keep : MatEntry → Bool} : memWf (cancelMatrix s b keep) := by
  refine foldl_memWf h fun a c => foldl_memWf a.2 fun a e => ?_
  split <;> simp

@[simp] theorem memWf_cancelCopies (h : memWf s) {b} {keep : CopyCmd → Bool} : memWf (cancelCopies s b keep) := by
  refine foldl_memWf h fun a p => foldl_memWf a.2 fun a c => ?_
  split <;> simp

@[simp] theorem memWf_cancelCoach {b} : memWf (cancelCoach s b) ↔ memWf s := Iff.rfl

@[simp] theorem memWf_dropWorks {ctx gone} : memWf (dropWorks s ctx gone) ↔ memWf s := by simp [dropWorks]

@[simp] theorem memWf_dropRecords {ctx b} : memWf (dropRecords s ctx b) ↔ memWf s := by simp [dropRecords]

@[simp] theorem memWf_cancelLoad {u t} : memWf (cancelLoad s u t) ↔ memWf s := by
  unfold cancelLoad
  split
  · rfl
  · split <;> simp

@[simp] theorem memWf_cancelThread (h : memWf s) {u} : memWf (cancelThread s u) := by
  unfold cancelThread
  split <;> simp [h]

@[simp] theorem memWf_cancelBlock (h : memWf s) {b} : memWf (cancelBlock s b) := by
  unfold cancelBlock
  dsimp only
  split
  · exact h
  · simp only [memWf_dropRecords, memWf_cancelCoach]
    refine memWf_cancelCopies (memWf_cancelMatrix ?_)
    simp [h]

@[simp] theorem memWf_cancelRays (h : memWf s) {l} : memWf (cancelRays s l) := by simp [cancelRays, h]

@[simp] theorem memWf_cancelPrims {l} : memWf (cancelPrims s l) ↔ memWf s := by simp [cancelPrims, dropRaster]

@[simp] theorem memWf_cancelLaunch (h : memWf s) {l} : memWf (cancelLaunch s l) := by simp [cancelLaunch, h]

@[simp] theorem memWf_cancelGroup (h : memWf s) {b} : memWf (cancelGroup s b) := by
  unfold cancelGroup
  split <;> simp [h]

@[simp] theorem memWf_modReplay {ctx hd f} : memWf (modReplay s ctx hd f) ↔ memWf s := Iff.rfl

@[simp] theorem memWf_cancelReplay (h : memWf s) {ctx hd} : memWf (cancelReplay s ctx hd) := by
  unfold cancelReplay
  split
  · exact h
  · split
    · exact h
    · refine foldl_memWf (by simp [h]) fun a n => ?_
      split <;> simp

@[simp] theorem memWf_modRecord {ctx hd f} : memWf (modRecord s ctx hd f) ↔ memWf s := Iff.rfl

@[simp] theorem memWf_cancelRecordWork (h : memWf s) {ctx r} : memWf (cancelRecordWork s ctx r) := by
  unfold cancelRecordWork
  dsimp only
  repeat' split
  all_goals simp [h]

@[simp] theorem memWf_modPhase {ctx key f} : memWf (modPhase s ctx key f) ↔ memWf s := Iff.rfl

@[simp] theorem memWf_cancelRecords (h : memWf s) {ctx} {p : Record → Bool} : memWf (cancelRecords s ctx p) :=
  foldl_memWf h fun _ _ => memWf_cancelRecordWork (memWf_val _)

@[simp] theorem memWf_cancelPhase (h : memWf s) {ctx key} : memWf (cancelPhase s ctx key) := by simp [cancelPhase, h]

@[simp] theorem memWf_cancelMarked (h : memWf s) {ctx key} : memWf (cancelMarked s ctx key) := by
  simp [cancelMarked, h]

@[simp] theorem memWf_cancelJob (h : memWf s) {ctx} : memWf (cancelJob s ctx) := by
  unfold cancelJob
  split
  · exact h
  · exact memWf_cancelRecords (foldl_memWf (by simp [h]) fun _ _ => by simp)

@[simp] theorem memWf_cancelHandle (h : memWf s) {ctx level hd} : memWf (cancelHandle s ctx level hd) := by
  unfold cancelHandle
  split <;> simp [h]

@[simp] theorem memWf_cancelLevel (h : memWf s) {b level} : memWf (cancelLevel s b level) := by
  unfold cancelLevel
  dsimp only
  repeat' split
  all_goals simp [h]

/-! ### Clauses and bundles -/

@[simp] theorem memWf_fetchClause (h : memWf s) : memWf (fetchClause s) := by
  unfold fetchClause
  dsimp only
  repeat' split
  all_goals simp [loadClause, h]

@[simp] theorem someWf_nextClause (h : memWf s) {l} : SomeWf (nextClause s l) := by
  induction l with
  | nil => exact someWf_none
  | cons a r ih =>
    unfold nextClause
    dsimp only
    split
    · simp [h]
    · exact ih

@[simp] theorem memWf_revertResults : memWf (revertResults s) ↔ memWf s := by
  simp [revertResults]

@[simp] theorem memWf_threadEnd (h : memWf s) {u} : memWf (threadEnd s u) := by
  unfold threadEnd
  split <;> simp [holdExit, h]

@[simp] theorem memWf_threadEscalates (h : memWf s) {u} : memWf (threadEscalates s u) := by
  unfold threadEscalates
  split <;> simp [h]

@[simp] theorem memWf_keepBundle {stay} : memWf (keepBundle s stay) ↔ memWf s := Iff.rfl

@[simp] theorem memWf_countIssue : memWf (countIssue s) ↔ memWf s := by simp [countIssue]

@[simp] theorem memWf_bundleEnd (h : memWf s) : memWf (bundleEnd s) := by
  have ended : memWf (s.cur.lanes.foldl threadEscalates
      (s.cur.lanes.foldl threadEnd (revertResults (countIssue s)))) :=
    foldl_memWf (by simp [h]) fun _ _ => by simp
  simp [bundleEnd, ended]

@[simp] theorem memWf_endClause (h : memWf s) : memWf (endClause s) := by
  unfold endClause
  split <;> simp [coachEnd, h]

end Sys2Proof.Proofs
end

section

/-! SUPPORT. For O59: events of accesses, frames and banks keep the form; `zeroFrame` is the one that drops bytes. -/

namespace Sys2Proof.Proofs
open Sys2Proof.Machine Sys2Proof.Safety

variable {s : State}

/-! ### Events of accesses -/

@[simp] theorem memWf_onAccess (h : memWf s) {i} {f : Access → State} (hf : ∀ a, memWf (f a)) :
    memWf (onAccess s i f) := by
  unfold onAccess
  split <;> simp [h, hf]

@[simp] theorem memWf_dataReturn (h : memWf s) {a} : memWf (dataReturn s a) := by
  unfold dataReturn
  split <;> simp [h]

@[simp] theorem memWf_storePerform (h : memWf s) {a} : memWf (storePerform s a) := by
  unfold storePerform
  split <;> simp [performWrite, noteSpawn, h]

@[simp] theorem memWf_writeApplied (h : memWf s) {a} : memWf (writeApplied s a) := by simp [writeApplied, h]

@[simp] theorem memWf_atomicApplied (h : memWf s) {a} : memWf (atomicApplied s a) := by simp [atomicApplied, h]

@[simp] theorem memWf_retryRefused (h : memWf s) {a} : memWf (retryRefused s a) := by
  unfold retryRefused
  split
  · exact h
  · split <;> simp [h]

@[simp] theorem memWf_servePersistent (h : memWf s) {i} : memWf (servePersistent s i) := by simp [servePersistent, h]

@[simp] theorem memWf_applyHeld (h : memWf s) {line} : memWf (applyHeld s line) := by simp [applyHeld, h]

@[simp] theorem memWf_releaseLine (h : memWf s) {line} : memWf (releaseLine s line) := by simp [releaseLine, h]

@[simp] theorem memWf_rereadLane (h : memWf s) {u t w} : memWf (rereadLane s u t w) := by
  unfold rereadLane
  split
  · dsimp only
    split
    · exact h
    · split
      · split <;> simp [h]
      · split
        · simp [h]
        · simp [h]
        · simp [h]
  · exact h

@[simp] theorem memWf_rereadRay {t ctx l id} : memWf (rereadRay s t ctx l id) ↔ memWf s := by
  unfold rereadRay
  dsimp only
  split <;> simp

@[simp] theorem memWf_reread (h : memWf s) {x ok} : memWf (reread s x ok) := by
  unfold reread
  split
  · exact h
  · split
    · exact h
    · split
      · exact h
      · split <;> simp [h]

@[simp] theorem memWf_l2Error {die line sector} : memWf (l2Error s die line sector) ↔ memWf s := by
  unfold l2Error
  split <;> simp

@[simp] theorem memWf_privateError {g line sector} : memWf (privateError s g line sector) ↔ memWf s := by
  unfold privateError
  split <;> simp

@[simp] theorem memWf_doubleError {a} : memWf (doubleError s a) ↔ memWf s := by
  unfold doubleError
  split <;> simp

@[simp] theorem memWf_softError {e} : memWf (softError s e) ↔ memWf s := by simp [softError]

@[simp] theorem nextWf_execLoadDataReturn (h : memWf s) {load} : NextWf (execLoadDataReturn load s) := by
  have erred : memWf (load.errors.foldl softError s) := foldl_memWf h fun _ _ => by simp
  simp [execLoadDataReturn, erred]

@[simp] theorem nextWf_execStorePerformed (h : memWf s) {access} : NextWf (execStorePerformed access s) := by
  simp [execStorePerformed, h]

@[simp] theorem nextWf_execReleaseWhWaitEnd (h : memWf s) {access} : NextWf (execReleaseWhWaitEnd access s) := by
  simp [execReleaseWhWaitEnd, h]

@[simp] theorem nextWf_execAtomicRequestApply (h : memWf s) {access} : NextWf (execAtomicRequestApply access s) := by
  simp [execAtomicRequestApply, h]

@[simp] theorem memWf_oneTransaction (s t : State) (line : Nat) : memWf (oneTransaction s t line) ↔ memWf t := by
  simp [oneTransaction]

@[simp] theorem nextWf_execHotQueueRetire (h : memWf s) {accesses} : NextWf (execHotQueueRetire accesses s) := by
  have retired : memWf ((accesses.take 8).foldl
      (fun acc i => onAccess acc i fun a => if isHotAdd a then atomicApplied acc a else acc) s) :=
    foldl_memWf h fun _ _ => memWf_onAccess (memWf_val _) fun _ => by simp
  simp [execHotQueueRetire, retired]

@[simp] theorem nextWf_execBlockingLoadReread (h : memWf s) {w} : NextWf (execBlockingLoadReread w s) := by
  simp [execBlockingLoadReread, h]

@[simp] theorem nextWf_execHPollReread (h : memWf s) {w} : NextWf (execHPollReread w s) := by
  simp [execHPollReread, h]

@[simp] theorem nextWf_execLeaseExpiry (h : memWf s) {core line} : NextWf (execLeaseExpiry core line s) := by
  unfold execLeaseExpiry
  split <;> simp [h]

@[simp] theorem nextWf_execWriteApply (h : memWf s) {access} : NextWf (execWriteApply access s) := by
  simp [execWriteApply, h]

@[simp] theorem nextWf_execTransientRefusalRetry (h : memWf s) {request} :
    NextWf (execTransientRefusalRetry request s) := by
  simp [execTransientRefusalRetry, h]

@[simp] theorem nextWf_execTransientLineRelease (h : memWf s) {line} : NextWf (execTransientLineRelease line s) := by
  simp [execTransientLineRelease, h]

/-! ### Frames: fill, write-back and clearing -/

@[simp] theorem memWf_holdLines {f} : memWf (holdLines s f) ↔ memWf s :=
  foldl_memWf_iff fun _ _ => by simp

@[simp] theorem memWf_recallLines {f} : memWf (recallLines s f) ↔ memWf s :=
  foldl_memWf_iff fun _ _ => by simp

@[simp] theorem memWf_freeLines (h : memWf s) {f} : memWf (freeLines s f) := by simp [freeLines, h]

@[simp] theorem memWf_freshLines {f} : memWf (freshLines s f) ↔ memWf s := by
  unfold freshLines
  rw [memWf_modFrame]
  exact foldl_memWf_iff fun _ _ => by simp

@[simp] theorem memWf_loseDie {d} : memWf (loseDie s d) ↔ memWf s := by simp [loseDie]

@[simp] theorem memWf_moveSector (h : memWf s) {from_ to_ a b} : memWf (moveSector s from_ to_ a b) := by
  simp [moveSector, h]

@[simp] theorem memWf_writeBack (h : memWf s) {f sectors} : memWf (writeBack s f sectors) := by
  simp [writeBack, sealSector, h]

@[simp] theorem memWf_fillSector (h : memWf s) {f page k} : memWf (fillSector s f page k) := by
  unfold fillSector
  dsimp only
  split <;> simp [h]

@[simp] theorem memWf_fillFrame (h : memWf s) {f page} : memWf (fillFrame s f page) := by simp [fillFrame, h]

@[simp] theorem memWf_zeroFrame (h : memWf s) {f} : memWf (zeroFrame s f) := by
  obtain ⟨device, host, pool⟩ := h
  have cleared : memWf { s with mem := { s.mem with device := s.mem.device.filter fun c => c.1 / 4096 != f } } :=
    ⟨filter_wf _ device, host, pool⟩
  exact foldl_memWf cleared fun _ _ => by simp

@[simp] theorem memWf_drayFault (h : memWf s) {ctx die code detail} : memWf (drayFault s ctx die code detail) := by
  simp [drayFault, h]

@[simp] theorem memWf_reportUncovered (h : memWf s) {ctx die page} : memWf (reportUncovered s ctx die page) := by
  simp [reportUncovered, h]

/-! ### Saved contexts -/

@[simp] theorem memWf_swapSaved {ctx} : memWf (swapSaved s ctx) ↔ memWf s := by simp [swapSaved, swapPoison]

/-! ### Banks, shadow areas and images -/

@[simp] theorem memWf_setRegWord {core ctx w x} : memWf (setRegWord s core ctx w x) ↔ memWf s := by
  unfold setRegWord
  split <;> simp

@[simp] theorem okWf_saveArea {q : Except Held State} (h : OkWf q) {ctx va} {bs} : OkWf (saveArea q ctx va bs) := by
  unfold saveArea
  split
  · simp
  · split
    · simp
    · next w => exact .ok ((someWf_writeVirtual (h.of_eq rfl)).of_eq w)

@[simp] theorem memWf_holdWrite (h : memWf s) {q : Except Held State} (hq : OkWf q) : memWf (holdWrite s q) := by
  unfold holdWrite
  split
  · exact hq.of_eq rfl
  · simp [h]

@[simp] theorem okWf_saveState {q : Except Held State} (h : OkWf q) {die ctx va} {bs} :
    OkWf (saveState die ctx q va bs) := by
  unfold saveState
  split
  · simp
  · split
    · simpa using h
    · exact okWf_saveArea h

@[simp] theorem okWf_resaveState {q : Except Held State} (h : OkWf q) {die ctx va} {bs} :
    OkWf (resaveState die ctx q va bs) := by
  unfold resaveState
  split
  · simp
  · split
    · simpa using h
    · exact okWf_saveArea h

@[simp] theorem memWf_dropSaved {die ctx va} : memWf (dropSaved s die ctx va) ↔ memWf s := by simp [dropSaved]

@[simp] theorem memWf_putBack (h : memWf s) {die x} : memWf (putBack die s x) := by
  unfold putBack
  split
  · next w => exact (okWf_saveState (.ok h)).of_eq w
  · simp [h]

@[simp] theorem okWf_spillTo (h : memWf s) {core ctx va bs} : OkWf (spillTo s core ctx va bs) := by
  simp [spillTo, h]

@[simp] theorem okWf_spillRegs (h : memWf s) {core ctx bank} : OkWf (spillRegs s core ctx bank) := by
  unfold spillRegs
  split
  · exact .ok h
  · dsimp only
    split
    · simp
    · next w => simpa using (okWf_spillTo h).of_eq w

@[simp] theorem okWf_readRegs (h : memWf s) {core ctx bank} : OkWf (readRegs s core ctx bank) := by
  unfold readRegs
  dsimp only
  repeat' split
  all_goals simp [h]

@[simp] theorem okWf_claimRegs {q : Except Held State} (h : OkWf q) {core ctx bank} :
    OkWf (claimRegs core ctx q bank) := by
  unfold claimRegs
  split
  · simp
  · dsimp only
    split
    · exact okWf_readRegs (by simpa using h)
    · split
      · exact okWf_readRegs (h.of_eq rfl)
      · split
        · simp
        · next w => exact okWf_readRegs (by simpa using (okWf_spillRegs (h.of_eq rfl)).of_eq w)

@[simp] theorem okWf_spillRowsTo {put : State → Nat → List Byte → Except Held State} (h : memWf s)
    (hp : ∀ va bs, OkWf (put s va bs)) {core ctx bank} : OkWf (spillRowsTo put s core ctx bank) := by
  unfold spillRowsTo
  split
  · exact .ok h
  · dsimp only
    split
    · simp
    · next w => simpa using (hp _ _).of_eq w

@[simp] theorem okWf_spillRows (h : memWf s) {core ctx bank} : OkWf (spillRows s core ctx bank) :=
  okWf_spillRowsTo h fun _ _ => okWf_spillTo h

@[simp] theorem okWf_readRows (h : memWf s) {core ctx bank} : OkWf (readRows s core ctx bank) := by
  unfold readRows
  dsimp only
  repeat' split
  all_goals simp [h]

@[simp] theorem okWf_claimRows {q : Except Held State} (h : OkWf q) {core ctx bank} :
    OkWf (claimRows core ctx q bank) := by
  unfold claimRows
  split
  · simp
  · dsimp only
    split
    · exact okWf_readRows (by simpa using h)
    · split
      · exact okWf_readRows (h.of_eq rfl)
      · split
        · simp
        · next w => exact okWf_readRows (by simpa using (okWf_spillRows (h.of_eq rfl)).of_eq w)

@[simp] theorem okWf_refillBanks {q : Except Held State} (h : OkWf q) {b} : OkWf (refillBanks q b) := by
  unfold refillBanks
  split
  · simp
  · split
    · exact h
    · exact foldl_okWf (foldl_okWf h fun _ _ h => okWf_claimRegs h) fun _ _ h => okWf_claimRows h

@[simp] theorem okWf_refillTob {q : Except Held State} (h : OkWf q) {ctx core} : OkWf (refillTob ctx q core) := by
  unfold refillTob
  split
  · simp
  · split
    · exact foldl_okWf h fun _ _ h => okWf_claimRows h
    · exact h

@[simp] theorem okWf_parkRows (h : memWf s) {b} : OkWf (parkRows s b) := by
  unfold parkRows
  dsimp only
  split
  · exact .ok h
  · split
    · simp
    · next w => simpa using (okWf_saveArea (.ok h)).of_eq w

@[simp] theorem okWf_unparkRows (h : memWf s) {b} : OkWf (unparkRows s b) := by
  unfold unparkRows
  dsimp only
  repeat' split
  all_goals simp [h]

@[simp] theorem okWf_saveWaits (h : memWf s) {b} : OkWf (saveWaits s b) := by
  refine foldl_okWf (by simp [h]) fun q p hq => ?_
  split
  · exact hq
  · split
    · simp
    · next t =>
      have ht : memWf t := hq.of_eq rfl
      simp [ht]

@[simp] theorem memWf_writeImage (h : memWf s) {b ctx va} {bs} {done : State → State}
    (hd : ∀ t : WfState, memWf (done t)) : memWf (writeImage s b ctx va bs done) := by
  unfold writeImage
  dsimp only
  split
  · simp [h]
  · split
    · simp [h]
    · next t w => exact hd ⟨t, (someWf_writeVirtual h).of_eq w⟩

@[simp] theorem memWf_copyRegs (h : memWf s) {b core ctx img bank} : memWf (copyRegs b core ctx img s bank) := by
  simp [copyRegs, h]

@[simp] theorem memWf_copyRow (h : memWf s) {b core ctx img dirty q} : memWf (copyRow b core ctx img dirty s q) := by
  simp [copyRow, h]

@[simp] theorem memWf_copyBlock (h : memWf s) {b} : memWf (copyBlock s b) := by
  unfold copyBlock
  split
  · dsimp only
    split
    · exact h
    · exact foldl_memWf (foldl_memWf (by simp [h]) fun _ _ => by simp) fun _ _ => by simp
  · exact h

@[simp] theorem memWf_copyImages (h : memWf s) : memWf (copyImages s) := by simp [copyImages, h]

@[simp] theorem memWf_modCopy {core ticket f} : memWf (modCopy s core ticket f) ↔ memWf s := Iff.rfl

@[simp] theorem memWf_keepSeed {c} : memWf (keepSeed s c) ↔ memWf s := by simp [keepSeed]

@[simp] theorem memWf_pauseCopy {c} : memWf (pauseCopy s c) ↔ memWf s := Iff.rfl

@[simp] theorem memWf_resumeCopy {core ticket} : memWf (resumeCopy s core ticket) ↔ memWf s := by
  unfold resumeCopy
  split <;> simp

@[simp] theorem memWf_parkSwitched (h : memWf s) {c} : memWf (parkSwitched s c) := by simp [parkSwitched, h]

@[simp] theorem memWf_parkSampler (h : memWf s) {core o} : memWf (parkSampler s core o) := by simp [parkSampler, h]

@[simp] theorem okWf_saveOneThread {q : Except Held State} (h : OkWf q) {ctx} {t} : OkWf (saveOneThread ctx q t) := by
  unfold saveOneThread
  split
  · simp
  · next s =>
    have hs : memWf s := h.of_eq rfl
    simp [hs]

@[simp] theorem okWf_saveTiles {q : Except Held State} (h : OkWf q) {ctx cluster} :
    OkWf (saveTiles ctx q cluster) := by
  unfold saveTiles
  generalize List.range 1024 = rows
  refine foldl_okWf h fun q k hq => ?_
  split
  · simp
  · exact okWf_saveState hq

@[simp] theorem okWf_saveImages (h : memWf s) {ctx index p} : OkWf (saveImages s ctx index p) := by
  unfold saveImages
  refine foldl_okWf (foldl_okWf (foldl_okWf (foldl_okWf (foldl_okWf (foldl_okWf ?_ ?_) ?_) ?_) ?_) ?_) ?_
  · exact okWf_saveState (.ok h)
  · exact fun _ _ h => okWf_saveState h
  · exact fun _ _ h => okWf_saveState h
  · exact fun _ _ h => okWf_saveState h
  · exact fun _ _ h => okWf_saveState h
  · exact fun _ _ h => okWf_saveOneThread h
  · exact fun _ _ h => okWf_saveTiles h

@[simp] theorem memWf_dropShadow {ctx} : memWf (dropShadow s ctx) ↔ memWf s := Iff.rfl

@[simp] theorem okWf_resaveThread {q : Except Held State} (h : OkWf q) {s0 : State} {ctx} {p} :
    OkWf (resaveThread s0 ctx q p) := by
  unfold resaveThread
  split
  · simp
  · next s =>
    have hs : memWf s := h.of_eq rfl
    simp [hs]

@[simp] theorem memWf_onContext (h : memWf s) {ctx} {f : State → State} (hf : ∀ t : WfState, memWf (f t)) :
    memWf (onContext s ctx f) := by
  unfold onContext
  split
  · exact hf ⟨s, h⟩
  · have changed : memWf (swapSaved (f (swapSaved s ctx)) ctx) :=
      memWf_swapSaved.2 (hf ⟨_, memWf_swapSaved.2 h⟩)
    dsimp only
    split
    · exact changed
    · split
      · simp [h]
      · next w => exact (foldl_okWf (.ok changed) fun _ _ h => okWf_resaveThread h).of_eq w

@[simp] theorem okWf_loadThreads (h : memWf s) {ctx} : OkWf (loadThreads s ctx) := by
  refine foldl_okWf (.ok h) fun q t hq => ?_
  dsimp only
  split
  · simp
  · split
    · simp
    · simpa using hq

@[simp] theorem okWf_loadTiles (h : memWf s) {ctx clusters} : OkWf (loadTiles s ctx clusters) := by
  unfold loadTiles
  generalize List.range 1024 = rows
  refine foldl_okWf (.ok h) fun q c hq => foldl_okWf hq fun q k hq => ?_
  split
  · simp
  · split
    · simp
    · simpa using hq

end Sys2Proof.Proofs
end

section

/-! SUPPORT. For O59: queues, blocks, engine commands and the directory keep the form. -/

namespace Sys2Proof.Proofs
open Sys2Proof.Machine Sys2Proof.Safety

variable {s : State}

/-! ### Queues, spawns and cancels -/

@[simp] theorem memWf_modMsg {ctx q f} : memWf (modMsg s ctx q f) ↔ memWf s := Iff.rfl

@[simp] theorem memWf_sendMsg {ctx q x} : memWf (sendMsg s ctx q x) ↔ memWf s := Iff.rfl

@[simp] theorem memWf_qsendLane {f x t} : memWf (qsendLane f s x t).1 ↔ memWf s := by
  unfold qsendLane
  split <;> simp

@[simp] theorem memWf_underQuota {s s1 : State} (h : memWf s) (h1 : memWf s1) {ctx} :
    memWf (underQuota s ctx s1) := by
  simp [underQuota, h, h1]

@[simp] theorem nextWf_execQsend (h : memWf s) {f} : NextWf (execQsend f s) := by
  unfold execQsend
  dsimp only
  split
  · split <;> simp [h]
  · split <;> simp [h]

@[simp] theorem memWf_takeMsg {ctx q} : memWf (takeMsg s ctx q) ↔ memWf s := Iff.rfl

@[simp] theorem nextWf_execQrecv (h : memWf s) {f} : NextWf (execQrecv f s) := by
  unfold execQrecv
  split <;> simp [qrecvLane, h]

theorem memWf_spawnLane {f} (h : memWf s) {u} {t} {q : State × Word}
    (e : spawnLane f s u t = .ok q) : memWf q.1 := by
  unfold spawnLane at e
  dsimp only at e
  split at e
  · cases e
  · split at e
    · cases e
    · split at e
      · cases e
      · cases e; simp [h]

theorem okWf_eachLaneChecked (h : memWf s) {g} {d}
    {f : State → Nat → Thread → Except FaultCode (State × Word)}
    (step : ∀ (a : WfState) u t q, f a u t = .ok q → memWf q.1) : OkWf (eachLaneChecked s g d f) := by
  refine foldl_okWf (.ok h) fun q u hq => ?_
  split
  · simp
  · split
    · exact hq
    · split
      · split
        · simp
        · next e => simpa using step ⟨_, hq.of_eq rfl⟩ _ _ _ e
      · simpa using hq

@[simp] theorem nextWf_execSpawn (h : memWf s) {f} : NextWf (execSpawn f s) := by
  unfold execSpawn
  split
  · simp [h]
  · next w =>
    refine .next (memWf_underQuota h (OkWf.of_eq ?_ w))
    exact okWf_eachLaneChecked h fun a _ _ _ e => memWf_spawnLane a.2 e

@[simp] theorem memWf_cancelLane (h : memWf s) {f x t} : memWf (cancelLane f s x t).1 := by simp [cancelLane, h]

@[simp] theorem nextWf_execCancel (h : memWf s) {f} : NextWf (execCancel f s) := by
  simp [execCancel, h]

/-! ### Placing a block -/

@[simp] theorem memWf_countRamp {die n} : memWf (countRamp s die n) ↔ memWf s := Iff.rfl

@[simp] theorem memWf_setFused {core fuse} : memWf (setFused s core fuse) ↔ memWf s := by simp [setFused]

@[simp] theorem memWf_setRoles {core r} : memWf (setRoles s core r) ↔ memWf s := by simp [setRoles]

@[simp] theorem memWf_assignTob {core l tob} : memWf (assignTob s core l tob) ↔ memWf s := by
  simp [assignTob, clearStorage]

@[simp] theorem memWf_prepareCore {core l} : memWf (prepareCore s core l) ↔ memWf s := by
  unfold prepareCore
  rw [memWf_modCore, memWf_assignTob]
  split <;> simp

@[simp] theorem okWf_claimBanks (h : memWf s) {core l gangs} : OkWf (claimBanks s core l gangs) :=
  foldl_okWf (foldl_okWf (.ok h) fun _ _ h => okWf_claimRegs h) fun _ _ h => okWf_claimRows h

@[simp] theorem okWf_readyCore {q : Except Held State} (h : OkWf q) {l gangs core} :
    OkWf (readyCore l gangs q core) := by
  unfold readyCore
  split
  · simp
  · exact okWf_claimBanks (by simpa using h)

@[simp] theorem memWf_queueProgram {core b} : memWf (queueProgram s core b) ↔ memWf s := by
  unfold queueProgram
  dsimp only
  split <;> simp

@[simp] theorem memWf_startNext {l core e hit n} : memWf (startNext s l core e hit n) ↔ memWf s := by
  simp [startNext, startBlock]

@[simp] theorem memWf_noteHeld {l} : memWf (noteHeld s l) ↔ memWf s := by
  unfold noteHeld
  split <;> exact Iff.rfl

@[simp] theorem memWf_settleHolds : memWf (settleHolds s) ↔ memWf s := Iff.rfl

@[simp] theorem memWf_placeOn (h : memWf s) {l core e hit n} : memWf (placeOn s l core e hit n) := by
  unfold placeOn
  dsimp only
  split
  · simp [h]
  · next w => exact memWf_startNext.2 ((foldl_okWf (.ok h) fun _ _ h => okWf_readyCore h).of_eq w)

@[simp] theorem memWf_placeNext (h : memWf s) {l core} : memWf (placeNext s l core) := by
  unfold placeNext
  dsimp only
  split <;> simp [h]

@[simp] theorem memWf_giveSlots {b core} : memWf (giveSlots s b core) ↔ memWf s := by simp [giveSlots]

@[simp] theorem memWf_fileBlock {b} : memWf (fileBlock s b) ↔ memWf s := by simp [fileBlock]

@[simp] theorem memWf_placeAgain (h : memWf s) {b core} : memWf (placeAgain s b core) := by
  unfold placeAgain
  dsimp only
  split
  · split
    · simp [h]
    · next w => simpa using (okWf_refillBanks (.ok h)).of_eq w
  · exact h

@[simp] theorem memWf_refillBlock (h : memWf s) {b} : memWf (refillBlock s b) := by
  unfold refillBlock
  dsimp only
  split
  · exact h
  · split
    · split
      · simp [h]
      · next w =>
        have unparked := (okWf_unparkRows h).of_eq w
        split
        · simp [unparked]
        · split
          · simp [h]
          · next w =>
            have refilled := (okWf_refillBanks (.ok (by simpa using unparked))).of_eq w
            split <;> simp [refilled]
    · exact h

/-! ### Events of the matrix engines -/

@[simp] theorem memWf_setTilePair {cluster tile m n x} : memWf (setTilePair s cluster tile m n x) ↔ memWf s := Iff.rfl

@[simp] theorem memWf_clearRow {cluster tile m count} : memWf (clearRow s cluster tile m count) ↔ memWf s := by
  simp [clearRow]

@[simp] theorem memWf_applyPass {m p} : memWf (applyPass s m p) ↔ memWf s := by simp [applyPass]

@[simp] theorem memWf_modEntry {cluster i f} : memWf (modEntry s cluster i f) ↔ memWf s := Iff.rfl

@[simp] theorem memWf_loadRow {m row spots} : memWf (loadRow s m row spots) ↔ memWf s := by simp [loadRow]

@[simp] theorem memWf_storeRow (h : memWf s) {m row spots} : memWf (storeRow s m row spots).1 := by
  unfold storeRow
  split <;> simp [h]

@[simp] theorem memWf_parkMatrix (h : memWf s) {cluster i e va} : memWf (parkMatrix s cluster i e va) := by
  simp [parkMatrix, h]

@[simp] theorem memWf_transferEnds (h : memWf s) {cluster i e q} : memWf (transferEnds s cluster i e q) := by
  simp [transferEnds, h]

@[simp] theorem memWf_transferDone (h : memWf s) {cluster i e} : memWf (transferDone s cluster i e) := by
  simp [transferDone, h]

@[simp] theorem memWf_moveRows (h : memWf s) {cluster i fuel e} : memWf (moveRows cluster i fuel s e) := by
  induction fuel generalizing s e with
  | zero => simp [moveRows, h]
  | succ fuel ih =>
    unfold moveRows
    split
    · simp [h]
    · split
      · simp [h]
      · simp [h]
      · dsimp only
        split
        · simp [h]
        · split
          · exact ih (by simp [h])
          · exact ih (by simp [h])

@[simp] theorem nextWf_execArbiterGrant (h : memWf s) {cluster} : NextWf (execArbiterGrant cluster s) := by
  unfold execArbiterGrant
  split <;> simp [grant, zeroTile, moveTile, h]

@[simp] theorem memWf_finishTransfers (h : memWf s) {cluster} : memWf (finishTransfers s cluster) := by
  simp [finishTransfers, h]

@[simp] theorem memWf_endPass (h : memWf s) {cluster i e} : memWf (endPass s cluster i e) := by simp [endPass, h]

@[simp] theorem nextWf_execMatrixPassEpilogue (h : memWf s) {cluster} :
    NextWf (execMatrixPassEpilogue cluster s) := by
  unfold execMatrixPassEpilogue
  dsimp only
  repeat' split
  all_goals simp [h]

@[simp] theorem nextWf_execEngineCommandRelease (h : memWf s) {e} : NextWf (execEngineCommandRelease e s) := by
  unfold execEngineCommandRelease
  split
  · split <;> simp [h]
  · split <;> simp [h]

/-! ### Events of blocks and of the operating point -/

@[simp] theorem nextWf_execBlockPlacement (h : memWf s) {target core} :
    NextWf (execBlockPlacement target core s) := by
  unfold execBlockPlacement
  split <;> simp [h]

@[simp] theorem memWf_evictBlock {b} : memWf (evictBlock s b) ↔ memWf s := by
  simp [evictBlock]

@[simp] theorem nextWf_execBlockEviction (h : memWf s) {block} : NextWf (execBlockEviction block s) := by
  unfold execBlockEviction
  split
  · split
    · simp [h]
    · next w => simpa using (okWf_saveWaits h).of_eq w
  · exact .next h

@[simp] theorem memWf_leaveGroup {b} : memWf (leaveGroup s b) ↔ memWf s := by
  unfold leaveGroup
  split <;> simp [releaseTiles]

@[simp] theorem memWf_leaveCore {b} : memWf (leaveCore s b) ↔ memWf s := by
  unfold leaveCore
  split <;> simp

@[simp] theorem memWf_countEnd {b} : memWf (countEnd s b) ↔ memWf s := by
  unfold countEnd
  split <;> simp

@[simp] theorem memWf_forgetBlock {b} : memWf (forgetBlock s b) ↔ memWf s := by simp [forgetBlock]

@[simp] theorem memWf_freeRows {b} : memWf (freeRows s b) ↔ memWf s := by
  unfold freeRows
  split
  · simp
  · split <;> simp

@[simp] theorem nextWf_execBlockEnd (h : memWf s) {block} : NextWf (execBlockEnd block s) := by
  simp [execBlockEnd, endBlock, checkReport, forgetThreads, h]

@[simp] theorem nextWf_execHoldlimitExpiry (h : memWf s) {launch} : NextWf (execHoldlimitExpiry launch s) := by
  unfold execHoldlimitExpiry
  dsimp only
  split <;> simp [h]

@[simp] theorem memWf_parkTransfer (h : memWf s) {cluster p} : memWf (parkTransfer cluster s p) := by
  simp [parkTransfer, h]

@[simp] theorem memWf_parkWork (h : memWf s) {b} : memWf (parkWork s b) := by
  unfold parkWork
  split
  · exact h
  · exact foldl_memWf (foldl_memWf (foldl_memWf h fun _ _ => by simp) fun _ _ => by simp) fun _ _ => by simp

@[simp] theorem memWf_leaveRows {b} : memWf (leaveRows s b) ↔ memWf s := by simp [leaveRows]

@[simp] theorem memWf_parkBlock (h : memWf s) {b} : memWf (parkBlock s b) := by
  unfold parkBlock
  split
  · simp [h]
  · next w =>
    have parked := (okWf_parkRows (memWf_parkWork h)).of_eq w
    split
    · simp [h]
    · next w => simpa using (okWf_saveWaits parked).of_eq w

@[simp] theorem nextWf_execParkedBlockRefill (h : memWf s) {block} : NextWf (execParkedBlockRefill block s) := by
  simp [execParkedBlockRefill, h]

@[simp] theorem memWf_selectBlock {b} : memWf (selectBlock s b) ↔ memWf s := by simp [selectBlock]

@[simp] theorem memWf_selectOn {core vs fuel} : memWf (selectOn core vs fuel s) ↔ memWf s := by
  induction fuel generalizing s with
  | zero => exact Iff.rfl
  | succ fuel ih =>
    unfold selectOn
    dsimp only
    split
    · exact Iff.rfl
    · split
      · exact Iff.rfl
      · rw [ih]; simp

@[simp] theorem memWf_queueStep {n urgent} : memWf (queueStep s n urgent) ↔ memWf s := Iff.rfl

@[simp] theorem memWf_orderStepDown {n urgent} : memWf (orderStepDown s n urgent) ↔ memWf s := by simp [orderStepDown]

@[simp] theorem nextWf_execEvaclimitExpiry (h : memWf s) : NextWf (execEvaclimitExpiry s) := by
  simp [execEvaclimitExpiry, h]

@[simp] theorem memWf_moveBlockRows {core vs} : memWf (moveBlockRows s core vs) ↔ memWf s := by simp [moveBlockRows]

@[simp] theorem memWf_moveSaved {core vs ctx} : memWf (moveSaved s core vs ctx) ↔ memWf s := by simp [moveSaved]

@[simp] theorem memWf_spillLost (h : memWf s) {core vs} : memWf (spillLost s core vs) := by
  have moved : memWf (((lostBanks s core vs).map Prod.snd).dedup.foldl (fun acc o => moveSaved acc core vs o) s) := by
    simp [h]
  exact foldl_memWf moved fun a p => memWf_holdWrite a.2 (okWf_spillRowsTo a.2 fun _ _ => okWf_saveArea (.ok a.2))

@[simp] theorem memWf_moveTobRows {core vs} : memWf (moveTobRows s core vs) ↔ memWf s := by simp [moveTobRows]

@[simp] theorem nextWf_execRowEvacuation (h : memWf s) {core} : NextWf (execRowEvacuation core s) := by
  unfold execRowEvacuation
  split <;> simp [h]

@[simp] theorem memWf_switchPoint {n p} : memWf (switchPoint s n p) ↔ memWf s := Iff.rfl

@[simp] theorem nextWf_execOpClockSwitch (h : memWf s) : NextWf (execOpClockSwitch s) := by
  unfold execOpClockSwitch
  split <;> simp [h]

@[simp] theorem memWf_stepUp {n} : memWf (stepUp s n) ↔ memWf s := by simp [stepUp]

@[simp] theorem memWf_takeQueued : memWf (takeQueued s) ↔ memWf s := by
  unfold takeQueued
  split <;> simp

@[simp] theorem memWf_takeOrders {fuel} : memWf (takeOrders fuel s) ↔ memWf s := by
  induction fuel generalizing s with
  | zero => rfl
  | succ fuel ih =>
    unfold takeOrders
    split
    · rfl
    · rw [ih]; simp

/-! ### Events of copies -/

@[simp] theorem memWf_deliverSector {c} : memWf (deliverSector s c) ↔ memWf s := by simp [deliverSector]

@[simp] theorem memWf_tagSector {c a m} : memWf (tagSector s c a m) ↔ memWf s := by
  unfold tagSector
  split <;> simp

@[simp] theorem memWf_writeSector (h : memWf s) {c a spots bs} : memWf (writeSector s c a spots bs) := by
  simp [writeSector, h]

@[simp] theorem memWf_copyFault (h : memWf s) {c code va acc} : memWf (copyFault s c code va acc) := by
  simp [copyFault, parkCopy, h]

@[simp] theorem memWf_poisonCopy (h : memWf s) {c} : memWf (poisonCopy s c) := by simp [poisonCopy, h]

@[simp] theorem memWf_moveSectorOf (h : memWf s) {c} : memWf (moveSectorOf s c) := by
  have poisoned (bad : Bool) {t : State} (ht : memWf t) : memWf (if bad then poisonCopy t c else t) := by simp [ht]
  unfold moveSectorOf
  dsimp only
  split
  · simp [h]
  · simp [h]
  · split
    · simp [h]
    · rw [memWf_ite, memWf_deliverSector, memWf_modCopy, ite_self]
      refine poisoned _ (memWf_modCore.2 (foldl_memWf ?_ fun _ _ => by simp))
      simp [h]

@[simp] theorem memWf_takeSlot {c} : memWf (takeSlot s c) ↔ memWf s := by simp [takeSlot]

@[simp] theorem nextWf_execCopyCommandStart (h : memWf s) {core ticket} :
    NextWf (execCopyCommandStart core ticket s) := by
  unfold execCopyCommandStart
  split <;> simp [h]

@[simp] theorem nextWf_execCbSlotTake (h : memWf s) {core ticket} : NextWf (execCbSlotTake core ticket s) := by
  unfold execCbSlotTake
  split <;> simp [h]

@[simp] theorem nextWf_execCopySectorDelivery (h : memWf s) {core ticket} :
    NextWf (execCopySectorDelivery core ticket s) := by
  unfold execCopySectorDelivery
  split <;> simp [stepCopy, h]

@[simp] theorem nextWf_execCopyComplete (h : memWf s) {core ticket} : NextWf (execCopyComplete core ticket s) := by
  unfold execCopyComplete
  split <;> simp [h]

@[simp] theorem memWf_startProgram {core} : memWf (startProgram s core) ↔ memWf s := by
  unfold startProgram
  dsimp only
  split <;> simp

@[simp] theorem nextWf_execMovementProgramStart (h : memWf s) {core} : NextWf (execMovementProgramStart core s) := by
  simp [execMovementProgramStart, h]

/-! ### Events of the directory -/

@[simp] theorem memWf_beginTxn {line t acks} : memWf (beginTxn s line t acks) ↔ memWf s := Iff.rfl

@[simp] theorem memWf_answered {die line} : memWf (answered s die line) ↔ memWf s := by simp [answered]

@[simp] theorem memWf_settleTxn {line} : memWf (settleTxn s line) ↔ memWf s := by
  unfold settleTxn
  dsimp only
  split <;> simp

@[simp] theorem memWf_readRequest {die line} : memWf (readRequest s die line) ↔ memWf s := by
  unfold readRequest
  dsimp only
  repeat' split
  all_goals simp

@[simp] theorem memWf_ownRequest {die line} : memWf (ownRequest s die line) ↔ memWf s := by simp [ownRequest]

@[simp] theorem nextWf_execDirForward (h : memWf s) {die line} : NextWf (execDirForward die line s) := by
  unfold execDirForward
  dsimp only
  split <;> simp [h]

@[simp] theorem nextWf_execInvalidationAck (h : memWf s) {die line} : NextWf (execInvalidationAck die line s) := by
  simp [execInvalidationAck, h]

@[simp] theorem nextWf_execDataMessageReceipt (h : memWf s) {die line version} :
    NextWf (execDataMessageReceipt die line version s) := by
  unfold execDataMessageReceipt
  dsimp only
  split <;> simp [h]

@[simp] theorem nextWf_execSnoopFilterEviction (h : memWf s) {line} : NextWf (execSnoopFilterEviction line s) := by
  simp [execSnoopFilterEviction, h]

@[simp] theorem memWf_startSurrender {f} : memWf (startSurrender s f) ↔ memWf s :=
  memWf_holdLines

@[simp] theorem nextWf_execBackInvalidationSnoop (h : memWf s) {pool} :
    NextWf (execBackInvalidationSnoop pool s) := by
  unfold execBackInvalidationSnoop
  split <;> simp [h]

@[simp] theorem nextWf_execPageSurrenderAnswer (h : memWf s) {frame} : NextWf (execPageSurrenderAnswer frame s) := by
  simp [execPageSurrenderAnswer, h]

@[simp] theorem memWf_refetchFrame (h : memWf s) {f} : memWf (refetchFrame s f) := by
  refine memWf_freeLines (memWf_reportUncovered ?_)
  simp [h]

@[simp] theorem nextWf_execSurrenderedPageRefetch (h : memWf s) {frame} :
    NextWf (execSurrenderedPageRefetch frame s) := by
  simp [execSurrenderedPageRefetch, h]

end Sys2Proof.Proofs
end

section

/-! SUPPORT. For O59: the ray, raster and texture units keep the form. -/

namespace Sys2Proof.Proofs
open Sys2Proof.Machine Sys2Proof.Safety

variable {s : State}

/-! ### Scenes and ray queues -/

@[simp] theorem memWf_noteScene {l} : memWf (noteScene s l) ↔ memWf s := by
  unfold noteScene
  split <;> simp

@[simp] theorem memWf_withScene (h : memWf s) {g} {idle : State} {go : Scene → State}
    (hi : memWf idle) (hg : ∀ c, memWf (go c)) : memWf (withScene s g idle go) := by
  unfold withScene
  split
  · exact hi
  · split <;> simp [h, hg]

@[simp] theorem someWf_filingWrites (h : memWf s) {ctx va state stamp filed} :
    SomeWf (filingWrites s ctx va state stamp filed) := by
  unfold filingWrites
  cases w : writeVirtual s ctx (va + 64) (leBytes 1 state) with
  | none => exact someWf_none
  | some s1 => exact someWf_writeVirtual ((someWf_writeVirtual h).of_eq w)

@[simp] theorem memWf_modRayQueue {l i f} : memWf (modRayQueue s l i f) ↔ memWf s := Iff.rfl

@[simp] theorem memWf_holdSubtree (h : memWf s) {l i die run addr} : memWf (holdSubtree s l i die run addr) := by
  simp [holdSubtree, h]

@[simp] theorem memWf_enterQueue (h : memWf s) {l c i id die} : memWf (enterQueue s l c i id die) := by
  unfold enterQueue
  split <;> simp [h]

@[simp] theorem memWf_fileRay (h : memWf s) {l c i id} : memWf (fileRay s l c i id) := by
  unfold fileRay
  dsimp only
  split <;> simp [h]

/-! ### Texture and primitive forms -/

@[simp] theorem memWf_texForm (h : memWf s) {op f} : memWf (texForm s op f) := by
  unfold texForm
  dsimp only
  split
  · next w => exact (someWf_planFault h).of_eq w
  · simp [h]

@[simp] theorem memWf_withVis (h : memWf s) {f} {go : VisDesc → State}
    (hg : ∀ d, memWf (go d)) : memWf (withVis s f go) := by
  unfold withVis
  split
  · simp [h]
  · split <;> simp [h, hg]

@[simp] theorem memWf_atreqLane (h : memWf s) {f d x t} : memWf (atreqLane f d s x t).1 := by
  unfold atreqLane
  dsimp only
  split <;> simp [h]

@[simp] theorem nextWf_execAtreq (h : memWf s) {f} : NextWf (execAtreq f s) := by
  refine .next (memWf_withVis h fun d => ?_)
  split
  · next w => exact (someWf_planFault h).of_eq w
  · exact memWf_underQuota h (memWf_eachLane (by simp [h]) fun _ _ _ => by simp)

@[simp] theorem memWf_atgetLane {u t} : memWf (atgetLane s u t).1 ↔ memWf s := by
  unfold atgetLane
  dsimp only
  split <;> simp

@[simp] theorem memWf_acceptPrim {d p} : memWf (acceptPrim s d p) ↔ memWf s := Iff.rfl

@[simp] theorem memWf_primLane {f d x t} : memWf (primLane f d s x t).1 ↔ memWf s := by
  unfold primLane
  dsimp only
  split <;> simp

@[simp] theorem memWf_acceptOrFlush {s s1 : State} (h : memWf s) (h1 : memWf s1) {f} {d} :
    memWf (acceptOrFlush s s1 f d) := by
  unfold acceptOrFlush
  simp [h, h1]

@[simp] theorem nextWf_execPrim (h : memWf s) {f} : NextWf (execPrim f s) := by
  refine .next (memWf_withVis h fun d => ?_)
  split
  · next w => exact (someWf_planFault h).of_eq w
  · simp [h]

/-! ### Events of the raster and texture units -/

@[simp] theorem memWf_dropRefs {b l view tile seq} : memWf (dropRefs s b l view tile seq) ↔ memWf s := Iff.rfl

@[simp] theorem memWf_binView {b l view d} : memWf (binView s b l view d) ↔ memWf s := by simp [binView]

@[simp] theorem memWf_writeEntry (h : memWf s) {b ctx va bs} : memWf (writeEntry s b ctx va bs) := by
  unfold writeEntry
  split <;> simp [h]

@[simp] theorem memWf_drawPixel (h : memWf s) {b ctx d cmp view p x} : memWf (drawPixel s b ctx d cmp view p x) := by
  simp [drawPixel, h]

@[simp] theorem memWf_drawPrims (h : memWf s) {b ctx} {d} {cmp l view tile}
    {ws} : memWf (drawPrims s b ctx d cmp l view tile ws).1 := by
  induction ws generalizing s with
  | nil => exact h
  | cons w r ih =>
    unfold drawPrims
    split
    · exact h
    · exact ih (by simp [h])

@[simp] theorem memWf_parkBinner (h : memWf s) {b l view tile seq stage cause pages code va} :
    memWf (parkBinner s b l view tile seq stage cause pages code va) := by
  simp [parkBinner, h]

@[simp] theorem memWf_tileFault (h : memWf s) {b l view tile seq stage code va} :
    memWf (tileFault s b l view tile seq stage code va) := by
  simp [tileFault, rasterFault, h]

@[simp] theorem memWf_rasterTile (h : memWf s) {b l view tile} : memWf (rasterTile s b l view tile) := by
  unfold rasterTile
  dsimp only
  repeat' split
  all_goals simp [h]

@[simp] theorem nextWf_execRasteriseTile (h : memWf s) {binner view tile} :
    NextWf (execRasteriseTile binner view tile s) := by
  unfold execRasteriseTile
  split
  · exact .next h
  · split <;> simp [h]

@[simp] theorem nextWf_execBinnerFlushDone (h : memWf s) {binner} : NextWf (execBinnerFlushDone binner s) := by
  simp [execBinnerFlushDone, releaseHeld, h]

@[simp] theorem memWf_parkRaster (h : memWf s) {ctx b} : memWf (parkRaster s ctx b) := by
  unfold parkRaster
  dsimp only
  repeat' split
  all_goals simp [h]

@[simp] theorem memWf_writeQuad {xs} : memWf (writeQuad s xs) ↔ memWf s := by simp [writeQuad]

@[simp] theorem memWf_quadOver {core o q} : memWf (quadOver s core o q) ↔ memWf s := by simp [quadOver]

@[simp] theorem memWf_failQuad (h : memWf s) {core o q code va} : memWf (failQuad s core o q code va) := by
  simp [failQuad, h]

@[simp] theorem memWf_sampleQuad (h : memWf s) {core o q} : memWf (sampleQuad s core o q) := by
  unfold sampleQuad
  dsimp only
  split <;> simp [parkTexture, h]

@[simp] theorem nextWf_execTextureQuadComplete (h : memWf s) {core op} :
    NextWf (execTextureQuadComplete core op s) := by
  unfold execTextureQuadComplete
  split
  · exact .next h
  · split
    · exact .next h
    · split <;> simp [h]

@[simp] theorem memWf_replayTexture {core op} : memWf (replayTexture s core op) ↔ memWf s := Iff.rfl

@[simp] theorem memWf_failTexture (h : memWf s) {core op code va} : memWf (failTexture s core op code va) := by
  unfold failTexture
  split
  · exact h
  · split <;> simp [h]

@[simp] theorem memWf_replayRaster {b ctx} : memWf (replayRaster s b ctx) ↔ memWf s := Iff.rfl

@[simp] theorem memWf_failRaster (h : memWf s) {b ctx view tile code va} :
    memWf (failRaster s b ctx view tile code va) := by
  unfold failRaster
  dsimp only
  split <;> simp [h]

/-! ### Events of the ray units -/

@[simp] theorem memWf_returnRay (h : memWf s) {l i loc e} : memWf (returnRay s l i loc e) := by
  unfold returnRay
  split <;> simp [h]

@[simp] theorem memWf_returnRays (h : memWf s) {l i loc es} : memWf (returnRays s l i loc es) :=
  foldl_memWf h fun _ _ => memWf_returnRay (memWf_val _)

@[simp] theorem memWf_takeRay {acc : State × List (Nat × RayEntry)} (h : memWf acc.1) {l i loc} {e} :
    memWf (takeRay l i loc acc e).1 := by
  unfold takeRay
  dsimp only
  split <;> simp [h]

@[simp] theorem memWf_failQueue (h : memWf s) {l i loc run st code report} :
    memWf (failQueue s l i loc run st code report) := by
  refine foldl_memWf (by simp [h]) fun _ _ => by simp

@[simp] theorem memWf_startChoice (h : memWf s) {die cluster c x} : memWf (startChoice s die cluster c x) := by
  unfold startChoice
  split <;> simp [startRun, h]

@[simp] theorem nextWf_execOmnibusRunStart (h : memWf s) {die cluster} :
    NextWf (execOmnibusRunStart die cluster s) := by
  unfold execOmnibusRunStart
  split
  · exact .next h
  · split
    · exact .next h
    · split <;> simp [h]

@[simp] theorem memWf_endRun {cluster} : memWf (endRun s cluster) ↔ memWf s := Iff.rfl

@[simp] theorem memWf_loadSubtree (h : memWf s) {cluster r} : memWf (loadSubtree s cluster r) := by
  unfold loadSubtree
  dsimp only
  repeat' split
  all_goals simp [failSubtree, missLoad, h]

@[simp] theorem nextWf_execSubtreeLoadComplete (h : memWf s) {cluster} :
    NextWf (execSubtreeLoadComplete cluster s) := by
  unfold execSubtreeLoadComplete
  split <;> simp [h]

@[simp] theorem memWf_holdRayAt (h : memWf s) {l id loc va act} : memWf (holdRayAt s l id loc va act) := by
  simp [holdRayAt, h]

@[simp] theorem memWf_joinHit {acc : State × List HitRay} (h : memWf acc.1) {c} {l die id} :
    memWf (joinHit c l die acc id).1 := by
  unfold joinHit
  dsimp only
  split
  · simp [h]
  · simp [h]
  · split
    · simp [h]
    · split
      · simp [h]
      · simp [h]
      · split <;> simp [h]

@[simp] theorem memWf_formHitBlock (h : memWf s) {l die} : memWf (formHitBlock s l die) := by
  unfold formHitBlock
  split <;> simp [h]

@[simp] theorem nextWf_execHitListAgeExpiry (h : memWf s) {launch die} :
    NextWf (execHitListAgeExpiry launch die s) := by
  simp [execHitListAgeExpiry, h]

@[simp] theorem memWf_scribble (h : memWf s) {ctx va} : memWf (scribble s ctx va) := by simp [scribble, h]

@[simp] theorem memWf_writeHit (h : memWf s) {ctx va old new} : memWf (writeHit s ctx va old new) := by
  simp [writeHit, h]

@[simp] theorem memWf_setExits {l id es} : memWf (setExits s l id es) ↔ memWf s := by simp [setExits]

@[simp] theorem memWf_enterHits {l die id} : memWf (enterHits s l die id) ↔ memWf s := Iff.rfl

@[simp] theorem memWf_retireVisited (h : memWf s) {r c loc id old order v} :
    memWf (retireVisited s r c loc id old order v) := by
  have hit : memWf (writeHit s (launchOf s r.launch).ctx (c.slot id) old v.ray) := by simp [h]
  unfold retireVisited
  dsimp only
  split
  · simp [h]
  · simp [h]
  · split
    · simp [h]
    · split
      · simp [hit]
      · split <;> simp [hit]

@[simp] theorem memWf_retireRay (h : memWf s) {cluster r e} : memWf (retireRay s cluster r e) := by
  unfold retireRay
  dsimp only
  repeat' split
  all_goals simp [h]

@[simp] theorem nextWf_execRayRetire (h : memWf s) {cluster} : NextWf (execRayRetire cluster s) := by
  unfold execRayRetire
  dsimp only
  repeat' split
  all_goals simp [h]

@[simp] theorem nextWf_execRunTimeLimit (h : memWf s) {cluster} : NextWf (execRunTimeLimit cluster s) := by
  unfold execRunTimeLimit
  split <;> simp [h]

@[simp] theorem memWf_resumeHeld (h : memWf s) {l id loc a} : memWf (resumeHeld s l id loc a) := by
  unfold resumeHeld
  split
  · split <;> simp [h]
  all_goals simp [h]

theorem memWf_takeHeld (h : memWf s) {l id} {q : RayAct × State} (e : takeHeld s l id = some q) : memWf q.2 := by
  obtain ⟨_, -, rfl⟩ := Option.map_eq_some_iff.1 e
  simpa using h

@[simp] theorem memWf_replayRay (h : memWf s) {l kind subtree id loc} :
    memWf (replayRay s l kind subtree id loc) := by
  unfold replayRay
  split
  · simp [h]
  · split
    · exact h
    · next w => exact memWf_resumeHeld (memWf_takeHeld h w)
  · exact h

@[simp] theorem memWf_failRay (h : memWf s) {l kind subtree id loc code} :
    memWf (failRay s l kind subtree id loc code) := by
  unfold failRay
  split
  · simp [h]
  · split
    · exact h
    · next w =>
      have taken := memWf_takeHeld h w
      split <;> simp [taken]
  · exact h

end Sys2Proof.Proofs
end

section

/-! SUPPORT. For O59: command queues and their records keep the form. -/

namespace Sys2Proof.Proofs
open Sys2Proof.Machine Sys2Proof.Safety

variable {s : State}

/-! ### Events of command queues and records -/

@[simp] theorem memWf_modCmdQueue {ctx q f} : memWf (modCmdQueue s ctx q f) ↔ memWf s := Iff.rfl

@[simp] theorem memWf_ringDoorbell {ctx offset value} : memWf (ringDoorbell s ctx offset value) ↔ memWf s := by
  unfold ringDoorbell
  dsimp only
  repeat' split
  all_goals simp

@[simp] theorem memWf_enterReader {die ctx vpn} : memWf (enterReader s die ctx vpn) ↔ memWf s := by simp [enterReader]

@[simp] theorem okWf_writeWord64 (h : memWf s) {ctx va x} : OkWf (writeWord64 s ctx va x) := by
  unfold writeWord64
  split <;> simp [h]

@[simp] theorem memWf_setDue {ctx hd st code} : memWf (setDue s ctx hd st code) ↔ memWf s := Iff.rfl

@[simp] theorem memWf_checkFailed {ctx die r e} : memWf (checkFailed s ctx die r e) ↔ memWf s := by simp [checkFailed]

@[simp] theorem memWf_readerFault (h : memWf s) {ctx die handle code addr} :
    memWf (readerFault s ctx die handle code addr) := by
  simp [readerFault, h]

@[simp] theorem memWf_readerMisses {ctx die r va} : memWf (readerMisses s ctx die r va) ↔ memWf s := by
  simp [readerMisses]

@[simp] theorem memWf_newLaunch {ctx handle descAddr params priority powerCap graph d banks} :
    memWf (newLaunch s ctx handle descAddr params priority powerCap graph d banks) ↔ memWf s := Iff.rfl

@[simp] theorem memWf_beginLaunch {ctx r} : memWf (beginLaunch s ctx r) ↔ memWf s := by
  unfold beginLaunch
  dsimp only
  split <;> simp

@[simp] theorem memWf_beginSignal {ctx r} : memWf (beginSignal s ctx r) ↔ memWf s := by
  unfold beginSignal
  split <;> simp

@[simp] theorem memWf_waitEval (h : memWf s) {ctx r} : memWf (waitEval s ctx r) := by
  unfold waitEval
  split <;> simp [h]

@[simp] theorem memWf_beginWait (h : memWf s) {ctx r} : memWf (beginWait s ctx r) := by
  unfold beginWait
  dsimp only
  split <;> simp [h]

@[simp] theorem memWf_beginMark {ctx r} : memWf (beginMark s ctx r) ↔ memWf s := by
  unfold beginMark
  split <;> simp

@[simp] theorem memWf_beginCancel (h : memWf s) {ctx r} : memWf (beginCancel s ctx r) := by
  unfold beginCancel
  split <;> simp [h]

@[simp] theorem okWf_copySnapshot (h : memWf s) {ctx src dst n} : OkWf (copySnapshot s ctx src dst n) := by
  unfold copySnapshot
  split
  · exact okWf_error _
  · split <;> simp [h]

@[simp] theorem okWf_startReplay (h : memWf s) {ctx r slot} : OkWf (startReplay s ctx r slot) := by
  refine okWf_bind fun _ _ => okWf_bind fun _ _ => okWf_bind fun _ _ => okWf_bind fun s1 w => ?_
  exact .ok (memWf_modMore.2 ((okWf_copySnapshot h).of_eq w))

@[simp] theorem memWf_beginReplay (h : memWf s) {ctx r} : memWf (beginReplay s ctx r) := by
  unfold beginReplay
  split
  · split <;> simp [h]
  · split
    · simp [h]
    · next w => simpa using (okWf_startReplay h).of_eq w

@[simp] theorem memWf_dropBegun {ctx r} : memWf (dropBegun s ctx r) ↔ memWf s := by
  unfold dropBegun
  split <;> simp

@[simp] theorem memWf_beginRecord (h : memWf s) {ctx r} : memWf (beginRecord s ctx r) := by
  unfold beginRecord
  split
  · simp [h]
  · split <;> simp [h]

@[simp] theorem memWf_stopQueue (h : memWf s) {ctx q c code} : memWf (stopQueue s ctx q c code) := by
  simp [stopQueue, h]

@[simp] theorem memWf_takeHeadAs (h : memWf s) {stop ctx q c b} : memWf (takeHeadAs stop s ctx q c b) := by
  have written : memWf ((writeVirtual s ctx (c.head + 4) (leBytes 4 (c.handle q))).getD s) := by simp [h]
  unfold takeHeadAs
  dsimp only
  generalize (writeVirtual s ctx (c.head + 4) (leBytes 4 (c.handle q))).getD s = t at written
  split
  · split <;> simp [written]
  · split <;> simp [written]

@[simp] theorem memWf_readHead (h : memWf s) {kind ctx queue} : memWf (readHead kind ctx queue s) := by
  unfold readHead
  dsimp only
  repeat' split
  all_goals simp [takeHead, h]

@[simp] theorem nextWf_execLaunchRecord (h : memWf s) {ctx queue} : NextWf (execLaunchRecord ctx queue s) := by
  simp [execLaunchRecord, h]

@[simp] theorem nextWf_execGraphReplayRecord (h : memWf s) {ctx queue} :
    NextWf (execGraphReplayRecord ctx queue s) := by
  unfold execGraphReplayRecord
  split <;> simp [h]

@[simp] theorem nextWf_execSignalRecord (h : memWf s) {ctx queue} : NextWf (execSignalRecord ctx queue s) := by
  simp [execSignalRecord, h]

@[simp] theorem nextWf_execWaitRecord (h : memWf s) {ctx queue} : NextWf (execWaitRecord ctx queue s) := by
  simp [execWaitRecord, h]

@[simp] theorem nextWf_execPhaseMarkRecord (h : memWf s) {ctx queue} : NextWf (execPhaseMarkRecord ctx queue s) := by
  simp [execPhaseMarkRecord, h]

@[simp] theorem nextWf_execCancelRecord (h : memWf s) {ctx queue} : NextWf (execCancelRecord ctx queue s) := by
  simp [execCancelRecord, h]

@[simp] theorem nextWf_execWaitRecordReread (h : memWf s) {ctx handle} :
    NextWf (execWaitRecordReread ctx handle s) := by
  unfold execWaitRecordReread
  split <;> simp [h]

@[simp] theorem nextWf_execRecordPageResolved (h : memWf s) {ctx queue} :
    NextWf (execRecordPageResolved ctx queue s) := by
  unfold execRecordPageResolved
  dsimp only
  repeat' split
  all_goals simp [h]

@[simp] theorem memWf_writeSignals (h : memWf s) {ctx hd} {ws} :
    memWf (writeSignals ctx hd ws s).1 := by
  induction ws generalizing s with
  | nil => exact h
  | cons w r ih =>
    unfold writeSignals
    split
    · exact h
    · next e => exact ih (by simpa using (okWf_writeWord64 h).of_eq e)

@[simp] theorem memWf_leavePhase {ctx r st} : memWf (leavePhase s ctx r st) ↔ memWf s := by simp [leavePhase]

@[simp] theorem memWf_finishRecord (h : memWf s) {ctx r st} : memWf (finishRecord s ctx r st) := by
  unfold finishRecord
  dsimp only
  split <;> simp [countOut, h]

@[simp] theorem nextWf_execRecordCompletion (h : memWf s) {ctx handle} :
    NextWf (execRecordCompletion ctx handle s) := by
  unfold execRecordCompletion
  split
  · exact .next h
  · dsimp only
    split
    · exact .next h
    · split
      · exact .next h
      · next r _ _ _ st _ =>
        have written := memWf_writeSignals h (ctx := ctx) (hd := handle) (ws := signalWrites s ctx r st)
        split
        all_goals
          next w =>
          rw [w] at written
          simp [show memWf _ from written]

@[simp] theorem nextWf_execGraphNodeBegin (h : memWf s) {ctx handle node} :
    NextWf (execGraphNodeBegin ctx handle node s) := by
  unfold execGraphNodeBegin
  dsimp only
  repeat' split
  all_goals simp [h]

@[simp] theorem nextWf_execReplaySlotDeadline (h : memWf s) {ctx queue} :
    NextWf (execReplaySlotDeadline ctx queue s) := by
  unfold execReplaySlotDeadline
  split <;> simp [h]

@[simp] theorem nextWf_execQueueReset (h : memWf s) {ctx queue} : NextWf (execQueueReset ctx queue s) := by
  unfold execQueueReset
  split
  · exact .next h
  · split
    · exact .next h
    · exact .next (memWf_onContext (by simp [h]) fun t => memWf_cancelRecords (foldl_memWf t.2 fun _ _ => by simp))

@[simp] theorem nextWf_execQueueResetDone (h : memWf s) {ctx queue} : NextWf (execQueueResetDone ctx queue s) := by
  unfold execQueueResetDone
  split <;> simp [dropRecord, h]

@[simp] theorem nextWf_execSpillRefill (h : memWf s) {q} : NextWf (execSpillRefill q s) := by
  unfold execSpillRefill
  split <;> simp [h]

end Sys2Proof.Proofs
end

section

/-! SUPPORT. For O59: Dray keeps the form. -/

namespace Sys2Proof.Proofs
open Sys2Proof.Machine Sys2Proof.Safety

variable {s : State}

/-! ### Pages under Dray: faults, eviction and migration -/

@[simp] theorem memWf_setLeaf (h : memWf s) {at_ e loc addr} : memWf (setLeaf s at_ e loc addr) := by
  simp [setLeaf, h]

@[simp] theorem memWf_dropTlb {ctx vpn n} : memWf (dropTlb s ctx vpn n) ↔ memWf s := Iff.rfl

@[simp] theorem memWf_decWaits (h : memWf s) {ctx slot} : memWf (decWaits s ctx slot) := by
  unfold decWaits
  split <;> simp [h]

@[simp] theorem memWf_failCore (h : memWf s) {threads words r code va} :
    memWf (failCore s threads words r code va) := by
  unfold failCore
  dsimp only
  split <;> simp [h]

@[simp] theorem memWf_failWork (h : memWf s) {ctx r code va} : memWf (failWork s ctx r code va) := by
  unfold failWork
  dsimp only
  repeat' split
  all_goals simp [h]

@[simp] theorem memWf_failRecord (h : memWf s) {ctx slot code va} : memWf (failRecord s ctx slot code va) := by
  unfold failRecord
  split <;> simp [h]

@[simp] theorem memWf_failReader (h : memWf s) {ctx vpn code} : memWf (failReader s ctx vpn code) := by
  refine foldl_memWf (foldl_memWf (by simp [h]) fun _ _ => ?_) fun _ _ => ?_
  · simp
  · simp

@[simp] theorem memWf_loseAccess (h : memWf s) {a} : memWf (loseAccess s a) := by simp [loseAccess, poisonLoad, h]

@[simp] theorem memWf_sendAway {die a} : memWf (sendAway s die a) ↔ memWf s := by simp [sendAway]

@[simp] theorem memWf_returnAway {ctx base n} : memWf (returnAway s ctx base n) ↔ memWf s := by
  refine foldl_memWf_iff fun a p => ?_
  split
  · split <;> simp
  · rfl

@[simp] theorem memWf_failAway (h : memWf s) {ctx base n} : memWf (failAway s ctx base n) := by simp [failAway, h]

@[simp] theorem memWf_modFault {die f} : memWf (modFault s die f) ↔ memWf s := Iff.rfl

@[simp] theorem memWf_modMerge {die ctx vpn f} : memWf (modMerge s die ctx vpn f) ↔ memWf s := Iff.rfl

@[simp] theorem memWf_dropMerge {die ctx vpn} : memWf (dropMerge s die ctx vpn) ↔ memWf s := Iff.rfl

@[simp] theorem memWf_resolvePage (h : memWf s) {die m} : memWf (resolvePage s die m) := by simp [resolvePage, h]

@[simp] theorem memWf_failPage (h : memWf s) {die m code} : memWf (failPage s die m code) := by
  simp [failPage, h]

@[simp] theorem memWf_toPager (h : memWf s) {die m zero} : memWf (toPager s die m zero) := by
  unfold toPager
  split <;> simp [writeRequest, h]

@[simp] theorem memWf_leafToPool (h : memWf s) {f} : memWf (leafToPool s f) := by
  unfold leafToPool
  dsimp only
  split <;> simp [h]

@[simp] theorem memWf_evictFrame (h : memWf s) {f} : memWf (evictFrame s f) := by simp [evictFrame, h]

@[simp] theorem memWf_evictPage (h : memWf s) {f} : memWf (evictPage s f) := by simp [evictPage, h]

@[simp] theorem memWf_clockTurn {fs} : memWf (clockTurn s fs).1 ↔ memWf s := by
  induction fs generalizing s with
  | nil => exact Iff.rfl
  | cons f r ih =>
    unfold clockTurn
    split
    · exact ih
    · split
      · rw [ih]; simp
      · exact Iff.rfl

@[simp] theorem memWf_clockChoose {die} : memWf (clockChoose s die).1 ↔ memWf s := by
  unfold clockChoose
  dsimp only
  split <;> simp

@[simp] theorem memWf_evictUntil (h : memWf s) {die need fuel} : memWf (evictUntil s die need fuel) := by
  induction fuel generalizing s with
  | zero => exact h
  | succ fuel ih =>
    have chosen : memWf (clockChoose s die).1 := by simp [h]
    unfold evictUntil
    split
    · exact h
    · split
      · next w => rw [w] at chosen; exact chosen
      · next w => rw [w] at chosen; exact ih (by simp [show memWf _ from chosen])

@[simp] theorem memWf_startMigration {die m f n e level zero} :
    memWf (startMigration s die m f n e level zero) ↔ memWf s := by
  simp [startMigration, enterFrame]

theorem memWf_takePoolPage (h : memWf s) {ctx} {q : Nat × State} (e : takePoolPage s ctx = some q) : memWf q.2 := by
  unfold takePoolPage at e
  split at e
  · cases e
  · cases e; simpa using h

@[simp] theorem memWf_servePresent (h : memWf s) {die m e level n} : memWf (servePresent s die m e level n) := by
  unfold servePresent
  split
  · simp [h]
  · dsimp only
    split
    · exact h
    · exact memWf_resolvePage (foldl_memWf h fun _ _ => by simp)

@[simp] theorem memWf_assignPage (h : memWf s) {die m} : memWf (assignPage s die m) := by
  unfold assignPage
  split
  · simp [h]
  · dsimp only
    simp only [memWf_ite, memWf_servePresent h, memWf_toPager h, memWf_failPage h, memWf_dropMerge, h, ite_self,
      if_true_left]
    intros
    split
    · exact h
    · split
      · split
        · next w => simpa using memWf_takePoolPage h w
        · exact h
      · simp [h]

@[simp] theorem memWf_assignWaiting (h : memWf s) {die} : memWf (assignWaiting s die) := by
  refine foldl_memWf h fun a m => ?_
  split <;> simp

@[simp] theorem memWf_evictLacking (h : memWf s) {die} : memWf (evictLacking s die) := by simp [evictLacking, h]

@[simp] theorem memWf_assignAll (h : memWf s) : memWf (assignAll s) :=
  foldl_memWf (foldl_memWf h fun _ _ => memWf_assignWaiting (memWf_val _)) fun a d => by simp

@[simp] theorem memWf_leavesPresent (h : memWf s) {m f n} : memWf (leavesPresent s m f n) := by
  refine foldl_memWf h fun a i => ?_
  split <;> simp

@[simp] theorem memWf_finishFrame (h : memWf s) {die f zero} : memWf (finishFrame s die f zero) := by
  simp [finishFrame, h]

@[simp] theorem memWf_finishMigration (h : memWf s) {die m f} : memWf (finishMigration s die m f) :=
  memWf_resolvePage (foldl_memWf (memWf_leavesPresent h) fun _ _ => by simp)

/-! ### Events of Dray -/

@[simp] theorem memWf_fillTlb {core ctx vpn} : memWf (fillTlb s core ctx vpn) ↔ memWf s := by
  unfold fillTlb
  split <;> simp

@[simp] theorem memWf_dropEntry {die e} : memWf (dropEntry s die e) ↔ memWf s := Iff.rfl

@[simp] theorem nextWf_execFaultEntryForward (h : memWf s) {die} : NextWf (execFaultEntryForward die s) := by
  unfold execFaultEntryForward
  split <;> simp [h]

@[simp] theorem memWf_noteStride {die loc vpn} : memWf (noteStride s die loc vpn) ↔ memWf s := Iff.rfl

@[simp] theorem memWf_resolveEntry (h : memWf s) {e} : memWf (resolveEntry s e) := by
  unfold resolveEntry
  split <;> simp [h]

@[simp] theorem memWf_failEntry (h : memWf s) {e code} : memWf (failEntry s e code) := by
  unfold failEntry
  split <;> simp [h]

@[simp] theorem memWf_takeEntry (h : memWf s) {die e} : memWf (takeEntry s die e) := by
  unfold takeEntry
  dsimp only
  repeat' split
  all_goals simp [joinPage, openPage, h]

@[simp] theorem nextWf_execDrayEntryTake (h : memWf s) {die} : NextWf (execDrayEntryTake die s) := by
  unfold execDrayEntryTake
  split <;> simp [h]

@[simp] theorem someWf_cleanVictims (h : memWf s) {die n fuel} : SomeWf (cleanVictims die n fuel s) := by
  induction fuel generalizing s with
  | zero => exact someWf_none
  | succ fuel ih =>
    have chosen : memWf (clockChoose s die).1 := by simp [h]
    unfold cleanVictims
    split
    · exact .some h
    · split
      · exact someWf_none
      · next w =>
        rw [w] at chosen
        split
        · exact ih (by simp [show memWf _ from chosen])
        · exact someWf_none

@[simp] theorem memWf_addPrediction (h : memWf s) {die ctx vpn n} : memWf (addPrediction s die ctx vpn n) := by
  unfold addPrediction
  dsimp only
  split
  · exact h
  · split
    · simpa using h
    · split
      · exact h
      · next w => simpa using (someWf_cleanVictims h).of_eq w

@[simp] theorem memWf_predictOne {die room} {acc : State × Nat × Nat} (h : memWf acc.1) {p} :
    memWf (predictOne die room acc p).1 := by
  unfold predictOne
  dsimp only
  split
  · exact h
  · split
    · simp [h]
    · split
      · exact h
      · split <;> simp [h]

@[simp] theorem memWf_closeBatch (h : memWf s) {die} : memWf (closeBatch s die) := by
  refine memWf_evictLacking (memWf_assignWaiting (foldl_fst_memWf (foldl_memWf ?_ fun a m => ?_) fun a x b => ?_))
  · exact memWf_assignWaiting (by simp [h])
  · simp
  · exact memWf_predictOne a.2

@[simp] theorem nextWf_execDrayBatchClose (h : memWf s) {die} : NextWf (execDrayBatchClose die s) := by
  unfold execDrayBatchClose
  dsimp only
  split <;> simp [h]

@[simp] theorem memWf_tellLoser (h : memWf s) {f} : memWf (tellLoser s f) := by
  unfold tellLoser
  dsimp only
  split <;> simp [h]

@[simp] theorem memWf_freeEvicted (h : memWf s) {f} : memWf (freeEvicted s f) := by
  have recalled : memWf (recallLines ((linesOf f).foldl applyHeld s) f) :=
    memWf_recallLines.2 (foldl_memWf h fun _ _ => by simp)
  refine memWf_assignAll (memWf_freeLines (memWf_modFrame.2 ?_))
  simp [recalled]

@[simp] theorem memWf_freeSurrendered (h : memWf s) {f} : memWf (freeSurrendered s f) := by
  refine memWf_assignAll (memWf_freeLines (memWf_modFrame.2 (foldl_memWf ?_ fun _ _ => ?_)))
  · simp [h]
  · simp

@[simp] theorem nextWf_execEvictionFrameFree (h : memWf s) {frame} : NextWf (execEvictionFrameFree frame s) := by
  simp [execEvictionFrameFree, h]

@[simp] theorem nextWf_execMigrationTransferDone (h : memWf s) {die ctx vpn} :
    NextWf (execMigrationTransferDone die ctx vpn s) := by
  unfold execMigrationTransferDone
  split
  · exact .next h
  · split <;> simp [h]

@[simp] theorem memWf_replayWork (h : memWf s) {ctx r} : memWf (replayWork s ctx r) := by
  unfold replayWork
  split
  case h_4 => split <;> simp [h]
  all_goals simp [h]

@[simp] theorem nextWf_execRecordReplay (h : memWf s) {ctx slot} : NextWf (execRecordReplay ctx slot s) := by
  unfold execRecordReplay
  split <;> simp [replayRecord, h]

@[simp] theorem memWf_placeWaiting (h : memWf s) {ctx} : memWf (placeWaiting s ctx) := by
  unfold placeWaiting
  split
  · exact h
  · split
    · exact h
    · split
      · next w => exact (someWf_placeRecord (by simpa using h)).of_eq w
      · simp [h]

@[simp] theorem nextWf_execReplaySlotFreed (h : memWf s) {ctx} : NextWf (execReplaySlotFreed ctx s) := by
  simp [execReplaySlotFreed, h]

@[simp] theorem memWf_retryPage {die m} : memWf (retryPage s die m) ↔ memWf s := by simp [retryPage]

@[simp] theorem memWf_failReported (h : memWf s) {die m} : memWf (failReported s die m) := by simp [failReported, h]

@[simp] theorem memWf_takeReply (h : memWf s) {die m r} : memWf (takeReply s die m r) := by
  unfold takeReply
  split
  · split <;> simp [h]
  · simp [h]
  · split <;> simp [h]
  · simp [h]

@[simp] theorem nextWf_execPagerReply (h : memWf s) {die reply} : NextWf (execPagerReply die reply s) := by
  unfold execPagerReply
  split
  · exact .next h
  · split <;> simp [h]

@[simp] theorem nextWf_execPagerlimitExpiry (h : memWf s) {die ctx vpn} :
    NextWf (execPagerlimitExpiry die ctx vpn s) := by
  unfold execPagerlimitExpiry
  split <;> simp [h]

end Sys2Proof.Proofs
end

section

/-! SUPPORT. For O59: traps, rollbacks and partition switches keep the form. -/

namespace Sys2Proof.Proofs
open Sys2Proof.Machine Sys2Proof.Safety

variable {s : State}

/-! ### Events of traps, rollbacks and partitions -/

@[simp] theorem memWf_mailReply {die status reason} : memWf (mailReply s die status reason) ↔ memWf s := Iff.rfl

@[simp] theorem memWf_onMail (h : memWf s) {die} {f : State} (hf : memWf f) : memWf (onMail s die f) := by
  simp [onMail, h, hf]

@[simp] theorem memWf_illegalCommand {die} : memWf (illegalCommand s die) ↔ memWf s := Iff.rfl

@[simp] theorem memWf_trapEnd (h : memWf s) {ctx slot r} : memWf (trapEnd s ctx slot r) := by
  unfold trapEnd
  dsimp only
  split <;> simp [h]

@[simp] theorem memWf_trapCancel (h : memWf s) {ctx slot r} : memWf (trapCancel s ctx slot r) := by
  unfold trapCancel
  split <;> simp [h]

@[simp] theorem memWf_trapAction (h : memWf s) {ctx slot r action} : memWf (trapAction s ctx slot r action) := by
  unfold trapAction
  split <;> simp [trapRetry, trapSkip, h]

@[simp] theorem memWf_resumeTrap (h : memWf s) {die ctx slot action} : memWf (resumeTrap s die ctx slot action) := by
  refine memWf_onMail h ?_
  split
  · simp [h]
  · split <;> simp [h]

@[simp] theorem nextWf_execTraplimitExpiry (h : memWf s) {ctx slot} : NextWf (execTraplimitExpiry ctx slot s) := by
  unfold execTraplimitExpiry
  split <;> simp [h]

@[simp] theorem memWf_takeReplyEntry (h : memWf s) {ctx e} : memWf (takeReplyEntry s ctx e) := by
  unfold takeReplyEntry
  dsimp only
  split <;> simp [h]

@[simp] theorem nextWf_execSvcReply (h : memWf s) {ctx} : NextWf (execSvcReply ctx s) := by
  unfold execSvcReply
  dsimp only
  repeat' split
  all_goals simp [h]

@[simp] theorem memWf_dropThreadRecords {ctx b} : memWf (dropThreadRecords s ctx b) ↔ memWf s := by
  simp [dropThreadRecords]

@[simp] theorem memWf_dropLateBounds {b kregs} : memWf (dropLateBounds s b kregs) ↔ memWf s := by
  simp [dropLateBounds]

@[simp] theorem memWf_reviveRay (h : memWf s) {l p} : memWf (reviveRay l s p) := by
  unfold reviveRay
  dsimp only
  repeat' split
  all_goals simp [h]

@[simp] theorem memWf_reparkRows (h : memWf s) {b} : memWf (reparkRows s b) := by
  unfold reparkRows
  dsimp only
  split <;> simp [h]

@[simp] theorem memWf_rollBack (h : memWf s) {b img} : memWf (rollBack s b img) := by
  unfold rollBack
  simp only [memWf_fileThreads]
  refine memWf_appendEvent (memWf_reparkRows ?_)
  simp only [memWf_modSync, memWf_modBlock, memWf_modThread, memWf_dropRecords, memWf_dropThreadRecords, implies_true,
    foldl_memWf_iff]
  refine foldl_memWf (memWf_unfile.2 ?_) fun _ _ => by simp
  simp [h]

@[simp] theorem nextWf_execRollback (h : memWf s) {block} : NextWf (execRollback block s) := by
  unfold execRollback
  split <;> simp [h]

@[simp] theorem nextWf_execCheckIntervalReport (h : memWf s) {thread bit} :
    NextWf (execCheckIntervalReport thread bit s) := by
  unfold execCheckIntervalReport
  split <;> simp [h]

@[simp] theorem memWf_writeHeld (h : memWf s) {die e} : memWf (writeHeld s die e) := by
  unfold writeHeld
  split
  · next w => exact (someWf_writeEvent (by simpa using h)).of_eq w
  · simp [h]

@[simp] theorem nextWf_execEventHeldWrite (h : memWf s) {die} : NextWf (execEventHeldWrite die s) := by
  unfold execEventHeldWrite
  split <;> simp [h]

@[simp] theorem nextWf_execNotificationMessage (h : memWf s) {ctx} : NextWf (execNotificationMessage ctx s) := by
  simp [execNotificationMessage, h]

@[simp] theorem memWf_retryStructures (h : memWf s) {ctx} : memWf (retryStructures s ctx) := by
  have placed : memWf (onContext s ctx fun x => placeWaiting x ctx) := by simp [h]
  unfold retryStructures
  dsimp only
  split <;> simp [placed]

@[simp] theorem nextWf_execStructureWriteRetry (h : memWf s) {ctx} : NextWf (execStructureWriteRetry ctx s) := by
  unfold execStructureWriteRetry
  split <;> simp [h]

@[simp] theorem memWf_settleInvalidates : memWf (settleInvalidates s) ↔ memWf s := by
  refine foldl_memWf_iff fun a d => ?_
  split <;> simp

@[simp] theorem memWf_setPart {i p} : memWf (setPart s i p) ↔ memWf s := Iff.rfl

@[simp] theorem memWf_startSwitch {die index ctx p} : memWf (startSwitch s die index ctx p) ↔ memWf s := by
  unfold startSwitch
  split <;> simp

@[simp] theorem memWf_trySwitch {die index ctx} : memWf (trySwitch s die index ctx) ↔ memWf s := by simp [trySwitch]

@[simp] theorem memWf_unbundle {core} : memWf (unbundle s core) ↔ memWf s := by simp [unbundle]

@[simp] theorem memWf_parkRun (h : memWf s) {cluster} : memWf (parkRun s cluster) := by
  unfold parkRun
  split <;> simp [h]

@[simp] theorem memWf_parkCluster (h : memWf s) {cluster} : memWf (parkCluster s cluster) := by simp [parkCluster, h]

@[simp] theorem memWf_parkCore (h : memWf s) {core} : memWf (parkCore s core) :=
  foldl_memWf (foldl_memWf (memWf_unbundle.2 h) fun _ _ => by simp) fun _ _ => by simp

@[simp] theorem memWf_saveStructures {ctx p} : memWf (saveStructures s ctx p) ↔ memWf s := by
  simp [saveStructures, dropEngines]

@[simp] theorem memWf_drainEnd (h : memWf s) {index ctx p} : memWf (drainEnd s index ctx p) := by
  have parked : memWf (p.clusters.foldl parkCluster (p.cores.foldl parkCore s)) :=
    foldl_memWf (foldl_memWf h fun _ _ => by simp) fun _ _ => by simp
  have rasters : memWf ((List.range 8).foldl (fun acc b => parkRaster acc ctx b)
      (p.clusters.foldl parkCluster (p.cores.foldl parkCore s))) :=
    foldl_memWf parked fun _ _ => by simp
  unfold drainEnd
  dsimp only
  split
  · simp [h]
  · next w => simpa using (okWf_saveImages rasters).of_eq w

@[simp] theorem nextWf_execPartitionDrainEnd (h : memWf s) {part} : NextWf (execPartitionDrainEnd part s) := by
  unfold execPartitionDrainEnd
  dsimp only
  split <;> simp [h]

@[simp] theorem memWf_seedCores {ctx p} : memWf (seedCores s ctx p) ↔ memWf s := by simp [seedCores]

@[simp] theorem okWf_parkRestored {q : Except Held State} (h : OkWf q) {b} : OkWf (parkRestored q b) := by
  unfold parkRestored
  split
  · simp
  · next w =>
    split
    · simp
    · next w' => simpa using (okWf_parkRows ((okWf_refillBanks h).of_eq w)).of_eq w'

@[simp] theorem okWf_parkExcess {q : Except Held State} (h : OkWf q) {core} : OkWf (parkExcess q core) := by
  unfold parkExcess
  split
  · simp
  · dsimp only
    split
    · exact h
    · exact foldl_okWf (by simpa using h) fun _ _ h => okWf_parkRestored h

@[simp] theorem memWf_settleRows {core} : memWf (settleRows s core) ↔ memWf s := by simp [settleRows]

@[simp] theorem okWf_readBack (h : memWf s) {ctx p} : OkWf (readBack s ctx p) := by
  unfold readBack
  split
  · simp
  · next w =>
    have threads := (okWf_loadThreads h).of_eq w
    split
    · simp
    · next w =>
      have tobs : memWf _ := OkWf.of_eq (foldl_okWf (foldl_okWf (okWf_loadTiles threads)
        fun _ _ h => okWf_parkExcess h) fun _ _ h => okWf_refillTob h) w
      split
      · simp
      · next w => simpa using (foldl_okWf (.ok tobs) fun _ _ h => okWf_refillBanks h).of_eq w

@[simp] theorem memWf_reissueFences {ctx} : memWf (reissueFences s ctx) ↔ memWf s := Iff.rfl

@[simp] theorem memWf_clearChanged (old s : State) (p : Partition) : memWf (clearChanged old s p) ↔ memWf s := by
  simp [clearChanged]

@[simp] theorem okWf_restoreContext {s0 : State} (h : memWf s0) {ctx} {p} : OkWf (restoreContext s0 ctx p) := by
  unfold restoreContext
  dsimp only
  split
  · simp
  · next w => simpa using (okWf_readBack (by simpa using h)).of_eq w

@[simp] theorem memWf_takeWaiting : memWf (takeWaiting s) ↔ memWf s := by
  unfold takeWaiting
  split
  · simp
  · split <;> simp

@[simp] theorem nextWf_execRailSlewDone (h : memWf s) : NextWf (execRailSlewDone s) := by
  simp [execRailSlewDone, railDone, h]

@[simp] theorem memWf_endSwitch {part p} : memWf (endSwitch s part p) ↔ memWf s := by simp [endSwitch, switchRecorded]

@[simp] theorem nextWf_execPartitionRestore (h : memWf s) {part} : NextWf (execPartitionRestore part s) := by
  unfold execPartitionRestore
  dsimp only
  split
  · split
    · simp [h]
    · split
      · exact .next h
      · split
        · simp [h]
        · next w => simpa using (okWf_restoreContext h).of_eq w
  · exact .next h

end Sys2Proof.Proofs
end

section

/-! SUPPORT. For O59: the host, extents, transfers and the device keep the form. -/

namespace Sys2Proof.Proofs
open Sys2Proof.Machine Sys2Proof.Safety

variable {s : State}

/-! ### Events of the host, of extents and of transfers -/

@[simp] theorem memWf_hostComplete (h : memWf s) {a} : memWf (hostComplete s a) := by
  unfold hostComplete
  dsimp only
  repeat' split
  all_goals simp [h]

@[simp] theorem memWf_hostTimeout (h : memWf s) {a} : memWf (hostTimeout s a) := by simp [hostTimeout, h]

@[simp] theorem nextWf_execHostAccessTimeout (h : memWf s) {access} : NextWf (execHostAccessTimeout access s) := by
  simp [execHostAccessTimeout, h]

@[simp] theorem memWf_setExtent {i x} : memWf (setExtent s i x) ↔ memWf s := Iff.rfl

@[simp] theorem memWf_evictExtent (h : memWf s) {x} : memWf (evictExtent s x) := by simp [evictExtent, h]

@[simp] theorem memWf_endLoan (h : memWf s) {i x} : memWf (endLoan s i x) := by
  have cleared : memWf (((List.range (x.len / 4096)).map (x.firstFrame + ·)).foldl
      (fun acc f => modFrame (zeroFrame acc f) f fun y => { y with lent := false }) s) :=
    foldl_memWf h fun _ _ => by simp
  exact memWf_assignAll cleared

@[simp] theorem memWf_extentGone (h : memWf s) {i x} : memWf (extentGone s i x) := by simp [extentGone, h]

@[simp] theorem nextWf_execExtentReleaseDone (h : memWf s) {extent} : NextWf (execExtentReleaseDone extent s) := by
  simp [execExtentReleaseDone, h]

@[simp] theorem memWf_forceRelease (h : memWf s) {i x} : memWf (forceRelease s i x) := by simp [forceRelease, h]

@[simp] theorem nextWf_execExtentDrainDeadline (h : memWf s) {extent} :
    NextWf (execExtentDrainDeadline extent s) := by
  simp [execExtentDrainDeadline, h]

@[simp] theorem nextWf_execLentMemoryRequest (h : memWf s) {extent offset data} :
    NextWf (execLentMemoryRequest extent offset data s) := by
  unfold execLentMemoryRequest
  split <;> simp [answerLent, h]

@[simp] theorem memWf_xferOutcome {ctx x} : memWf (xferOutcome s ctx x) ↔ memWf s := Iff.rfl

@[simp] theorem memWf_askPage (h : memWf s) {ctx va} {fail : FaultCode → State} (hf : ∀ c, memWf (fail c)) :
    memWf (askPage s ctx va fail) := by
  unfold askPage
  split
  · split <;> simp [h, hf]
  · split <;> simp [h]

@[simp] theorem memWf_fetchPage {x} {q : State × Bool × Nat} (h : memWf q.1) {p} :
    memWf (fetchPage x q p).1 := by
  simp [fetchPage, h]

@[simp] theorem memWf_pushPage {x} {q : State × Bool} (h : memWf q.1) {p} :
    memWf (pushPage x q p).1 := by
  unfold pushPage
  dsimp only
  split <;> simp [h]

@[simp] theorem memWf_moveXfer (h : memWf s) {ctx x ps} : memWf (moveXfer s ctx x ps) := by
  unfold moveXfer
  dsimp only
  split <;> simp [h]

@[simp] theorem memWf_beginXfer (h : memWf s) {ctx x} : memWf (beginXfer s ctx x) := by
  unfold beginXfer
  dsimp only
  repeat' split
  all_goals simp [h]

@[simp] theorem nextWf_execXferFetch (h : memWf s) {ctx} : NextWf (execXferFetch ctx s) := by
  unfold execXferFetch
  split <;> simp [h]

@[simp] theorem nextWf_execXferPush (h : memWf s) {ctx} : NextWf (execXferPush ctx s) := by
  unfold execXferPush
  split <;> simp [h]

@[simp] theorem memWf_endXfer (h : memWf s) {ctx i st code} : memWf (endXfer s ctx i st code) := by
  unfold endXfer
  split
  · simp [h]
  · next w => simpa using (someWf_writeVirtual h).of_eq w

@[simp] theorem memWf_finishXfer (h : memWf s) {ctx i x st code} : memWf (finishXfer s ctx i x st code) := by
  unfold finishXfer
  split
  · split
    · next w => exact memWf_endXfer ((okWf_writeWord64 h).of_eq w)
    · simp [h]
    · simp [h]
    · simp [h]
  · simp [h]

@[simp] theorem nextWf_execXferComplete (h : memWf s) {ctx record} : NextWf (execXferComplete ctx record s) := by
  unfold execXferComplete
  split <;> simp [h]

/-! ### Events of the device -/

@[simp] theorem memWf_correctLine {line wrong} : memWf (correctLine s line wrong) ↔ memWf s := by simp [correctLine]

@[simp] theorem nextWf_execPatrolScrub (h : memWf s) {frame wrong} : NextWf (execPatrolScrub frame wrong s) := by
  simp [execPatrolScrub, h]

@[simp] theorem memWf_sweepFrame (h : memWf s) {f} : memWf (sweepFrame s f) := by simp [sweepFrame, h]

@[simp] theorem memWf_displace (h : memWf s) {die a} : memWf (displace die s a) := by simp [displace, h]

@[simp] theorem memWf_loseSamplers {core} : memWf (loseSamplers s core) ↔ memWf s := by simp [loseSamplers]

@[simp] theorem memWf_passFaults {die} : memWf (passFaults s die) ↔ memWf s := Iff.rfl

@[simp] theorem memWf_faultLaunch (h : memWf s) {l} : memWf (faultLaunch s l) := by simp [faultLaunch, h]

@[simp] theorem memWf_loseHeld {die l} : memWf (loseHeld die s l) ↔ memWf s := by simp [loseHeld]

@[simp] theorem memWf_sweepDie (h : memWf s) {die} : memWf (sweepDie s die) := by
  unfold sweepDie
  refine memWf_assignAll ?_
  simp only [memWf_blackBoxAdd, memWf_modDie, memWf_passFaults]
  refine foldl_memWf (foldl_memWf (foldl_memWf (foldl_memWf (foldl_memWf ?_ ?_) ?_) ?_) ?_) ?_
  all_goals simp [h]

@[simp] theorem nextWf_execCensusSweepDone (h : memWf s) {die} : NextWf (execCensusSweepDone die s) := by
  simp [execCensusSweepDone, h]

@[simp] theorem memWf_wake : memWf (wake s) ↔ memWf s := Iff.rfl

@[simp] theorem nextWf_execDeepSleepWake (h : memWf s) {cause} : NextWf (execDeepSleepWake cause s) := by
  unfold execDeepSleepWake
  split <;> simp [h]

@[simp] theorem memWf_setCtxField (h : memWf s) {ctx f v} : memWf (setCtxField s ctx f v) := by
  unfold setCtxField
  split <;> simp [writeSeed, h]

@[simp] theorem memWf_reportSetting (h : memWf s) {detail} : memWf (reportSetting s detail) := by
  unfold reportSetting
  split <;> simp [h]

@[simp] theorem memWf_setFrame {f g} : memWf (setFrame s f g) ↔ memWf s := Iff.rfl

@[simp] theorem memWf_writeField (h : memWf s) {field v} : memWf (writeField s field v) := by
  unfold writeField
  split <;> simp [trimShadow, setCounter, setDieCounter, setQueue, setHdm, setPort, h]

@[simp] theorem memWf_onSpdm {f} : memWf (onSpdm s f) ↔ memWf s := by
  unfold onSpdm
  dsimp only
  repeat' split
  all_goals simp

@[simp] theorem memWf_haltUnit {u} : memWf (haltUnit s u) ↔ memWf s := by
  unfold haltUnit
  split <;> simp

@[simp] theorem memWf_forcedStep : memWf (forcedStep s) ↔ memWf s := by simp [forcedStep]

@[simp] theorem memWf_withinLimit {watts amps} : memWf (withinLimit s watts amps) ↔ memWf s := by
  unfold withinLimit
  dsimp only
  split <;> simp

@[simp] theorem memWf_gateUnit {u} : memWf (gateUnit s u) ↔ memWf s := by
  unfold gateUnit
  split <;> simp

@[simp] theorem memWf_wakeUnit {u} : memWf (wakeUnit s u) ↔ memWf s := by
  unfold wakeUnit
  split <;> simp

@[simp] theorem memWf_dropItem (h : memWf s) {ctx f} : memWf (dropItem s ctx f) := by
  unfold dropItem
  dsimp only
  repeat' split
  all_goals simp [h]

end Sys2Proof.Proofs
end

section

/-! SUPPORT. For O59: the last forms and events, then every instruction and every event: `exec` keeps the form. -/

namespace Sys2Proof.Proofs
open Sys2Proof.Machine Sys2Proof.Safety

variable {s : State}

/-! ### Ray forms -/

theorem memWf_rayqLane {s0 : State} {f} {c} (h : memWf s) {u} {t} {q : State × Word}
    (e : rayqLane s0 f c s u t = .ok q) : memWf q.1 := by
  unfold rayqLane at e
  dsimp only at e
  split at e
  · cases e
  · split at e
    · cases e; exact h
    · cases e
      dsimp only
      split
      · exact memWf_completeRay (by simp [h])
      · exact memWf_fileRay (by simp [h])

@[simp] theorem nextWf_execRayq (h : memWf s) {f} : NextWf (execRayq f s) := by
  refine .next (memWf_withScene h (by simp [h]) fun c => ?_)
  split
  · next w => exact (someWf_planFault h).of_eq w
  · split
    · simp [h]
    · next w =>
      refine memWf_underQuota h (OkWf.of_eq ?_ w)
      exact okWf_eachLaneChecked (by simp [h]) fun a _ _ _ e => memWf_rayqLane a.2 e

@[simp] theorem memWf_raywLane {f u t} : memWf (raywLane f s u t) ↔ memWf s := by
  unfold raywLane
  split <;> simp

@[simp] theorem memWf_raywForm (h : memWf s) {f plans} : memWf (raywForm s f plans) := by
  unfold raywForm
  split
  · next w => exact (someWf_planFault h).of_eq w
  · simp [h]

@[simp] theorem memWf_readPart (h : memWf s) {f} {ord} {plan : Thread → Plan} :
    memWf (readPart s f ord plan) := by
  unfold readPart
  dsimp only
  split
  · next w => exact (someWf_planFault h).of_eq w
  · simp [h]

/-! ### Service and special-register forms -/

@[simp] theorem memWf_svcwLane {f} {s0 s : State} (h : memWf s) {u} {t} : memWf (svcwLane f s0 s u t) := by
  unfold svcwLane
  dsimp only
  split
  · simp [h]
  · split
    · exact h
    · simp [h]

@[simp] theorem memWf_trapForm (h : memWf s) {f code kind trapCode arg} :
    memWf (trapForm s f code kind trapCode arg) := by
  simp [trapForm, h]

@[simp] theorem nextWf_execRds (h : memWf s) {f} : NextWf (execRds f s) := by
  unfold execRds
  split <;> simp [h]

/-! ### Events of bundles, bins and waits -/

@[simp] theorem memWf_drawDue {core bin} : memWf (drawDue s core bin) ↔ memWf s := by
  unfold drawDue
  split <;> simp [drawBin, setLanes]

@[simp] theorem nextWf_execBundleDraw (h : memWf s) {core bin} : NextWf (execBundleDraw core bin s) := by
  simp [execBundleDraw, h]

@[simp] theorem nextWf_execBinAgeLimitExpiry (h : memWf s) {core bin} :
    NextWf (execBinAgeLimitExpiry core bin s) := by
  unfold execBinAgeLimitExpiry
  split <;> simp [h]

@[simp] theorem nextWf_execFilingQueueDrain (h : memWf s) {core} : NextWf (execFilingQueueDrain core s) := by
  simp [execFilingQueueDrain, h]

@[simp] theorem someWf_conditionMet (h : memWf s) {u t w} : SomeWf (conditionMet s u t w) := by
  unfold conditionMet
  dsimp only
  repeat' split
  all_goals simp [h]

@[simp] theorem memWf_expiredRegs {u t w} : memWf (expiredRegs s u t w) ↔ memWf s := by
  unfold expiredRegs
  split <;> simp

@[simp] theorem memWf_settleExpired (h : memWf s) {us w u} : memWf (settleExpired us w s u) := by
  unfold settleExpired
  split <;> simp [h]

@[simp] theorem memWf_deadlinePassed (h : memWf s) {u t w} : memWf (deadlinePassed s u t w) := by
  simp [deadlinePassed, h]

@[simp] theorem someWf_coachConditionMet (h : memWf s) {core c w} : SomeWf (coachConditionMet s core c w) := by
  unfold coachConditionMet
  split <;> simp [h]

@[simp] theorem memWf_coachDeadlinePassed (h : memWf s) {core w} : memWf (coachDeadlinePassed s core w) := by
  unfold coachDeadlinePassed
  split <;> simp [h]

@[simp] theorem memWf_onWait (h : memWf s) {x} {thread : Nat → Thread → Wait → State}
    {coach : Nat → Coach → Wait → State} (ht : ∀ u t w, memWf (thread u t w))
    (hc : ∀ g c w, memWf (coach g c w)) : memWf (onWait s x thread coach) := by
  unfold onWait
  split
  · split
    · exact h
    · split
      · exact h
      · simp [h, ht]
  · dsimp only
    split
    · exact h
    · simp [h, hc]

@[simp] theorem someWf_exitSettled (h : memWf s) {w} : SomeWf (exitSettled s w) := by
  unfold exitSettled
  split
  · exact someWf_none
  · split <;> simp [h]

@[simp] theorem nextWf_execWaitConditionMet (h : memWf s) {w} : NextWf (execWaitConditionMet w s) :=
  .next (memWf_getD (someWf_exitSettled h) (memWf_onWait h (fun _ _ _ => by simp [h]) fun _ _ _ => by simp [h]))

@[simp] theorem nextWf_execWaitDeadlineExpiry (h : memWf s) {w} : NextWf (execWaitDeadlineExpiry w s) := by
  refine .next (memWf_onWait h (fun u t x => ?_) fun g c x => ?_)
  · simp [h]
  · simp [h]

@[simp] theorem nextWf_execBlockLevelCheck (h : memWf s) {block} : NextWf (execBlockLevelCheck block s) := by
  simp [execBlockLevelCheck, h]

/-! ### Every instruction and every event -/

/-- Each instruction and each event by the lemmas of its own acts; the arms that are one act are unfolded here. -/
@[simp] theorem nextWf_exec (h : memWf s) {i : Instr} : NextWf (exec i s) := by
  cases i with
  -- integer forms
  | iadd | iadd3 | isub | addc | imul | imulh | imad | imadw | imin | imax | iabs | ineg | andL | orL | xorL |
    notL | logt | shl | shr | sar | fsh | rotl | bfx | bfi | popc | clz | ctz | brev | bsel | iset | sel | mov
    | movi | movh | lea | leaw | plop =>
    simp [exec, execIadd, execIadd3, execIsub, execImul, execImulh, execImad, execImadw, execImin, execImax,
      execIabs, execIneg, execAnd, execOr, execXor, execNot, execLogt, execShl, execShr, execSar, execFsh,
      execRotl, execBfx, execBfi, execPopc, execClz, execCtz, execBrev, execBsel, execSel, execMov, execLea,
      execLeaw, execPlop, h]
  -- floating forms
  | fadd | fsub | fmul | ffma | fmin | fmax | fset | frnd | fclass | f2i | i2f | f2f | hadd2 | hmul2 | hfma2 |
    hmin2 | hmax2 | badd2 | bmul2 | bfma2 | frcp | frsq | fsqrt | fex2 | flg2 | fsin | fcos | ftanh | cvt8 |
    cvt4 | cvtl | scv =>
    simp [exec, execFadd, execFsub, execFmul, execFfma, execFmin, execFmax, execFset, execFrnd, execFclass,
      execF2i, execI2f, execF2f, execHadd2, execHmul2, execHfma2, execHmin2, execHmax2, execBadd2, execBmul2,
      execBfma2, execFrcp, execFrsq, execFsqrt, execFex2, execFlg2, execFsin, execFcos, execFtanh, execCvt8,
      execCvt4, execCvtl, execScv, h]
  -- lane-exchange forms
  | shfl | vote | redux | pscan | matchLanes =>
    simp [exec, execShfl, execVote, execRedux, execPscan, execMatch, h]
  -- loads, stores, atomics and fences
  | ldl | stl | lds | sts | ldc | ldcBlock | stc | ldk | ldg | ldgBlock | stg | ldh | ldhBlock | sth | ats |
    atc | atg | ath | reds | redg | fence | pref =>
    simp [exec, execLdl, execStl, execLds, execSts, execLdc, execLdcBlock, execStc, execLdk, execLdg,
      execLdgBlock, execStg, execLdh, execLdhBlock, execSth, execAts, execAtc, execAtg, execAth, execReds,
      execRedg, execPref, h]
  -- copy, transaction-barrier and circular-buffer forms
  | cpy | cps | cpx | cpg | cpc | cpw | tbi | tba | tbe | tbw | cbget | cbput | cbputInit =>
    simp [exec, execCpy, execCps, execCpx, execCpg, execCpc, execTbi, execTba, execTbe, execCbget, execCbput,
      h]
  -- matrix forms
  | mmal6 | mmae2 | mmaf8a | mmaf8b | mmab16 | mmai8 | rsv | rls | accz | accld | accst | accrd | mwait =>
    simp [exec, execMmal6, execMmae2, execMmaf8a, execMmaf8b, execMmab16, execMmai8, execRsv, execRls,
      execAccz, execAccld, execAccst, execAccrd, execMwait, h]
  -- branches, calls, loops and the K registers
  | kdecl | sign | bra | brx | call | callx | ret | exitThread | reform | repeatLoop | nop | yieldThread =>
    simp [exec, execKdecl, execSign, execReform, execNop, execYieldThread, h]
  -- ray forms
  | rayq | rayw | rayr | hitx =>
    simp [exec, execRayw, execRayr, execHitx, hitId, h]
  -- texture and primitive forms
  | texs | texg | texq | atreq | atget | prim =>
    simp [exec, execTexs, execTexg, execTexq, execAtget, h]
  -- barrier forms
  | bara | barw | bars | barx =>
    simp [exec, execBarw, execBars, execBarx, h]
  -- queues, spawns and cancels
  | qsend | qrecv | spawn | cancel | cmpl =>
    simp [exec, execCmpl, cmplLane, h]
  -- service and special-register forms
  | svc | svcw | trap | bkpt | chke | rds | wrs =>
    simp [exec, execSvc, postCall, execSvcw, execTrap, execBkpt, execChke, execWrs, writeBound, h]
  -- clauses and bundles
  | clauseFetch =>
    simp [exec, execClauseFetch, h]
  -- events of bundles, bins and waits
  | bundleDraw | binAgeLimitExpiry | filingQueueDrain | waitConditionMet | waitDeadlineExpiry |
    blockLevelCheck =>
    simp [exec, h]
  -- events of blocks and of the operating point
  | blockPlacement | blockEnd | blockEviction | opStepDownOrder | evaclimitExpiry | rowEvacuation |
    opClockSwitch | opStepUp | parkedBlockRefill | holdlimitExpiry =>
    simp [exec, execOpStepDownOrder, execOpStepUp, h]
  -- events of traps, rollbacks and partitions
  | partitionDrainEnd | partitionRestore | railSlewDone | checkIntervalReport | eventHeldWrite |
    notificationMessage | structureWriteRetry | trapResumeRetry | trapResumeSkip | trapResumeEnd |
    trapResumeCancel | traplimitExpiry | svcReply | rollback | translationInvalidate | uptLoad |
    partitionDefine | partitionSwitch | partitionFree | contextCreation | contextDestruction =>
    simp [exec, execTrapResumeRetry, execTrapResumeSkip, execTrapResumeEnd, execTrapResumeCancel,
      execTranslationInvalidate, execUptLoad, execPartitionDefine, execPartitionSwitch, execPartitionFree,
      execContextCreation, execContextDestruction, forgetContext, forgetWork, h]
  -- events of accesses
  | loadDataReturn | storePerformed | releaseWhWaitEnd | atomicRequestApply | hotQueueRetire |
    blockingLoadReread | hPollReread | l1FillRequest | leaseExpiry | writeApply | transientRefusalRetry |
    transientLineRelease =>
    simp [exec, execL1FillRequest, h]
  -- events of the directory
  | dirReadRequest | dirOwnershipRequest | dirUpgradeRequest | dirWriteback | dirAtomicRequest | dirForward |
    invalidationAck | dataMessageReceipt | snoopFilterEviction | backInvalidationSnoop | pageSurrenderAnswer |
    surrenderedPageRefetch | sleepingProbeTimeout =>
    simp [exec, execDirReadRequest, execDirOwnershipRequest, execDirUpgradeRequest, execDirWriteback,
      execDirAtomicRequest, execSleepingProbeTimeout, h]
  -- events of the matrix engines
  | engineCommandRelease | arbiterGrant | matrixPassEpilogue =>
    simp [exec, h]
  -- events of command queues and records
  | doorbellWrite | launchRecord | graphReplayRecord | signalRecord | waitRecord | phaseMarkRecord |
    cancelRecord | waitRecordReread | recordPageResolved | recordCompletion | graphNodeBegin |
    replaySlotDeadline | queueReset | queueResetDone | spillRefill | powerBudgetEval =>
    simp [exec, execDoorbellWrite, execPowerBudgetEval, h]
  -- events of copies
  | movementProgramStart | copyCommandStart | copySectorDelivery | copyComplete | cbSlotTake =>
    simp [exec, h]
  -- events of the ray units
  | omnibusRunStart | subtreeLoadComplete | rayRetire | runTimeLimit | hitListAgeExpiry =>
    simp [exec, h]
  -- events of the raster and texture units
  | binnerFlushDone | rasteriseTile | textureQuadComplete =>
    simp [exec, h]
  -- events of Dray
  | tlbMissWalk | faultEntryForward | drayEntryTake | drayBatchClose | evictionFrameFree |
    migrationTransferDone | recordReplay | replaySlotFreed | pagerReply | pagerlimitExpiry =>
    simp [exec, execTlbMissWalk, h]
  -- events of the host, of extents and of transfers
  | hostAccessComplete | hostAccessTimeout | extentReleaseRequest | extentReleaseDone | extentDrainDeadline |
    extentForcedRelease | extentReclaim | lentMemoryRequest | xferFetch | xferPush | xferComplete |
    budunLinkBringup =>
    simp [exec, execHostAccessComplete, execExtentReleaseRequest, execExtentForcedRelease, execExtentReclaim,
      execBudunLinkBringup, h]
  -- events of the device
  | crcCorrectionDone | patrolScrub | watchdogBeatMiss | dieLoss | censusSweepDone | keyLoad | keyInvalidate |
    opPointRequest | deepSleepEntry | deepSleepWake | supervisorFieldWrite | boot | getVersion |
    getCapabilities | negotiateAlgorithms | getDigests | getCertificate | challenge | getMeasurements |
    keyExchange | finishSession | endSession | mlDsaVendorRequest | debugAuthToken | returnMaterialToken |
    debugStateSet | haltCommand | packagePowerEval | thermalEval | clockGate | unitWake | capabilityFault =>
    simp [exec, execCrcCorrectionDone, execWatchdogBeatMiss, execDieLoss, execKeyLoad, execKeyInvalidate,
      execOpPointRequest, stepTo, execDeepSleepEntry, flushCaches, execSupervisorFieldWrite, execBoot,
      clearPinned, execGetVersion, execGetCapabilities, execNegotiateAlgorithms, execGetDigests,
      execGetCertificate, execChallenge, execGetMeasurements, execKeyExchange, execFinishSession,
      execEndSession, execMlDsaVendorRequest, execDebugAuthToken, execReturnMaterialToken, execDebugStateSet,
      resumeUnits, execHaltCommand, execPackagePowerEval, overLimit, execThermalEval, shutDown, heatStep,
      execClockGate, execUnitWake, execCapabilityFault, h]

end Sys2Proof.Proofs
end

section

/-! PROOF of O59: the due events, the issue of a clause, the passing of time, and the step. -/

namespace Sys2Proof.Proofs
open Sys2Proof.Machine Sys2Proof.Safety

variable {s : State}

theorem firstChange_next {s : State} (l : List (State → Result)) (h : ∀ f ∈ l, NextWf (f s)) {x : Result}
    (e : firstChange s l = some x) : NextWf x := by
  induction l with
  | nil => cases e
  | cons f r ih =>
    have hf := h f (.head r)
    simp only [firstChange] at e
    split at e
    · next t w =>
      split at e
      · exact ih (fun g hg => h g (.tail f hg)) e
      · cases e
        simpa using hf.of_eq w
    · cases e
      exact hf

@[simp] theorem nextWf_placeAnywhere (h : memWf s) {l} : NextWf (placeAnywhere l s) := by
  unfold placeAnywhere
  generalize List.filter _ (List.range 768) = gs
  refine nextWf_getD (fun x => firstChange_next _ fun f hf => ?_) (.next h)
  obtain ⟨g, -, rfl⟩ := List.mem_map.1 hf
  exact nextWf_execBlockPlacement h

@[simp] theorem nextWf_runPosition (h : memWf s) {k p} : NextWf (runPosition k p s) := by
  have ran := nextWf_exec (i := p.2)
    (s := { consumeBad s p.2 with cur := { s.cur with pos := k, word := p.1, fault := none } }) (by simp [h])
  unfold runPosition
  split
  · next w =>
    have done := ran.of_eq w
    split <;> simp [h, done]
  · exact ran

@[simp] theorem nextWf_runPositions {ps} {k} (h : memWf s) : NextWf (runPositions k ps s) := by
  induction ps generalizing k s with
  | nil => exact .next h
  | cons p r ih =>
    have ran := nextWf_runPosition h (k := k) (p := p)
    unfold runPositions
    split
    · next w => exact ih (ran.of_eq w)
    · exact ran

theorem eventsKeep_accessEvents (s : State) (a : Access) : EventsKeep (accessEvents s a) := by
  unfold accessEvents
  simp

theorem eventsKeep_lineEvents (s : State) : EventsKeep (lineEvents s) := by
  simp [lineEvents]

theorem eventsKeep_waiterEvents (w : Waiter) : EventsKeep (waiterEvents w) := by
  simp [waiterEvents]

theorem eventsKeep_waitEvents (s : State) : EventsKeep (waitEvents s) := by
  simp [waitEvents, eventsKeep_waiterEvents]

theorem eventsKeep_engineEvents (s : State) : EventsKeep (engineEvents s) := by
  simp [engineEvents]

theorem eventsKeep_blockEvents (s : State) : EventsKeep (Machine.blockEvents s) := by
  simp [Machine.blockEvents]

theorem eventsKeep_recordEvents (ctx : Nat) (c : Context) (m : CtxMore) : EventsKeep (recordEvents ctx c m) := by
  simp [recordEvents]

theorem eventsKeep_contextEvents (s : State) (ctx : Nat) (c : Context) :
    EventsKeep (Machine.contextEvents s ctx c) := by
  simp [Machine.contextEvents, eventsKeep_recordEvents]

theorem eventsKeep_dieEvents (s : State) (die : Nat) (d : Die) : EventsKeep (dieEvents s die d) := by
  simp [dieEvents]

theorem eventsKeep_rayEvents (s : State) : EventsKeep (rayEvents s) := by
  simp [rayEvents]

theorem eventsKeep_deviceEvents (s : State) : EventsKeep (deviceEvents s) := by
  simp [deviceEvents]

theorem eventsKeep_drawEvents (s : State) : EventsKeep (drawEvents s) := by
  refine (eventsKeep_append _ _).2 ⟨by simp, (eventsKeep_flatMap _ _).2 fun g _ => ?_⟩
  split <;> simp

theorem mem_rotated {α : Type} {k : Nat} {xs : List α} {x : α} (h : x ∈ rotated k xs) : x ∈ xs :=
  (List.mem_append.1 h).elim List.mem_of_mem_drop List.mem_of_mem_take

theorem eventsKeep_dueEvents (s : State) : EventsKeep (dueEvents s) := by
  intro f hf
  obtain ⟨l, hl, hf⟩ := List.mem_flatten.1 hf
  obtain ⟨kind, due, rfl⟩ := List.mem_map.1 (mem_rotated hl)
  refine (?_ : EventsKeep kind) f (mem_rotated hf)
  simp only [dueKinds, List.mem_cons, List.not_mem_nil, or_false] at due
  obtain rfl | rfl | rfl | rfl | rfl | rfl | rfl | rfl | rfl | rfl := due
  · exact (eventsKeep_flatMap _ _).2 fun _ _ => eventsKeep_accessEvents _ _
  · exact eventsKeep_drawEvents s
  · exact eventsKeep_lineEvents s
  · exact eventsKeep_waitEvents s
  · exact eventsKeep_engineEvents s
  · exact eventsKeep_blockEvents s
  · exact (eventsKeep_flatMap _ _).2 fun _ _ => eventsKeep_contextEvents _ _ _
  · exact (eventsKeep_flatMap _ _).2 fun _ _ => eventsKeep_dieEvents _ _ _
  · exact eventsKeep_rayEvents s
  · exact eventsKeep_deviceEvents s

theorem nextWf_firstDue {s : State} (h : memWf s) {r : Result}
    (e : firstChange s (dueEvents s) = some r) : NextWf r :=
  firstChange_next _ (fun f hf => eventsKeep_dueEvents s f hf ⟨s, h⟩) e

@[simp] theorem nextWf_background {s : State} (h : memWf s) : NextWf (background s) :=
  nextWf_getD (fun _ e => nextWf_firstDue h e) (.next h)

@[simp] theorem nextWf_flushFirst {s t : State} (h : memWf s) (ht : memWf t) : NextWf (flushFirst s t) := by
  unfold flushFirst
  dsimp only
  split
  · exact nextWf_background (by simp [h])
  · split
    · exact nextWf_background (by simp [h])
    · simp [ht]

@[simp] theorem nextWf_issueClause (h : memWf s) : NextWf (issueClause s) := by
  have ran := nextWf_runPositions h (ps := s.cur.code) (k := 0)
  unfold issueClause
  split
  · next w =>
    have done := ran.of_eq w
    split
    · simp [h]
    · split
      · exact nextWf_background (by simp [h])
      · split
        · simp [done]
        · exact nextWf_flushFirst h done
  · exact ran

@[simp] theorem nextWf_afterFetch (h : memWf s) : NextWf (afterFetch s) := by
  simp [afterFetch, h]

@[simp] theorem memWf_settle (h : memWf s) : memWf (settle s) := by
  have rays : memWf ((mkeys s.work.rays).foldl closeRays s) := foldl_memWf h fun _ _ => by simp
  simp [settle, rays]

@[simp] theorem memWf_passTime (h : memWf s) : memWf (passTime s) := by simp [passTime, h]

@[simp] theorem nextWf_happen (h : memWf s) {i} : NextWf (happen i s) := by
  have ran := nextWf_exec (i := i) h
  unfold happen
  split
  · next w =>
    have done := ran.of_eq w
    split <;> simp [done]
  · exact ran

theorem nextWf_eventFirst {s : State} (h : memWf s) {r : Result} (e : eventFirst s = some r) : NextWf r := by
  unfold eventFirst at e
  split at e
  · exact nextWf_firstDue h e
  · cases e

theorem nextWf_runStep {s : State} (h : memWf s) : NextWf (runStep s) := by
  have passed : memWf (passTime s) := memWf_passTime h
  unfold runStep
  dsimp only
  split
  · simp [passed]
  · split
    · simp
    · split
      · next e => exact nextWf_eventFirst passed e
      · have fetched := nextWf_exec (i := .clauseFetch) passed
        split
        · next w => exact nextWf_afterFetch (fetched.of_eq w)
        · exact fetched

/-- Settles O59: a step goes on by an event, by a clause's fetch or by the clause's instructions, each of which is
`exec` of one instruction between acts that write no byte; and of all that `exec` reaches, only `writeCells` and
`zeroFrame` change the cells of a memory, by `setCells_wf` and `filter_wf` into cells in form. -/

theorem memoryFormKept : Obligations.MemoryFormKept :=
  fun _ _ h stepped => (nextWf_runStep h).of_eq stepped

end Sys2Proof.Proofs
end

section
/-! PROOF of the statements on addresses, O14 and O18: what an aligned and translated access names, and the exception of a
position one of whose addresses fails a check (09 R209, R212, 10 R226 to R228). -/

namespace Sys2Proof.Proofs

open Sys2Proof.Machine Sys2Proof.Safety

/-! ### O14 (10 R226, R227, 09 R209, R212) -/

/-- An access of one part names the bytes from where its address translates to. -/
theorem planParts_single_eq_names {s : State} {core ctx addr va len : Nat} {n : Need} {m : Mem} {as : List Nat} :
    planParts s core ctx n addr [(va, len)] = .names m as ↔ ∃ p : Place, translate s core ctx va n = .ok p
      ∧ m = p.mem.1 ∧ as = (List.range len).map (p.mem.2 + ·) := by
  cases translated : translate s core ctx va n with
  | error c => cases c <;> simp [planParts, translated]
  | ok p => simp [planParts, translated, eq_comm]

theorem planG_eq_names {s : State} {t : Thread} {n : Need} {va : Int} {size : Nat} {m : Mem} {as : List Nat} :
    planG s t n va size = .names m as ↔ va % size = 0 ∧ 0 ≤ va ∧ va < 2 ^ 56 ∧ ∃ p : Place,
      translate s s.cur.core (ctxOfBlock s t.block) va.toNat n = .ok p
      ∧ m = p.mem.1 ∧ as = (List.range size).map (p.mem.2 + ·) := by
  unfold planG
  split
  · next misaligned => simp [misaligned]
  · next aligned =>
    split
    · next outside =>
      refine iff_of_false (by simp) ?_
      rintro ⟨-, low, high, -⟩
      omega
    · next inside =>
      have bounds : 0 ≤ va ∧ va < 2 ^ 56 := by omega
      rw [planParts_single_eq_names]
      simp only [not_not.1 aligned, bounds, true_and]

/-- The two windows of S space: rows of the block's scratchpad, and of the core's TOB from 800000H up (09 R209). -/
theorem planWindow_eq_names {s : State} {block core size : Nat} {o : Int} {m : Mem} {as : List Nat} :
    planWindow s block core o size = .names m as ↔ o % size = 0 ∧ 0 ≤ o ∧ o < 2 ^ 24
      ∧ (if o < 0x800000 then
          o + size ≤ 128 * (launchOfBlock s block).desc.rows ∧ m = .scratch block
            ∧ as = (List.range size).map (o.toNat + ·)
        else
          o - 0x800000 + size ≤ 8192 * (roleBanks (coreOf s core) 2).length ∧ m = .tob core
            ∧ as = (List.range size).map ((o - 0x800000).toNat + ·)) := by
  unfold planWindow
  split
  · next misaligned => simp [misaligned]
  · next aligned =>
    split
    · next outside =>
      refine iff_of_false (by simp) ?_
      rintro ⟨-, low, high, -⟩
      omega
    · next inside =>
      obtain ⟨k, rfl⟩ : ∃ k : Nat, o = k := ⟨o.toNat, by omega⟩
      have small : (k : Int) < 2 ^ 24 := by omega
      simp only [not_not.1 aligned, Int.natCast_nonneg, small, true_and, Int.toNat_natCast]
      by_cases scratch : k < 0x800000
      · have low : (k : Int) < 0x800000 := by omega
        by_cases fits : k + size ≤ 128 * (launchOfBlock s block).desc.rows
        · have fitsInt : (k : Int) + size ≤ 128 * (launchOfBlock s block).desc.rows := by omega
          simp [windowOk, windowPlace, scratch, low, fits, fitsInt, eq_comm]
        · have fitsInt : ¬(k : Int) + size ≤ 128 * (launchOfBlock s block).desc.rows := by omega
          simp [windowOk, scratch, low, fits, fitsInt]
      · have high : ¬(k : Int) < 0x800000 := by omega
        have offset : ((k : Int) - 0x800000).toNat = k - 0x800000 := by omega
        by_cases fits : k - 0x800000 + size ≤ 8192 * (roleBanks (coreOf s core) 2).length
        · have fitsInt : (k : Int) - 0x800000 + size ≤ 8192 * (roleBanks (coreOf s core) 2).length := by omega
          simp [windowOk, windowPlace, scratch, high, fits, fitsInt, offset, eq_comm]
        · have fitsInt : ¬(k : Int) - 0x800000 + size ≤ 8192 * (roleBanks (coreOf s core) 2).length := by omega
          simp [windowOk, scratch, high, fits, fitsInt]

/-- Settles O14: a G access is one part, an S access one window. -/
theorem addressFormation : Obligations.AddressFormation :=
  ⟨fun _ _ _ _ _ _ _ _ _ => planG_eq_names, fun _ _ _ _ _ _ _ _ _ => planWindow_eq_names⟩

/-! ### O18 (10 R227, R228) -/

theorem mem_foldr_addPage {ps qs : List (Nat × Nat)} {q : Nat × Nat} (listed : q ∈ ps ∨ q ∈ qs) :
    ∃ p ∈ ps.foldr addPage qs, p.1 = q.1 := by
  induction ps with
  | nil => exact ⟨q, listed.resolve_left (List.not_mem_nil), rfl⟩
  | cons r ps ih =>
    by_cases same : q.1 = r.1
    · exact ⟨r, List.mem_cons_self, same.symm⟩
    · have later : q ∈ ps ∨ q ∈ qs := listed.imp_left fun h =>
        (List.mem_cons.1 h).resolve_left fun e => same (congrArg Prod.fst e)
      obtain ⟨p, entered, page⟩ := ih later
      exact ⟨p, List.mem_cons_of_mem _ (List.mem_filter.2 ⟨entered, by simpa [page] using same⟩), page⟩

/-- What a position reports is a plan of one of its lanes that fails. -/
theorem mem_of_worstPlan {plans : List Plan} {k a : Nat} {c : FaultCode} {ps : List (Nat × Nat)}
    (h : worstPlan plans = some (k, c, a, ps)) : ∃ qs, Plan.fails k c a qs ∈ plans := by
  induction plans generalizing k c a ps with
  | nil => cases h
  | cons p r ih =>
    cases p with
    | names m as =>
      obtain ⟨qs, listed⟩ := ih h
      exact ⟨qs, List.mem_cons_of_mem _ listed⟩
    | fails k1 c1 a1 ps1 =>
      unfold worstPlan at h
      split at h
      · cases h
        exact ⟨_, List.mem_cons_self⟩
      · next rest =>
        split at h
        · cases h
          exact ⟨_, List.mem_cons_self⟩
        · cases h
          obtain ⟨qs, listed⟩ := ih rest
          exact ⟨qs, List.mem_cons_of_mem _ listed⟩

section
variable {k a : Nat} {c : FaultCode} {l : List (Nat × Nat)}

/-- The first of a list of plans stands where no later one fails an earlier check. -/
theorem worstPlan_head {r : List Plan} (least : ∀ k' c' a' l', Plan.fails k' c' a' l' ∈ r → k ≤ k') :
    ∃ ps, worstPlan (.fails k c a l :: r) = some (k, c, a, ps) ∧ ∀ q ∈ l, ∃ p ∈ ps, p.1 = q.1 := by
  cases rest : worstPlan r with
  | none => exact ⟨l, by rw [worstPlan, rest], fun q listed => ⟨q, listed, rfl⟩⟩
  | some w =>
    obtain ⟨k2, c2, a2, ps2⟩ := w
    obtain ⟨qs, later⟩ := mem_of_worstPlan rest
    refine ⟨l.foldr addPage ps2, ?_, fun q listed => mem_foldr_addPage (.inl listed)⟩
    rw [worstPlan, rest]
    exact if_pos (least _ _ _ _ later)

/-- Plans before it that fail later checks only change the pages listed. -/
theorem worstPlan_append {xs r : List Plan} {ps : List (Nat × Nat)} (worst : worstPlan r = some (k, c, a, ps))
    (less : ∀ k' c' a' l', Plan.fails k' c' a' l' ∈ xs → k < k') :
    ∃ ps', worstPlan (xs ++ r) = some (k, c, a, ps') ∧ ∀ q ∈ ps, ∃ p ∈ ps', p.1 = q.1 := by
  induction xs with
  | nil => exact ⟨ps, worst, fun q listed => ⟨q, listed, rfl⟩⟩
  | cons x xs ih =>
    obtain ⟨ps', found, kept⟩ := ih fun k' c' a' l' listed => less k' c' a' l' (List.mem_cons_of_mem _ listed)
    cases x with
    | names m as => exact ⟨ps', found, kept⟩
    | fails k1 c1 a1 l1 =>
      have later : ¬k1 ≤ k := Nat.not_le.2 (less k1 c1 a1 l1 List.mem_cons_self)
      refine ⟨l1.foldr addPage ps', ?_, fun q listed => ?_⟩
      · rw [List.cons_append, worstPlan, found]
        exact if_neg later
      · obtain ⟨p, entered, page⟩ := kept q listed
        obtain ⟨p', stands, page'⟩ := mem_foldr_addPage (ps := l1) (.inr entered)
        exact ⟨p', stands, page'.trans page⟩

end

/-- The participating lanes among some threads. -/
def activeAmong (s : State) (g : Guard) (us : List Nat) : List (Nat × Thread) :=
  (us.filterMap fun u => (threadOf s u).map fun t => (u, t)).filter fun p => guardOn g p.2.regs

theorem activeLanes_eq_activeAmong (s : State) (g : Guard) : activeLanes s g = activeAmong s g s.cur.lanes := rfl

theorem mem_of_mem_activeAmong {s : State} {g : Guard} {us : List Nat} {p : Nat × Thread}
    (h : p ∈ activeAmong s g us) : p.1 ∈ us := by
  obtain ⟨u, member, thread⟩ := List.mem_filterMap.1 (List.mem_of_mem_filter h)
  obtain ⟨x, -, rfl⟩ := Option.map_eq_some_iff.1 thread
  exact member

theorem activeAmong_append_cons {s : State} {g : Guard} {u : Nat} {t : Thread} (found : threadOf s u = some t)
    (active : guardOn g t.regs = true) (xs ys : List Nat) :
    activeAmong s g (xs ++ u :: ys) = activeAmong s g xs ++ (u, t) :: activeAmong s g ys := by
  simp [activeAmong, found, active]

/-- A participating lane splits the participating lanes: those before it stand before it in the bundle. -/
theorem activeLanes_split {s : State} {g : Guard} {u : Nat} {t : Thread} (lane : u ∈ s.cur.lanes)
    (found : threadOf s u = some t) (active : guardOn g t.regs = true) :
    ∃ xs ys, activeLanes s g = xs ++ (u, t) :: ys ∧ ∀ p ∈ xs, s.cur.lanes.idxOf p.1 < s.cur.lanes.idxOf u := by
  obtain ⟨before, after, bundle, fresh⟩ := List.eq_append_cons_of_mem lane
  refine ⟨activeAmong s g before, activeAmong s g after, ?_, fun p listed => ?_⟩
  · rw [activeLanes_eq_activeAmong, bundle, activeAmong_append_cons found active]
  · have member := mem_of_mem_activeAmong listed
    rw [bundle, List.idxOf_append_of_mem member, List.idxOf_append_of_notMem fresh, List.idxOf_cons_self]
    exact Nat.lt_add_right _ (List.idxOf_lt_length_of_mem member)

/-- The exception that a form takes where a lane's address fails a check, as O18 states it: of the earliest check that
fails, of the lowest lane that fails it. -/
def takesEarliestFault (i : Instr) (g : Guard) (plan : State → Thread → Plan) : Prop :=
  ∀ s, s.cur.lanes.Nodup →
    ∀ u th k c a l, u ∈ s.cur.lanes → threadOf s u = some th → guardOn g th.regs = true →
      plan s th = .fails k c a l →
      (∀ v tv k' c' a' l', v ∈ s.cur.lanes → threadOf s v = some tv → guardOn g tv.regs = true →
        plan s tv = .fails k' c' a' l' → k < k' ∨ (k = k' ∧ s.cur.lanes.idxOf u ≤ s.cur.lanes.idxOf v)) →
      ∃ ps, exec i s = .next (deliver s { code := c, pos := s.cur.pos, addr := a, pages := ps })
        ∧ ∀ q ∈ l, ∃ p ∈ ps, p.1 = q.1

theorem takesEarliestFault_of_planFault {i : Instr} {g : Guard} {plan : State → Thread → Plan}
    (arm : ∀ s s1, planFault s ((activeLanes s g).map fun p => plan s p.2) = some s1 → exec i s = .next s1) :
    takesEarliestFault i g plan := by
  intro s _ u th k c a l lane found active fails least
  obtain ⟨xs, ys, split, before⟩ := activeLanes_split lane found active
  have others (p : Nat × Thread) (listed : p ∈ activeLanes s g) {k' c' a' l'} (failing : plan s p.2 = .fails k' c' a' l') :
      k < k' ∨ (k = k' ∧ s.cur.lanes.idxOf u ≤ s.cur.lanes.idxOf p.1) := by
    obtain ⟨lane', found', active'⟩ := of_mem_activeLanes listed
    exact least p.1 p.2 k' c' a' l' lane' found' active' failing
  obtain ⟨ps, worst, pages⟩ := worstPlan_head (k := k) (c := c) (a := a) (l := l) (r := ys.map fun p => plan s p.2) <| by
    intro k' c' a' l' listed
    obtain ⟨p, member, failing⟩ := List.mem_map.1 listed
    have order := others p (by rw [split]; simp [member]) failing
    omega
  obtain ⟨ps', worst', pages'⟩ := worstPlan_append (xs := xs.map fun p => plan s p.2) worst <| by
    intro k' c' a' l' listed
    obtain ⟨p, member, failing⟩ := List.mem_map.1 listed
    have order := others p (by rw [split]; simp [member]) failing
    have earlier := before p member
    omega
  refine ⟨ps', arm s _ ?_, fun q listed => ?_⟩
  · rw [split, List.map_append, List.map_cons, fails, planFault, worst']
  · obtain ⟨p, entered, page⟩ := pages q listed
    obtain ⟨p', stands, page'⟩ := pages' p entered
    exact ⟨p', stands, page'.trans page⟩

section
variable {s s1 : State} {sp : Space}

@[simp] theorem lanePlans_plans (g : Guard) (n : Need) (a : Src) (off : Int) (size : Size) :
    (lanePlans s g sp n a off size).map (fun p => p.2.2)
      = (activeLanes s g).map fun p => planLane s p.2 sp n a off (sizeBytes size) := by
  simp [lanePlans, Function.comp_def]

theorem loadForm_of_planFault {f : LoadForm} (failed : planFault s ((activeLanes s f.x.guard).map fun p =>
    planLane s p.2 sp { read := true } f.a f.x.off.toInt (sizeBytes f.x.size)) = some s1) : loadForm s sp f = s1 := by
  simp only [loadForm, lanePlans_plans, failed]

theorem storeForm_of_planFault {f : StoreForm} (failed : planFault s ((activeLanes s f.x.guard).map fun p =>
    planLane s p.2 sp { write := true } f.a f.x.off.toInt (sizeBytes f.x.size)) = some s1) : storeForm s sp f = s1 := by
  simp only [storeForm, lanePlans_plans, failed]

theorem atomForm_of_planFault {f : AtomForm} (failed : planFault s ((activeLanes s f.x.guard).map fun p =>
    planLane s p.2 sp { read := true, write := true, cached := decide (sp = .hostH) } f.a (f.x.off.setWidth 9).toInt
      (sizeBytes f.x.size)) = some s1) : atomForm s sp f = s1 := by
  simp only [atomForm, atomOff, lanePlans_plans, failed]

theorem redForm_of_planFault {f : RedForm} (failed : planFault s ((activeLanes s f.x.guard).map fun p =>
    planLane s p.2 sp { read := true, write := true, cached := false } f.a (f.x.off.setWidth 9).toInt
      (sizeBytes f.x.size)) = some s1) : redForm s sp f = s1 := by
  simp only [redForm, atomOff, lanePlans_plans, failed]

theorem blockForm_of_planFault {f : BlockForm} (failed : planFault s ((activeLanes s f.x.guard).map fun p =>
    planLane s p.2 sp { read := true } f.a 0 (sizeBytes f.x.size)) = some s1) : blockForm s sp f = s1 := by
  simp only [blockForm, lanePlans_plans, failed]

end

/-- Settles O18: each form delivers the exception of its lanes' plans before it makes a request. -/
theorem addressFaults : Obligations.AddressFaults := by
  have load {i : LoadForm → Instr} {sp : Space} (arm : ∀ f s, exec (i f) s = .next (loadForm s sp f)) (f : LoadForm) :
      takesEarliestFault (i f) f.x.guard fun s t =>
        planLane s t sp { read := true } f.a f.x.off.toInt (sizeBytes f.x.size) :=
    takesEarliestFault_of_planFault fun s _ failed => (arm f s).trans (congrArg _ (loadForm_of_planFault failed))
  have store {i : StoreForm → Instr} {sp : Space} (arm : ∀ f s, exec (i f) s = .next (storeForm s sp f))
      (f : StoreForm) : takesEarliestFault (i f) f.x.guard fun s t =>
        planLane s t sp { write := true } f.a f.x.off.toInt (sizeBytes f.x.size) :=
    takesEarliestFault_of_planFault fun s _ failed => (arm f s).trans (congrArg _ (storeForm_of_planFault failed))
  have atom {i : AtomForm → Instr} {sp : Space} (arm : ∀ f s, exec (i f) s = .next (atomForm s sp f)) (f : AtomForm) :
      takesEarliestFault (i f) f.x.guard fun s t =>
        planLane s t sp { read := true, write := true, cached := decide (sp = .hostH) } f.a (f.x.off.setWidth 9).toInt
          (sizeBytes f.x.size) :=
    takesEarliestFault_of_planFault fun s _ failed => (arm f s).trans (congrArg _ (atomForm_of_planFault failed))
  have red {i : RedForm → Instr} {sp : Space} (arm : ∀ f s, exec (i f) s = .next (redForm s sp f)) (f : RedForm) :
      takesEarliestFault (i f) f.x.guard fun s t =>
        planLane s t sp { read := true, write := true, cached := false } f.a (f.x.off.setWidth 9).toInt
          (sizeBytes f.x.size) :=
    takesEarliestFault_of_planFault fun s _ failed => (arm f s).trans (congrArg _ (redForm_of_planFault failed))
  have block {i : BlockForm → Instr} {sp : Space} (arm : ∀ f s, exec (i f) s = .next (blockForm s sp f))
      (f : BlockForm) : takesEarliestFault (i f) f.x.guard fun s t =>
        planLane s t sp { read := true } f.a 0 (sizeBytes f.x.size) :=
    takesEarliestFault_of_planFault fun s _ failed => (arm f s).trans (congrArg _ (blockForm_of_planFault failed))
  exact ⟨load fun _ _ => rfl, load fun _ _ => rfl, load fun _ _ => rfl, load fun _ _ => rfl, load fun _ _ => rfl,
    load fun _ _ => rfl, store fun _ _ => rfl, store fun _ _ => rfl, store fun _ _ => rfl, store fun _ _ => rfl,
    store fun _ _ => rfl, atom fun _ _ => rfl, atom fun _ _ => rfl, atom fun _ _ => rfl, atom fun _ _ => rfl,
    red fun _ _ => rfl, red fun _ _ => rfl, block fun _ _ => rfl, block fun _ _ => rfl, block fun _ _ => rfl⟩

end Sys2Proof.Proofs
end

section
/-! REFUTATION of the statements on loads, stores and atomics put in flight, O15, O16 and O17: a release to a host has not
issued yet (10 R234). -/

namespace Sys2Proof.Proofs

open Sys2Proof.Machine Sys2Proof.Safety

/-! ### Requests put in flight (10 R232) -/

/-- Every request of a position has issued or waits as the position's form says. -/
theorem issued_of_mem_numberAccesses {proto a : Access} {gs : List (List LaneReq)} {id : Nat}
    (h : a ∈ numberAccesses proto gs id) : a.issued = proto.issued := by
  induction gs generalizing id with
  | nil => cases h
  | cons g gs ih =>
    obtain rfl | later := List.mem_cons.1 h
    · rfl
    · exact ih later

/-- 10 R234: whether a form's requests wait for `%wh`, or for what its thread did before, ere they issue. -/
def waitsToIssue (proto : Access) : Bool :=
  proto.ordering == .rel && ((proto.space == .globalG && atLeastDie proto.scope) || proto.space == .hostH)

theorem issueRequests_pend (s : State) (proto : Access) (reqs : List LaneReq) :
    ∃ new, (issueRequests s proto reqs).pend = s.pend ++ new ∧ ∀ a ∈ new, a.issued = !waitsToIssue proto :=
  ⟨numberAccesses { proto with issued := !waitsToIssue proto, since := s.dtime, site := s.cur.addr }
      (groupBySector reqs) s.nextAccess,
    congrArg (fun t => t.pend ++ _)
      (foldl_modThread_eq LaneReq.uid (fun _ t => t.modRegs fun x => x.ctrUp proto.ctr) reqs s),
    fun _ listed => issued_of_mem_numberAccesses listed⟩

/-- A statement of the form `issuesIn` fails where the form puts a release to a host in flight: the statement has it
issued at once, the model lets it wait for what its thread did before. -/
theorem not_issuesIn_of_hostRelease {i : Instr} {k : AccKind} {x : ExtM} {op : Nat} {n : Need} {a : Src} {off : Int}
    {fill : Thread → LaneReq → Prop} {s : State} {u : Nat} {th : Thread} {proto : Access} {reqs : List LaneReq}
    (nodup : s.cur.lanes.Nodup)
    (pass : plansPass s x.guard fun th => planLane s th .hostH n a off (sizeBytes x.size))
    (lane : u ∈ s.cur.lanes) (found : threadOf s u = some th) (active : guardOn x.guard th.regs = true)
    (arm : exec i s = .next (issueRequests s proto reqs)) (release : proto.ordering = .rel)
    (host : proto.space = .hostH) : ¬ issuesIn i k .hostH x op n a off fill := by
  intro issues
  obtain ⟨t, answer, -, -, new, state, forms, -, -, -, -, every⟩ := issues s nodup pass
  obtain ⟨q, listed, -⟩ := every u th lane found active
  have claimed : q.issued = true := by
    obtain ⟨⟨-, -, -, -, -, -, -, -, -, -, -, -, issued⟩, -⟩ := forms q listed
    rw [issued, show (Space.hostH == .globalG) = false from rfl, Bool.and_false, Bool.false_and, Bool.not_false]
  obtain ⟨made, pend, waits⟩ := issueRequests_pend s proto reqs
  have reached : t = issueRequests s proto reqs := by
    rw [arm] at answer
    exact (Host.Outcome.next.inj answer).symm
  have same : new = made := List.append_cancel_left <| by
    rw [← pend, ← reached, state]
  have waiting : q.issued = false := by
    rw [waits q (same ▸ listed), waitsToIssue, release, host]
    rfl
  rw [claimed] at waiting
  cases waiting

/-! ### Forms whose addresses pass (10 R227) -/

section
variable {s : State} {sp : Space}

theorem planFault_lanePlans_of_pass {g : Guard} {n : Need} {a : Src} {off : Int} {size : Size}
    (pass : plansPass s g fun t => planLane s t sp n a off (sizeBytes size)) :
    planFault s ((lanePlans s g sp n a off size).map fun p => p.2.2) = none := by
  rw [lanePlans_plans]
  refine planFault_of_names s (List.forall_mem_map.2 fun p listed => ?_)
  obtain ⟨lane, found, active⟩ := of_mem_activeLanes listed
  exact pass p.1 p.2 lane found active

theorem loadForm_of_pass {f : LoadForm} (pass : plansPass s f.x.guard fun t =>
    planLane s t sp { read := true } f.a f.x.off.toInt (sizeBytes f.x.size)) :
    ∃ reqs, loadForm s sp f = issueRequests s (formAccess s .load sp f.x) reqs := by
  simp only [loadForm, planFault_lanePlans_of_pass pass]
  exact ⟨_, rfl⟩

theorem storeForm_of_pass {f : StoreForm} (pass : plansPass s f.x.guard fun t =>
    planLane s t sp { write := true } f.a f.x.off.toInt (sizeBytes f.x.size)) :
    ∃ reqs, storeForm s sp f = issueRequests s (formAccess s .store sp f.x) reqs := by
  simp only [storeForm, planFault_lanePlans_of_pass pass]
  exact ⟨_, rfl⟩

theorem atomForm_of_pass {f : AtomForm} (pass : plansPass s f.x.guard fun t =>
    planLane s t sp { read := true, write := true, cached := decide (sp = .hostH) } f.a (f.x.off.setWidth 9).toInt
      (sizeBytes f.x.size)) :
    ∃ reqs, atomForm s sp f
      = issueRequests s { formAccess s .atomic sp f.x with op := f.x.off.toNat / 512 } reqs := by
  simp only [atomForm, planFault_lanePlans_of_pass (off := atomOff f.x) pass]
  exact ⟨_, rfl⟩

end

/-! ### A release to a host -/

/-- A thread whose registers read 0: its address is the first byte of page 0. -/
def hostThread : Thread := { block := 1, tid := 0, slot := 0 }

/-- The thread's clause under way. The core's TLB maps page 0, marked `HC`, readable and writable, to frame 1 of a host. -/
def hostState : State :=
  { cores := [(0, { tlb := [{ ctx := 1, vpn := 0, leaf := 0x104D, level := 3 }] })]
    work := { threads := [(1024, hostThread)], blocks := [(1, { launch := 1, core := some 0 })]
              launches := [(1, { ctx := 1 })] }
    cur := { block := 1, lanes := [1024], addr := 0x1000, word := 0x1004, stop := 0x1008 } }

/-- A four-byte access with release order at offset 0, of operation 0. -/
def releaseExt : ExtM :=
  { guard := ⟨false, 0⟩, ctr := 0, scope := .sys, ordering := .rel, size := .b4, sext := false, mask := false, off := 0 }

theorem hostState_pass {n : Need}
    (names : planLane hostState hostThread .hostH n (.reg 2) 0 4 = .names .host [0x1000, 0x1001, 0x1002, 0x1003]) :
    plansPass hostState releaseExt.guard fun t => planLane hostState t .hostH n (.reg 2) 0 4 := by
  intro u th lane found _
  obtain rfl := List.mem_singleton.1 lane
  obtain rfl : hostThread = th := Option.some_inj.1 found
  exact ⟨_, _, names⟩

/-- In `hostState` a form that puts the release in flight refutes its statement. -/
theorem not_issuesIn_of_hostState {i : Instr} {k : AccKind} {op : Nat} {n : Need} {fill : Thread → LaneReq → Prop}
    {proto : Access}
    (names : planLane hostState hostThread .hostH n (.reg 2) 0 4 = .names .host [0x1000, 0x1001, 0x1002, 0x1003])
    (arm : ∃ reqs, exec i hostState = .next (issueRequests hostState proto reqs)) (release : proto.ordering = .rel)
    (host : proto.space = .hostH) : ¬ issuesIn i k .hostH releaseExt op n (.reg 2) 0 fill := by
  obtain ⟨reqs, arm⟩ := arm
  exact not_issuesIn_of_hostRelease (List.nodup_singleton _) (hostState_pass names) (List.mem_singleton.2 rfl) rfl rfl
    arm release host

theorem planLane_hostState_read :
    planLane hostState hostThread .hostH { read := true } (.reg 2) 0 4
      = .names .host [0x1000, 0x1001, 0x1002, 0x1003] := by decide +kernel

theorem planLane_hostState_write :
    planLane hostState hostThread .hostH { write := true } (.reg 2) 0 4
      = .names .host [0x1000, 0x1001, 0x1002, 0x1003] := by decide +kernel

theorem planLane_hostState_atomic :
    planLane hostState hostThread .hostH { read := true, write := true, cached := true } (.reg 2) 0 4
      = .names .host [0x1000, 0x1001, 0x1002, 0x1003] := by decide +kernel

/-- Refutes O15: a load of H space with release order waits before it issues, which the statement says of G releases
alone. -/
theorem not_loadsIssue : ¬ Obligations.LoadsIssue := by
  unfold Obligations.LoadsIssue
  rintro ⟨-, -, -, -, -, ldh⟩
  have pass := hostState_pass planLane_hostState_read
  obtain ⟨reqs, form⟩ := loadForm_of_pass (f := { dst := 1, a := .reg 2, x := releaseExt }) pass
  exact not_issuesIn_of_hostState planLane_hostState_read ⟨reqs, congrArg _ form⟩ rfl rfl
    (ldh { dst := 1, a := .reg 2, x := releaseExt })

/-- Refutes O16: `STH` with release order waits before it issues, which the statement says of G releases alone. -/
theorem not_storesIssue : ¬ Obligations.StoresIssue := by
  unfold Obligations.StoresIssue
  rintro ⟨-, -, -, -, sth⟩
  have pass := hostState_pass planLane_hostState_write
  obtain ⟨reqs, form⟩ := storeForm_of_pass
    (f := { maskSrc := .const 0, a := .reg 2, data := .reg 4, x := releaseExt }) pass
  exact not_issuesIn_of_hostState planLane_hostState_write ⟨reqs, congrArg _ form⟩ rfl rfl
    (sth { maskSrc := .const 0, a := .reg 2, data := .reg 4, x := releaseExt })

/-- Refutes O17: `ATH` with release order waits before it issues, which the statement says of G releases alone. -/
theorem not_atomicsIssue : ¬ Obligations.AtomicsIssue := by
  unfold Obligations.AtomicsIssue
  rintro ⟨-, -, -, ath, -, -⟩
  have pass := hostState_pass planLane_hostState_atomic
  obtain ⟨reqs, form⟩ := atomForm_of_pass (f := { dst := 1, a := .reg 2, operand := .reg 4, x := releaseExt }) pass
  exact not_issuesIn_of_hostState planLane_hostState_atomic ⟨reqs, congrArg _ form⟩ rfl rfl
    (ath { dst := 1, a := .reg 2, operand := .reg 4, x := releaseExt })

end Sys2Proof.Proofs
end

section
/-! SUPPORT. Waits at issue, on the cores and on the Coachman, in the terms of Safety.lean (02 R38, R39, R48, 18 R439). -/

namespace Sys2Proof.Proofs

open Sys2Proof.Machine Sys2Proof.Safety

/-! ### A thread's wait (02 R39, R48) -/

theorem countTimeout_coresDies (s : State) (core : Nat) (st : Status) :
    ∃ cs ds, countTimeout s core st = { s with cores := cs, dies := ds }
      ∧ (st ≠ .timeout → cs = s.cores ∧ ds = s.dies) := by
  by_cases timeout : st = .timeout
  · obtain ⟨cs, ds, counted⟩ := countEvent_coresDies s core 8 1
    exact ⟨cs, ds, (if_pos timeout).trans counted, fun other => absurd timeout other⟩
  · exact ⟨s.cores, s.dies, if_neg timeout, fun _ => ⟨rfl, rfl⟩⟩

/-- The destination of a wait: the register of the thread's pass, in 7 bits. -/
def passDst (t : Thread) (d : Dst) : Dst :=
  match d with
  | .reg n => .reg (BitVec.ofNat 7 (stepReg t.ctl .dst n.toNat))
  | .suppress => .suppress

theorem endAtIssue_eq {a : State} {u : Nat} {t : Thread} (found : threadOf a u = some t) (d : Dst) (x : Deadline)
    (esc : Bool) (st : Status) (val : Word) (acquire : Bool) (more : Regs → Regs) :
    endAtIssue a u d x esc st val acquire more = countTimeout (modThread a u fun t0 =>
      (endRegs a.dtime (ctxOf a (ctxOfBlock a t.block)).f.escLimit (passDst t d) val acquire st a.cur.addr (isPoll x) esc
        t0).modRegs more) a.cur.core st := by
  unfold endAtIssue
  rw [found]
  rfl

/-- What the end of a wait at issue writes in the registers. -/
theorem endRegs_regs (now limit : Nat) (d : Dst) (val : Word) (acquire : Bool) (st : Status) (site : Nat)
    (poll esc : Bool) (t : Thread) :
    let r := (endRegs now limit (passDst t d) val acquire st site poll esc t).regs
    (∀ m, r.get m = if (destReg t d).map (· % 128) = some m then val else t.regs.get m)
    ∧ freshens (fun m => (destReg t d).map (· % 128) = some m) t.regs r
    ∧ r = { t.regs with v := r.v, bad := r.bad, status := BitVec.ofNat 32 st.code,
                        floor := if acquire then max t.regs.floor now else t.regs.floor } := by
  cases d with
  | suppress => exact ⟨fun m => by simp [endRegs, passDst, destReg, Regs.get],
      fun m => by simp [endRegs, passDst, destReg], rfl⟩
  | reg n =>
    refine ⟨fun m => ?_, fun m => ?_, rfl⟩
    · have read := regs_get_set t.regs (stepReg t.ctl .dst n.toNat % 128) m val
      simpa [endRegs, passDst, destReg, Regs.get, eq_comm (a := m)] using read
    · simp [endRegs, passDst, destReg, eq_comm (a := m)]

theorem endAtIssue_endsNow (a : State) (u : Nat) (f : FormW) (st : Status) (val : Word) (acquire : Bool)
    (more : Regs → Regs) :
    endsNow a u f st val acquire more (endAtIssue a u f.dst f.x.deadline f.x.esc st val acquire more) := by
  cases thread : threadOf a u with
  | none =>
    have unchanged : endAtIssue a u f.dst f.x.deadline f.x.esc st val acquire more = a := by
      unfold endAtIssue
      rw [thread]
    rw [unchanged]
    exact ⟨fun th found => by simp [thread] at found, fun _ _ => rfl, rfl, fun _ => ⟨rfl, rfl⟩⟩
  | some t =>
    rw [endAtIssue_eq thread]
    generalize written : (fun t0 => (endRegs a.dtime (ctxOf a (ctxOfBlock a t.block)).f.escLimit (passDst t f.dst) val
      acquire st a.cur.addr (isPoll f.x.deadline) f.x.esc t0).modRegs more) = write
    obtain ⟨cs, ds, counted, kept⟩ := countTimeout_coresDies (modThread a u write) a.cur.core st
    rw [counted]
    refine ⟨fun th found => ⟨write th, threadOf_modThread_same found _, ?_⟩, modThread_others a u _, rfl, kept⟩
    obtain rfl : t = th := Option.some_inj.1 (thread.symm.trans found)
    subst written
    exact ⟨⟨_, rfl, endRegs_regs a.dtime _ f.dst val acquire st a.cur.addr _ f.x.esc t⟩, rfl, rfl⟩

theorem blockThread_blocksNow (a : State) (u : Nat) (f : FormW) (k : WaitKind) :
    blocksNow a u f k (blockThread a u f.dst f.x.deadline f.x.esc k) := by
  unfold blockThread
  cases thread : threadOf a u with
  | none => exact ⟨fun th found => by simp [thread] at found, fun _ _ => rfl, rfl⟩
  | some t =>
    refine ⟨fun th found => ?_, modThread_others a u _, rfl⟩
    obtain rfl : t = th := Option.some_inj.1 (thread.symm.trans found)
    exact ⟨_, threadOf_modThread_same thread _, rfl, ⟨_, rfl, rfl, rfl, rfl, rfl, rfl, rfl⟩, rfl⟩

/-- A wait whose condition does not hold ends late or blocks. -/
theorem blockOrExpire_ends_or_blocks (a : State) (u : Nat) (t : Thread) (f : FormW) (k : WaitKind) (late : Status)
    (val : Word) :
    let b := blockOrExpire a u t f.dst f.x.deadline f.x.esc k late val
    if tooLate a t f.x.deadline then endsNow a u f late val (late == .partialDone) (fun r => r) b
    else blocksNow a u f k b := by
  unfold blockOrExpire
  cases tooLate a t f.x.deadline with
  | true => exact endAtIssue_endsNow a u f late val _ id
  | false => exact blockThread_blocksNow a u f k

/-! ### The Coachman's wait (14 R332) -/

/-- The state differs from another, as far as Coachmen go, in the one of a core. -/
def coachesExcept (core : Nat) (s t : State) : Prop := ∀ h, h ≠ core → coachOf t h = coachOf s h

theorem coachOf_of_reportsOnly {s t : State} (h : reportsOnly s t) (core : Nat) : coachOf t core = coachOf s core := by
  obtain ⟨_, _, _, _, _, _, _, _, rfl⟩ := h
  rfl

theorem coachOf_countTimeout (s : State) (core : Nat) (st : Status) (h : Nat) :
    coachOf (countTimeout s core st) h = coachOf s h := by
  obtain ⟨cs, ds, counted, -⟩ := countTimeout_coresDies s core st
  rw [counted]
  rfl

/-- An escalation ends the program: the Coachman's registers and last status stand. -/
theorem coachOf_coachEscalate (s : State) (core site st n h : Nat) :
    coachOf (coachEscalate s core site st n) h
      = if h = core then { coachOf s core with running := false, stack := [], npc := none, wait := none }
        else coachOf s h := by
  rw [coachEscalate, coachOf_of_reportsOnly (appendEvent_reportsOnly _ _ _), coachOf_modCoach]

theorem coach_get_set (c : Coach) (d : Dst) (val : DWord) (m : Nat) :
    (match d with
      | .reg n => c.set n.toNat val
      | .suppress => c).get m = if d = .reg (BitVec.ofNat 7 m) ∧ m < 128 then val else c.get m := by
  cases d with
  | suppress => simp
  | reg n =>
    have same : (Dst.reg n = .reg (BitVec.ofNat 7 m) ∧ m < 128) ↔ m = n.toNat := by
      rw [Dst.reg.injEq]
      constructor
      · rintro ⟨rfl, small⟩
        simpa using (Nat.mod_eq_of_lt small).symm
      · rintro rfl
        exact ⟨by simp, n.isLt⟩
    simp only [same, Coach.get, Coach.set, mgetD, mget_mset]
    split <;> rfl

/-- The end of a Coachman's wait: its m registers, its last status, no wait, and the other Coachmen. -/
theorem coachOf_endCoachWait (s : State) (core : Nat) (w : Wait) (st : Status) (val : DWord) :
    (∀ m, (coachOf (endCoachWait s core w st val id) core).get m
        = if w.dst = .reg (BitVec.ofNat 7 m) ∧ m < 128 then val else (coachOf s core).get m)
      ∧ (coachOf (endCoachWait s core w st val id) core).status = st.code
      ∧ (coachOf (endCoachWait s core w st val id) core).wait = none
      ∧ coachesExcept core s (endCoachWait s core w st val id) := by
  unfold endCoachWait
  extract_lets c e s1
  have ended (h : Nat) : coachOf s1 h = if h = core then { (match w.dst with
      | .reg n => c.set n.toNat val
      | .suppress => c) with
      wait := none, pc := w.resume, status := st.code, escSite := e.1, escCount := e.2.1 } else coachOf s h :=
    coachOf_modCoach s core h _
  cases e.2.2 with
  | none =>
    simp only [coachesExcept, coachOf_countTimeout, ended, if_true]
    exact ⟨fun m => coach_get_set c w.dst val m, trivial, trivial, fun h other => if_neg other⟩
  | some n =>
    simp only [coachesExcept, coachOf_coachEscalate, coachOf_countTimeout, ended, if_true]
    exact ⟨fun m => coach_get_set c w.dst val m, trivial, trivial, fun h other => by simp [other]⟩

theorem endCoachAtIssue_coachEnds (s : State) (d : Dst) (x : Deadline) (esc : Bool) (st : Status) (val : DWord) :
    coachEnds s s.cur.core d st val none (endCoachAtIssue s d x esc st val id) := by
  obtain ⟨regs, status, wait, others⟩ := coachOf_endCoachWait s s.cur.core
    (coachWait s d x esc (.fence 0 .dev [] [] [] 0)) st val
  unfold endCoachAtIssue
  dsimp only
  generalize endCoachWait s s.cur.core (coachWait s d x esc (.fence 0 .dev [] [] [] 0)) st val id = t at *
  have kept (c : Coach) (pc : Nat) : (if c.running then { c with pc := pc } else c).m = c.m
      ∧ (if c.running then { c with pc := pc } else c).status = c.status
      ∧ (if c.running then { c with pc := pc } else c).wait = c.wait := by
    split <;> exact ⟨rfl, rfl, rfl⟩
  refine ⟨fun m => ?_, ?_, ?_, fun h other => ?_⟩
  · rw [coachOf_modCoach, if_pos rfl, Coach.get, (kept _ _).1]
    exact regs m
  · rw [coachOf_modCoach, if_pos rfl, (kept _ _).2.1, status]
  · rw [coachOf_modCoach, if_pos rfl, (kept _ _).2.2, wait]
  · rw [coachOf_modCoach, if_neg other, others h other]

/-- A Coachman's wait whose condition does not hold ends late or blocks. -/
theorem blockCoach_ends_or_blocks (s : State) (f : FormW) (k : WaitKind) (late : Status) (val : DWord) :
    let b := blockCoach s f.dst f.x.deadline f.x.esc k late val
    if effective s (ctxOfBlock s s.cur.block) f.x.deadline (coachAbs (coachOf s s.cur.core) f.x.deadline)
        ≤ (ctxOf s (ctxOfBlock s s.cur.block)).ctime then coachEnds s s.cur.core f.dst late val none b
    else coachBlocks s f k b := by
  unfold blockCoach coachWait
  dsimp only
  split
  · exact endCoachAtIssue_coachEnds s f.dst f.x.deadline f.x.esc late val
  · obtain ⟨here, others, rest⟩ := modCoach_current s fun c => { c with wait := some (coachWait s f.dst f.x.deadline f.x.esc k) }
    exact ⟨⟨_, rfl, rfl, rfl, rfl, rfl, rfl, here⟩, others, rest⟩

end Sys2Proof.Proofs
end

section
/-! PROOF of the statements on blocking loads, fences and prefetches, O20 and O21 (10 R232 to R236, R244 to R248). -/

namespace Sys2Proof.Proofs

open Sys2Proof.Machine Sys2Proof.Safety

theorem chain_foldl_of_mem {α : Type} {R : State → α → State → Prop} {f : State → α → State} {l : List α}
    (step : ∀ a, ∀ x ∈ l, R a x (f a x)) (a : State) : chain R l a (l.foldl f a) := by
  induction l generalizing a with
  | nil => rfl
  | cons x r ih =>
    exact ⟨f a x, step a x List.mem_cons_self, ih (fun a y later => step a y (List.mem_cons_of_mem x later)) (f a x)⟩

/-! ### O20 (10 R232, R233, R235, R236) -/

/-- The wait of a blocking load, as a waiting form. -/
def blockWait (f : BlockForm) : FormW := ⟨.reg f.dst, f.a, ⟨f.x.guard, f.x.esc, 0, f.x.deadline⟩⟩

/-- The state in which a blocking lane has read: poison it met is consumed (10 R229). -/
def blockRead (a : State) (sp : Space) (f : BlockForm) (floors : List Nat) (u : Nat) (t : Thread) (r : LaneReq) : State :=
  let q := readBlocking a a.cur.core (ctxOfBlock a t.block) sp (f.x.ordering == .acq) floors r
  if q.2.2 = true then
    consumePoison q.1 u t.block { clause := a.cur.addr, addr := if sp = .clusterC then 0 else (srcPair t .a f.a).toNat }
  else q.1

/-- What a blocking lane waits for, with the value it keeps. -/
def blockKind (sp : Space) (f : BlockForm) (t : Thread) (r : LaneReq) (x : Nat) : WaitKind :=
  .blockingLoad sp (if sp = .clusterC then 0 else (srcPair t .a f.a).toNat)
    { r with cmp := BitVec.ofNat 64 (compareValue t f.x.size f.cmp) } f.x.size f.x.sext (f.x.ordering == .acq)
    (stepReg t.ctl .dst f.dst.toNat) (BitVec.ofNat 64 x)

/-- What a blocking lane comes to at issue. -/
def blockOutcome (a : State) (sp : Space) (f : BlockForm) (floors : List Nat) (u : Nat) (t : Thread) (r : LaneReq)
    (b : State) : Prop :=
  let x := (readBlocking a a.cur.core (ctxOfBlock a t.block) sp (f.x.ordering == .acq) floors r).2.1
  let a1 := blockRead a sp f floors u t r
  let low := blockedLow f.x.size f.x.sext x
  let high := blockedHigh f.x.size (stepReg t.ctl .dst f.dst.toNat) x
  if unread a a.cur.core u sp r then blocksNow a u (blockWait f) (blockKind sp f t r (ownValue a u sp r)) b
  else if trappedNow a1 u = true then b = a1
  else if x ≠ compareValue t f.x.size f.cmp then endsNow a1 u (blockWait f) .done low (f.x.ordering == .acq) high b
  else if tooLate a t f.x.deadline then endsNow a1 u (blockWait f) .timeout low false high b
  else blocksNow a1 u (blockWait f) (blockKind sp f t r x) b

theorem blockLane_outcome (a : State) (sp : Space) (f : BlockForm) (floors : List Nat) (u : Nat) (t : Thread)
    (r : LaneReq) : blockOutcome a sp f floors u t r (blockLane a sp f floors u t r) := by
  unfold blockOutcome
  extract_lets x a1 low high
  have lane : blockLane a sp f floors u t r = if unread a a.cur.core u sp r then
        blockThread a u (.reg f.dst) f.x.deadline f.x.esc (blockKind sp f t r (ownValue a u sp r))
      else if trappedNow a1 u then a1
      else if x ≠ compareValue t f.x.size f.cmp then
        endAtIssue a1 u (.reg f.dst) f.x.deadline f.x.esc .done low (f.x.ordering == .acq) high
      else if tooLate a t f.x.deadline then
        endAtIssue a1 u (.reg f.dst) f.x.deadline f.x.esc .timeout low false high
      else blockThread a1 u (.reg f.dst) f.x.deadline f.x.esc (blockKind sp f t r x) := rfl
  rw [lane]
  by_cases early : unread a a.cur.core u sp r = true
  · simp only [if_pos early]
    exact blockThread_blocksNow a u (blockWait f) _
  by_cases trapped : trappedNow a1 u = true
  · simp only [if_neg early, if_pos trapped]
  by_cases differs : x ≠ compareValue t f.x.size f.cmp
  · simp only [if_neg early, if_neg trapped, if_pos differs]
    exact endAtIssue_endsNow a1 u (blockWait f) .done low _ high
  by_cases late : tooLate a t f.x.deadline = true
  · simp only [if_neg early, if_neg trapped, if_neg differs, if_pos late]
    exact endAtIssue_endsNow a1 u (blockWait f) .timeout low false high
  · simp only [if_neg early, if_neg trapped, if_neg differs, if_neg late]
    exact blockThread_blocksNow a1 u (blockWait f) _

/-- The request of a blocking lane over the bytes its plan names. -/
def blockReq (u : Nat) (p : Plan) : LaneReq := { uid := u, mem := (planNames p).1, addrs := (planNames p).2 }

/-- A blocking load in its state after the test of its lines (11 R258). -/
def blockStart (s : State) (sp : Space) (f : BlockForm) : State :=
  let ps := lanePlans s f.x.guard sp { read := true } f.a 0 f.x.size
  holdClause s (ps.any fun p =>
    let m := planNames p.2.2
    blockedByLine s s.cur.core (f.x.ordering == .acq) (sectorFloors ps m.1 (m.2.headD 0 / 32)) (blockReq p.1 p.2.2))

/-- Where every address passes, a blocking load's lanes read in turn, each over the bytes its address names. -/
theorem blockForm_chain {s : State} {sp : Space} {f : BlockForm} (pass : plansPass s f.x.guard fun t =>
    planLane s t sp { read := true } f.a 0 (sizeBytes f.x.size)) :
    chain (fun a p b => ∃ m as, planLane s p.2 sp { read := true } f.a 0 (sizeBytes f.x.size) = .names m as
        ∧ blockOutcome a sp f
          (sectorFloors (lanePlans s f.x.guard sp { read := true } f.a 0 f.x.size) m (as.headD 0 / 32)) p.1 p.2
          { uid := p.1, mem := m, addrs := as } b)
      (activeLanes s f.x.guard) (blockStart s sp f) (blockForm s sp f) := by
  have lanesRead : blockForm s sp f = (activeLanes s f.x.guard).foldl (fun acc p =>
      let m := planNames (planLane s p.2 sp { read := true } f.a 0 (sizeBytes f.x.size))
      blockLane acc sp f
        (sectorFloors (lanePlans s f.x.guard sp { read := true } f.a 0 f.x.size) m.1 (m.2.headD 0 / 32)) p.1 p.2
        { uid := p.1, mem := m.1, addrs := m.2 }) (blockStart s sp f) := by
    unfold blockForm
    dsimp only
    rw [planFault_lanePlans_of_pass pass]
    exact List.foldl_map
  rw [lanesRead]
  refine chain_foldl_of_mem (fun a p listed => ?_) _
  obtain ⟨lane, found, active⟩ := of_mem_activeLanes listed
  obtain ⟨m, as, names⟩ := pass p.1 p.2 lane found active
  refine ⟨m, as, names, ?_⟩
  simp only [names, planNames]
  exact blockLane_outcome a sp f _ p.1 p.2 _

/-- Settles O20: each lane reads the state that the lanes before it left. -/
theorem blockingLoads : Obligations.BlockingLoads :=
  ⟨fun _ _ pass => ⟨_, rfl, blockForm_chain pass⟩, fun _ _ pass => ⟨_, rfl, blockForm_chain pass⟩,
    fun _ _ pass => ⟨_, rfl, blockForm_chain pass⟩⟩

/-! ### O21: `FENCE` (10 R244 to R247) -/

/-- The classes of a thread's `FENCE` that are complete at issue. -/
def fenceMaskAt (f : FormW) (a : State) (u : Nat) (t : Thread) : Nat :=
  fenceMask a t.block (fenceClasses f.x) (fenceScope f.x) (threadStores a u) (blockCommands a t.block)
    (migrationsOf a (ctxOfBlock a t.block)) t.frames t.regs.wh

/-- The state with what the end of the `FENCE` orders. -/
def fenceAhead (f : FormW) (a : State) (u : Nat) (t : Thread) : State :=
  orderAhead a u t.block (fenceClasses f.x) (fenceScope f.x) (fenceMaskAt f a u t)

/-- What a thread's `FENCE` waits for. -/
def fenceKind (f : FormW) (a : State) (u : Nat) (t : Thread) : WaitKind :=
  .fence (fenceClasses f.x) (fenceScope f.x) (threadStores a u) (blockCommands a t.block)
    (migrationsOf a (ctxOfBlock a t.block)) t.regs.wh

theorem statusWord_done (n : Nat) : statusWord .done n = BitVec.ofNat 32 (256 * n) := by
  rw [statusWord, Status.code, Nat.zero_add]

theorem fenceLane_of_complete {f : FormW} {a : State} {u : Nat} {t : Thread}
    (complete : fenceMaskAt f a u t = fenceClasses f.x) :
    endsNow (fenceAhead f a u t) u f .done (BitVec.ofNat 32 (256 * fenceMaskAt f a u t)) true (fun r => r)
      (fenceLane a f u t) := by
  have lane : fenceLane a f u t = endAtIssue (fenceAhead f a u t) u f.dst f.x.deadline f.x.esc .done
      (statusWord .done (fenceMaskAt f a u t)) true fun r => r := if_pos complete
  rw [lane, statusWord_done]
  exact endAtIssue_endsNow _ u f .done _ true _

theorem fenceLane_of_incomplete {f : FormW} {a : State} {u : Nat} {t : Thread}
    (incomplete : fenceMaskAt f a u t ≠ fenceClasses f.x) :
    let c := if tooLate a t f.x.deadline then fenceAhead f a u t else a
    if tooLate c t f.x.deadline then endsNow c u f .partialDone
      (BitVec.ofNat 32 (5 + 256 * fenceMaskAt f a u t)) true (fun r => r) (fenceLane a f u t)
    else blocksNow c u f (fenceKind f a u t) (fenceLane a f u t) := by
  intro c
  have lane : fenceLane a f u t = blockOrExpire c u t f.dst f.x.deadline f.x.esc (fenceKind f a u t) .partialDone
      (statusWord .partialDone (fenceMaskAt f a u t)) := if_neg incomplete
  rw [lane]
  exact blockOrExpire_ends_or_blocks c u t f (fenceKind f a u t) .partialDone _

theorem execFence_core {s : State} (f : FormW) (agent : s.cur.agent = .core) :
    exec (.fence f) s = .next ((activeLanes s f.x.guard).foldl (fun acc p => fenceLane acc f p.1 p.2) s) := by
  have arm : exec (.fence f) s = execFence f s := rfl
  rw [arm, execFence, agent]

theorem execFence_coachman {s : State} (f : FormW) (agent : s.cur.agent = .coachman) :
    exec (.fence f) s
      = .next (if guardCoach f.x.guard (coachOf s s.cur.core) then fenceCoach s f else s) := by
  have arm : exec (.fence f) s = execFence f s := rfl
  rw [arm, execFence, agent]
  exact (apply_ite _ _ _ _).symm

/-- A status word of a `FENCE` in an m register: its classes are four bits. -/
theorem statusWord_setWidth (st : Status) {n : Nat} (small : n < 16) :
    (statusWord st n).setWidth 64 = BitVec.ofNat 64 (st.code + 256 * n) := by
  have code : st.code < 256 := by cases st <;> decide
  refine BitVec.eq_of_toNat_eq ?_
  simp only [statusWord, BitVec.toNat_setWidth, BitVec.toNat_ofNat]
  omega

theorem fenceClasses_lt (x : ExtW) : fenceClasses x < 16 := by
  have bound : x.spec.toNat < 1024 := x.spec.isLt
  unfold fenceClasses
  omega

/-- R247: the Coachman's `FENCE` waits for the copies of its block, and for those alone. -/
theorem fenceCoach_of_complete {s : State} {f : FormW}
    (complete : (fenceClasses f.x).testBit 1 = false ∨ blockCopies s s.cur.block = []) :
    coachEnds s s.cur.core f.dst .done (BitVec.ofNat 64 (256 * fenceClasses f.x)) none (fenceCoach s f) := by
  have done := statusWord_setWidth .done (fenceClasses_lt f.x)
  have none : (if (fenceClasses f.x).testBit 1 then blockCopies s s.cur.block else []).isEmpty = true := by
    obtain class1 | idle := complete
    · simp [class1]
    · simp [idle]
  have coach : fenceCoach s f = endCoachAtIssue s f.dst f.x.deadline f.x.esc .done
      ((statusWord .done (fenceClasses f.x)).setWidth 64) id := if_pos none
  rw [coach, done, Status.code, Nat.zero_add]
  exact endCoachAtIssue_coachEnds s f.dst f.x.deadline f.x.esc .done _

theorem fenceCoach_of_incomplete {s : State} {f : FormW}
    (incomplete : ¬((fenceClasses f.x).testBit 1 = false ∨ blockCopies s s.cur.block = [])) :
    if effective s (ctxOfBlock s s.cur.block) f.x.deadline (coachAbs (coachOf s s.cur.core) f.x.deadline)
        ≤ (ctxOf s (ctxOfBlock s s.cur.block)).ctime then
      coachEnds s s.cur.core f.dst .partialDone (BitVec.ofNat 64 (5 + 256 * (fenceClasses f.x - 2))) none
        (fenceCoach s f)
    else coachBlocks s f (.fence (fenceClasses f.x) (fenceScope f.x) [] (blockCopies s s.cur.block) [] 0)
      (fenceCoach s f) := by
  have fits : fenceClasses f.x - 2 < 16 := Nat.lt_of_le_of_lt (Nat.sub_le _ 2) (fenceClasses_lt f.x)
  have partly := statusWord_setWidth .partialDone fits
  obtain ⟨class1, posted⟩ := not_or.1 incomplete
  have class1 : (fenceClasses f.x).testBit 1 = true := by simpa using class1
  have copies : (blockCopies s s.cur.block).isEmpty = false := by simpa using posted
  have coach : fenceCoach s f = blockCoach s f.dst f.x.deadline f.x.esc
      (.fence (fenceClasses f.x) (fenceScope f.x) [] (blockCopies s s.cur.block) [] 0) .partialDone
      ((statusWord .partialDone (fenceClasses f.x - 2)).setWidth 64) := by
    simp only [fenceCoach, class1, copies, if_true, Bool.false_eq_true, if_false]
  rw [coach, partly]
  exact blockCoach_ends_or_blocks s f _ .partialDone _

/-! ### O21: `PREF` (10 R248) -/

theorem l2Fill_frames (s : State) (die line : Nat) (dirty : Bool) :
    (l2Fill s die line dirty).frames = if l2Holds s die line then s.frames else (markRef s line).frames := by
  have marked : (if l2Holds s die line then s else markRef s line).frames
      = if l2Holds s die line then s.frames else (markRef s line).frames := apply_ite State.frames _ _ _
  unfold l2Fill
  dsimp only
  generalize (if l2Holds s die line then s else markRef s line) = t at marked
  rw [← marked]
  cases l2Victim t die line <;> dsimp only <;> split <;> rfl

theorem frameOf_markRef (s : State) (line n : Nat) : frameOf (markRef s line) n
    = if n = frameOfLine line ∧ (mget s.frames n).isSome = true then { frameOf s n with ref := true }
      else frameOf s n := by
  simp only [frameOf, markRef, modFrame, mgetD, mget_mmod]
  by_cases here : n = frameOfLine line
  · cases mget s.frames n <;> simp [here]
  · simp [here]

theorem lineOf_modLine (s : State) (line l : Nat) (f : LineDir → LineDir) :
    lineOf (modLine s line f) l = if l = line then f (lineOf s line) else lineOf s l := by
  simp only [lineOf, modLine, mgetD, mget_mset]
  split <;> rfl

theorem l2Fill_held {s : State} {die : Nat} (line : Nat) (dirty : Bool) (ways : 0 < l2Ways s die) :
    (mget (lineOf (l2Fill s die line dirty) line).held die).isSome = true := by
  have room : l2Ways s die ≠ 0 := by omega
  simp only [l2Fill, if_neg room, lineOf_modLine, if_true, mget_mset, Option.isSome_some]

/-- A counted event changes the performance counters of cores and dies alone. -/
theorem coreOf_countEvent (s : State) (core code n g : Nat) : coreOf (countEvent s core code n) g
    = { coreOf s g with perf := (coreOf (countEvent s core code n) g).perf } := by
  unfold countEvent
  dsimp only
  split
  · obtain ⟨ds, counted⟩ := countDieEvent_dies s (dieOfCore core) code n
    rw [counted]
    rfl
  · obtain ⟨ds, counted⟩ := countDieEvent_dies (modCore s core fun c => { c with perf := c.perf.map fun p =>
      (p.1, if counts s p.2.control code then p.2.bump n else p.2) }) (dieOfCore core) code n
    rw [counted]
    by_cases here : g = core
    · subst here
      simp [coreOf, modCore, mgetD]
    · simp [coreOf, modCore, mgetD, here]

theorem enterAbsent_coresDies (s : State) (core ctx va access : Nat) :
    (∃ cs ds, enterAbsent s core ctx va access = { s with cores := cs, dies := ds })
    ∧ ∀ g, coreOf (enterAbsent s core ctx va access) g
      = { coreOf s g with perf := (coreOf (enterAbsent s core ctx va access) g).perf } := by
  obtain ⟨cs, ds, counted⟩ := countEvent_coresDies s core 7 1
  refine ⟨?_, fun g => coreOf_countEvent s core 7 1 g⟩
  unfold enterAbsent enterFault
  rw [counted]
  exact ⟨_, _, rfl⟩

/-- R248: a line of a present page is brought to its home slice and its frame is marked. -/
theorem markRef_l2Fill (a : State) (line : Nat) :
    let b := markRef (l2Fill a (homeDie line) line false) line
    ((mget a.frames (frameOfLine line)).isSome = true →
      frameOf b (frameOfLine line) = { frameOf a (frameOfLine line) with ref := true })
    ∧ (∀ n, n ≠ frameOfLine line → frameOf b n = frameOf a n)
    ∧ (0 < l2Ways a (homeDie line) → (mget (lineOf b line).held (homeDie line)).isSome = true)
    ∧ b = { a with frames := b.frames, lines := b.lines } := by
  intro b
  have frames (n : Nat) : frameOf b n = if n = frameOfLine line ∧ (mget a.frames n).isSome = true then
      { frameOf a n with ref := true } else frameOf a n := by
    have filled (n : Nat) : frameOf (l2Fill a (homeDie line) line false) n
        = if l2Holds a (homeDie line) line then frameOf a n else frameOf (markRef a line) n := by
      simp only [frameOf, l2Fill_frames]
      split <;> rfl
    have listed : (mget (l2Fill a (homeDie line) line false).frames n).isSome = (mget a.frames n).isSome := by
      rw [l2Fill_frames]
      split
      · rfl
      · simp only [markRef, modFrame, mget_mmod]
        split <;> simp
    rw [frameOf_markRef, listed, filled, frameOf_markRef]
    split <;> split <;> rfl
  obtain ⟨ls, fs, filled⟩ := l2Fill_linesOnly a (homeDie line) line false
  refine ⟨fun listed => ?_, fun n other => ?_, fun ways => l2Fill_held line false ways, ?_⟩
  · rw [frames, if_pos ⟨rfl, listed⟩]
  · rw [frames, if_neg fun h => other h.1]
  · show markRef _ _ = _
    simp only [b, filled]
    rfl

/-- Settles O21: `FENCE` ends or waits as its mask says, `PREF` acts lane by lane. -/
theorem fencesAndPrefetch : Obligations.FencesAndPrefetch := by
  refine ⟨fun f s agent _ => ?fence, fun f s agent _ => ?coach, fun f s => ?pref⟩
  case fence =>
    refine ⟨_, execFence_core f agent, chain_foldl (fun a p => ?_) _ s⟩
    by_cases complete : fenceMaskAt f a p.1 p.2 = fenceClasses f.x
    · have ends := fenceLane_of_complete complete
      simp only [fenceMaskAt, fenceClasses, fenceScope] at complete
      simp only [complete, if_true]
      simpa only [fenceMaskAt, fenceAhead, fenceClasses, fenceScope, complete] using ends
    · have waits := fenceLane_of_incomplete complete
      simp only [fenceMaskAt, fenceClasses, fenceScope] at complete
      simp only [complete, if_false]
      exact waits
  case coach =>
    refine ⟨_, execFence_coachman f agent, ?_⟩
    dsimp only
    split
    · by_cases complete : (f.x.spec.toNat / 64).testBit 1 = false ∨ blockCopies s s.cur.block = []
      · simp only [if_pos complete]
        exact fenceCoach_of_complete complete
      · simp only [if_neg complete]
        exact fenceCoach_of_incomplete complete
    · rfl
  case pref =>
    refine ⟨_, rfl, chain_foldl (fun a p => ?_) _ s⟩
    unfold prefLane
    dsimp only
    split
    · rfl
    · cases translate a a.cur.core (ctxOfBlock a p.2.block) (((srcPair p.2 .a f.a).toNat : Int) + f.x.off.toInt).toNat
        { read := true } with
      | ok place =>
        cases place with
        | host pa => rfl
        | device pa =>
          dsimp only
          simp only [Bool.or_eq_true]
          split
          · rfl
          · exact markRef_l2Fill a (pa / 128)
      | error code =>
        cases code with
        | pageAbsent =>
          obtain ⟨⟨cs, ds, entered⟩, cores⟩ := enterAbsent_coresDies a a.cur.core (ctxOfBlock a p.2.block)
            (((srcPair p.2 .a f.a).toNat : Int) + f.x.off.toInt).toNat 4
          exact ⟨by simp only [entered], cores⟩
        | _ => rfl

end Sys2Proof.Proofs
end

section
/-! SUPPORT. What the events of accesses change at all: caches with their lines and frames, bytes of an unpoisoned storage,
and the threads of a request (09 R202, 10 R229 to R231, 11 R253, R254, R267). -/

namespace Sys2Proof.Proofs

open Sys2Proof.Machine Sys2Proof.Safety

/-! ### Caches (09 R202, R204) -/

/-- A change of what caches hold at most: lines, frames, the L1s and performance counters of cores and dies. The TOBs of the
cores stand. -/
def cachesOnly (s t : State) : Prop :=
  (∃ cs ds ls fs, t = { s with cores := cs, dies := ds, lines := ls, frames := fs })
    ∧ ∀ g, (coreOf t g).tob = (coreOf s g).tob

theorem cachesOnly.refl (s : State) : cachesOnly s s := ⟨⟨_, _, _, _, rfl⟩, fun _ => rfl⟩

theorem cachesOnly.trans {s t u : State} : cachesOnly s t → cachesOnly t u → cachesOnly s u := by
  rintro ⟨⟨_, _, _, _, rfl⟩, first⟩ ⟨⟨_, _, _, _, rfl⟩, second⟩
  exact ⟨⟨_, _, _, _, rfl⟩, fun g => (second g).trans (first g)⟩

theorem linesOnly.cachesOnly {s t : State} : linesOnly s t → cachesOnly s t := by
  rintro ⟨_, _, rfl⟩
  exact ⟨⟨_, _, _, _, rfl⟩, fun _ => rfl⟩

theorem countEvent_cachesOnly (s : State) (core code n : Nat) : cachesOnly s (countEvent s core code n) := by
  refine ⟨?_, fun g => by rw [coreOf_countEvent]⟩
  obtain ⟨cs, ds, counted⟩ := countEvent_coresDies s core code n
  exact ⟨cs, ds, _, _, counted⟩

theorem modCore_cachesOnly (s : State) (g : Nat) {f : Core → Core} (kept : ∀ c, (f c).tob = c.tob) :
    cachesOnly s (modCore s g f) := by
  refine ⟨⟨_, _, _, _, rfl⟩, fun h => ?_⟩
  rw [coreOf_modCore]
  split
  · next here => rw [kept, here]
  · rfl

theorem changeL1_cachesOnly (s : State) (g : Nat) {f : Core → Core} (kept : ∀ c, (f c).tob = c.tob) :
    cachesOnly s (changeL1 s g f) :=
  (modCore_cachesOnly s g kept).trans (changeL1_cores s g f).cachesOnly

theorem privateLine_cachesOnly (s : State) (core line : Nat) (dirty : Bool) :
    cachesOnly s (privateLine s core line dirty) := by
  unfold privateLine
  dsimp only
  refine cachesOnly.trans ?_ (changeL1_cachesOnly _ _ fun _ => rfl)
  split
  · exact .refl s
  · exact (l2Fill_linesOnly s _ line false).cachesOnly.trans (countEvent_cachesOnly _ core 4 1)

theorem privateLines_cachesOnly (s : State) (a : Access) (dirty : Bool) : cachesOnly s (privateLines s a dirty) :=
  foldl_rel cachesOnly .refl (fun _ _ _ => .trans) _ (fun t l => privateLine_cachesOnly t a.core l dirty) _ s

theorem dropCopy_cachesOnly (s : State) (core line : Nat) : cachesOnly s (dropCopy s core line) := by
  unfold dropCopy
  split
  · exact .refl s
  · exact modCore_cachesOnly s core fun _ => rfl

theorem dropClusterCopies_cachesOnly (s : State) (cluster line : Nat) :
    cachesOnly s (dropClusterCopies s cluster line) :=
  foldl_rel cachesOnly .refl (fun _ _ _ => .trans) _ (fun t _ => dropCopy_cachesOnly t _ line) _ s

theorem fillCopy_cachesOnly (s : State) (core ctx line : Nat) : cachesOnly s (fillCopy s core ctx line) := by
  unfold fillCopy
  dsimp only
  exact (l2Fill_linesOnly s _ line false).cachesOnly.trans <| (modLine_linesOnly _ line _).cachesOnly.trans <|
    (countEvent_cachesOnly _ core 4 1).trans <| (modFrame_linesOnly _ _ _).cachesOnly.trans <|
    changeL1_cachesOnly _ _ fun _ => rfl

theorem engineReads_linesOnly (s : State) (die : Nat) (ls : List Nat) : linesOnly s (engineReads s die ls) :=
  foldl_rel linesOnly .refl (fun _ _ _ => .trans) _
    (fun t l => (modLine_linesOnly t l _).trans (l2Fill_linesOnly _ die l false)) _ s

section
variable {s t : State}

theorem cachesOnly.threadOf_eq (h : cachesOnly s t) (u : Nat) : threadOf t u = threadOf s u := by
  obtain ⟨⟨_, _, _, _, rfl⟩, -⟩ := h
  rfl

theorem cachesOnly.mem_eq (h : cachesOnly s t) : t.mem = s.mem := by
  obtain ⟨⟨_, _, _, _, rfl⟩, -⟩ := h
  rfl

theorem cachesOnly.pend_eq (h : cachesOnly s t) : t.pend = s.pend := by
  obtain ⟨⟨_, _, _, _, rfl⟩, -⟩ := h
  rfl

theorem cachesOnly.memCells_eq (h : cachesOnly s t) (m : Mem) : memCells t m = memCells s m := by
  obtain ⟨⟨_, _, _, _, rfl⟩, tobs⟩ := h
  cases m with
  | tob g => exact tobs g
  | _ => rfl

theorem cachesOnly.isPoisoned_eq (h : cachesOnly s t) (m : Mem) (k : Nat) : isPoisoned t m k = isPoisoned s m k := by
  rw [isPoisoned, h.mem_eq, isPoisoned]

theorem cachesOnly.readBytes_eq (h : cachesOnly s t) (m : Mem) (as : List Nat) :
    readBytes t m as = readBytes s m as := by
  have byte : readByte t m = readByte s m := by
    funext a
    rw [readByte, h.isPoisoned_eq, h.memCells_eq, readByte]
  rw [readBytes, byte, readBytes]

theorem cachesOnly.lanePoison_eq (h : cachesOnly s t) (r : LaneReq) : lanePoison t none r = lanePoison s none r := by
  simp only [lanePoison, h.isPoisoned_eq]

end

/-! ### Bytes of an unpoisoned storage (10 R229) -/

/-- Bytes written where no sector is poisoned are all written. -/
theorem writeBytes_of_clean {s : State} {m : Mem} {ws : List (Nat × Byte)}
    (clean : ∀ w ∈ ws, isPoisoned s m (w.1 / 32) = false) :
    ∃ p, writeBytes s m ws = writeCells { s with mem := { s.mem with poisoned := p } } m ws := by
  have cleared (ks : List Nat) (x : State) : ∃ p, ks.foldl (fun acc k => clearPoison acc m k) x
      = { x with mem := { x.mem with poisoned := p } } := by
    induction ks generalizing x with
    | nil => exact ⟨_, rfl⟩
    | cons k ks ih =>
      obtain ⟨p, rest⟩ := ih (clearPoison x m k)
      exact ⟨p, rest⟩
  unfold writeBytes
  extract_lets sectors whole keep
  have all : keep = ws := List.filter_eq_self.2 fun w listed => by rw [clean w listed]; rfl
  obtain ⟨p, eq⟩ := cleared whole s
  exact ⟨p, by rw [eq, all]⟩

theorem writeBytes_device_mem {s : State} {ws : List (Nat × Byte)}
    (clean : ∀ w ∈ ws, isPoisoned s .device (w.1 / 32) = false) :
    (writeBytes s .device ws).mem.device = setCells s.mem.device ws := by
  obtain ⟨p, eq⟩ := writeBytes_of_clean clean
  rw [eq]
  rfl

/-! ### The threads of a request (10 R232) -/

/-- Every lane's thread has changed as `g` says, every other thread stands. -/
def lanesAct (s t : State) (rs : List LaneReq) (g : LaneReq → Thread → Thread) : Prop :=
  (∀ r ∈ rs, threadOf t r.uid = (threadOf s r.uid).map (g r)) ∧ ∀ u, u ∉ rs.map LaneReq.uid → threadOf t u = threadOf s u

theorem lanesAct_of_threads {s t : State} (same : ∀ u, threadOf t u = threadOf s u) (rs : List LaneReq) :
    lanesAct s t rs fun _ x => x :=
  ⟨fun r _ => by rw [same]; cases threadOf s r.uid <;> rfl, fun u _ => same u⟩

theorem lanesAct.trans {s t u : State} {rs : List LaneReq} {g h : LaneReq → Thread → Thread} (first : lanesAct s t rs g)
    (second : lanesAct t u rs h) : lanesAct s u rs fun r x => h r (g r x) :=
  ⟨fun r listed => by rw [second.1 r listed, first.1 r listed, Option.map_map]; rfl,
    fun v other => (second.2 v other).trans (first.2 v other)⟩

theorem foldl_modThread_lanesAct {rs : List LaneReq} (nodup : (rs.map LaneReq.uid).Nodup)
    (g : LaneReq → Thread → Thread) (s : State) :
    lanesAct s (rs.foldl (fun acc r => modThread acc r.uid (g r)) s) rs g := by
  induction rs generalizing s with
  | nil => exact ⟨fun _ listed => absurd listed List.not_mem_nil, fun _ _ => rfl⟩
  | cons r rs ih =>
    obtain ⟨fresh, nodup⟩ := List.nodup_cons.1 nodup
    obtain ⟨lanes, others⟩ := ih nodup (modThread s r.uid (g r))
    have here : threadOf (modThread s r.uid (g r)) r.uid = (threadOf s r.uid).map (g r) :=
      (mget_mmod s.work.threads r.uid r.uid (g r)).trans (if_pos rfl)
    refine ⟨fun q listed => ?_, fun u other => ?_⟩
    · rw [List.foldl_cons]
      obtain rfl | later := List.mem_cons.1 listed
      · rw [others q.uid fresh, here]
      · have distinct : q.uid ≠ r.uid := fun e => fresh (e ▸ List.mem_map_of_mem later)
        rw [lanes q later, modThread_others s r.uid (g r) q.uid distinct]
    · obtain ⟨distinct, later⟩ := not_or.1 fun h => other (List.mem_cons.2 h)
      exact (others u later).trans (modThread_others s r.uid (g r) u distinct)

theorem foldl_modThread_threadsOnly {β : Type} (key : β → Nat) (f : β → Thread → Thread) (l : List β) (s : State) :
    threadsOnly s (l.foldl (fun acc p => modThread acc (key p) (f p)) s) := ⟨_, foldl_modThread_eq key f l s⟩

theorem countDown_lanesAct {a : Access} (nodup : (a.lanes.map LaneReq.uid).Nodup) (s : State) :
    lanesAct s (countDown s a) a.lanes fun _ t => t.modRegs fun x => x.ctrDown a.ctr :=
  foldl_modThread_lanesAct nodup _ s

theorem countDown_threadsOnly (s : State) (a : Access) : threadsOnly s (countDown s a) :=
  foldl_modThread_threadsOnly LaneReq.uid (fun _ t => t.modRegs fun x => x.ctrDown a.ctr) a.lanes s

section
variable {s t : State}

theorem threadsOnly.mem_eq (h : threadsOnly s t) : t.mem = s.mem := by
  obtain ⟨_, rfl⟩ := h
  rfl

theorem threadsOnly.pend_eq (h : threadsOnly s t) : t.pend = s.pend := by
  obtain ⟨_, rfl⟩ := h
  rfl

theorem threadsOnly.memCells_eq (h : threadsOnly s t) (m : Mem) : memCells t m = memCells s m := by
  obtain ⟨_, rfl⟩ := h
  cases m <;> rfl

end

/-! ### A request leaves flight (03 R62) -/

/-- A request is over, as O41 states it: its lanes' registers and frames change, and its counter falls in every lane. -/
def leavesFlight (s t : State) (a : Access) (R : LaneReq → Regs → Regs)
    (F : LaneReq → List (Nat × Nat) → List (Nat × Nat)) : Prop :=
  t.pend = s.pend.filter (fun b => b.id != a.id)
  ∧ (∀ r ∈ a.lanes, ∀ th, threadOf s r.uid = some th → threadOf t r.uid =
      some { th with regs := (R r th.regs).ctrDown a.ctr, frames := F r th.frames })
  ∧ ∀ u, u ∉ a.lanes.map LaneReq.uid → threadOf t u = threadOf s u

theorem leavesFlight_of_lanesAct {s t : State} {a : Access} {R : LaneReq → Regs → Regs}
    {F : LaneReq → List (Nat × Nat) → List (Nat × Nat)} (nodup : (a.lanes.map LaneReq.uid).Nodup)
    (pend : t.pend = s.pend)
    (act : lanesAct s t a.lanes fun r th => { th with regs := R r th.regs, frames := F r th.frames }) :
    leavesFlight s (dropAccess (countDown t a) a.id) a R F := by
  obtain ⟨lanes, others⟩ := act.trans (countDown_lanesAct nodup t)
  refine ⟨?_, fun r listed th found => ?_, others⟩
  · rw [dropAccess, (countDown_threadsOnly t a).pend_eq, pend]
  · exact (lanes r listed).trans (by rw [found]; rfl)

theorem dropAccess_countDown_mem (s : State) (a : Access) : (dropAccess (countDown s a) a.id).mem = s.mem :=
  (countDown_threadsOnly s a).mem_eq

end Sys2Proof.Proofs
end

section
/-! PROOF of the statement on the events of accesses, O41: loads, results and atomics whose data returns, and stores that are
performed (10 R230, R231, R238, 11 R251, R255). -/

namespace Sys2Proof.Proofs

open Sys2Proof.Machine Sys2Proof.Safety

theorem onAccess_of_found {s : State} {i : Nat} {a : Access} (found : accessOf s i = some a) (f : Access → State) :
    onAccess s i f = f a := by
  rw [onAccess, found]

/-- What a request reads or writes lies in no poisoned sector (10 R229). -/
def cleanAccess (s : State) (a : Access) : Prop :=
  ∀ r ∈ a.lanes, ∀ x ∈ r.addrs ++ r.writes.map Prod.fst, isPoisoned s r.mem (x / 32) = false

theorem cleanAccess.lanePoison_eq {s : State} {a : Access} (clean : cleanAccess s a) :
    ∀ r ∈ a.lanes, lanePoison s none r = false := by
  intro r listed
  refine List.any_eq_false.2 fun x member => ?_
  rw [clean r listed x (List.mem_append_left _ member)]
  exact Bool.false_ne_true

theorem cleanAccess.writes_eq {s : State} {a : Access} {m : Mem} (clean : cleanAccess s a)
    (same : ∀ r ∈ a.lanes, r.mem = m) :
    ∀ w ∈ a.lanes.flatMap LaneReq.writes, isPoisoned s m (w.1 / 32) = false := by
  intro w listed
  obtain ⟨r, lane, member⟩ := List.mem_flatMap.1 listed
  rw [← same r lane]
  exact clean r lane w.1 (List.mem_append_right _ (List.mem_map_of_mem member))

/-! ### Data returns (10 R230, R238, 03 R62) -/

theorem finishResult_leaves {s : State} {a : Access} (nodup : (a.lanes.map LaneReq.uid).Nodup) :
    leavesFlight s (finishResult s a) a
      (fun r g => if r.dst < 128 then g.set r.dst (r.operand.setWidth 32) else g) (fun _ fs => fs)
    ∧ (finishResult s a).mem = s.mem := by
  have written := foldl_modThread_lanesAct nodup (fun r t =>
    if r.dst < 128 then t.modRegs fun x => x.set r.dst (r.operand.setWidth 32) else t) s
  have threads := foldl_modThread_threadsOnly LaneReq.uid (fun r t =>
    if r.dst < 128 then t.modRegs fun x => x.set r.dst (r.operand.setWidth 32) else t) a.lanes s
  refine ⟨leavesFlight_of_lanesAct nodup threads.pend_eq ⟨fun r listed => ?_, written.2⟩,
    (dropAccess_countDown_mem _ a).trans threads.mem_eq⟩
  refine (written.1 r listed).trans (congrArg (Option.map · _) (funext fun t => ?_))
  dsimp only
  split <;> rfl

/-- A load that is no acquire and meets no poison writes its lanes' values and is over. -/
theorem finishLoad_leaves {s t : State} {a : Access} (nodup : (a.lanes.map LaneReq.uid).Nodup)
    (caches : cachesOnly s t) (plain : a.ordering ≠ .acq) (clean : ∀ r ∈ a.lanes, lanePoison s none r = false) :
    leavesFlight s (finishLoad t a none) a (fun r g => putLoaded a.size a.sext r.dst (readBytes s r.mem r.addrs) g)
      (fun _ fs => fs)
    ∧ (finishLoad t a none).mem = s.mem := by
  let put (r : LaneReq) (x : Thread) : Thread :=
    x.modRegs fun g => putLoaded a.size a.sext r.dst (readBytes s r.mem r.addrs) g
  have finished : finishLoad t a none
      = dropAccess (countDown (a.lanes.foldl (fun acc r => modThread acc r.uid (put r)) t) a) a.id := by
    unfold finishLoad
    refine congrArg (fun x => dropAccess (countDown x a) a.id) (List.foldl_ext _ _ _ fun acc r listed => ?_)
    simp only [if_neg plain, caches.lanePoison_eq, clean r listed, consumeRequest, Bool.false_eq_true, if_false,
      laneValue, caches.readBytes_eq, put]
  have written := (lanesAct_of_threads caches.threadOf_eq a.lanes).trans (foldl_modThread_lanesAct nodup put t)
  have threads := foldl_modThread_threadsOnly LaneReq.uid put a.lanes t
  rw [finished]
  exact ⟨leavesFlight_of_lanesAct nodup (threads.pend_eq.trans caches.pend_eq) written,
    (dropAccess_countDown_mem _ a).trans (threads.mem_eq.trans caches.mem_eq)⟩

/-- An atomic that is no acquire and met no poison returns the old values and is over. -/
theorem finishAtomic_leaves {s : State} {a : Access} (nodup : (a.lanes.map LaneReq.uid).Nodup)
    (plain : a.ordering ≠ .acq) (clean : ∀ r ∈ a.lanes, r.poison = false) :
    leavesFlight s (finishAtomic s a) a (fun r g => putLoaded a.size false r.dst r.old.toNat g) (fun _ fs => fs)
    ∧ (finishAtomic s a).mem = s.mem := by
  let put (r : LaneReq) (x : Thread) : Thread := x.modRegs fun g => putLoaded a.size false r.dst r.old.toNat g
  have finished : finishAtomic s a
      = dropAccess (countDown (a.lanes.foldl (fun acc r => modThread acc r.uid (put r)) s) a) a.id := by
    unfold finishAtomic
    refine congrArg (fun x => dropAccess (countDown x a) a.id) (List.foldl_ext _ _ _ fun acc r listed => ?_)
    simp only [if_neg plain, clean r listed, consumeRequest, Bool.false_eq_true, if_false, put]
  have threads := foldl_modThread_threadsOnly LaneReq.uid put a.lanes s
  rw [finished]
  exact ⟨leavesFlight_of_lanesAct nodup threads.pend_eq (foldl_modThread_lanesAct nodup put s),
    (dropAccess_countDown_mem _ a).trans threads.mem_eq⟩

/-- A request whose line is free is served. -/
theorem atLine_of_free {s : State} {a : Access} (free : lineBusy s a = false) (serve : State → Access → State) :
    atLine s a serve = serve s a := by
  simp [atLine, free]

/-- A load of L, S or C space is served from its storage, a line of L space through the L1 (09 R202). -/
theorem serveLoad_local {s : State} {a : Access} (notG : a.space ≠ .globalG) (notK : a.space ≠ .constK)
    (notTile : onTile a = false) : ∃ t, cachesOnly s t ∧ serveLoad s a = finishLoad t a none := by
  have noL1 : usesL1 a = false := by simp [usesL1, notG, notK]
  by_cases inL : a.space = .laneL
  · exact ⟨privateLines s a false, privateLines_cachesOnly s a false, by simp [serveLoad, notTile, noL1, inL]⟩
  · exact ⟨s, .refl s, by simp [serveLoad, notTile, noL1, inL, notG]⟩

theorem dataReturn_local {s : State} {a : Access} (load : a.kind = .load) (notG : a.space ≠ .globalG)
    (notK : a.space ≠ .constK) (notH : a.space ≠ .hostH) (can : canPerform s a = true) (free : lineBusy s a = false) :
    dataReturn s a = serveLoad s a := by
  have noL1 : l1Serves s a = false := by simp [l1Serves, usesL1, notG, notK]
  simp [dataReturn, load, notH, can, noL1, atLine_of_free free]

/-- 10 R230, R238, 03 R62: the three kinds of data that come back. -/
theorem loadDataReturn_leaves {s : State} {a : Access} (found : accessOf s a.id = some a)
    (nodup : (a.lanes.map LaneReq.uid).Nodup) :
    (a.kind = .result → answers (.loadDataReturn { access := a.id }) s fun t =>
      leavesFlight s t a (fun r g => if r.dst < 128 then g.set r.dst (r.operand.setWidth 32) else g) (fun _ fs => fs)
        ∧ t.mem = s.mem)
    ∧ (a.kind = .load → a.space ≠ .globalG → a.space ≠ .constK → a.space ≠ .hostH → onTile a = false →
      a.ordering ≠ .acq → canPerform s a = true → lineBusy s a = false → cleanAccess s a →
      answers (.loadDataReturn { access := a.id }) s fun t =>
        leavesFlight s t a (fun r g => putLoaded a.size a.sext r.dst (readBytes s r.mem r.addrs) g) (fun _ fs => fs)
          ∧ t.mem = s.mem)
    ∧ (a.kind = .atomic → a.applied = true → a.ordering ≠ .acq → (∀ r ∈ a.lanes, r.poison = false) →
      answers (.loadDataReturn { access := a.id }) s fun t =>
        leavesFlight s t a (fun r g => putLoaded a.size false r.dst r.old.toNat g) (fun _ fs => fs)
          ∧ t.mem = s.mem) := by
  have arm : exec (.loadDataReturn { access := a.id }) s = .next (dataReturn s a) :=
    congrArg Host.Outcome.next (onAccess_of_found found (dataReturn s))
  refine ⟨fun kind => ⟨_, arm, ?_⟩, fun kind notG notK notH notTile plain can free clean => ⟨_, arm, ?_⟩,
    fun kind applied plain clean => ⟨_, arm, ?_⟩⟩
  · have returned : dataReturn s a = finishResult s a := by rw [dataReturn, kind]
    rw [returned]
    exact finishResult_leaves nodup
  · obtain ⟨t, caches, served⟩ := serveLoad_local (s := s) notG notK notTile
    rw [dataReturn_local kind notG notK notH can free, served]
    exact finishLoad_leaves nodup caches plain clean.lanePoison_eq
  · have returned : dataReturn s a = finishAtomic s a := by rw [dataReturn, kind]; exact if_pos applied
    rw [returned]
    exact finishAtomic_leaves nodup plain clean

/-! ### Stores performed at their port (10 R231) -/

/-- What an applied write of some bytes adds to its thread's frames (10 R245). -/
def framesNoted (s : State) (ws : List (Nat × Byte)) (t : Thread) : Thread :=
  { t with frames := (t.frames ++ ((ws.map fun w => w.1 / 4096).dedup.filter fun n => !(frameOf s n).pin).map
      fun n => (n, (frameOf s n).wrote)).dedup }

theorem noteFrames_eq {s t : State} (pins : ∀ n, (frameOf t n).pin = (frameOf s n).pin)
    (writes : ∀ n, (frameOf t n).wrote = (frameOf s n).wrote) (u : Nat) (ws : List (Nat × Byte)) :
    noteFrames t u ws = modThread t u (framesNoted s ws) := by
  simp only [noteFrames, pins, writes]
  rfl

theorem frameOf_modFrame_keeps (s : State) (k n : Nat) (f : Frame → Frame) (pin : ∀ x, (f x).pin = x.pin)
    (wrote : ∀ x, (f x).wrote = x.wrote) : (frameOf (modFrame s k f) n).pin = (frameOf s n).pin
      ∧ (frameOf (modFrame s k f) n).wrote = (frameOf s n).wrote := by
  simp only [frameOf, modFrame, mgetD, mget_mmod]
  split
  · cases mget s.frames n <;> simp [pin, wrote]
  · exact ⟨rfl, rfl⟩

theorem frameOf_markDirty (s : State) (ws : List (Nat × Byte)) (n : Nat) :
    (frameOf (markDirty s ws) n).pin = (frameOf s n).pin ∧ (frameOf (markDirty s ws) n).wrote = (frameOf s n).wrote := by
  unfold markDirty
  refine foldl_rel (fun s t => (frameOf t n).pin = (frameOf s n).pin ∧ (frameOf t n).wrote = (frameOf s n).wrote)
    (fun _ => ⟨rfl, rfl⟩) (fun _ _ _ first second => ⟨second.1.trans first.1, second.2.trans first.2⟩) _
    (fun t k => ?_) _ s
  exact frameOf_modFrame_keeps t (k / 128) n _ (fun _ => rfl) fun _ => rfl

/-- The lanes of a store note their frames, with the write-backs that the frames have had. -/
theorem foldl_noteFrames {s t : State} (pins : ∀ n, (frameOf t n).pin = (frameOf s n).pin)
    (writes : ∀ n, (frameOf t n).wrote = (frameOf s n).wrote) (rs : List LaneReq) :
    rs.foldl (fun acc r => noteFrames acc r.uid r.writes) t
      = rs.foldl (fun acc r => modThread acc r.uid (framesNoted s r.writes)) t := by
  refine foldl_congr_of_keeps State.frames (fun x r same => noteFrames_eq (fun n => ?_) (fun n => ?_) _ _)
    (fun _ _ => rfl) rs
  · rw [← pins, frameOf, same, frameOf]
  · rw [← writes, frameOf, same, frameOf]

/-- A write to a storage that holds no TOB row leaves no tag to clear (12 R282). -/
theorem portWrite_eq {s : State} {m : Mem} (ws : List (Nat × Byte)) (noTob : ∀ g, m ≠ .tob g) :
    portWrite s m ws = writeBytes s m ws := by
  unfold portWrite untag
  split
  · next g => exact absurd rfl (noTob g)
  · rfl

/-- A write of an unpoisoned storage changes its bytes alone. -/
theorem portWrite_of_clean {s : State} {m : Mem} {ws : List (Nat × Byte)}
    (place : m = .device ∨ (∃ b, m = .scratch b ∧ (mget s.work.blocks b).isSome = true))
    (clean : ∀ w ∈ ws, isPoisoned s m (w.1 / 32) = false) :
    memCells (portWrite s m ws) m = setCells (memCells s m) ws
      ∧ (∀ u, threadOf (portWrite s m ws) u = threadOf s u) ∧ (portWrite s m ws).pend = s.pend
      ∧ (portWrite s m ws).frames = s.frames := by
  obtain ⟨p, written⟩ := writeBytes_of_clean clean
  have noTob : ∀ g, m ≠ .tob g := by
    intro g
    obtain rfl | ⟨b, rfl, -⟩ := place <;> exact Mem.noConfusion
  rw [portWrite_eq ws noTob, written]
  obtain rfl | ⟨b, rfl, listed⟩ := place
  · exact ⟨rfl, fun _ => rfl, rfl, rfl⟩
  · refine ⟨?_, fun _ => rfl, rfl, rfl⟩
    exact congrArg Block.scratch (blockOf_modBlock_of_isSome { s with mem := { s.mem with poisoned := p } } b _ listed)

/-- 10 R231: a store of L, S or C space is performed. -/
theorem finishStore_leaves {s : State} {a : Access} {m : Mem} (nodup : (a.lanes.map LaneReq.uid).Nodup)
    (nonempty : a.lanes ≠ []) (same : ∀ r ∈ a.lanes, r.mem = m)
    (place : m = .device ∨ (∃ b, m = .scratch b ∧ (mget s.work.blocks b).isSome = true)) (clean : cleanAccess s a) :
    leavesFlight s (finishStore s a) a (fun _ g => g) (fun r fs => if m = .device then
        (fs ++ ((r.writes.map fun w => w.1 / 4096).dedup.filter fun n => !(frameOf s n).pin).map
          fun n => (n, (frameOf s n).wrote)).dedup else fs)
    ∧ memCells (finishStore s a) m = setCells (memCells s m) (a.lanes.flatMap LaneReq.writes) := by
  obtain ⟨cells, threads, pend, frames⟩ := portWrite_of_clean place (clean.writes_eq same)
  have storage : ((a.lanes.head?).map (·.mem)).getD .device = m := by
    cases lanes : a.lanes with
    | nil => exact absurd lanes nonempty
    | cons r rs => exact same r (lanes ▸ List.mem_cons_self)
  unfold finishStore
  dsimp only
  rw [storage]
  generalize portWrite s m (a.lanes.flatMap LaneReq.writes) = s1 at cells threads pend frames
  obtain ⟨s2, noted, pend2, cells2, act⟩ : ∃ s2, (if m = .device then
        a.lanes.foldl (fun acc r => noteFrames acc r.uid r.writes) (markDirty s1 (a.lanes.flatMap LaneReq.writes))
        else s1) = s2 ∧ s2.pend = s1.pend ∧ memCells s2 m = memCells s1 m
      ∧ lanesAct s s2 a.lanes fun r t => if m = .device then framesNoted s r.writes t else t := by
    refine ⟨_, rfl, ?_⟩
    by_cases device : m = .device
    · have frame (n : Nat) : frameOf s1 n = frameOf s n := by rw [frameOf, frames, frameOf]
      have dirty := frameOf_markDirty s1 (a.lanes.flatMap LaneReq.writes)
      have marked := markDirty_linesOnly s1 (a.lanes.flatMap LaneReq.writes)
      simp only [if_pos device]
      rw [foldl_noteFrames (s := s) (fun n => by rw [(dirty n).1, frame]) (fun n => by rw [(dirty n).2, frame])]
      have lanes := foldl_modThread_threadsOnly LaneReq.uid (fun r => framesNoted s r.writes) a.lanes
        (markDirty s1 (a.lanes.flatMap LaneReq.writes))
      exact ⟨lanes.pend_eq.trans marked.cachesOnly.pend_eq,
        (lanes.memCells_eq m).trans (marked.cachesOnly.memCells_eq m),
        (lanesAct_of_threads (fun u => (marked.cachesOnly.threadOf_eq u).trans (threads u)) a.lanes).trans
          (foldl_modThread_lanesAct nodup (fun r => framesNoted s r.writes) _)⟩
    · simp only [if_neg device]
      exact ⟨trivial, trivial, lanesAct_of_threads threads a.lanes⟩
  rw [noted]
  have caches : cachesOnly s2 (if a.space = .laneL then privateLines s2 a true else s2) := by
    split
    · exact privateLines_cachesOnly s2 a true
    · exact .refl s2
  refine ⟨leavesFlight_of_lanesAct nodup (caches.pend_eq.trans (pend2.trans pend)) ?_, ?_⟩
  · refine ⟨fun r listed => ?_, fun u other => (caches.threadOf_eq u).trans (act.2 u other)⟩
    rw [caches.threadOf_eq, act.1 r listed]
    refine congrArg (Option.map · _) (funext fun t => ?_)
    split <;> rfl
  · have counted := (countDown_threadsOnly (if a.space = .laneL then privateLines s2 a true else s2) a).memCells_eq m
    exact counted.trans ((caches.memCells_eq m).trans (cells2.trans cells))

/-- 11 R251: an applied write performed at its scope is over. -/
theorem performWrite_leaves {s : State} {a : Access} (nodup : (a.lanes.map LaneReq.uid).Nodup) :
    leavesFlight s (performWrite s a) a (fun _ g => g) (fun _ fs => fs) ∧ (performWrite s a).mem = s.mem :=
  ⟨leavesFlight_of_lanesAct nodup rfl (lanesAct_of_threads (t := noteSpawn s a) (fun _ => rfl) a.lanes),
    dropAccess_countDown_mem (noteSpawn s a) a⟩

theorem exec_storePerformed {s : State} {a : Access} (found : accessOf s a.id = some a) :
    exec (.storePerformed a.id) s = .next (storePerform s a) :=
  congrArg Host.Outcome.next (onAccess_of_found found (storePerform s))

theorem storePerformed_port {s : State} {a : Access} {m : Mem} (found : accessOf s a.id = some a)
    (nodup : (a.lanes.map LaneReq.uid).Nodup) (store : a.kind = .store) (waits : a.applied = false)
    (port : a.space = .laneL ∨ a.space = .scratchS ∨ a.space = .clusterC) (can : canPerform s a = true)
    (nonempty : a.lanes ≠ []) (same : ∀ r ∈ a.lanes, r.mem = m)
    (place : m = .device ∨ (∃ b, m = .scratch b ∧ (mget s.work.blocks b).isSome = true)) (clean : cleanAccess s a) :
    answers (.storePerformed a.id) s fun t => leavesFlight s t a (fun _ g => g) (fun r fs => if m = .device then
        (fs ++ ((r.writes.map fun w => w.1 / 4096).dedup.filter fun n => !(frameOf s n).pin).map
          fun n => (n, (frameOf s n).wrote)).dedup else fs)
      ∧ memCells t m = setCells (memCells s m) (a.lanes.flatMap LaneReq.writes) := by
  refine ⟨_, exec_storePerformed found, ?_⟩
  have atPort : (a.space == .laneL || a.space == .scratchS || a.space == .clusterC) = true := by
    obtain h | h | h := port <;> simp [h]
  have performed : storePerform s a = finishStore s a := by
    simp only [storePerform, store, waits, atPort, can, Bool.false_eq_true, if_false, Bool.and_true, if_true]
  rw [performed]
  exact finishStore_leaves nodup nonempty same place clean

theorem storePerformed_scope {s : State} {a : Access} (found : accessOf s a.id = some a)
    (nodup : (a.lanes.map LaneReq.uid).Nodup) (kind : a.kind = .store ∨ a.kind = .reduction)
    (performed : performedAt s a a.scope = true) :
    answers (.storePerformed a.id) s fun t =>
      leavesFlight s t a (fun _ g => g) (fun _ fs => fs) ∧ t.mem = s.mem := by
  refine ⟨_, exec_storePerformed found, ?_⟩
  have applied : a.applied = true := (Bool.and_eq_true_iff.1 performed).1
  have ended : storePerform s a = performWrite s a := by
    obtain kind | kind := kind <;> simp only [storePerform, kind, applied, performed, if_true]
  rw [ended]
  exact performWrite_leaves nodup

end Sys2Proof.Proofs
end

section
/-! PROOF of the statement on the events of accesses, O41: writes and atomics applied at their home, releases whose wait ends
and refused requests (10 R234, R238 to R242, 11 R251, R255, R258). -/

namespace Sys2Proof.Proofs

open Sys2Proof.Machine Sys2Proof.Safety

theorem accessOf_congr {s t : State} (pend : t.pend = s.pend) (i : Nat) : accessOf t i = accessOf s i := by
  rw [accessOf, pend, accessOf]

theorem accessOf_modAccess {s : State} {a : Access} (found : accessOf s a.id = some a) {f : Access → Access}
    (number : ∀ x, (f x).id = x.id) : accessOf (modAccess s a.id f) a.id = some (f a) := by
  have same : ((fun b : Access => b.id == a.id) ∘ fun x => if x.id = a.id then f x else x) = fun b => b.id == a.id := by
    funext x
    dsimp only [Function.comp]
    split
    · rw [number]
    · rfl
  rw [accessOf, modAccess, List.find?_map, same, show s.pend.find? (fun b => b.id == a.id) = some a from found,
    Option.map_some, if_pos rfl]

/-! ### Write horizons (11 R255) -/

/-- A thread's write horizon. -/
def horizon (s : State) (u : Nat) : Option Nat := (threadOf s u).map (·.regs.wh)

theorem horizon_modThread (s : State) (u v : Nat) {f : Thread → Thread} {g : Nat → Nat}
    (acts : ∀ t, (f t).regs.wh = g t.regs.wh) :
    horizon (modThread s u f) v = if v = u then (horizon s v).map g else horizon s v := by
  rw [horizon, threadOf, modThread, modWork, mget_mmod]
  split
  · simp only [horizon, threadOf, Option.map_map, Function.comp_def, acts]
  · rfl

theorem horizon_modThread_keeps (s : State) (u v : Nat) {f : Thread → Thread} (kept : ∀ t, (f t).regs.wh = t.regs.wh) :
    horizon (modThread s u f) v = horizon s v := by
  rw [horizon_modThread s u v (g := id) kept]
  split
  · exact Option.map_id_apply
  · rfl

theorem horizon_raiseWh (s : State) (u v c : Nat) :
    horizon (raiseWh s u c) v = if v = u then (horizon s v).map (max · c) else horizon s v :=
  horizon_modThread s u v fun _ => rfl

theorem horizon_noteFrames (s : State) (u v : Nat) (ws : List (Nat × Byte)) :
    horizon (noteFrames s u ws) v = horizon s v := horizon_modThread_keeps s u v fun _ => rfl

theorem noteAhead_keeps (s : State) (a : Access) (c : Nat) :
    threadsOnly s (noteAhead s a c) ∧ ∀ v, horizon (noteAhead s a c) v = horizon s v := by
  unfold noteAhead
  refine foldl_rel (fun s t => threadsOnly s t ∧ ∀ v, horizon t v = horizon s v) (fun s => ⟨.refl s, fun _ => rfl⟩)
    (fun _ _ _ first second => ⟨first.1.trans second.1, fun v => (second.2 v).trans (first.2 v)⟩) _ (fun t r => ?_) _ s
  split
  · exact ⟨modThread_threadsOnly t _ _, fun v => horizon_modThread_keeps t _ v fun _ => rfl⟩
  · exact ⟨.refl t, fun _ => rfl⟩

/-- A lane of a store that writes a byte raises its thread's write horizon and notes its frames. -/
def raiseLane (c : Nat) (s : State) (r : LaneReq) : State :=
  if r.writes.isEmpty then s else noteFrames (raiseWh s r.uid c) r.uid r.writes

theorem raiseLane_threadsOnly (c : Nat) (s : State) (r : LaneReq) : threadsOnly s (raiseLane c s r) := by
  unfold raiseLane
  split
  · exact .refl s
  · exact (modThread_threadsOnly s _ _).trans (modThread_threadsOnly _ _ _)

theorem horizon_raiseLane (c : Nat) (s : State) (r : LaneReq) (v : Nat) : horizon (raiseLane c s r) v
    = if v = r.uid ∧ r.writes ≠ [] then (horizon s v).map (max · c) else horizon s v := by
  unfold raiseLane
  cases writes : r.writes with
  | nil => simp
  | cons w ws => simp [horizon_noteFrames, horizon_raiseWh]

theorem horizon_foldl_raiseLane (c : Nat) (rs : List LaneReq) (s : State) (v : Nat) :
    horizon (rs.foldl (raiseLane c) s) v = if ∃ r ∈ rs, v = r.uid ∧ r.writes ≠ [] then (horizon s v).map (max · c)
      else horizon s v := by
  induction rs generalizing s with
  | nil => simp
  | cons r rs ih =>
    rw [List.foldl_cons, ih, horizon_raiseLane]
    have twice : ((horizon s v).map (max · c)).map (max · c) = (horizon s v).map (max · c) := by
      simp [Option.map_map, Function.comp_def]
    by_cases later : ∃ q ∈ rs, v = q.uid ∧ q.writes ≠ []
    · rw [if_pos later, if_pos (later.imp fun q h => ⟨List.mem_cons_of_mem r h.1, h.2⟩)]
      split
      · exact twice
      · rfl
    · rw [if_neg later]
      refine if_congr ?_ rfl rfl
      simp only [List.mem_cons, or_and_right, exists_or, exists_eq_left, later, or_false]

/-! ### A store applied at its home (11 R251, R255) -/

theorem applyWrite_eq (s : State) (die : Nat) {ws : List (Nat × Byte)}
    (clean : ∀ w ∈ ws, isPoisoned s .device (w.1 / 32) = false) :
    homeOnly s (applyWrite s die ws) ∧ (applyWrite s die ws).mem.device = setCells s.mem.device ws := by
  unfold applyWrite
  extract_lets s1
  have lines : linesOnly s s1 := foldl_rel linesOnly .refl (fun _ _ _ => .trans) _
    (fun t l => (modLine_linesOnly t l _).trans (l2Fill_linesOnly _ die l true)) _ s
  have clean1 : ∀ w ∈ ws, isPoisoned s1 .device (w.1 / 32) = false := fun w listed => by
    rw [lines.cachesOnly.isPoisoned_eq, clean w listed]
  have marked := markDirty_linesOnly (writeBytes s1 .device ws) ws
  refine ⟨lines.homeOnly.trans ((writeBytes_device_homeOnly s1 ws).trans marked.homeOnly), ?_⟩
  rw [marked.cachesOnly.mem_eq, writeBytes_device_mem clean1, lines.cachesOnly.mem_eq]

theorem homeOnly.horizon_eq {s t : State} (h : homeOnly s t) (u : Nat) : horizon t u = horizon s u := by
  obtain ⟨_, _, _, rfl⟩ := h
  rfl

theorem homeOnly.pend_eq {s t : State} (h : homeOnly s t) : t.pend = s.pend := by
  obtain ⟨_, _, _, rfl⟩ := h
  rfl

theorem cachesOnly.horizon_eq {s t : State} (h : cachesOnly s t) (u : Nat) : horizon t u = horizon s u := by
  rw [horizon, h.threadOf_eq, horizon]

theorem writeApply_applies {s : State} {a : Access} (found : accessOf s a.id = some a) (store : a.kind = .store)
    (space : a.space = .globalG) (can : canPerform s a = true) (free : lineBusy s a = false)
    (writes : a.lanes.flatMap LaneReq.writes ≠ []) (device : ∀ r ∈ a.lanes, r.mem = .device) (clean : cleanAccess s a) :
    answers (.writeApply a.id) s fun t =>
      t.mem.device = setCells s.mem.device (a.lanes.flatMap LaneReq.writes)
      ∧ accessOf t a.id = some { a with applied := true, served := s.dtime
                                        completion := completionTime s (dieOfCore a.core) a.line }
      ∧ ∀ r ∈ a.lanes, r.writes ≠ [] → ∀ th, threadOf s r.uid = some th →
          (threadOf t r.uid).map (·.regs.wh) = some (max th.regs.wh (completionTime s (dieOfCore a.core) a.line)) := by
  let c := completionTime s (dieOfCore a.core) a.line
  let s1 := dropClusterCopies (applyWrite s (dieOfCore a.core) (a.lanes.flatMap LaneReq.writes)) (clusterOfCore a.core)
    a.line
  let s2 := a.lanes.foldl (raiseLane c) (noteAhead s1 a c)
  let done : Access → Access := fun x => { x with applied := true, completion := c, served := s.dtime }
  have arm : exec (.writeApply a.id) s = .next (modAccess s2 a.id done) := by
    have applied : writeApplied s a = serveStore s a := by
      simp [writeApplied, store, space, can, atLine_of_free free]
    have served : serveStore s a = modAccess s2 a.id done := if_neg (by simpa using writes)
    rw [← served, ← applied]
    exact congrArg Host.Outcome.next (onAccess_of_found found (writeApplied s))
  obtain ⟨home, bytes⟩ := applyWrite_eq s (dieOfCore a.core) (clean.writes_eq device)
  have caches : cachesOnly _ s1 := dropClusterCopies_cachesOnly _ (clusterOfCore a.core) a.line
  obtain ⟨ahead, aheadHorizon⟩ := noteAhead_keeps s1 a c
  have raised : threadsOnly s1 s2 := ahead.trans <|
    foldl_rel threadsOnly .refl (fun _ _ _ => .trans) _ (raiseLane_threadsOnly c) a.lanes _
  have found2 : accessOf s2 a.id = some a :=
    (accessOf_congr (raised.pend_eq.trans (caches.pend_eq.trans home.pend_eq)) a.id).trans found
  refine ⟨_, arm, ?_, accessOf_modAccess found2 fun _ => rfl, fun r lane written th thread => ?_⟩
  · exact (congrArg Memories.device (raised.mem_eq.trans caches.mem_eq)).trans bytes
  · have start : horizon (noteAhead s1 a c) r.uid = some th.regs.wh := by
      rw [aheadHorizon, caches.horizon_eq, home.horizon_eq, horizon, thread, Option.map_some]
    have high := horizon_foldl_raiseLane c a.lanes (noteAhead s1 a c) r.uid
    rw [if_pos ⟨r, lane, rfl, written⟩, start, Option.map_some] at high
    exact high

/-! ### Atomics applied at their home (10 R238 to R242) -/

/-- A request of one lane: the value read, and the bytes of the new one. -/
theorem applyRequest_single {s : State} {a : Access} {r : LaneReq} (single : a.lanes = [r]) (device : r.mem = .device)
    (clean : cleanAccess s a) :
    let old := BitVec.ofNat 64 (readBytes s .device r.addrs)
    applyRequest s a = ([{ r with old := old }], byteWrites (r.addrs.headD 0) (sizeBytes a.size)
      (atomNew a.op a.size old r.operand r.cmp).toNat) := by
  intro old
  have unpoisoned : (a.lanes.any fun x => x.addrs.any fun k => isPoisoned s x.mem (k / 32)) = false :=
    List.any_eq_false.2 fun x listed => Bool.eq_false_iff.1 (clean.lanePoison_eq x listed)
  unfold applyRequest
  dsimp only
  rw [unpoisoned, single]
  have cells : BitVec.ofNat 64 (leNat (r.addrs.map (readByte s .device))) = old := rfl
  simp only [applyLanes, device, List.reverse_nil, List.find?_nil, cells, List.nil_append, Bool.false_eq_true, if_false]

theorem byteWrites_ne_nil (a x : Nat) (size : Size) : byteWrites a (sizeBytes size) x ≠ [] := by
  cases size <;> exact List.cons_ne_nil _ _

theorem applyAtomic_homeOnly (s : State) (line : Nat) (ws : List (Nat × Byte)) :
    homeOnly s (applyAtomic s line ws) := by
  unfold applyAtomic
  exact ((modLine_linesOnly s line _).trans (l2Fill_linesOnly _ _ line true)).homeOnly.trans <|
    (writeBytes_device_homeOnly _ ws).trans (markDirty_linesOnly _ ws).homeOnly

theorem applyAtomic_device {s : State} {line : Nat} {ws : List (Nat × Byte)}
    (clean : ∀ w ∈ ws, isPoisoned s .device (w.1 / 32) = false) :
    (applyAtomic s line ws).mem.device = setCells s.mem.device ws := by
  unfold applyAtomic
  extract_lets s1
  have lines : linesOnly s (l2Fill s1 (homeDie line) line true) :=
    (modLine_linesOnly s line _).trans (l2Fill_linesOnly _ _ line true)
  have clean1 : ∀ w ∈ ws, isPoisoned (l2Fill s1 (homeDie line) line true) .device (w.1 / 32) = false :=
    fun w listed => by rw [lines.cachesOnly.isPoisoned_eq, clean w listed]
  rw [(markDirty_linesOnly _ ws).cachesOnly.mem_eq, writeBytes_device_mem clean1, lines.cachesOnly.mem_eq]

theorem exec_atomicRequestApply {s : State} {a : Access} (found : accessOf s a.id = some a) :
    exec (.atomicRequestApply a.id) s = .next (atomicApplied s a) :=
  congrArg Host.Outcome.next (onAccess_of_found found (atomicApplied s))

theorem atomicRequestApply_applies {s : State} {a : Access} {r : LaneReq} (found : accessOf s a.id = some a)
    (kind : a.kind = .atomic ∨ a.kind = .reduction) (space : a.space = .globalG) (can : canPerform s a = true)
    (free : lineBusy s a = false) (single : a.lanes = [r]) (device : r.mem = .device) (clean : cleanAccess s a) :
    answers (.atomicRequestApply a.id) s fun t =>
      let n := sizeBytes a.size
      let old := BitVec.ofNat 64 (readBytes s .device r.addrs)
      (∃ b, accessOf t a.id = some b ∧ b.applied = true ∧ b.completion = homeCompletion s (dieOfCore a.core) a.line
        ∧ b.lanes = [{ r with old := old }])
      ∧ ((∀ x ∈ byteWrites (r.addrs.headD 0) n 0, isPoisoned s .device (x.1 / 32) = false) →
          t.mem.device = setCells s.mem.device
            (byteWrites (r.addrs.headD 0) n (atomNew a.op a.size old r.operand r.cmp).toNat)) := by
  let old := BitVec.ofNat 64 (readBytes s .device r.addrs)
  let ws := byteWrites (r.addrs.headD 0) (sizeBytes a.size) (atomNew a.op a.size old r.operand r.cmp).toNat
  let c := homeCompletion s (dieOfCore a.core) a.line
  let s1 := dropClusterCopies (applyAtomic s a.line ws) (clusterOfCore a.core) a.line
  let s2 := a.lanes.foldl (fun acc x => noteFrames (raiseWh acc x.uid c) x.uid (ws.filter fun w => x.addrs.contains w.1))
    (noteAhead s1 a c)
  let done : Access → Access := fun x =>
    { x with applied := true, completion := c, served := s.dtime, lanes := [{ r with old := old }] }
  have arm : exec (.atomicRequestApply a.id) s = .next (modAccess s2 a.id done) := by
    have applied : atomicApplied s a = serveAtomic s a := by
      obtain kind | kind := kind <;> simp [atomicApplied, kind, space, can, atLine_of_free free]
    have request : applyRequest s a = ([{ r with old := old }], ws) := applyRequest_single single device clean
    have nonempty : ws.isEmpty = false := by simpa using byteWrites_ne_nil _ _ a.size
    have served : serveAtomic s a = modAccess s2 a.id done := by
      unfold serveAtomic
      simp only [request, space, if_true, nonempty, Bool.false_eq_true, if_false]
      rfl
    rw [exec_atomicRequestApply found, applied, served]
  have home := applyAtomic_homeOnly s a.line ws
  have caches : cachesOnly _ s1 := dropClusterCopies_cachesOnly _ (clusterOfCore a.core) a.line
  have raised : threadsOnly s1 s2 := (noteAhead_keeps s1 a c).1.trans <|
    foldl_rel threadsOnly .refl (fun _ _ _ => .trans) _
      (fun t x => (modThread_threadsOnly t x.uid _).trans (modThread_threadsOnly _ x.uid _)) a.lanes _
  have found2 : accessOf s2 a.id = some a :=
    (accessOf_congr (raised.pend_eq.trans (caches.pend_eq.trans home.pend_eq)) a.id).trans found
  refine ⟨_, arm, ⟨done a, accessOf_modAccess found2 fun _ => rfl, rfl, rfl, rfl⟩, fun whole => ?_⟩
  have clean1 : ∀ w ∈ ws, isPoisoned s .device (w.1 / 32) = false := by
    intro w listed
    obtain ⟨i, member, rfl⟩ := List.mem_map.1 listed
    exact whole (r.addrs.headD 0 + i, BitVec.ofNat 8 (0 / 256 ^ i)) (List.mem_map.2 ⟨i, member, rfl⟩)
  exact (congrArg Memories.device (raised.mem_eq.trans caches.mem_eq)).trans (applyAtomic_device clean1)

/-- 10 R242: a hot-address request retires as it is applied, in one write transaction of its line. -/
theorem hotQueueRetire_single {s : State} {a : Access} (found : accessOf s a.id = some a) (hot : isHotAdd a = true) :
    exec (.hotQueueRetire [a.id]) s = .next (oneTransaction s (atomicApplied s a) a.line) := by
  have arm : exec (.hotQueueRetire [a.id]) s = execHotQueueRetire [a.id] s := rfl
  have retired : onAccess s a.id (fun a => if isHotAdd a then atomicApplied s a else s) = atomicApplied s a :=
    (onAccess_of_found found _).trans (if_pos hot)
  rw [arm, execHotQueueRetire]
  simp only [List.take_succ_cons, List.take_nil, List.foldl_cons, List.foldl_nil, retired, List.filterMap_cons, found,
    Option.map_some, List.filterMap_nil, (List.nodup_singleton a.line).dedup]

/-! ### Releases and refusals (10 R234, 11 R258) -/

theorem releaseWhWaitEnd_issues {s : State} {a : Access} (found : accessOf s a.id = some a)
    (resident : (ctxOf s a.ctx).resident = true) (ended : if a.space = .hostH then releaseReady s a = true
      else ∀ r ∈ a.lanes, ∀ th, threadOf s r.uid = some th → th.regs.wh ≤ s.dtime) :
    answers (.releaseWhWaitEnd a.id) s fun t =>
      accessOf t a.id = some { a with issued := true, since := s.dtime } := by
  have ends : (if a.space == .hostH then releaseReady s a
      else a.lanes.all fun r => ((threadOf s r.uid).map (·.regs.wh)).getD 0 ≤ s.dtime) = true := by
    by_cases host : a.space = .hostH
    · simpa [host] using ended
    · rw [if_neg host] at ended
      have passed : ∀ r ∈ a.lanes, ((threadOf s r.uid).map (·.regs.wh)).getD 0 ≤ s.dtime := by
        intro r listed
        cases thread : threadOf s r.uid with
        | none => exact Nat.zero_le _
        | some th => exact ended r listed th thread
      simpa [host] using passed
  have arm : exec (.releaseWhWaitEnd a.id) s
      = .next (modAccess s a.id fun x => { x with issued := true, since := s.dtime }) := by
    refine congrArg Host.Outcome.next ((onAccess_of_found found _).trans (if_pos ?_))
    rw [resident, ends]
    rfl
  exact ⟨_, arm, accessOf_modAccess found fun _ => rfl⟩

/-- 11 R258: a refused request does again what it did when it was refused. -/
theorem transientRefusalRetry_repeats {s : State} {a : Access} (found : accessOf s a.id = some a)
    (refused : a.refusals ≠ 0) :
    (a.kind = .load → ∃ t, exec (.loadDataReturn { access := a.id }) s = .next t
      ∧ exec (.transientRefusalRetry a.id) s = .next t)
    ∧ (a.kind = .store → ∃ t, exec (.writeApply a.id) s = .next t ∧ exec (.transientRefusalRetry a.id) s = .next t)
    ∧ (a.kind = .atomic ∨ a.kind = .reduction → ∃ t, exec (.atomicRequestApply a.id) s = .next t
      ∧ exec (.transientRefusalRetry a.id) s = .next t) := by
  have retry : exec (.transientRefusalRetry a.id) s = .next (match a.kind with
      | .load => dataReturn s a
      | .store => writeApplied s a
      | _ => atomicApplied s a) :=
    congrArg Host.Outcome.next ((onAccess_of_found found _).trans (if_neg refused))
  refine ⟨fun kind => ⟨dataReturn s a, ?_, ?_⟩, fun kind => ⟨writeApplied s a, ?_, ?_⟩,
    fun kind => ⟨atomicApplied s a, exec_atomicRequestApply found, ?_⟩⟩
  · exact congrArg Host.Outcome.next (onAccess_of_found found (dataReturn s))
  · rw [retry, kind]
  · exact congrArg Host.Outcome.next (onAccess_of_found found (writeApplied s))
  · rw [retry, kind]
  · obtain kind | kind := kind <;> rw [retry, kind]

end Sys2Proof.Proofs
end

section
/-! PROOF of the statement on the events of accesses, O41: L1 copies and their leases, lines that leave transition, and blocking
loads read again; then O41 itself (10 R237, 11 R253 to R258). -/

namespace Sys2Proof.Proofs

open Sys2Proof.Machine Sys2Proof.Safety

/-! ### L1 copies (11 R251, R253) -/

theorem cachesOnly.clusterOf_eq {s t : State} (h : cachesOnly s t) (c : Nat) : clusterOf t c = clusterOf s c := by
  obtain ⟨⟨_, _, _, _, rfl⟩, -⟩ := h
  rfl

theorem linesOnly.coreOf_eq {s t : State} (h : linesOnly s t) (g : Nat) : coreOf t g = coreOf s g := by
  obtain ⟨_, _, rfl⟩ := h
  rfl

theorem l1Copy_changeL1 (s : State) (g line : Nat) (f : Core → Core) :
    l1Copy (changeL1 s g f) g line = (f (coreOf s g)).l1.find? fun c => c.line == line := by
  rw [l1Copy, (changeL1_cores s g f).coreOf_eq, coreOf_modCore, if_pos rfl]

theorem l1Copy_dropCopy (s : State) (core line : Nat) : l1Copy (dropCopy s core line) core line = none := by
  unfold dropCopy
  split
  · next none => exact Option.isNone_iff_eq_none.1 none
  · rw [l1Copy, coreOf_modCore, if_pos rfl]
    exact List.find?_eq_none.2 fun c listed => by simpa using (List.mem_filter.1 listed).2

/-- A fill leaves its copy in the L1, where the L1 has room for a line. -/
theorem l1Copy_fillCopy {s : State} {core ctx line : Nat} (room : 0 < l1Capacity s (l1Core s core line)) :
    ∃ c, l1Copy (fillCopy s core ctx line) (l1Core s core line) line = some c
      ∧ c.fetch = s.dtime ∧ c.expiry = s.dtime + leaseNs s ctx
      ∧ c.data = cellsFrom s.mem.device (128 * line) 128 := by
  obtain ⟨n, capacity⟩ : ∃ n, l1Capacity s (l1Core s core line) = n + 1 := ⟨_, (Nat.sub_add_cancel room).symm⟩
  unfold fillCopy
  dsimp only
  rw [l1Copy_changeL1, capacity]
  simp only [keepCopies, List.take_succ_cons, List.find?_cons, beq_self_eq_true]
  exact ⟨_, rfl, rfl, rfl, rfl⟩

theorem l1FillRequest_fills {s : State} {core ctx line : Nat} {a : Access} (flight : a ∈ s.pend) (load : a.kind = .load)
    (cached : usesL1 a = true) (sameCore : a.core = core) (sameCtx : a.ctx = ctx) (sameLine : a.line = line)
    (misses : l1Hit s core line (floorsOf s a) = none) (ready : fillReady s core line = true)
    (room : 0 < l1Capacity s (l1Core s core line)) :
    answers (.l1FillRequest core ctx line) s fun t => ∃ c, l1Copy t (l1Core s core line) line = some c
      ∧ c.fetch = s.dtime ∧ c.expiry = s.dtime + leaseNs s ctx
      ∧ c.data = cellsFrom s.mem.device (128 * line) 128 ∧ t.mem = s.mem := by
  have wanted : (s.pend.any fun a => a.kind == .load && usesL1 a && a.core == core && a.ctx == ctx && a.line == line
      && (l1Hit s core line (floorsOf s a)).isNone) = true :=
    List.any_eq_true.2 ⟨a, flight, by simp [load, cached, sameCore, sameCtx, sameLine, misses]⟩
  have arm : exec (.l1FillRequest core ctx line) s = .next (fillCopy s core ctx line) := by
    refine congrArg Host.Outcome.next (if_pos ?_)
    rw [wanted, ready]
    rfl
  obtain ⟨c, copy, fetch, expiry, data⟩ := l1Copy_fillCopy (ctx := ctx) room
  exact ⟨_, arm, c, copy, fetch, expiry, data, (fillCopy_cachesOnly s core ctx line).mem_eq⟩

theorem leaseExpiry_drops {s : State} {core line : Nat} {c : L1Copy} (copy : l1Copy s core line = some c)
    (expired : c.expiry ≤ s.dtime) :
    answers (.leaseExpiry core line) s fun t => l1Copy t core line = none ∧ t.mem = s.mem
      ∧ ∀ e ∈ mgetD (lineOf t line).tokens (dieOfCore core) [], s.dtime < e := by
  have arm : exec (.leaseExpiry core line) s = .next (modLine (dropCopy s core line) line fun d =>
      { d with tokens := mset d.tokens (dieOfCore core) (liveTokens s d (dieOfCore core)) }) := by
    have event : exec (.leaseExpiry core line) s = execLeaseExpiry core line s := rfl
    rw [event, execLeaseExpiry, copy]
    exact if_neg (Nat.not_lt.2 expired)
  refine ⟨_, arm, l1Copy_dropCopy s core line, (dropCopy_cachesOnly s core line).mem_eq, fun e listed => ?_⟩
  rw [lineOf_modLine, if_pos rfl, mgetD, mget_mset_same, Option.getD_some, liveTokens] at listed
  exact of_decide_eq_true (List.mem_filter.1 listed).2

/-- 11 R258: a line without requests or writes that wait at it leaves its transient state, and nothing else changes. -/
theorem transientLineRelease_frees {s : State} {line : Nat} (transient : (lineOf s line).transient = true)
    (settled : lineSettled s line = true) (noRequests : (lineOf s line).persistent = [])
    (noWrites : (lineOf s line).homeWrites = []) :
    answers (.transientLineRelease line) s fun t => lineOf t line = { lineOf s line with transient := false }
      ∧ (∀ l, l ≠ line → lineOf t l = lineOf s l) ∧ t.mem = s.mem := by
  let free : LineDir → LineDir := fun d => { d with transient := false, persistent := [] }
  have arm : exec (.transientLineRelease line) s = .next (modLine s line free) := by
    have released : releaseLine s line = modLine s line free := by
      have held : (lineOf (modLine s line free) line).homeWrites.isEmpty = true := by
        rw [lineOf_modLine, if_pos rfl]
        exact List.isEmpty_iff.2 noWrites
      unfold releaseLine
      rw [noRequests]
      exact if_pos held
    rw [← released]
    refine congrArg Host.Outcome.next (if_pos ?_)
    rw [transient, settled]
    rfl
  refine ⟨_, arm, ?_, fun l other => ?_, rfl⟩
  · rw [lineOf_modLine, if_pos rfl]
    show ({ lineOf s line with transient := false, persistent := [] } : LineDir) = _
    rw [← noRequests]
  · rw [lineOf_modLine, if_neg other]

/-! ### Waits that end (02 R39, R40) -/

theorem threadOf_fileThread {s : State} {u : Nat} {t : Thread} (found : threadOf s u = some t) :
    threadOf (fileThread s u) u
      = some { t with ctl := { t.ctl with run := .runnable, refile := false }, filedAt := s.dtime } := by
  have filed := threadOf_modThread_same found fun x =>
    { x with ctl := { x.ctl with run := .runnable, refile := false }, filedAt := s.dtime }
  unfold fileThread
  rw [found]
  dsimp only
  split
  · exact filed
  · exact filed

/-- A blocked thread's wait that ends `DONE` writes its destination and sends the thread to its resume point. -/
theorem endWait_done {s : State} {u : Nat} {t : Thread} (found : threadOf s u = some t) (w : Wait) (val : Word)
    (acquire : Bool) :
    ∃ th, threadOf (endWait s u w .done val acquire id) u = some th ∧ th.ctl.wait = none ∧ th.ctl.run = .runnable
      ∧ th.ctl.pc = w.resume ∧ th.regs.status = 0 ∧ ∀ n, w.dst = .reg n → th.regs.get n.toNat = val := by
  let limit := (ctxOf s (ctxOfBlock s t.block)).f.escLimit
  let ended := endRegs s.dtime limit w.dst val acquire .done w.site w.poll w.esc t
  let written : Thread := { ended with ctl := { ended.ctl with pc := w.resume, run := .runnable } }
  have regs : endWaitRegs s u w .done val acquire id = modThread s u fun _ => written := by
    unfold endWaitRegs
    rw [found]
    rfl
  have thread : threadOf (modThread s u fun _ => written) u = some written := threadOf_modThread_same found _
  have noTrap : trapDueOf (modThread s u fun _ => written) u = none := by
    rw [trapDueOf, thread]
    rfl
  have ends : endWait s u w .done val acquire id = fileThread (modThread s u fun _ => written) u := by
    unfold endWait
    rw [found]
    dsimp only
    rw [regs, noTrap]
  refine ⟨_, ends ▸ threadOf_fileThread thread, rfl, rfl, rfl, rfl, fun n dst => ?_⟩
  have value : (t.regs.set n.toNat val).get n.toNat = val := by rw [regs_get_set, if_pos rfl]
  have wrote : written.regs.v = (t.regs.set n.toNat val).v := by simp only [written, ended, endRegs, dst]
  exact (congrArg (fun v => mgetD v n.toNat 0) wrote).trans value

/-! ### Blocking loads read again (10 R236, R237) -/

/-- An access that is not marked `HC` finds its bytes in device memory (17 R403). -/
theorem leafHeld_device {s : State} {n : Need} {va : Nat} {x : Option (DWord × Nat)} {p : Place} (notHost : n.hc = false)
    (h : leafHeld s n va x = .ok p) : p.mem.1 = .device := by
  unfold leafHeld at h
  split at h
  · cases h
  · next e level =>
    split at h
    · cases h
    · next ok =>
      split at h
      · split at h <;> cases h
      · cases h
        have plain : dbit e 6 = false := by
          simp only [leafOk, notHost, Bool.not_eq_true, Bool.not_eq_false', Bool.and_eq_true, beq_iff_eq] at ok
          exact ok.1.1.1.2
        simp only [leafPlace, plain, Bool.false_eq_true, if_false]
        split <;> rfl

theorem translateWalk_device {s : State} {ctx va : Nat} {n : Need} {p : Place} (notHost : n.hc = false)
    (h : translateWalk s ctx va n = .ok p) : p.mem.1 = .device := by
  unfold translateWalk leafResult at h
  split at h
  · next held =>
    split at h
    · cases h
    · cases h
      exact leafHeld_device notHost held
  · cases h

theorem rereadPlace_device {s : State} {ctx va : Nat} {req r : LaneReq}
    (h : rereadPlace s ctx .globalG va req = .ok r) : r.mem = .device := by
  unfold rereadPlace at h
  rw [if_neg (by decide)] at h
  split at h
  · cases h
  · next place =>
    cases h
    exact translateWalk_device rfl place

/-- The state in which a line of device memory is read again: without the copy that the core's L1 holds of it. -/
def rereadStart (s : State) (core : Nat) (r : LaneReq) : State :=
  if r.mem = .device then dropCopy s (l1Core s core (r.addrs.headD 0 / 128)) (r.addrs.headD 0 / 128) else s

theorem rereadStart_cachesOnly (s : State) (core : Nat) (r : LaneReq) : cachesOnly s (rereadStart s core r) := by
  unfold rereadStart
  split
  · exact dropCopy_cachesOnly s _ _
  · exact .refl s

/-- A re-read reads the storage: the copy of its line is gone. -/
theorem readBlocking_rereadStart (s : State) (core ctx : Nat) (sp : Space) (acq : Bool) {r : LaneReq}
    (device : sp = .globalG → r.mem = .device) :
    let q := readBlocking (rereadStart s core r) core ctx sp acq [] r
    cachesOnly s q.1 ∧ q.2.1 = readBytes s r.mem r.addrs ∧ q.2.2 = lanePoison s none r := by
  have start := rereadStart_cachesOnly s core r
  have misses : sp = .globalG → l1Hit (rereadStart s core r) core (r.addrs.headD 0 / 128) [] = none := by
    intro g
    have sameCore : l1Core (rereadStart s core r) core (r.addrs.headD 0 / 128)
        = l1Core s core (r.addrs.headD 0 / 128) := by
      rw [l1Core, start.clusterOf_eq, l1Core]
    rw [l1Hit, sameCore, rereadStart, if_pos (device g), l1Copy_dropCopy]
  by_cases g : sp = .globalG
  · have read : readBlocking (rereadStart s core r) core ctx sp acq [] r
        = (if acq then engineReads (rereadStart s core r) (dieOfCore core) [r.addrs.headD 0 / 128]
            else fillCopy (rereadStart s core r) core ctx (r.addrs.headD 0 / 128),
          laneValue (rereadStart s core r) none r, lanePoison (rereadStart s core r) none r) := by
      simp only [readBlocking, g, if_true, misses g, ite_self]
    rw [read]
    refine ⟨start.trans ?_, start.readBytes_eq r.mem r.addrs, start.lanePoison_eq r⟩
    dsimp only
    split
    · exact (engineReads_linesOnly _ _ _).cachesOnly
    · exact fillCopy_cachesOnly _ core ctx _
  · have read : readBlocking (rereadStart s core r) core ctx sp acq [] r
        = (rereadStart s core r, laneValue (rereadStart s core r) none r, lanePoison (rereadStart s core r) none r) := by
      simp only [readBlocking, g, if_false]
    rw [read]
    exact ⟨start, start.readBytes_eq r.mem r.addrs, start.lanePoison_eq r⟩

/-- What a re-read comes to, as O41 states it: a value that differs ends the wait with it, another is kept. -/
def rereadOutcome (s : State) (u : Nat) (t : Thread) (w : Wait) (sp : Space) (va : Nat) (req r : LaneReq) (sx acq : Bool)
    (dst : Nat) (t' : State) : Prop :=
  let x := readBytes s r.mem r.addrs
  (x ≠ req.cmp.toNat → ∃ th, threadOf t' u = some th ∧ th.ctl.wait = none ∧ th.ctl.run = .runnable
    ∧ th.ctl.pc = w.resume ∧ th.regs.status = 0 ∧ (∀ n, w.dst = .reg n → th.regs.get n.toNat = extendTo32 4 sx x))
  ∧ (x = req.cmp.toNat → threadOf t' u = some { t with ctl := { t.ctl with wait := some { w with
      kind := .blockingLoad sp va r .b4 sx acq dst (BitVec.ofNat 64 x) } } })

section
variable {s : State} {u : Nat} {t : Thread} {w : Wait} {sp : Space} {va : Nat} {req r : LaneReq} {sx acq : Bool}
  {dst : Nat} {last : DWord}

theorem rereadLane_outcome (found : threadOf s u = some t) (kind : w.kind = .blockingLoad sp va req .b4 sx acq dst last)
    (place : rereadPlace s (ctxOfBlock s t.block) sp va req = .ok r) (clean : lanePoison s none r = false)
    (readable : unread s ((blockOf s t.block).core.getD 0) u sp req = false)
    (free : blockedByLine (rereadStart s ((blockOf s t.block).core.getD 0) r) ((blockOf s t.block).core.getD 0) acq [] r
      = false) :
    rereadOutcome s u t w sp va req r sx acq dst (rereadLane s u t w) := by
  obtain ⟨caches, value, poison⟩ := readBlocking_rereadStart s ((blockOf s t.block).core.getD 0)
    (ctxOfBlock s t.block) sp acq (r := r) fun g => rereadPlace_device (g ▸ place)
  have settled : ownPending s u sp req = false := (Bool.or_eq_false_iff.1 readable).1
  have lane : rereadLane s u t w = if readBytes s r.mem r.addrs ≠ req.cmp.toNat then
        endWait (readBlocking (rereadStart s ((blockOf s t.block).core.getD 0) r) ((blockOf s t.block).core.getD 0)
          (ctxOfBlock s t.block) sp acq [] r).1 u w .done (extendTo32 4 sx (readBytes s r.mem r.addrs)) acq id
      else modThread (readBlocking (rereadStart s ((blockOf s t.block).core.getD 0) r)
          ((blockOf s t.block).core.getD 0) (ctxOfBlock s t.block) sp acq [] r).1 u fun y => y.modCtl fun c =>
        { c with wait := some { w with
          kind := .blockingLoad sp va r .b4 sx acq dst (BitVec.ofNat 64 (readBytes s r.mem r.addrs)) } } := by
    unfold rereadStart at free value poison ⊢
    simp only [rereadLane, kind, settled, readable, place, free, poison, clean, value, Bool.false_eq_true, if_false,
      beq_self_eq_true, Bool.and_true]
    rfl
  rw [lane]
  refine ⟨fun differs => ?_, fun same => ?_⟩
  · rw [if_pos differs]
    exact endWait_done ((caches.threadOf_eq u).trans found) w _ acq
  · rw [if_neg (not_not.2 same), threadOf_modThread_same ((caches.threadOf_eq u).trans found)]
    rfl

theorem reread_blockingLoad (found : threadOf s u = some t) (waits : t.ctl.wait = some w) (blocked : t.ctl.run = .blocked)
    (kind : w.kind = .blockingLoad sp va req .b4 sx acq dst last) {ok : Space → Bool} (space : ok sp = true) :
    reread s (.thread u) ok = rereadLane s u t w := by
  simp only [reread, found, waits, kind, space, blocked, beq_self_eq_true, Bool.and_true, if_true]

end

/-! ### O41 -/

/-- Settles O41: each event, where its request may go on, does what the rule of its kind says. -/
theorem accessEvents : Obligations.AccessEvents := by
  refine ⟨⟨fun s a ready => (loadDataReturn_leaves ready.1 ready.2).1,
    fun s a ready => (loadDataReturn_leaves ready.1 ready.2).2.1,
    fun s a ready => (loadDataReturn_leaves ready.1 ready.2).2.2,
    fun s a m ready => storePerformed_port ready.1 ready.2,
    fun s a ready => storePerformed_scope ready.1 ready.2,
    fun s a ready => writeApply_applies ready.1,
    fun s a r found => atomicRequestApply_applies found,
    fun s a found hot => ⟨_, exec_atomicRequestApply found, hotQueueRetire_single found hot⟩,
    fun s a found => releaseWhWaitEnd_issues found,
    fun s core ctx line a => l1FillRequest_fills,
    fun s core line c => leaseExpiry_drops,
    fun s a found => transientRefusalRetry_repeats found,
    fun s line => transientLineRelease_frees⟩, ?device, ?host⟩
  case device =>
    intro s u t w sp va req r sx acq dst last found waits blocked kind space place clean readable free
    have notHost : (sp != .hostH) = true := by simpa using space
    exact ⟨_, congrArg Host.Outcome.next (reread_blockingLoad found waits blocked kind notHost),
      rereadLane_outcome found kind place clean readable free⟩
  case host =>
    intro s u t w sp va req r sx acq dst last found waits blocked kind space place clean readable free
    have host : (sp == .hostH) = true := by simpa using space
    exact ⟨_, congrArg Host.Outcome.next (reread_blockingLoad found waits blocked kind host),
      rereadLane_outcome found kind place clean readable free⟩

end Sys2Proof.Proofs
end

section
/-! SUPPORT. What the operations of the directory do to their own line: the transfer of counts, the lines that a slice drops and
fills, transactions that begin and end (11 R266 to R269). -/

namespace Sys2Proof.Proofs

open Sys2Proof.Machine Sys2Proof.Safety

/-! ### States of the dies (11 R266, R267) -/

@[simp] theorem passCount_acks (d : LineDir) (die : Nat) : (passCount d die).acks = d.acks := rfl
@[simp] theorem passCount_transient (d : LineDir) (die : Nat) : (passCount d die).transient = d.transient := rfl

@[simp] theorem ownStates_acks (d : LineDir) (line die : Nat) : (ownStates d line die).acks = d.acks :=
  foldl_keeps LineDir.acks passCount passCount_acks _ d

@[simp] theorem ownStates_transient (d : LineDir) (line die : Nat) : (ownStates d line die).transient = d.transient :=
  foldl_keeps LineDir.transient passCount passCount_transient _ d

theorem moesiOf_congr {d e : LineDir} (h : d.states = e.states) (die : Nat) : moesiOf d die = moesiOf e die := by
  rw [moesiOf, h, moesiOf]

/-- A state other than invalid, once set, is read back. -/
theorem moesiOf_setMoesi_same (d : LineDir) (die : Nat) {m : Moesi} (valid : m ≠ .invalid) :
    moesiOf (setMoesi d die m) die = m := by
  rw [moesiOf, setMoesi, if_neg valid, mgetD, mget_mset_same, Option.getD_some]

/-- A die whose copy is gone reads as invalid; the other dies keep theirs. -/
theorem moesiOf_setMoesi_invalid {d : LineDir} (sorted : msorted d.states = true) (die x : Nat) :
    moesiOf (setMoesi d die .invalid) x = if x = die then .invalid else moesiOf d x := by
  rw [moesiOf, setMoesi, if_pos rfl, mgetD, mget_merase _ _ _ sorted, moesiOf, mgetD]
  split <;> rfl

/-- 11 R267: a die that cannot serve a line of no owner takes it exclusively, or as one more sharer. -/
theorem readStates_of_unowned {d : LineDir} {line die : Nat} (misses : dieHolds d line die = false)
    (unowned : ownerOf d = none) :
    readStates d line die = setMoesi d die (if d.states.isEmpty then .exclusive else .shared) := by
  simp only [readStates, misses, unowned, Bool.false_eq_true, if_false]

/-! ### Lines of a slice (09 R204) -/

theorem mem_of_oldestLine {l : List (Nat × Nat)} {x : Nat × Nat} (h : oldestLine l = some x) : x ∈ l := by
  induction l generalizing x with
  | nil => cases h
  | cons y r ih =>
    rw [oldestLine] at h
    split at h
    · cases h
      exact List.mem_cons_self
    · next z oldest =>
      split at h <;> cases h
      · exact List.mem_cons_of_mem _ (ih oldest)
      · exact List.mem_cons_self

/-- The line that makes room for a line is another one. -/
theorem l2Victim_ne {s : State} {die line v : Nat} (h : l2Victim s die line = some v) : line ≠ v := by
  unfold l2Victim at h
  dsimp only at h
  split at h
  · cases h
  · split at h
    · cases h
    · obtain ⟨x, oldest, rfl⟩ := Option.map_eq_some_iff.1 h
      have kept := List.mem_of_mem_filter (mem_of_oldestLine oldest)
      exact fun same => by simpa [same] using (List.mem_filter.1 kept).2

/-- A fill changes of its own line at most which slices hold it. -/
theorem lineOf_l2Fill (s : State) (die line : Nat) (dirty : Bool) :
    ∃ h, lineOf (l2Fill s die line dirty) line = { lineOf s line with held := h } := by
  have marked : lineOf (if l2Holds s die line then s else markRef s line) line = lineOf s line := by
    split <;> rfl
  unfold l2Fill
  dsimp only
  generalize (if l2Holds s die line then s else markRef s line) = a at marked
  have brought (b : State) (kept : lineOf b line = lineOf s line) :
      ∃ h, lineOf (if l2Ways s die = 0 then b else modLine b line fun d => { d with
        held := mset d.held die (dirty || ((mget d.held die).map Prod.fst).getD false, s.dtime) }) line
          = { lineOf s line with held := h } := by
    split
    · exact ⟨_, kept⟩
    · rw [lineOf_modLine, if_pos rfl, kept]
      exact ⟨_, rfl⟩
  cases victim : l2Victim a die line with
  | none => exact brought a marked
  | some v =>
    exact brought _ ((lineOf_modLine a v line _).trans ((if_neg (l2Victim_ne victim)).trans marked))

@[simp] theorem lineOf_answered (s : State) (die line l : Nat) : lineOf (answered s die line) l = lineOf s l := by
  unfold answered
  dsimp only
  split <;> split <;> rfl

/-! ### Transactions (11 R267) -/

/-- A transaction that waits for nothing more passes ownership and is over. -/
theorem settleTxn_of_settled {s : State} {line : Nat} {x : LineTxn} (txn : (lineOf s line).txn = some x)
    (own : x.own = true) (forward : x.forward = none) (acks : (lineOf s line).acks = []) :
    settleTxn s line = modLine s line fun d => { ownStates d line x.die with txn := none } := by
  simp only [settleTxn, txn, own, forward, acks, Option.isNone_none, List.isEmpty_nil, Bool.and_self, if_true]

/-- A transaction that still waits stays. -/
theorem settleTxn_of_waiting {s : State} {line : Nat} {x : LineTxn} (txn : (lineOf s line).txn = some x)
    (waits : ¬(x.forward = none ∧ (lineOf s line).acks = [])) : settleTxn s line = s := by
  simp only [settleTxn, txn, ← Option.isNone_iff_eq_none, ← List.isEmpty_iff, ← Bool.and_eq_true] at waits ⊢
  exact if_neg waits

/-- The end of a transaction leaves the acknowledgements that are due. -/
theorem settleTxn_acks (s : State) (line : Nat) : (lineOf (settleTxn s line) line).acks = (lineOf s line).acks := by
  unfold settleTxn
  dsimp only
  split
  · rfl
  · split
    · rw [lineOf_modLine, if_pos rfl]
      split
      · exact ownStates_acks _ line _
      · rfl
    · rfl

/-- A transaction for ownership that begins: the line is transient and waits for the acknowledgements given; one that waits for
nothing passes ownership at once. -/
theorem settleTxn_beginTxn (s : State) (line : Nat) {x : LineTxn} (acks : List Nat) (own : x.own = true) :
    let t := settleTxn (beginTxn s line x acks) line
    (lineOf t line).transient = true ∧ (lineOf t line).acks = acks ∧ t.mem = s.mem
    ∧ ((lineOf t line).txn = none ↔ x.forward = none ∧ acks = [])
    ∧ ((lineOf t line).txn = none →
        (lineOf t line).states = if x.die = homeDie line then [] else [(x.die, .modified)]) := by
  have begun : lineOf (beginTxn s line x acks) line
      = { lineOf s line with transient := true, txn := some x, acks := acks, probedAt := s.dtime } := by
    rw [beginTxn, lineOf_modLine, if_pos rfl]
  have txn : (lineOf (beginTxn s line x acks) line).txn = some x := by rw [begun]
  by_cases settled : x.forward = none ∧ acks = []
  · have none : (lineOf (beginTxn s line x acks) line).acks = [] := by rw [begun]; exact settled.2
    rw [settleTxn_of_settled txn own settled.1 none]
    have line' : lineOf (modLine (beginTxn s line x acks) line fun d => { ownStates d line x.die with txn := Option.none })
        line = { ownStates (lineOf (beginTxn s line x acks) line) line x.die with txn := Option.none } := by
      rw [lineOf_modLine, if_pos rfl]
    dsimp only
    rw [line']
    refine ⟨?_, ?_, rfl, ⟨fun _ => settled, fun _ => rfl⟩, fun _ => rfl⟩
    · exact (ownStates_transient _ line _).trans (by rw [begun])
    · exact (ownStates_acks _ line _).trans (by rw [begun])
  · have waits : ¬(x.forward = none ∧ (lineOf (beginTxn s line x acks) line).acks = []) := by rwa [begun]
    rw [settleTxn_of_waiting txn waits]
    dsimp only
    rw [begun]
    exact ⟨rfl, rfl, rfl, ⟨fun h => absurd h (Option.some_ne_none x), fun h => absurd h settled⟩,
      fun h => absurd h (Option.some_ne_none x)⟩

end Sys2Proof.Proofs
end

section
/-! PROOF of the statement on the directory, O42 (11 R258, R266 to R269). -/

namespace Sys2Proof.Proofs

open Sys2Proof.Machine Sys2Proof.Safety

theorem dirReadRequest_reads {s : State} {die line : Nat} (may : canBegin s die line = true)
    (misses : dieHolds (lineOf s line) line die = false) (entry : filterBlocks s die line = false) :
    answers (.dirReadRequest die line) s fun t =>
      match ownerOf (lineOf s line) with
      | none => moesiOf (lineOf t line) die = (if (lineOf s line).states = [] then .exclusive else .shared)
          ∧ (lineOf t line).transient = false
      | some o => (lineOf t line).transient = true
          ∧ (lineOf t line).txn = some { die := die, own := false, forward := some o } := by
  have still : (lineOf s line).transient = false := by
    simp only [canBegin, Bool.and_eq_true, Bool.not_eq_true'] at may
    exact may.1.1.2
  have goesOn : (!canBegin s die line || dieHolds (lineOf s line) line die || filterBlocks s die line) = false := by
    rw [may, misses, entry]; rfl
  refine ⟨readRequest s die line, rfl, ?_⟩
  unfold readRequest
  dsimp only
  rw [goesOn, if_neg Bool.false_ne_true]
  cases owner : ownerOf (lineOf s line) with
  | some o =>
    dsimp only
    rw [beginTxn, lineOf_modLine, if_pos rfl]
    exact ⟨rfl, rfl⟩
  | none =>
    dsimp only
    obtain ⟨h, filled⟩ := lineOf_l2Fill s die line false
    have misses' : dieHolds (lineOf (l2Fill s die line false) line) line die = false := by rw [filled]; exact misses
    have owner' : ownerOf (lineOf (l2Fill s die line false) line) = none := by rw [filled]; exact owner
    rw [lineOf_modLine, if_pos rfl, readStates_of_unowned misses' owner', filled]
    simp only [List.isEmpty_iff]
    refine ⟨moesiOf_setMoesi_same (d := { lineOf s line with held := h }) die ?_, still⟩
    split <;> exact Moesi.noConfusion

/-- 11 R267: a request for ownership that may begin. -/
theorem ownRequest_begins (s : State) (die line : Nat) :
    let t := ownRequest s die line
    let o := (ownerOf (lineOf s line)).filter (· != die)
    (lineOf t line).transient = true
    ∧ (lineOf t line).acks = (mkeys (lineOf s line).states).filter (fun x => !(die :: o.toList).contains x)
    ∧ t.mem = s.mem
    ∧ ((lineOf t line).txn = none ↔ o = none ∧ (lineOf t line).acks = [])
    ∧ ((lineOf t line).txn = none →
        (lineOf t line).states = if die = homeDie line then [] else [(die, .modified)]) := by
  intro t o
  obtain ⟨transient, acks, mem, ended, states⟩ := settleTxn_beginTxn s line
    (x := { die := die, own := true, forward := o }) (sharersBut (lineOf s line) (die :: o.toList)) rfl
  exact ⟨transient, acks, mem, ended.trans (by rw [show (lineOf t line).acks = _ from acks]), states⟩

theorem ownRequest_answers {s : State} {i : Instr} {die line : Nat} (arm : exec i s = .next (ownRequest s die line)) :
    answers i s fun t =>
      (lineOf t line).transient = true
      ∧ (lineOf t line).acks = (mkeys (lineOf s line).states).filter
          (fun x => !(die :: ((ownerOf (lineOf s line)).filter (· != die)).toList).contains x)
      ∧ ((lineOf t line).acks = [] → (ownerOf (lineOf s line)).filter (· != die) = none →
          (lineOf t line).txn = none ∧ (lineOf t line).states = if die = homeDie line then [] else [(die, .modified)]) := by
  obtain ⟨transient, acks, -, ended, states⟩ := ownRequest_begins s die line
  exact ⟨_, arm, transient, acks, fun none unowned =>
    have settled := ended.2 ⟨unowned, none⟩
    ⟨settled, states settled⟩⟩

theorem dirWriteback_returns {s : State} {die line : Nat} (may : canBegin s die line = true)
    (sorted : msorted (lineOf s line).states = true)
    (dirty : moesiOf (lineOf s line) die = .modified ∨ moesiOf (lineOf s line) die = .owned) :
    answers (.dirWriteback die line) s fun t => moesiOf (lineOf t line) die = .invalid
      ∧ ∀ d, d ≠ die → moesiOf (lineOf t line) d = moesiOf (lineOf s line) d := by
  have holds : (moesiOf (lineOf s line) die == .modified || moesiOf (lineOf s line) die == .owned) = true := by
    obtain h | h := dirty <;> rw [h] <;> rfl
  refine ⟨l2Drop s die line, congrArg Host.Outcome.next (if_pos (by rw [may, holds]; rfl)), ?_⟩
  have dropped (d : Nat) : moesiOf (lineOf (l2Drop s die line) line) d
      = if d = die then .invalid else moesiOf (lineOf s line) d := by
    rw [l2Drop, lineOf_modLine, if_pos rfl]
    exact moesiOf_setMoesi_invalid (d := passCount (lineOf s line) die) sorted die d
  exact ⟨(dropped die).trans (if_pos rfl), fun d other => (dropped d).trans (if_neg other)⟩

theorem dirAtomicRequest_recalls {s : State} {die line : Nat} (may : canBegin s die line = true) :
    answers (.dirAtomicRequest die line) s fun t => (lineOf t line).transient = true ∧ t.mem = s.mem
      ∧ ((lineOf t line).txn = none → (lineOf t line).states = []) := by
  obtain ⟨transient, -, mem, -, states⟩ := ownRequest_begins s (homeDie line) line
  exact ⟨_, congrArg Host.Outcome.next (if_pos may), transient, mem, fun settled => (states settled).trans (if_pos rfl)⟩

/-- 11 R267: a request that asked for ownership has its data: it waits for the acknowledgements alone. -/
theorem dirForward_own (s : State) (die line : Nat) {x : LineTxn} (own : x.own = true) :
    (lineOf (settleTxn (modLine (l2Drop (answered s die line) die line) line fun d =>
        { d with txn := some { x with forward := none } }) line) line).txn
      = if (lineOf s line).acks = [] then none else some { x with forward := none } := by
  generalize moved : modLine (l2Drop (answered s die line) die line) line (fun d =>
    { d with txn := some { x with forward := none } }) = a
  have now : (lineOf a line).txn = some { x with forward := none } := by rw [← moved, lineOf_modLine, if_pos rfl]
  have acks : (lineOf a line).acks = (lineOf s line).acks := by
    rw [← moved, lineOf_modLine, if_pos rfl, l2Drop, lineOf_modLine, if_pos rfl, lineOf_answered]
    rfl
  by_cases none : (lineOf s line).acks = []
  · rw [settleTxn_of_settled now own rfl (acks.trans none), lineOf_modLine, if_pos rfl, if_pos none]
  · rw [settleTxn_of_waiting now fun settled => none (acks.symm.trans settled.2), if_neg none, now]

theorem dirForward_sends {s : State} {die line : Nat} {x : LineTxn} (txn : (lineOf s line).txn = some x)
    (forward : x.forward = some die) :
    answers (.dirForward die line) s fun t =>
      if x.own = true then
        (lineOf t line).txn = if (lineOf s line).acks = [] then none else some { x with forward := none }
      else (lineOf t line).txn = none ∧ moesiOf (lineOf t line) x.die = .shared := by
  have event : exec (.dirForward die line) s = execDirForward die line s := rfl
  have asked : ¬(x.forward != some die) = true := by simp [forward]
  unfold answers
  simp only [event, execDirForward, txn, if_neg asked]
  by_cases own : x.own = true
  · simp only [if_pos own]
    exact ⟨_, rfl, dirForward_own s die line own⟩
  · simp only [if_neg own]
    refine ⟨_, rfl, ?_⟩
    obtain ⟨h, filled⟩ := lineOf_l2Fill (modLine (answered s die line) line fun d =>
      { setMoesi (setMoesi (passCount d die) die (forwardedState (moesiOf d die))) x.die .shared with
        txn := none, holderVersion := mset d.holderVersion x.die (BitVec.ofNat 16 (lineVersion d)) }) x.die line false
    have shares := moesiOf_setMoesi_same (setMoesi (passCount (lineOf s line) die) die
      (forwardedState (moesiOf (lineOf s line) die))) x.die (m := .shared) Moesi.noConfusion
    rw [filled, lineOf_modLine, if_pos rfl, lineOf_answered]
    exact ⟨rfl, (moesiOf_congr rfl x.die).trans shares⟩

theorem invalidationAck_counts {s : State} {die line : Nat} (due : die ∈ (lineOf s line).acks) :
    answers (.invalidationAck die line) s fun t => (lineOf t line).acks = (lineOf s line).acks.filter (· != die) := by
  refine ⟨_, congrArg Host.Outcome.next (if_pos (List.contains_iff_mem.2 due)), ?_⟩
  dsimp only
  rw [settleTxn_acks, lineOf_modLine, if_pos rfl, l2Drop, lineOf_modLine, if_pos rfl, lineOf_answered]
  rfl

/-- 11 R269: a newer version is taken, an older message is dropped. -/
theorem dataMessageReceipt_ordered {s : State} {die line : Nat} {v own : BitVec 16}
    (holds : moesiOf (lineOf s line) die ≠ .invalid) (version : mget (lineOf s line).holderVersion die = some own) :
    ((v - own).toNat < 2 ^ 15 → answers (.dataMessageReceipt die line v) s fun t =>
      mget (lineOf t line).holderVersion die = some v)
    ∧ (2 ^ 15 < (v - own).toNat → exec (.dataMessageReceipt die line v) s = .next s) := by
  have event : exec (.dataMessageReceipt die line v) s =
      if versionGap own v < 2 ^ 15 then
        .next (modLine s line fun x => { x with holderVersion := mset x.holderVersion die v })
      else if versionGap own v = 2 ^ 15 then
        .next (readRequest (modLine s line fun x =>
          { setMoesi x die .invalid with holderVersion := merase x.holderVersion die }) die line)
      else .next s := by
    show execDataMessageReceipt die line v s = _
    simp only [execDataMessageReceipt, version]
  rw [event, versionGap]
  refine ⟨fun newer => ⟨_, event.trans (if_pos newer), ?_⟩, fun older => ?_⟩
  · dsimp only
    rw [lineOf_modLine, if_pos rfl, mget_mset_same]
  · rw [if_neg (by omega), if_neg (by omega)]

theorem snoopFilterEviction_recalls {s : State} {line : Nat} (may : canBegin s (homeDie line) line = true)
    (shared : (lineOf s line).states ≠ []) :
    answers (.snoopFilterEviction line) s fun t => (lineOf t line).transient = true
      ∧ (lineOf t line).acks = (mkeys (lineOf s line).states).filter (fun x => x != homeDie line) := by
  obtain ⟨transient, acks, -⟩ := settleTxn_beginTxn s line (x := { die := homeDie line, own := true })
    (sharersBut (lineOf s line) [homeDie line]) rfl
  have evicts : (canBegin s (homeDie line) line && !(lineOf s line).states.isEmpty) = true := by
    simpa [may] using shared
  refine ⟨_, congrArg Host.Outcome.next (if_pos evicts), transient, acks.trans (List.filter_congr fun x _ => ?_)⟩
  cases h : x == homeDie line <;> simp_all [bne]

/-- Settles O42: each transaction by what its operation leaves of the line. -/
theorem directoryEvents : Obligations.DirectoryEvents := by
  refine ⟨fun s die line => dirReadRequest_reads, ⟨fun s die line may entry invalid => ?ownership,
    fun s die line may entry shared => ?upgrade⟩, fun s die line => dirWriteback_returns,
    fun s die line => dirAtomicRequest_recalls, fun s die line x => dirForward_sends,
    fun s die line => invalidationAck_counts, fun s die line v own => dataMessageReceipt_ordered,
    fun s line => snoopFilterEviction_recalls⟩
  case ownership =>
    exact ownRequest_answers (congrArg Host.Outcome.next (if_pos (by rw [may, entry, invalid]; rfl)))
  case upgrade =>
    have holds : (moesiOf (lineOf s line) die == .shared || moesiOf (lineOf s line) die == .owned) = true := by
      obtain h | h := shared <;> rw [h] <;> rfl
    exact ownRequest_answers (congrArg Host.Outcome.next (if_pos (by rw [may, holds]; rfl)))

end Sys2Proof.Proofs
end

section
/-! PROOF of the statement on pages shared with hosts, O43: what the operations on whole frames leave (11 R270 to R272, 22 R509). -/

namespace Sys2Proof.Proofs

open Sys2Proof.Machine Sys2Proof.Safety

/-! ### Frame-table entries (17 R407) -/

/-- A frame that does not read as an empty one is listed. -/
theorem frame_listed {s : State} {f : Nat} (h : frameOf s f ≠ emptyFrame f) : (mget s.frames f).isSome = true := by
  rw [frameOf, mgetD] at h
  exact Option.isSome_iff_ne_none.2 fun none => h (by rw [none, Option.getD_none])

theorem frame_listed_of_hstate {s : State} {f : Nat} (h : (frameOf s f).hstate ≠ 0) :
    (mget s.frames f).isSome = true :=
  frame_listed fun empty => h (congrArg Frame.hstate empty)

theorem modFrame_mem (s : State) (f : Nat) (g : Frame → Frame) : (modFrame s f g).mem = s.mem := rfl

theorem frame_listed_modFrame (s : State) (f k : Nat) (g : Frame → Frame) :
    (mget (modFrame s f g).frames k).isSome = (mget s.frames k).isSome := by
  rw [modFrame, mget_mmod]
  split
  · exact Option.isSome_map
  · rfl

theorem frameOf_modFrame_of_listed {s : State} {f : Nat} (listed : (mget s.frames f).isSome = true)
    (g : Frame → Frame) : frameOf (modFrame s f g) f = g (frameOf s f) := by
  obtain ⟨x, found⟩ := Option.isSome_iff_exists.1 listed
  rw [frameOf, modFrame, mgetD, mget_mmod, if_pos rfl, found, frameOf, mgetD, found]
  rfl

theorem frameOf_of_frames {s t : State} (h : t.frames = s.frames) (f : Nat) : frameOf t f = frameOf s f := by
  rw [frameOf, h, frameOf]

/-! ### The lines of a frame (11 R258, R270) -/

theorem mem_linesOf {f l : Nat} : l ∈ linesOf f ↔ l / 32 = f := by
  simp only [linesOf, List.mem_map, List.mem_range]
  exact ⟨fun ⟨i, small, eq⟩ => by omega, fun eq => ⟨l % 32, Nat.mod_lt _ (by decide), by omega⟩⟩

/-- Lines that are made transient, one after another. -/
theorem foldl_transient (ls : List Nat) (s : State) {l : Nat} (h : l ∈ ls ∨ (lineOf s l).transient = true) :
    (lineOf (ls.foldl (fun acc l => modLine acc l fun d => { d with transient := true }) s) l).transient = true := by
  induction ls generalizing s with
  | nil => exact h.resolve_left List.not_mem_nil
  | cons k ks ih =>
    refine ih _ ?_
    rw [lineOf_modLine]
    by_cases here : l = k
    · exact .inr (by rw [if_pos here])
    · rw [if_neg here]
      exact h.imp_left fun listed => (List.mem_cons.1 listed).resolve_left here

theorem holdLines_transient (s : State) {f l : Nat} (h : l / 32 = f) : (lineOf (holdLines s f) l).transient = true :=
  foldl_transient (linesOf f) s (.inl (mem_linesOf.2 h))

theorem holdLines_frames (s : State) (f : Nat) : (holdLines s f).frames = s.frames := by
  unfold holdLines
  exact foldl_keeps State.frames _ (fun _ _ => by rfl) _ s

theorem holdLines_mem (s : State) (f : Nat) : (holdLines s f).mem = s.mem := by
  unfold holdLines
  exact foldl_keeps State.mem _ (fun _ _ => by rfl) _ s

theorem recallLines_frames (s : State) (f : Nat) : (recallLines s f).frames = s.frames := by
  unfold recallLines
  exact foldl_keeps State.frames _ (fun _ _ => by split <;> rfl) _ s

theorem recallLines_mem (s : State) (f : Nat) : (recallLines s f).mem = s.mem := by
  unfold recallLines
  exact foldl_keeps State.mem _ (fun _ _ => by split <;> rfl) _ s

/-- Nothing waits at a line: no request and no write of a reader. -/
def nothingWaits (d : LineDir) : Prop := d.persistent = [] ∧ d.homeWrites = []

theorem releaseLine_of_nothingWaits {s : State} {l : Nat} (h : nothingWaits (lineOf s l)) :
    releaseLine s l = modLine s l fun d => { d with transient := false, persistent := [] } := by
  have held : (lineOf (modLine s l fun d => { d with transient := false, persistent := [] }) l).homeWrites.isEmpty
      = true := by
    rw [lineOf_modLine, if_pos rfl]
    exact List.isEmpty_iff.2 h.2
  unfold releaseLine
  rw [h.1]
  exact if_pos held

/-- Lines at which nothing waits are freed without any other effect. -/
theorem freeLines_of_nothingWaits {s : State} {f : Nat} (h : ∀ l, l / 32 = f → nothingWaits (lineOf s l)) :
    (freeLines s f).frames = s.frames := by
  have go (ls : List Nat) (a : State) (quiet : ∀ l ∈ ls, nothingWaits (lineOf a l)) :
      (ls.foldl (fun acc l => if (lineOf acc l).transient then releaseLine acc l else acc) a).frames = a.frames := by
    induction ls generalizing a with
    | nil => rfl
    | cons k ks ih =>
      rw [List.foldl_cons]
      split
      · rw [releaseLine_of_nothingWaits (quiet k List.mem_cons_self)]
        refine ih _ fun l listed => ?_
        have before := quiet l (List.mem_cons_of_mem k listed)
        rw [lineOf_modLine]
        split
        · next here => exact ⟨rfl, here ▸ before.2⟩
        · exact before
      · exact ih a fun l listed => quiet l (List.mem_cons_of_mem k listed)
  exact go (linesOf f) s fun l listed => h l (mem_linesOf.1 listed)

/-! ### Block transfers (17 R421, R422) -/

theorem moveSector_device_pool (s : State) (a b : Nat) :
    (moveSector s .device .pool a b).mem.device = s.mem.device ∧ (moveSector s .device .pool a b).frames = s.frames := by
  unfold moveSector addPoison
  split
  · split <;> exact ⟨rfl, rfl⟩
  · exact ⟨rfl, rfl⟩

/-- A write-back leaves the device's own bytes and lists the frames that were listed. -/
theorem writeBack_keeps (s : State) (f : Nat) (ks : List Nat) :
    (writeBack s f ks).mem.device = s.mem.device
    ∧ ∀ k, (mget (writeBack s f ks).frames k).isSome = (mget s.frames k).isSome := by
  unfold writeBack
  dsimp only
  split
  · refine ⟨?_, fun k => ?_⟩
    · refine foldl_keeps (fun a : State => a.mem.device) _ (fun a k => ?_) ks (modFrame s f _)
      exact (moveSector_device_pool a _ _).1
    · rw [foldl_keeps State.frames _ (fun a k => by exact (moveSector_device_pool a _ _).2)]
      exact frame_listed_modFrame s f k _
  · exact ⟨rfl, fun _ => rfl⟩

theorem addPoison_memory (s : State) (m : Mem) (k : Nat) : ∃ x, addPoison s m k = { s with mem := x } := by
  unfold addPoison
  split <;> exact ⟨_, rfl⟩

theorem fillSector_memory (s : State) (f page k : Nat) : ∃ x, fillSector s f page k = { s with mem := x } := by
  have moved : ∃ x, moveSector s .pool .device (128 * page + k) (128 * f + k) = { s with mem := x } := by
    unfold moveSector
    split
    · exact addPoison_memory s _ _
    · exact ⟨_, rfl⟩
  obtain ⟨x, moved⟩ := moved
  unfold fillSector
  dsimp only
  rw [moved]
  split
  · exact ⟨x, rfl⟩
  · split
    · exact ⟨x, rfl⟩
    · exact ⟨_, rfl⟩

/-- A page that is read into a frame changes memory alone. -/
theorem fillFrame_memory (s : State) (f page : Nat) : ∃ x, fillFrame s f page = { s with mem := x } := by
  have trans : ∀ a b c : State, (∃ x, b = { a with mem := x }) → (∃ x, c = { b with mem := x }) →
      ∃ x, c = { a with mem := x } := by
    rintro a _ _ ⟨_, rfl⟩ ⟨_, rfl⟩
    exact ⟨_, rfl⟩
  unfold fillFrame
  split
  · exact foldl_rel _ (fun _ => ⟨_, rfl⟩) trans _ (fun a k => fillSector_memory a f page k) _ s
  · exact foldl_rel _ (fun _ => ⟨_, rfl⟩) trans _ (fun a k => addPoison_memory a .device (128 * f + k)) _ s

/-- A filled frame's lines keep what waits at them. -/
theorem freshLines_nothingWaits {s : State} {f l : Nat} (h : nothingWaits (lineOf s l)) :
    nothingWaits (lineOf (freshLines s f) l) := by
  have step (a : State) (k : Nat) (before : nothingWaits (lineOf a l)) : nothingWaits (lineOf
      (if (mget a.lines k).isSome then modLine a k fun d =>
        { d with states := [], version := 0, counts := [], holderVersion := [], tokens := [], held := [] } else a) l) := by
    split
    · rw [lineOf_modLine]
      split
      · next here => exact here ▸ before
      · exact before
    · exact before
  unfold freshLines
  dsimp only
  generalize linesOf f = ls
  show nothingWaits (lineOf (ls.foldl _ s) l)
  induction ls generalizing s with
  | nil => exact h
  | cons k ks ih => exact ih (step s k h)

theorem freshLines_frames (s : State) (f : Nat) :
    (freshLines s f).frames = (modFrame s f fun x => { x with hstate := 0 }).frames := by
  unfold freshLines modFrame
  dsimp only
  rw [foldl_keeps State.frames _ (fun _ _ => by split <;> rfl) (linesOf f) s]

theorem freshLines_linesOnly (s : State) (f : Nat) : linesOnly s (freshLines s f) := by
  unfold freshLines
  refine linesOnly.trans (foldl_rel linesOnly .refl (fun _ _ _ => .trans) _ (fun a l => ?_) (linesOf f) s)
    (modFrame_linesOnly _ f _)
  split
  · exact modLine_linesOnly a l _
  · exact .refl a

/-! ### O43 -/

theorem backInvalidationSnoop_surrenders {s : State} {pool f : Nat} (found : frameOfPool s pool = some f)
    (awake : s.power.asleep = false) (shared : (frameOf s f).shared = true) (held : (frameOf s f).hstate = 0)
    (stays : (frameOf s f).leaving = false) (filled : (frameOf s f).mig = false) :
    answers (.backInvalidationSnoop pool) s fun t => (frameOf t f).hstate = 1 ∧ t.mem = s.mem
      ∧ ∀ l, l / 32 = f → (lineOf t l).transient = true := by
  have listed : (mget s.frames f).isSome = true := frame_listed fun empty => by
    rw [empty] at shared
    exact absurd shared Bool.false_ne_true
  have arm : exec (.backInvalidationSnoop pool) s = .next (startSurrender s f) := by
    show execBackInvalidationSnoop pool s = _
    simp [execBackInvalidationSnoop, found, awake, shared, held, stays, filled]
  refine ⟨_, arm, ?_, holdLines_mem _ f, fun l => holdLines_transient _⟩
  rw [startSurrender, frameOf_of_frames (holdLines_frames _ f), frameOf_modFrame_of_listed listed]

theorem pageSurrenderAnswer_gives {s : State} {f : Nat} (surrenders : (frameOf s f).hstate = 1)
    (passed : (frameOf s f).lastLease ≤ s.dtime) :
    answers (.pageSurrenderAnswer f) s fun t => (frameOf t f).hstate = 2 ∧ (frameOf t f).valid = false
      ∧ (frameOf t f).dirty = 0 ∧ t.mem.device = s.mem.device := by
  have due : ((frameOf s f).hstate == 1 && decide ((frameOf s f).lastLease ≤ s.dtime)) = true := by
    simp [surrenders, passed]
  obtain ⟨device, frames⟩ := writeBack_keeps (recallLines s f) f (dirtySectors (recallLines s f) f)
  have listed : (mget (writeBack (recallLines s f) f (dirtySectors (recallLines s f) f)).frames f).isSome = true := by
    rw [frames, recallLines_frames]
    exact frame_listed_of_hstate (by rw [surrenders]; decide)
  refine ⟨_, if_pos due, ?_⟩
  dsimp only
  rw [frameOf_modFrame_of_listed listed]
  refine ⟨rfl, rfl, rfl, ?_⟩
  rw [modFrame_mem, device, recallLines_mem]

/-- R271: the frame of a page that has come back, where a decoder covers the page and nothing waits at its lines. -/
theorem refetchFrame_restores {s : State} {f : Nat} (given : (frameOf s f).hstate = 2)
    (quiet : ∀ l, l / 32 = f → nothingWaits (lineOf s l)) (covered : poolCovered s (4096 * (frameOf s f).pool) = true) :
    frameOf (refetchFrame s f) f
      = { frameOf s f with hstate := 0, valid := true, dirty := 0, ref := true, wanted := false } := by
  obtain ⟨m, filled⟩ := fillFrame_memory s f (frameOf s f).pool
  have listed : (mget s.frames f).isSome = true := frame_listed_of_hstate (by rw [given]; decide)
  generalize brought : (modFrame (fillFrame s f (frameOf s f).pool) f fun y =>
    { y with valid := true, dirty := 0, ref := true, wanted := false }) = a
  have entry : frameOf a f = { frameOf s f with valid := true, dirty := 0, ref := true, wanted := false } := by
    rw [← brought, filled]
    exact frameOf_modFrame_of_listed (s := { s with mem := m }) listed _
  have listed' : (mget a.frames f).isSome = true := by
    rw [← brought, filled]
    exact (frame_listed_modFrame { s with mem := m } f f _).trans listed
  have lines (l : Nat) (here : l / 32 = f) : nothingWaits (lineOf (freshLines a f) l) := by
    refine freshLines_nothingWaits ?_
    rw [← brought, filled]
    exact quiet l here
  have covered' : poolCovered (freshLines a f) (4096 * (frameOf s f).pool) = true := by
    obtain ⟨ls, fs, fresh⟩ := freshLines_linesOnly a f
    rw [fresh, ← brought, filled]
    exact covered
  have unreported (ctx die : Nat) : reportUncovered (freshLines a f) ctx die (frameOf s f).pool = freshLines a f :=
    if_pos covered'
  unfold refetchFrame
  dsimp only
  rw [brought, unreported, frameOf_of_frames (freeLines_of_nothingWaits lines),
    frameOf_of_frames (freshLines_frames a f), frameOf_modFrame_of_listed listed', entry]

theorem surrenderedPageRefetch_restores {s : State} {f : Nat} (given : (frameOf s f).hstate = 2) :
    ∃ t, exec (.surrenderedPageRefetch f) s = .next t
      ∧ ((∀ l, l / 32 = f → (lineOf s l).persistent = [] ∧ (lineOf s l).homeWrites = []) →
          poolCovered s (4096 * (frameOf s f).pool) = true →
          (frameOf t f).hstate = 0 ∧ (frameOf t f).valid = true ∧ (frameOf t f).dirty = 0) := by
  refine ⟨_, congrArg Host.Outcome.next (if_pos (beq_iff_eq.2 given)), fun quiet covered => ?_⟩
  rw [refetchFrame_restores given quiet covered]
  exact ⟨rfl, rfl, rfl⟩

theorem dieOf_loseDie_same {s : State} {d : Nat} : (dieOf (loseDie s d) d).lost = true := by
  unfold loseDie
  split
  · assumption
  · rw [dieOf_modDie, if_pos rfl]

theorem dieOf_loseDie_other (s : State) {d e : Nat} (other : e ≠ d) : dieOf (loseDie s d) e = dieOf s e := by
  unfold loseDie
  split
  · rfl
  · rw [dieOf_modDie, if_neg other]

/-- 11 R272, 22 R509: the timeout counts, and the second one in turn treats the die as lost. -/
theorem sleepingProbeTimeout_counts {s : State} {home die : Nat} (homeDie : home < 4) (aDie : die < 4)
    (other : home ≠ die) (alive : (dieOf s die).lost = false) (late : lateProbes s home die ≠ []) :
    answers (.sleepingProbeTimeout home die) s fun t =>
      mgetD (dieOf t home).timeouts die 0 = mgetD (dieOf s home).timeouts die 0 + 1
      ∧ ((dieOf t die).lost = true ↔ 1 ≤ mgetD (dieOf s home).timeouts die 0) := by
  let n := mgetD (dieOf s home).timeouts die 0 + 1
  let counted := modDie s home fun d => { d with timeouts := mset d.timeouts die n }
  have due : (decide (home < 4) && decide (die < 4) && home != die && !(dieOf s die).lost
      && !(lateProbes s home die).isEmpty) = true := by
    simp [homeDie, aDie, other, alive, late]
  have timeouts : mgetD (dieOf counted home).timeouts die 0 = n := by
    rw [dieOf_modDie, if_pos rfl, mgetD, mget_mset_same, Option.getD_some]
  refine ⟨_, if_pos due, ?_⟩
  split
  · next second =>
    rw [dieOf_loseDie_other counted other]
    exact ⟨timeouts, iff_of_true dieOf_loseDie_same (Nat.le_of_succ_le_succ second)⟩
  · next first =>
    have lost : (dieOf counted die).lost = false := by rw [dieOf_modDie, if_neg other.symm, alive]
    have same (d : Nat) : dieOf ((lateProbes s home die).foldl (fun acc l => modLine acc l fun d =>
        { d with probedAt := s.dtime }) counted) d = dieOf counted d := by
      rw [dieOf, foldl_keeps State.dies _ (fun _ _ => by rfl), dieOf]
    rw [same, same, lost]
    exact ⟨timeouts, iff_of_false Bool.false_ne_true fun before => first (Nat.succ_le_succ before)⟩

/-- Settles O43: each event by what its operation on the frame and its lines leaves. -/
theorem sharedPageEvents : Obligations.SharedPageEvents :=
  ⟨fun _ _ _ => backInvalidationSnoop_surrenders, fun _ _ => pageSurrenderAnswer_gives,
    fun _ _ => surrenderedPageRefetch_restores, fun _ _ _ => sleepingProbeTimeout_counts⟩

end Sys2Proof.Proofs
end

section
/-! SUPPORT. The matrix engine: commands that complete, and the pairs that the epilogue of a pass writes (12 R274, R287, R299). -/

namespace Sys2Proof.Proofs

open Sys2Proof.Machine Sys2Proof.Safety

/-! ### Clusters and their tables -/

@[simp] theorem clusterOf_modCluster (s : State) (g h : Nat) (f : Cluster → Cluster) :
    clusterOf (modCluster s g f) h = if h = g then f (clusterOf s g) else clusterOf s h := by
  simp only [clusterOf, modCluster, mgetD, mget_mset]
  split <;> rfl

theorem clusterOf_of_clusters {s t : State} (h : t.clusters = s.clusters) (c : Nat) : clusterOf t c = clusterOf s c := by
  rw [clusterOf, h, clusterOf]

/-- An entry changed in the table of its cluster. -/
theorem table_modEntry {s : State} {cluster i : Nat} {e : MatEntry} (f : MatEntry → MatEntry)
    (found : mget (clusterOf s cluster).table i = some e) :
    mget (clusterOf (modEntry s cluster i f) cluster).table i = some (f e) := by
  rw [modEntry, clusterOf_modCluster, if_pos rfl, mget_mmod, if_pos rfl, found, Option.map_some]

theorem granted_modEntry (s : State) (cluster i : Nat) (f : MatEntry → MatEntry) (c : Nat) :
    (clusterOf (modEntry s cluster i f) c).granted = (clusterOf s c).granted := by
  rw [modEntry, clusterOf_modCluster]
  split
  · next here => rw [here]
  · rfl

theorem tiles_modEntry (s : State) (cluster i : Nat) (f : MatEntry → MatEntry) (c : Nat) :
    (clusterOf (modEntry s cluster i f) c).tiles = (clusterOf s c).tiles := by
  rw [modEntry, clusterOf_modCluster]
  split
  · next here => rw [here]
  · rfl

/-! ### The end of a command (12 R276, R277, R299) -/

theorem setSticky_threadsOnly (s : State) (u bit : Nat) : threadsOnly s (setSticky s u bit) := by
  unfold setSticky
  split
  · exact .refl s
  · split
    · exact .refl s
    · exact modThread_threadsOnly s u _

theorem commandSticky_threadsOnly (s : State) (e : MatEntry) : threadsOnly s (commandSticky s e) := by
  have first : threadsOnly s
      (if e.poisoned && !(launchOfBlock s e.cmd.block).desc.shadow then setSticky s e.cmd.thread 0 else s) := by
    split
    · exact setSticky_threadsOnly s _ 0
    · exact .refl s
  unfold commandSticky
  dsimp only
  split
  · exact first.trans (setSticky_threadsOnly _ _ 1)
  · exact first

theorem syncOf_ringPut (s : State) (b ticket : Nat) (st : Status) (code : FaultCode) :
    mget (syncOf (ringPut s b ticket st code) b).ring (ticket % 64) = some { status := st, fault := code } := by
  rw [ringPut, syncOf, modSync, modWork, mgetD, mget_mset_same, Option.getD_some, mget_mset_same]

/-- A command that completes leaves the table, and its status stands in the completion ring of its block. -/
theorem completeMatrix_outcome {s : State} {cluster i : Nat} {e : MatEntry}
    (found : mget (clusterOf s cluster).table i = some e) (st : Status) (code : FaultCode) (detail : Nat) :
    let t := completeMatrix s cluster i st code detail
    mget (syncOf t e.cmd.block).ring (e.cmd.ticket % 64) = some { status := st, fault := code }
    ∧ ∀ c, clusterOf t c = if c = cluster then
        { clusterOf s cluster with table := merase (clusterOf s cluster).table i } else clusterOf s c := by
  obtain ⟨ts, sticky⟩ := commandSticky_threadsOnly s e
  let erased := modCluster (commandSticky s e) cluster fun c => { c with table := merase c.table i }
  have clusters (c : Nat) : clusterOf (ringPut erased e.cmd.block e.cmd.ticket st code) c = if c = cluster then
      { clusterOf s cluster with table := merase (clusterOf s cluster).table i } else clusterOf s c := by
    rw [clusterOf_of_clusters (t := ringPut erased _ _ _ _) (s := erased) rfl, clusterOf_modCluster, sticky]
    rfl
  unfold completeMatrix
  rw [found]
  dsimp only
  split
  · obtain ⟨m, ls, fs, ds, cs, ms, bb, sec, reported⟩ := appendEvent_reportsOnly
      (ringPut erased e.cmd.block e.cmd.ticket st code) (cluster / 48)
      { ctx := e.cmd.ctx, kind := 3, code := code, location := clusterLocation cluster, slot := (blockOf s e.cmd.block).slot
        handle := handleOfBlock s e.cmd.block, detail := detail, unit := 4 }
    rw [engineFault, reported]
    exact ⟨syncOf_ringPut erased _ _ st code, clusters⟩
  · exact ⟨syncOf_ringPut erased _ _ st code, clusters⟩

/-! ### Poison of tiles (22 R507) -/

/-- A change of memory at most. -/
def memoryOnly (s t : State) : Prop := ∃ m, t = { s with mem := m }

theorem memoryOnly.refl (s : State) : memoryOnly s s := ⟨_, rfl⟩

theorem memoryOnly.trans {s t u : State} : memoryOnly s t → memoryOnly t u → memoryOnly s u := by
  rintro ⟨_, rfl⟩ ⟨_, rfl⟩
  exact ⟨_, rfl⟩

theorem foldl_memoryOnly {β : Type} {f : State → β → State} (h : ∀ a b, memoryOnly a (f a b)) (l : List β) (s : State) :
    memoryOnly s (l.foldl f s) := foldl_rel memoryOnly .refl (fun _ _ _ => .trans) f h l s

theorem clearRow_memoryOnly (s : State) (cluster tile m count : Nat) : memoryOnly s (clearRow s cluster tile m count) := by
  unfold clearRow
  split
  · exact .refl s
  · exact foldl_memoryOnly (fun a k => ⟨_, rfl⟩) _ s

theorem zeroTile_outcome (s : State) (cluster tile : Nat) :
    memoryOnly (modCluster s cluster fun c => { c with tiles := merase c.tiles tile }) (zeroTile s cluster tile) := by
  unfold zeroTile
  dsimp only
  split
  · exact .refl _
  · exact foldl_memoryOnly (fun a i => clearRow_memoryOnly a cluster tile i 128) _ _

theorem memoryOnly.clusters_eq {s t : State} (h : memoryOnly s t) : t.clusters = s.clusters := by
  obtain ⟨_, rfl⟩ := h
  rfl

/-! ### The pairs of a pass (12 R287) -/

/-- The pair of element (x, y) of a command's result. -/
def pairAt (s : State) (m : MatCmd) (q : Nat × Nat) : Word × Word :=
  tilePair s m.cluster (m.tile + q.2 / 128) q.1 (q.2 % 128)

/-- Element (x, y) of pass `p` of a command written, as the machine stands in `s0` but for the tiles. -/
def putElement (s0 : State) (m : MatCmd) (p : Nat) (s : State) (q : Nat × Nat) : State :=
  setTilePair s m.cluster (m.tile + q.2 / 128) q.1 (q.2 % 128) (passElement s0 m p q.1 q.2 (pairAt s m q))

/-- The valid elements of a command, row by row. -/
def validElements (m : MatCmd) : List (Nat × Nat) := List.range m.vr ×ˢ List.range m.vc

theorem mem_validElements {m : MatCmd} {q : Nat × Nat} : q ∈ validElements m ↔ q.1 < m.vr ∧ q.2 < m.vc := by
  rw [validElements, List.mem_product, List.mem_range, List.mem_range]

theorem validElements_nodup (m : MatCmd) : (validElements m).Nodup := List.nodup_range.product List.nodup_range

theorem foldl_product {α β γ : Type} (f : α → β × γ → α) (l : List β) (r : List γ) (a : α) :
    l.foldl (fun acc i => r.foldl (fun x j => f x (i, j)) acc) a = (l ×ˢ r).foldl f a := by
  induction l generalizing a with
  | nil => rfl
  | cons i is ih => rw [List.foldl_cons, ih, List.product_cons, List.foldl_append, List.foldl_map]

theorem mget_setPairIn_other (t : SMap (Word × Word)) {i j : Nat} (x : Word × Word) (other : j ≠ i) :
    mget (setPairIn t i x) j = mget t j := by
  unfold setPairIn
  split
  · induction t with
    | nil => rfl
    | cons p r ih =>
      rw [merase]
      split
      · next here => rw [mget, if_neg (here ▸ other)]
      · rw [mget, mget, ih]
  · exact mget_mset_other t x other

/-- Two elements of a result lie at one place of one tile only where they are the same. -/
theorem element_eq_of_place {q r : Nat × Nat} {base : Nat} (tile : base + q.2 / 128 = base + r.2 / 128)
    (place : 128 * q.1 + q.2 % 128 = 128 * r.1 + r.2 % 128) : q = r := by
  refine Prod.ext ?_ ?_ <;> omega

theorem pairAt_putElement_other (s0 s : State) (m : MatCmd) (p : Nat) {q r : Nat × Nat} (other : q ≠ r) :
    pairAt (putElement s0 m p s r) m q = pairAt s m q := by
  rw [pairAt, pairAt, putElement, setTilePair, tilePair, clusterOf_modCluster, if_pos rfl, tilePair]
  dsimp only
  simp only [mgetD, mget_mset]
  split
  · next tile =>
    rw [Option.getD_some, mget_setPairIn_other _ _ fun place => other (element_eq_of_place tile place), tile]
  · rfl

/-- A pair other than +0 is read back. -/
theorem pairAt_putElement_same (s0 s : State) (m : MatCmd) (p : Nat) (q : Nat × Nat)
    (nonzero : passElement s0 m p q.1 q.2 (pairAt s m q) ≠ (0, 0)) :
    pairAt (putElement s0 m p s q) m q = passElement s0 m p q.1 q.2 (pairAt s m q) := by
  generalize written : passElement s0 m p q.1 q.2 (pairAt s m q) = x at nonzero
  rw [pairAt, putElement, written, setTilePair, tilePair, clusterOf_modCluster, if_pos rfl]
  dsimp only
  rw [mgetD, mgetD, mget_mset_same, Option.getD_some, setPairIn, if_neg nonzero, mget_mset_same, Option.getD_some]

theorem foldl_putElement_other (s0 : State) (m : MatCmd) (p : Nat) (l : List (Nat × Nat)) (s : State) {q : Nat × Nat}
    (unlisted : q ∉ l) : pairAt (l.foldl (putElement s0 m p) s) m q = pairAt s m q := by
  induction l generalizing s with
  | nil => rfl
  | cons r rs ih =>
    obtain ⟨here, later⟩ := not_or.1 fun h => unlisted (List.mem_cons.2 h)
    rw [List.foldl_cons, ih _ later, pairAt_putElement_other s0 s m p here]

/-- Every element of a list without repeats is written once, from the pair as it stood before. -/
theorem foldl_putElement_same (s0 : State) (m : MatCmd) (p : Nat) {l : List (Nat × Nat)} (nodup : l.Nodup) (s : State)
    {q : Nat × Nat} (listed : q ∈ l) (nonzero : passElement s0 m p q.1 q.2 (pairAt s m q) ≠ (0, 0)) :
    pairAt (l.foldl (putElement s0 m p) s) m q = passElement s0 m p q.1 q.2 (pairAt s m q) := by
  induction l generalizing s with
  | nil => exact absurd listed List.not_mem_nil
  | cons r rs ih =>
    obtain ⟨fresh, nodup⟩ := List.nodup_cons.1 nodup
    rw [List.foldl_cons]
    by_cases here : q = r
    · subst here
      rw [foldl_putElement_other s0 m p rs _ fresh, pairAt_putElement_same s0 s m p q nonzero]
    · have before := pairAt_putElement_other s0 s m p here
      rw [ih nodup _ ((List.mem_cons.1 listed).resolve_left here) (by rwa [before]), before]

/-- A change of the tiles of clusters and of memory at most. -/
def tilesOnly (s t : State) : Prop :=
  (∃ cs m, t = { s with clusters := cs, mem := m })
    ∧ ∀ c, (clusterOf t c).table = (clusterOf s c).table ∧ (clusterOf t c).granted = (clusterOf s c).granted

theorem tilesOnly.refl (s : State) : tilesOnly s s := ⟨⟨_, _, rfl⟩, fun _ => ⟨rfl, rfl⟩⟩

theorem tilesOnly.trans {s t u : State} : tilesOnly s t → tilesOnly t u → tilesOnly s u := by
  rintro ⟨⟨_, _, rfl⟩, first⟩ ⟨⟨_, _, rfl⟩, second⟩
  exact ⟨⟨_, _, rfl⟩, fun c => ⟨(second c).1.trans (first c).1, (second c).2.trans (first c).2⟩⟩

theorem memoryOnly.tilesOnly {s t : State} : memoryOnly s t → tilesOnly s t := by
  rintro ⟨_, rfl⟩
  exact ⟨⟨_, _, rfl⟩, fun _ => ⟨rfl, rfl⟩⟩

theorem putElement_tilesOnly (s0 : State) (m : MatCmd) (p : Nat) (s : State) (q : Nat × Nat) :
    tilesOnly s (putElement s0 m p s q) := by
  refine ⟨⟨_, _, rfl⟩, fun c => ?_⟩
  rw [putElement, setTilePair, clusterOf_modCluster]
  split
  · next here => exact here ▸ ⟨rfl, rfl⟩
  · exact ⟨rfl, rfl⟩

/-- The epilogue of a pass writes its valid pairs, then clears the poison of what it has written whole. -/
theorem applyPass_writes (s : State) (m : MatCmd) (p : Nat) :
    memoryOnly ((validElements m).foldl (putElement s m p) s) (applyPass s m p) := by
  unfold applyPass validElements
  dsimp only
  rw [← foldl_product]
  exact foldl_memoryOnly (fun a i => (clearRow_memoryOnly a _ _ i _).trans (clearRow_memoryOnly _ _ _ i _)) _ _

theorem applyPass_tilesOnly (s : State) (m : MatCmd) (p : Nat) : tilesOnly s (applyPass s m p) :=
  (foldl_rel tilesOnly .refl (fun _ _ _ => .trans) _ (putElement_tilesOnly s m p) _ s).trans
    (applyPass_writes s m p).tilesOnly

theorem pairAt_of_tiles {s t : State} (h : ∀ c, (clusterOf t c).tiles = (clusterOf s c).tiles) (m : MatCmd) (q : Nat × Nat) :
    pairAt t m q = pairAt s m q := by
  rw [pairAt, tilePair, h, pairAt, tilePair]

/-- 12 R287: every valid element whose pair is not +0 has it after the pass. -/
theorem applyPass_pairs (s : State) (m : MatCmd) (p : Nat) {q : Nat × Nat} (valid : q.1 < m.vr ∧ q.2 < m.vc)
    (nonzero : passElement s m p q.1 q.2 (pairAt s m q) ≠ (0, 0)) :
    pairAt (applyPass s m p) m q = passElement s m p q.1 q.2 (pairAt s m q) := by
  have clusters := (applyPass_writes s m p).clusters_eq
  rw [pairAt_of_tiles fun c => congrArg Cluster.tiles (clusterOf_of_clusters clusters c)]
  exact foldl_putElement_same s m p (validElements_nodup m) s (mem_validElements.2 valid) nonzero

end Sys2Proof.Proofs
end

section
/-! SUPPORT. The events of the matrix engine under the conditions of O48 (11 R264, 12 R287, R288, R293). -/

namespace Sys2Proof.Proofs

open Sys2Proof.Machine Sys2Proof.Safety

theorem engineCommandRelease_matrix {s : State} {cluster i : Nat} {e : MatEntry}
    (found : mget (clusterOf s cluster).table i = some e) (held : e.released = false)
    (clear : matEdgesClear s e.cmd = true) :
    answers (.engineCommandRelease (.matrix cluster i)) s fun t =>
      mget (clusterOf t cluster).table i = some { e with released := true } := by
  have arm : exec (.engineCommandRelease (.matrix cluster i)) s
      = .next (modEntry s cluster i fun y => { y with released := true }) := by
    show execEngineCommandRelease (.matrix cluster i) s = _
    simp [execEngineCommandRelease, found, held, clear]
  exact ⟨_, arm, table_modEntry _ found⟩

/-- 12 R288: what a command that its grant completes leaves. -/
def completedAtGrant (s t : State) (cluster i : Nat) (m : MatCmd) (st : Status) (code : FaultCode) : Prop :=
  mget (syncOf t m.block).ring (m.ticket % 64) = some { status := st, fault := code }
    ∧ (clusterOf t cluster).table = merase (clusterOf s cluster).table i

section
variable {s : State} {cluster i : Nat} {e : MatEntry}

theorem exec_arbiterGrant (free : (clusterOf s cluster).granted = none) (choice : grantChoice s cluster = some (i, e)) :
    exec (.arbiterGrant cluster) s = .next (grant s cluster i e) := by
  show execArbiterGrant cluster s = _
  rw [execArbiterGrant, free, choice]

variable (found : mget (clusterOf s cluster).table i = some e)
include found

theorem grant_multiply (multiply : isMultiply e.cmd.op = true) (tags : tagFails s e.cmd e.pass = false) :
    (clusterOf (grant s cluster i e) cluster).granted = some i
    ∧ mget (clusterOf (grant s cluster i e) cluster).table i = some { e with stage := .running, begun := true } := by
  obtain ⟨cs, ds, counted⟩ := countEvent_coresDies s ((blockOf s e.cmd.block).core.getD (4 * cluster)) 6 1
  have granted : grant s cluster i e = modCluster (modEntry { s with cores := cs, dies := ds } cluster i fun x =>
      { x with stage := .running, begun := true }) cluster fun c => { c with granted := some i } := by
    simp only [grant, multiply, tags, counted, if_true, Bool.false_eq_true, if_false]
  rw [granted, clusterOf_modCluster, if_pos rfl]
  exact ⟨rfl, table_modEntry (s := { s with cores := cs, dies := ds }) _ found⟩

theorem grant_tagFault (multiply : isMultiply e.cmd.op = true) (tags : tagFails s e.cmd e.pass = true) :
    completedAtGrant s (grant s cluster i e) cluster i e.cmd .faulted .layoutMismatch := by
  obtain ⟨ring, clusters⟩ := completeMatrix_outcome found .faulted .layoutMismatch e.cmd.desc.toNat
  have completed : grant s cluster i e = completeMatrix s cluster i .faulted .layoutMismatch e.cmd.desc.toNat := by
    simp only [grant, multiply, tags, if_true]
  rw [completed]
  exact ⟨ring, congrArg Cluster.table ((clusters cluster).trans (if_pos rfl))⟩

theorem grant_zero (zero : e.cmd.op = 0x78) :
    completedAtGrant s (grant s cluster i e) cluster i e.cmd .done .none
    ∧ (clusterOf (grant s cluster i e) cluster).tiles = merase (clusterOf s cluster).tiles e.cmd.tile := by
  have zeroed : clusterOf (zeroTile s cluster e.cmd.tile) cluster
      = { clusterOf s cluster with tiles := merase (clusterOf s cluster).tiles e.cmd.tile } := by
    rw [clusterOf_of_clusters (zeroTile_outcome s cluster e.cmd.tile).clusters_eq, clusterOf_modCluster, if_pos rfl]
  have found' : mget (clusterOf (zeroTile s cluster e.cmd.tile) cluster).table i = some e := by rw [zeroed, found]
  obtain ⟨ring, clusters⟩ := completeMatrix_outcome found' .done .none 0
  have completed : grant s cluster i e = completeMatrix (zeroTile s cluster e.cmd.tile) cluster i .done .none 0 := by
    rw [grant, zero, if_neg (by decide), if_pos rfl]
  have after : clusterOf (grant s cluster i e) cluster = { clusterOf s cluster with
      tiles := merase (clusterOf s cluster).tiles e.cmd.tile, table := merase (clusterOf s cluster).table i } := by
    rw [completed, clusters cluster, if_pos rfl, zeroed]
  exact ⟨⟨completed ▸ ring, congrArg Cluster.table after⟩, congrArg Cluster.tiles after⟩

/-- Where no transfer is at work, the epilogue ends the granted pass alone. -/
theorem exec_matrixPassEpilogue (granted : (clusterOf s cluster).granted = some i)
    (noTransfer : ∀ p ∈ (clusterOf s cluster).table, p.2.stage = .running → isMultiply p.2.cmd.op = true) :
    exec (.matrixPassEpilogue cluster) s
      = .next (endPass (modCluster s cluster fun c => { c with granted := none }) cluster i e) := by
  have still : finishTransfers s cluster = s := by
    unfold finishTransfers
    refine (List.foldl_ext _ (fun a _ => a) s fun a p listed => if_neg ?_).trans (List.foldl_fixed _)
    rintro ⟨running, transfer⟩
    rw [noTransfer p listed running] at transfer
    exact absurd transfer Bool.false_ne_true
  show execMatrixPassEpilogue cluster s = _
  unfold execMatrixPassEpilogue
  dsimp only
  rw [still, granted]
  dsimp only
  rw [found]

end

/-- What the epilogue of a pass leaves, as O48 states it. -/
def passEnded (s t : State) (cluster i : Nat) (e : MatEntry) : Prop :=
  (clusterOf t cluster).granted = none
  ∧ (∀ x y, x < e.cmd.vr → y < e.cmd.vc →
      let p := passElement s e.cmd e.pass x y (tilePair s e.cmd.cluster (e.cmd.tile + y / 128) x (y % 128))
      p ≠ (0, 0) → tilePair t e.cmd.cluster (e.cmd.tile + y / 128) x (y % 128) = p)
  ∧ if e.pass + 1 = e.cmd.passes then
      mget (syncOf t e.cmd.block).ring (e.cmd.ticket % 64) =
        some { status := if e.poisoned then .poisoned else .done, fault := .none }
    else mget (clusterOf t cluster).table i = some { e with pass := e.pass + 1 }

/-- The state in which the slot of a cluster is free again. -/
def slotFreed (s : State) (cluster : Nat) : State := modCluster s cluster fun c => { c with granted := none }

theorem clusterOf_slotFreed (s : State) (cluster : Nat) :
    clusterOf (slotFreed s cluster) cluster = { clusterOf s cluster with granted := none } := by
  rw [slotFreed, clusterOf_modCluster, if_pos rfl]

theorem tiles_slotFreed (s : State) (cluster c : Nat) :
    (clusterOf (slotFreed s cluster) c).tiles = (clusterOf s c).tiles := by
  rw [slotFreed, clusterOf_modCluster]
  split
  · next here => rw [here]
  · rfl

theorem passElement_slotFreed (s : State) (cluster : Nat) (m : MatCmd) (p x y : Nat) (old : Word × Word) :
    passElement (slotFreed s cluster) m p x y old = passElement s m p x y old := rfl

theorem passMeetsPoison_slotFreed (s : State) (cluster : Nat) (m : MatCmd) (p : Nat) :
    passMeetsPoison (slotFreed s cluster) m p = passMeetsPoison s m p := rfl

/-- A pass without poison, of a command that is not cancelled, is the last one or leaves its entry with the next. -/
theorem endPass_of_clean {s : State} {cluster i : Nat} {e : MatEntry} (goesOn : e.cancelled = false)
    (clean : passMeetsPoison s e.cmd e.pass = false) :
    endPass s cluster i e =
      if e.pass + 1 = e.cmd.passes then
        completeMatrix (modEntry (applyPass s e.cmd e.pass) cluster i fun x => { x with poisoned := e.poisoned }) cluster i
          (if e.poisoned then .poisoned else .done) .none 0
      else modEntry (applyPass s e.cmd e.pass) cluster i fun x =>
        { x with pass := e.pass + 1, poisoned := e.poisoned } := by
  simp only [endPass, clean, goesOn, Bool.or_false, Bool.false_or, Bool.false_eq_true, if_false]

/-- 12 R287: the epilogue of a pass that meets no poison, of a command that is not cancelled. -/
theorem endPass_ends {s : State} {cluster i : Nat} {e : MatEntry} (found : mget (clusterOf s cluster).table i = some e)
    (goesOn : e.cancelled = false) (clean : passMeetsPoison s e.cmd e.pass = false) :
    passEnded s (endPass (slotFreed s cluster) cluster i e) cluster i e := by
  have written (x y : Nat) (valid : x < e.cmd.vr ∧ y < e.cmd.vc) :
      passElement s e.cmd e.pass x y (pairAt s e.cmd (x, y)) ≠ (0, 0) →
      pairAt (applyPass (slotFreed s cluster) e.cmd e.pass) e.cmd (x, y)
        = passElement s e.cmd e.pass x y (pairAt s e.cmd (x, y)) := by
    rw [← pairAt_of_tiles (tiles_slotFreed s cluster), ← passElement_slotFreed s cluster]
    exact applyPass_pairs (slotFreed s cluster) e.cmd e.pass (q := (x, y)) valid
  obtain ⟨table, granted⟩ := (applyPass_tilesOnly (slotFreed s cluster) e.cmd e.pass).2 cluster
  rw [clusterOf_slotFreed] at table granted
  rw [endPass_of_clean goesOn ((passMeetsPoison_slotFreed s cluster _ _).trans clean)]
  generalize applyPass (slotFreed s cluster) e.cmd e.pass = a at written table granted
  have found' : mget (clusterOf a cluster).table i = some e := by rw [table, found]
  have pairs (t : State) (tiles : ∀ c, (clusterOf t c).tiles = (clusterOf a c).tiles) (x y : Nat) (xs : x < e.cmd.vr)
      (ys : y < e.cmd.vc) (nonzero : passElement s e.cmd e.pass x y (pairAt s e.cmd (x, y)) ≠ (0, 0)) :
      pairAt t e.cmd (x, y) = passElement s e.cmd e.pass x y (pairAt s e.cmd (x, y)) :=
    (pairAt_of_tiles tiles e.cmd (x, y)).trans (written x y ⟨xs, ys⟩ nonzero)
  unfold passEnded
  by_cases last : e.pass + 1 = e.cmd.passes
  · simp only [if_pos last]
    obtain ⟨ring, clusters⟩ := completeMatrix_outcome
      (table_modEntry (fun x => { x with poisoned := e.poisoned }) found') (if e.poisoned then .poisoned else .done) .none 0
    refine ⟨?_, pairs _ fun c => ?_, ring⟩
    · rw [clusters, if_pos rfl]
      exact (granted_modEntry a cluster i _ cluster).trans granted
    · rw [clusters, ← tiles_modEntry a cluster i fun x => { x with poisoned := e.poisoned }]
      split
      · next here => rw [here]
      · rfl
  · simp only [if_neg last]
    exact ⟨(granted_modEntry a cluster i _ cluster).trans granted, pairs _ (tiles_modEntry a cluster i _),
      table_modEntry _ found'⟩

end Sys2Proof.Proofs
end

section
/-! SUPPORT. The copy engine: a queued command read back, the slot that a command takes, the sector that it delivers, its end (14
R339, R340, R343, R346, R350). -/

namespace Sys2Proof.Proofs

open Sys2Proof.Machine Sys2Proof.Safety

/-! ### Queued commands -/

theorem ticket_of_copyOf {s : State} {core n : Nat} {c : CopyCmd} (found : copyOf s core n = some c) : c.ticket = n :=
  beq_iff_eq.1 (List.find?_some (p := fun x : CopyCmd => x.ticket == n) found)

/-- A command changed in its queue is found under its ticket. -/
theorem copyOf_modCopy (s : State) (core n : Nat) {f : CopyCmd → CopyCmd} (ticket : ∀ x, (f x).ticket = x.ticket) :
    copyOf (modCopy s core n f) core n = (copyOf s core n).map f := by
  have same : ((fun x : CopyCmd => x.ticket == n) ∘ fun x => if x.ticket = n then f x else x) = fun x => x.ticket == n := by
    funext x
    dsimp only [Function.comp]
    split
    · rw [ticket]
    · rfl
  rw [copyOf, modCopy, coreOf_modCore, if_pos rfl, List.find?_map, same]
  show (copyOf s core n).map _ = _
  cases found : copyOf s core n with
  | none => rfl
  | some c => exact congrArg some (if_pos (ticket_of_copyOf found))

theorem copyOf_modCore {s : State} {g core n : Nat} {f : Core → Core} (queue : ∀ k, (f k).copyQ = k.copyQ) :
    copyOf (modCore s g f) core n = copyOf s core n := by
  rw [copyOf, coreOf_modCore]
  split
  · next here => rw [queue, copyOf, here]
  · rfl

theorem copyOf_of_cores {s t : State} (h : t.cores = s.cores) (core n : Nat) : copyOf t core n = copyOf s core n := by
  rw [copyOf, coreOf, h, copyOf, coreOf]

theorem cbufOf_modCopy (s : State) (core n g k : Nat) (f : CopyCmd → CopyCmd) :
    cbufOf (modCopy s core n f) g k = cbufOf s g k := by
  rw [cbufOf, modCopy, coreOf_modCore]
  split
  · next here => rw [cbufOf, here]
  · rfl

theorem cbufOf_setCbuf (s : State) (core k : Nat) (b : CircBuf) : cbufOf (setCbuf s core k b) core k = b := by
  rw [cbufOf, setCbuf, coreOf_modCore, if_pos rfl, mgetD, mget_mset_same, Option.getD_some]

theorem copyOf_setCbuf (s : State) (g k core n : Nat) (b : CircBuf) :
    copyOf (setCbuf s g k b) core n = copyOf s core n := copyOf_modCore fun _ => rfl

theorem copyOf_setTb (s : State) (g i core n : Nat) (b : TxBarrier) :
    copyOf (setTb s g i b) core n = copyOf s core n := copyOf_modCore fun _ => rfl

/-! ### Slots (14 R350) -/

/-- A copy that needs no slot, or finds none, takes none. -/
theorem takeSlot_of_none {s : State} {c : CopyCmd} (h : c.stalled = false
    ∨ (cbufOf s c.core (dbits c.control 20 17)).hasRoom = false) : takeSlot s c = s := by
  unfold takeSlot
  obtain h | h := h <;> simp [h]

/-- A stalled copy takes the slot that its buffer has for it. -/
theorem takeSlot_takes {s : State} {c : CopyCmd} (mode : dbit c.control 21 = true) (needs : c.slot = none)
    (room : (cbufOf s c.core (dbits c.control 20 17)).hasRoom = true) (free : engineFree s c.core = true)
    (clear : copyEdgesClear s { c with slot := some (cbufOf s c.core (dbits c.control 20 17)).takeSeq } = true) :
    let b := cbufOf s c.core (dbits c.control 20 17)
    let t := takeSlot s c
    copyOf t c.core c.ticket = (copyOf s c.core c.ticket).map (fun x => { x with slot := some b.takeSeq })
    ∧ cbufOf t c.core (dbits c.control 20 17) = { b with
        takeSeq := (b.takeSeq + 1) % 2 ^ 32, count := mset b.count (b.takeSeq % max 1 b.nslot) b.cons } := by
  intro b t
  have taken : t = modCopy (setCbuf s c.core (dbits c.control 20 17)
      { b with takeSeq := seqNext b.takeSeq, count := mset b.count (b.takeSeq % max 1 b.nslot) b.cons }) c.core c.ticket
        fun x => { x with slot := some b.takeSeq } := by
    have stalled : c.stalled = true := by rw [CopyCmd.stalled, mode, needs]; rfl
    simp only [t, takeSlot, stalled, room, free, clear, Bool.not_true, Bool.or_self, Bool.false_eq_true, if_false]
    rfl
  rw [taken, cbufOf_modCopy, cbufOf_setCbuf, copyOf_modCopy _ _ _ (by exact fun _ => rfl), copyOf_setCbuf]
  exact ⟨rfl, rfl⟩

/-! ### Delivery (14 R340, R343) -/

/-- A delivered sector counts on the barriers of its command and moves its watermark. -/
theorem deliverSector_counts (s : State) (c : CopyCmd) :
    let t := deliverSector s c
    copyOf t c.core c.ticket = (copyOf s c.core c.ticket).map (fun x => { x with next := x.next + 1, completion := 0 })
    ∧ t.mem = s.mem ∧ t.work = s.work ∧ ∀ g, (coreOf t g).cpSeed = (coreOf s g).cpSeed := by
  let count (a : State) (g : Nat) : State :=
    setTb a g (dbits c.control 15 10) (tbOf a g (dbits c.control 15 10)).deliver
  obtain ⟨a, counted, queue, mem, work, seeds⟩ : ∃ a, (if dbit c.control 16 then (copyCores c).foldl count s else s) = a
      ∧ copyOf a c.core c.ticket = copyOf s c.core c.ticket ∧ a.mem = s.mem ∧ a.work = s.work
      ∧ ∀ g, (coreOf a g).cpSeed = (coreOf s g).cpSeed := by
    refine ⟨_, rfl, ?_⟩
    split
    · have seed (a : State) (h g : Nat) : (coreOf (count a h) g).cpSeed = (coreOf a g).cpSeed := by
        rw [show count a h = modCore a h _ from rfl, coreOf_modCore]
        split
        · next here => rw [here]
        · rfl
      exact ⟨foldl_keeps (copyOf · c.core c.ticket) count (fun a g => copyOf_setTb a g _ _ _ _) _ s,
        foldl_keeps State.mem count (fun _ _ => rfl) _ s, foldl_keeps State.work count (fun _ _ => rfl) _ s,
        fun g => foldl_keeps (fun a => (coreOf a g).cpSeed) count (fun a h => seed a h g) _ s⟩
    · exact ⟨rfl, rfl, rfl, fun _ => rfl⟩
  have delivered : deliverSector s c = modCopy a c.core c.ticket fun x => { x with next := x.next + 1, completion := 0 } := by
    rw [← counted]
    rfl
  intro t
  simp only [t, delivered]
  refine ⟨?_, mem, work, fun g => ?_⟩
  · rw [copyOf_modCopy _ _ _ (by exact fun _ => rfl), queue]
  · rw [modCopy, coreOf_modCore, ← seeds g]
    split
    · next here => rw [here]
    · rfl

theorem engineFill_tlb (s : State) (x : Engine) (ctx vpn : Nat) : ∃ m, engineFill s x ctx vpn = { s with engineTlb := m } := by
  unfold engineFill
  dsimp only
  split
  · exact ⟨_, rfl⟩
  · split
    · split <;> exact ⟨_, rfl⟩
    · exact ⟨_, rfl⟩

theorem engineUsed_tlb (s : State) (x : Engine) (ctx : Nat) (rs : List (Nat × Nat)) :
    ∃ m, engineUsed s x ctx rs = { s with engineTlb := m } :=
  foldl_rel (fun a b : State => ∃ m, b = { a with engineTlb := m }) (fun _ => ⟨_, rfl⟩)
    (by rintro _ _ _ ⟨_, rfl⟩ ⟨_, rfl⟩; exact ⟨_, rfl⟩) _ (fun a v => engineFill_tlb a x ctx v) _ s

/-- The seed of a row is kept in the queue of its core. -/
theorem keepSeed_cores (s : State) (c : CopyCmd) : (∃ cs, keepSeed s c = { s with cores := cs })
    ∧ (copyOf (keepSeed s c) c.core c.ticket).map CopyCmd.next = (copyOf s c.core c.ticket).map CopyCmd.next := by
  unfold keepSeed
  split
  · refine ⟨⟨_, rfl⟩, ?_⟩
    rw [copyOf_modCopy _ _ _ (by exact fun _ => rfl), Option.map_map]
    rfl
  · exact ⟨⟨_, rfl⟩, rfl⟩

/-- Bytes that lie in no device memory are on no line. -/
theorem deviceLines_of_scratch {spots : List (Mem × Nat)} {b : Nat} (h : ∀ x ∈ spots, x.1 = .scratch b) :
    deviceLines spots = [] := by
  have none : (spots.filter fun x => x.1 == .device) = [] := List.filter_eq_nil_iff.2 fun x listed => by
    rw [h x listed]
    exact Bool.false_ne_true
  rw [deviceLines, none]
  rfl

section
variable {s : State} {c : CopyCmd} {src spots : List (Mem × Nat)} {blk : Nat}

/-- A sector for a scratchpad window is written as it was converted. -/
theorem writeSector_scratch (inward : c.outward = false) (a : Nat) (bs : List Byte) (nonempty : spots ≠ [])
    (place : ∀ x ∈ spots, x.1 = .scratch blk ∧ isPoisoned s x.1 (x.2 / 32) = false) :
    ∃ p, writeSector s c a spots bs = writeCells { s with mem := { s.mem with poisoned := p } } (.scratch blk)
      ((spots.zip bs).map fun x => (x.1.2, x.2)) := by
  obtain ⟨y, ys, rfl⟩ := List.exists_cons_of_ne_nil nonempty
  have clean : ∀ w ∈ ((y :: ys).zip bs).map fun x => (x.1.2, x.2), isPoisoned s (.scratch blk) (w.1 / 32) = false := by
    intro w listed
    obtain ⟨x, paired, rfl⟩ := List.mem_map.1 listed
    obtain ⟨here, unpoisoned⟩ := place x.1 (List.of_mem_zip paired).1
    rwa [here] at unpoisoned
  obtain ⟨p, written⟩ := writeBytes_of_clean clean
  refine ⟨p, ?_⟩
  unfold writeSector
  dsimp only
  rw [inward, if_neg Bool.false_ne_true, List.head?_cons, Option.map_some, Option.getD_some,
    (place y List.mem_cons_self).1]
  exact written

/-- The state once the source of a command's next sector has been read. -/
def sourceRead (s : State) (c : CopyCmd) (src : List (Mem × Nat)) : State :=
  engineReads (engineUsed (keepSeed s c) (.copy c.core) c.ctx
    [(copySrc s c c.row + (feedSpan c c.col).1, (feedSpan c c.col).2)]) (dieOfCore c.core) (deviceLines src)

theorem sourceRead_keeps (s : State) (c : CopyCmd) (src : List (Mem × Nat)) :
    (sourceRead s c src).work = s.work ∧ (sourceRead s c src).mem = s.mem
    ∧ (copyOf (sourceRead s c src) c.core c.ticket).map CopyCmd.next = (copyOf s c.core c.ticket).map CopyCmd.next := by
  obtain ⟨⟨cs, kept⟩, next⟩ := keepSeed_cores s c
  obtain ⟨tlb, used⟩ := engineUsed_tlb (keepSeed s c) (.copy c.core) c.ctx
    [(copySrc s c c.row + (feedSpan c c.col).1, (feedSpan c c.col).2)]
  unfold sourceRead
  rw [used]
  obtain ⟨ls, fs, read⟩ := engineReads_linesOnly { keepSeed s c with engineTlb := tlb } (dieOfCore c.core) (deviceLines src)
  rw [read]
  refine ⟨?_, ?_, (congrArg (Option.map CopyCmd.next) (copyOf_of_cores rfl _ _)).trans next⟩
  · rw [kept]
  · rw [kept]

/-- 14 R340: a sector of a valid row, from clean sources to a scratchpad window, is converted, written and delivered. -/
theorem moveSectorOf_inward (inward : c.outward = false) (source : sourceSpots s c c.row c.col = .ok src)
    (dest : destSpots s c c.row c.col = .ok [spots]) (free : engineWaits s (dieOfCore c.core) false (deviceLines src) = false)
    (clean : ∀ x ∈ src, isPoisoned s x.1 (x.2 / 32) = false) (place : ∀ x ∈ spots, x.1 = .scratch blk) :
    let q := convertSector c (src.map fun x => readByte s x.1 x.2) (coreOf s c.core).cpSeed
    moveSectorOf s c = deliverSector (modCore (writeSector (sourceRead s c src) c (destAddr s c c.row c.col) spots q.1) c.core
      fun k => { k with cpSeed := q.2 }) c := by
  have writes : deviceLines ([spots].flatMap id) = [] := by
    rw [List.flatMap_singleton]
    exact deviceLines_of_scratch place
  have noWrites : engineWaits s (dieOfCore c.core) true [] = false := rfl
  have good : (src.any fun x => isPoisoned s x.1 (x.2 / 32)) = false :=
    List.any_eq_false.2 fun x listed => by rw [clean x listed]; exact Bool.false_ne_true
  simp only [moveSectorOf, source, dest, writes, free, noWrites, good, inward, sourceRead, List.foldl_cons, List.foldl_nil,
    Bool.or_self, Bool.false_eq_true, if_false, le_refl, if_true]

theorem moveSectorOf_scratch (inward : c.outward = false) (source : sourceSpots s c c.row c.col = .ok src)
    (dest : destSpots s c c.row c.col = .ok [spots]) (nonempty : spots ≠ [])
    (free : engineWaits s (dieOfCore c.core) false (deviceLines src) = false)
    (clean : ∀ x ∈ src, isPoisoned s x.1 (x.2 / 32) = false)
    (place : ∀ x ∈ spots, x.1 = .scratch blk ∧ isPoisoned s x.1 (x.2 / 32) = false)
    (listed : (mget s.work.blocks blk).isSome = true) :
    let q := convertSector c (src.map fun x => readByte s x.1 x.2) (coreOf s c.core).cpSeed
    let t := moveSectorOf s c
    memCells t (.scratch blk) = setCells (memCells s (.scratch blk)) ((spots.zip q.1).map fun x => (x.1.2, x.2))
    ∧ (coreOf t c.core).cpSeed = q.2
    ∧ (copyOf t c.core c.ticket).map CopyCmd.next = (copyOf s c.core c.ticket).map (·.next + 1) := by
  intro q t
  obtain ⟨work, mem, next⟩ := sourceRead_keeps s c src
  have delivered : t = deliverSector (modCore (writeSector (sourceRead s c src) c (destAddr s c c.row c.col) spots q.1)
      c.core fun k => { k with cpSeed := q.2 }) c :=
    moveSectorOf_inward inward source dest free clean fun x spot => (place x spot).1
  generalize sourceRead s c src = r at work mem next delivered
  have place' : ∀ x ∈ spots, x.1 = .scratch blk ∧ isPoisoned r x.1 (x.2 / 32) = false := fun x spot =>
    ⟨(place x spot).1, by rw [isPoisoned, mem]; exact (place x spot).2⟩
  obtain ⟨p, written⟩ := writeSector_scratch inward (destAddr s c c.row c.col) q.1 nonempty place'
  have cells : memCells (writeSector r c (destAddr s c c.row c.col) spots q.1) (.scratch blk)
      = setCells (memCells s (.scratch blk)) ((spots.zip q.1).map fun x => (x.1.2, x.2)) := by
    rw [written, memCells, memCells, ← blockOf_congr (congrArg Work.blocks work)]
    refine congrArg Block.scratch (blockOf_modBlock_of_isSome { r with mem := { r.mem with poisoned := p } } blk _ ?_)
    rw [work]
    exact listed
  have queue' : copyOf (writeSector r c (destAddr s c c.row c.col) spots q.1) c.core c.ticket = copyOf r c.core c.ticket := by
    rw [written]
    rfl
  generalize writeSector r c (destAddr s c c.row c.col) spots q.1 = w at cells queue' delivered
  obtain ⟨queue, -, work', seeds⟩ := deliverSector_counts (modCore w c.core fun k => { k with cpSeed := q.2 }) c
  rw [delivered]
  refine ⟨?_, ?_, ?_⟩
  · rw [← cells, memCells, blockOf_congr (s := w) (congrArg Work.blocks work'), memCells]
  · rw [seeds, coreOf_modCore, if_pos rfl]
  · have step := congrArg (Option.map (· + 1)) next
    rw [Option.map_map, Option.map_map] at step
    rw [queue, Option.map_map, copyOf_modCore (s := w) (by exact fun _ => rfl), queue']
    exact step

end

/-! ### The end of a copy (14 R340, R346) -/

theorem flagTb_core (s : State) (g i : Nat) (st : Status) (h : Nat) :
    (coreOf (flagTb s g i st) h).copyQ = (coreOf s h).copyQ ∧ (coreOf (flagTb s g i st) h).copyRing = (coreOf s h).copyRing := by
  unfold flagTb
  dsimp only
  split
  · rw [setTb, coreOf_modCore]
    split
    · next here => rw [here]; exact ⟨rfl, rfl⟩
    · exact ⟨rfl, rfl⟩
  · exact ⟨rfl, rfl⟩

/-- A copy that completes without a fault leaves its core's queue, and its status stands in the ring. -/
theorem completeCopy_outcome (s : State) (c : CopyCmd) {st : Status} (code : FaultCode) (detail : Nat) (ok : st ≠ .faulted) :
    copyOf (completeCopy s c st code detail) c.core c.ticket = none
    ∧ mget (coreOf (completeCopy s c st code detail) c.core).copyRing (c.ticket % 64)
        = some { status := st, fault := code } := by
  let s1 := modCore s c.core fun k =>
    { k with copyQ := k.copyQ.filter (fun x => x.ticket != c.ticket)
             copyRing := mset k.copyRing (c.ticket % 64) { status := st, fault := code } }
  have queue1 : (coreOf s1 c.core).copyQ = (coreOf s c.core).copyQ.filter fun x => x.ticket != c.ticket := by
    rw [coreOf_modCore, if_pos rfl]
  have ring1 : mget (coreOf s1 c.core).copyRing (c.ticket % 64) = some { status := st, fault := code } := by
    rw [coreOf_modCore, if_pos rfl, mget_mset_same]
  obtain ⟨s2, flagged, queue2, ring2⟩ : ∃ s2, (if dbit c.control 16 then
        (copyCores c).foldl (fun acc g => flagTb acc g (dbits c.control 15 10) st) s1 else s1) = s2
      ∧ (coreOf s2 c.core).copyQ = (coreOf s1 c.core).copyQ ∧ (coreOf s2 c.core).copyRing = (coreOf s1 c.core).copyRing := by
    refine ⟨_, rfl, ?_⟩
    split
    · exact ⟨foldl_keeps (fun a => (coreOf a c.core).copyQ) _ (fun a g => by exact (flagTb_core a g _ st c.core).1) _ s1,
        foldl_keeps (fun a => (coreOf a c.core).copyRing) _ (fun a g => by exact (flagTb_core a g _ st c.core).2) _ s1⟩
    · exact ⟨rfl, rfl⟩
  obtain ⟨s3, slotted, queue3, ring3⟩ : ∃ s3, (match c.slot with
        | none => s2
        | some q => setCbuf s2 c.core (dbits c.control 20 17) ((cbufOf s2 c.core (dbits c.control 20 17)).fill q st)) = s3
      ∧ (coreOf s3 c.core).copyQ = (coreOf s2 c.core).copyQ ∧ (coreOf s3 c.core).copyRing = (coreOf s2 c.core).copyRing := by
    refine ⟨_, rfl, ?_⟩
    split
    · exact ⟨rfl, rfl⟩
    · rw [setCbuf, coreOf_modCore, if_pos rfl]
      exact ⟨rfl, rfl⟩
  have completed : completeCopy s c st code detail = s3 := by
    rw [← slotted, ← flagged]
    exact if_neg ok
  rw [completed, copyOf, queue3, queue2, queue1, ring3, ring2]
  refine ⟨List.find?_eq_none.2 fun x kept => ?_, ring1⟩
  simpa using (List.mem_filter.1 kept).2

end Sys2Proof.Proofs
end

section
/-! PROOF of the statement on engines, O48 (11 R264, 12 R287, R288, R293, 14 R331, R340, R343, R350). -/

namespace Sys2Proof.Proofs

open Sys2Proof.Machine Sys2Proof.Safety

theorem engineCommandRelease_copy {s : State} {core n : Nat} {c : CopyCmd} (found : copyOf s core n = some c)
    (held : c.released = false) (clear : copyEdgesClear s c = true) :
    answers (.engineCommandRelease (.copy core n)) s fun t => copyOf t core n = some { c with released := true } := by
  have arm : exec (.engineCommandRelease (.copy core n)) s
      = .next (modCopy s core n fun x => { x with released := true }) := by
    have found' : (coreOf s core).copyQ.find? (fun x => x.ticket == n) = some c := found
    show execEngineCommandRelease (.copy core n) s = _
    simp only [execEngineCommandRelease, found', held, clear, Bool.not_false, Bool.and_self, if_true]
    rfl
  refine ⟨_, arm, ?_⟩
  dsimp only
  rw [copyOf_modCopy _ _ _ (by exact fun _ => rfl), found, Option.map_some]

theorem movementProgramStart_starts {s : State} {core : Nat} {x : CoachStart} {r : List CoachStart}
    (queued : (coachOf s core).starts = x :: r) (idle : (coachOf s core).running = false) :
    answers (.movementProgramStart core) s fun t => coachOf t core =
      { coachOf s core with
        starts := r, running := true, block := x.block, program := x.entry, pc := x.entry, npc := none,
        stack := [], wait := none, held := false } := by
  have started : startProgram s core = modCoach s core fun y =>
      { y with starts := r, running := true, block := x.block, program := x.entry, pc := x.entry, npc := none,
               stack := [], wait := none, held := false } := by
    simp only [startProgram, queued, idle, Bool.false_eq_true, if_false]
  refine ⟨_, congrArg Host.Outcome.next started, ?_⟩
  dsimp only
  rw [coachOf_modCoach, if_pos rfl]

section
variable {s : State} {c : CopyCmd} (found : copyOf s c.core c.ticket = some c)
include found

theorem exec_copyCommandStart (may : mayStart s c = true) : exec (.copyCommandStart c.core c.ticket) s
    = .next (takeSlot (modCopy s c.core c.ticket fun x => { x with started := true }) c) := by
  show execCopyCommandStart c.core c.ticket s = _
  simp only [execCopyCommandStart, found, may, if_true]

theorem copyOf_started :
    copyOf (modCopy s c.core c.ticket fun x => { x with started := true }) c.core c.ticket
      = some { c with started := true } := by
  rw [copyOf_modCopy _ _ _ (by exact fun _ => rfl), found, Option.map_some]

/-- 14 R340: a copy that starts and needs no slot, or finds none. -/
theorem copyCommandStart_starts (may : mayStart s c = true) (noSlot : dbit c.control 21 = false ∨ c.slot.isSome = true
      ∨ (cbufOf s c.core (dbits c.control 20 17)).hasRoom = false) :
    answers (.copyCommandStart c.core c.ticket) s fun t =>
      copyOf t c.core c.ticket = some { c with started := true } := by
  refine ⟨_, exec_copyCommandStart found may, ?_⟩
  have none : takeSlot (modCopy s c.core c.ticket fun x => { x with started := true }) c
      = modCopy s c.core c.ticket fun x => { x with started := true } := by
    refine takeSlot_of_none ?_
    rw [cbufOf_modCopy, CopyCmd.stalled]
    obtain mode | held | full := noSlot
    · exact .inl (by rw [mode]; rfl)
    · exact .inl (by rw [Option.isNone_eq_false_iff.2 held, Bool.and_false])
    · exact .inr full
  dsimp only
  rw [none]
  exact copyOf_started found

/-- 14 R350: a copy that starts and takes its slot. -/
theorem copyCommandStart_slot (may : mayStart s c = true) (mode : dbit c.control 21 = true) (needs : c.slot = none)
    (room : (cbufOf s c.core (dbits c.control 20 17)).hasRoom = true)
    (free : engineFree (modCopy s c.core c.ticket fun x => { x with started := true }) c.core = true)
    (clear : copyEdgesClear (modCopy s c.core c.ticket fun x => { x with started := true })
      { c with slot := some (cbufOf s c.core (dbits c.control 20 17)).takeSeq } = true) :
    answers (.copyCommandStart c.core c.ticket) s fun t =>
      copyOf t c.core c.ticket
          = some { c with started := true, slot := some (cbufOf s c.core (dbits c.control 20 17)).takeSeq }
      ∧ (cbufOf t c.core (dbits c.control 20 17)).takeSeq
          = ((cbufOf s c.core (dbits c.control 20 17)).takeSeq + 1) % 2 ^ 32 := by
  have buffer := cbufOf_modCopy s c.core c.ticket c.core (dbits c.control 20 17) fun x => { x with started := true }
  obtain ⟨queue, taken⟩ := takeSlot_takes mode needs (by rwa [buffer]) free (by rwa [buffer])
  refine ⟨_, exec_copyCommandStart found may, ?_, ?_⟩
  · rw [queue, copyOf_started found, buffer, Option.map_some]
  · rw [taken, buffer]

/-- 14 R350: a stalled copy takes a slot that has come free. -/
theorem cbSlotTake_takes (started : c.started = true) (mode : dbit c.control 21 = true) (needs : c.slot = none)
    (room : (cbufOf s c.core (dbits c.control 20 17)).hasRoom = true) (free : engineFree s c.core = true)
    (clear : copyEdgesClear s { c with slot := some (cbufOf s c.core (dbits c.control 20 17)).takeSeq } = true) :
    let b := cbufOf s c.core (dbits c.control 20 17)
    answers (.cbSlotTake c.core c.ticket) s fun t =>
      copyOf t c.core c.ticket = some { c with slot := some b.takeSeq }
      ∧ (cbufOf t c.core (dbits c.control 20 17)).takeSeq = (b.takeSeq + 1) % 2 ^ 32
      ∧ mget (cbufOf t c.core (dbits c.control 20 17)).count (b.takeSeq % max 1 b.nslot) = some b.cons := by
  obtain ⟨queue, taken⟩ := takeSlot_takes mode needs room free clear
  have arm : exec (.cbSlotTake c.core c.ticket) s = .next (takeSlot s c) := by
    show execCbSlotTake c.core c.ticket s = _
    simp only [execCbSlotTake, found, started, if_true]
  refine ⟨_, arm, ?_, ?_, ?_⟩
  · rw [queue, found, Option.map_some]
  · rw [taken]
  · rw [taken, mget_mset_same]

theorem exec_copySectorDelivery (can : canDeliver s c = true) :
    exec (.copySectorDelivery c.core c.ticket) s = .next (stepCopy s c) := by
  show execCopySectorDelivery c.core c.ticket s = _
  simp only [execCopySectorDelivery, found, can, if_true]

/-- 14 R340: a row past the valid ones is delivered without an access. -/
theorem copySectorDelivery_invalidRow (can : canDeliver s c = true) (ready : c.completion = 0)
    (past : c.validRows ≤ c.row) :
    answers (.copySectorDelivery c.core c.ticket) s fun t => t.mem = s.mem
      ∧ copyOf t c.core c.ticket = some { c with next := c.next + 1, completion := 0 } := by
  have step : stepCopy s c = deliverSector s c := by
    rw [stepCopy, if_neg (by omega), if_pos past]
  obtain ⟨queue, mem, -⟩ := deliverSector_counts s c
  refine ⟨_, (exec_copySectorDelivery found can).trans (congrArg Host.Outcome.next step), mem, ?_⟩
  rw [queue, found, Option.map_some]

theorem copySectorDelivery_scratch {src spots : List (Mem × Nat)} {blk : Nat} (can : canDeliver s c = true)
    (ready : c.completion = 0) (valid : c.row < c.validRows) (inward : c.outward = false)
    (source : sourceSpots s c c.row c.col = .ok src) (dest : destSpots s c c.row c.col = .ok [spots])
    (nonempty : spots ≠ []) (free : engineWaits s (dieOfCore c.core) false (deviceLines src) = false)
    (clean : ∀ x ∈ src, isPoisoned s x.1 (x.2 / 32) = false)
    (place : ∀ x ∈ spots, x.1 = .scratch blk ∧ isPoisoned s x.1 (x.2 / 32) = false)
    (listed : (mget s.work.blocks blk).isSome = true) :
    answers (.copySectorDelivery c.core c.ticket) s fun t =>
      let q := convertSector c (src.map fun x => readByte s x.1 x.2) (coreOf s c.core).cpSeed
      memCells t (.scratch blk) = setCells (memCells s (.scratch blk)) ((spots.zip q.1).map fun x => (x.1.2, x.2))
      ∧ (coreOf t c.core).cpSeed = q.2 ∧ (copyOf t c.core c.ticket).map (·.next) = some (c.next + 1) := by
  have step : stepCopy s c = moveSectorOf s c := by
    rw [stepCopy, if_neg (by omega), if_neg (by omega)]
  obtain ⟨cells, seed, next⟩ := moveSectorOf_scratch inward source dest nonempty free clean place listed
  rw [found] at next
  exact ⟨_, (exec_copySectorDelivery found can).trans (congrArg Host.Outcome.next step), cells, seed, next⟩

theorem copyComplete_completes (started : c.started = true) (runs : c.parked = false) (all : c.total ≤ c.next) :
    answers (.copyComplete c.core c.ticket) s fun t => copyOf t c.core c.ticket = none
      ∧ mget (coreOf t c.core).copyRing (c.ticket % 64) =
          some { status := if c.poisoned then .poisoned else .done, fault := .none } := by
  have arm : exec (.copyComplete c.core c.ticket) s
      = .next (completeCopy s c (if c.poisoned then .poisoned else .done) .none 0) := by
    show execCopyComplete c.core c.ticket s = _
    simp [execCopyComplete, found, started, runs, all]
  exact ⟨_, arm, completeCopy_outcome s c .none 0 (by split <;> exact Status.noConfusion)⟩

end

/-- Settles O48: each event by what its operation leaves of the table, the queue or the Coachman. -/
theorem engineEvents : Obligations.EngineEvents := by
  refine ⟨fun _ _ _ _ => engineCommandRelease_matrix, fun _ _ _ _ => engineCommandRelease_copy, ?grants, ?epilogue,
    fun _ _ _ _ => movementProgramStart_starts, ?copies⟩
  case grants =>
    intro s cluster i e free choice found
    have arm := exec_arbiterGrant free choice
    refine ⟨fun multiply tags => ⟨_, arm, grant_multiply found multiply tags⟩,
      fun multiply tags => ⟨_, arm, grant_tagFault found multiply tags⟩, fun zero => ⟨_, arm, grant_zero found zero⟩,
      fun transfer other => arm.trans (congrArg Host.Outcome.next ?_)⟩
    rw [grant, transfer, if_neg Bool.false_ne_true, if_neg other]
  case epilogue =>
    intro s cluster i e granted found noTransfer goesOn clean
    exact ⟨_, exec_matrixPassEpilogue found granted noTransfer, endPass_ends found goesOn clean⟩
  case copies =>
    intro s core n c found own
    obtain rfl := own
    obtain rfl := ticket_of_copyOf found
    exact ⟨copyCommandStart_starts found, copyCommandStart_slot found, cbSlotTake_takes found,
      copySectorDelivery_invalidRow found, fun _ _ _ => copySectorDelivery_scratch found, copyComplete_completes found⟩

end Sys2Proof.Proofs
end

section
/-! REFUTATION of the statement on hosts, O52: a transfer record whose completion cannot be written (20 R554, 21 R500). -/

namespace Sys2Proof.Proofs

open Sys2Proof.Machine Sys2Proof.Safety

/-- Context 1 has no page table, so nothing of its transfer ring can be written; its record 0 has begun and its writes are
performed. -/
def unwritableRing : State :=
  { ctxs := [(1, {})], more := [(1, { xfers := [(0, .done, .none, 0)] })] }

/-- 20 R554: the write of the record's status fails and is recorded; it is to be tried again, so the record stays. -/
theorem unwritableRing_keeps_record :
    ∀ t, exec (.xferComplete 1 0) unwritableRing = .next t → (moreOf t 1).xfers = [(0, .done, .none, 0)] := by
  have kept : (match exec (.xferComplete 1 0) unwritableRing with
      | .next t => (moreOf t 1).xfers
      | _ => []) = [(0, .done, .none, 0)] := by decide +kernel
  intro t ht
  rwa [ht] at kept

/-- Refutes O52: a record is over once its status is written. Where that write fails, as in `unwritableRing`, the record waits
for the retry, while the statement has it gone under conditions that say nothing of the write. -/
theorem not_hostEvents : ¬ Obligations.HostEvents := by
  unfold Obligations.HostEvents
  intro h
  obtain ⟨-, -, -, -, -, -, -, -, -, complete, -⟩ := h
  obtain ⟨t, ht, gone⟩ := complete unwritableRing 1 0 0 .done .none rfl (le_refl 0) rfl
  have kept := unwritableRing_keeps_record t ht
  rw [kept] at gone
  exact absurd gone (by decide)

end Sys2Proof.Proofs
end

section
/-! PROOF of the statement on the waits for tickets, O23 (12 R298, 14 R344). -/

namespace Sys2Proof.Proofs

open Sys2Proof.Machine Sys2Proof.Safety

/-! ### O23 (12 R298, 14 R344) -/

theorem execMwait_waits (f : FormW) (s : State) :
    exec (.mwait f) s = .next ((activeLanes s f.x.guard).foldl (fun acc p => mwaitLane acc f p.1 p.2) s) := rfl

theorem mwaitLane_of_ended {a : State} {f : FormW} {u : Nat} {t : Thread} {q : Status × FaultCode}
    (ended : matrixResult a t.block (srcWord t .a f.a).toNat (f.field 0 0 == 1) = some q) :
    endsNow a u f q.1 (ticketWord q.1 q.2) (q.1 == .done) (fun r => r) (mwaitLane a f u t) := by
  unfold mwaitLane
  simp only [ended]
  exact endAtIssue_endsNow a u f q.1 _ _ _

theorem mwaitLane_of_running {a : State} {f : FormW} {u : Nat} {t : Thread}
    (running : matrixResult a t.block (srcWord t .a f.a).toNat (f.field 0 0 == 1) = none) :
    mwaitLane a f u t = blockOrExpire a u t f.dst f.x.deadline f.x.esc
      (.matrix t.block (srcWord t .a f.a).toNat (f.field 0 0 == 1)) .timeout Status.timeout.word := by
  unfold mwaitLane
  simp only [running]

theorem execCpw_skips {f : FormW} {s : State} (off : guardCoach f.x.guard (coachOf s s.cur.core) = false) :
    exec (.cpw f) s = .next s := by
  have arm : exec (.cpw f) s = execCpw f s := rfl
  simp only [arm, execCpw, off, Bool.not_false, if_true]

section
variable {f : FormW} {s : State} (on : guardCoach f.x.guard (coachOf s s.cur.core) = true)
include on

theorem execCpw_of_ended {q : Status × FaultCode}
    (ended : copyResult s s.cur.core (srcCoach (coachOf s s.cur.core) f.a).toNat (f.field 0 0 == 1) = some q) :
    exec (.cpw f) s = .next (endCoachAtIssue s f.dst f.x.deadline f.x.esc q.1
      ((ticketWord q.1 q.2).setWidth 64) id) := by
  have arm : exec (.cpw f) s = execCpw f s := rfl
  simp only [arm, execCpw, on, ended, Bool.not_true, Bool.false_eq_true, if_false]
  rfl

theorem execCpw_of_running
    (running : copyResult s s.cur.core (srcCoach (coachOf s s.cur.core) f.a).toNat (f.field 0 0 == 1) = none) :
    exec (.cpw f) s = .next (blockCoach s f.dst f.x.deadline f.x.esc
      (.copy s.cur.core (srcCoach (coachOf s s.cur.core) f.a).toNat (f.field 0 0 == 1)) .timeout 1) := by
  have arm : exec (.cpw f) s = execCpw f s := rfl
  simp only [arm, execCpw, on, running, Bool.not_true, Bool.false_eq_true, if_false]
  rfl

end

/-- A wait for one ticket looks at that ticket's entry of the completion ring alone. -/
theorem ticketResult_single (last : Nat) (wrapped : Bool) (running : Nat → Bool) (ring : SMap RingEntry) (t : Nat) :
    ticketResult last wrapped running ring t false =
      if t = 0 then some (.done, .none)
      else if isRecent last wrapped t = false then some (.stalePhase, .none)
      else if running t then none
      else if (mgetD ring (t % 64) {}).status = .done then some (.done, .none)
      else some ((mgetD ring (t % 64) {}).status, (mgetD ring (t % 64) {}).fault) := by
  simp only [ticketResult, Bool.false_eq_true, if_false, List.any_cons, List.any_nil, Bool.or_false, Bool.not_eq_true']
  by_cases done : (mgetD ring (t % 64) {}).status = .done <;> simp [done]

/-- Settles O23: each wait by whether its ticket is over; a single ticket by its ring entry. -/
theorem ticketWaits : Obligations.TicketWaits := by
  refine ⟨fun f s _ _ => ?mwait, fun f s _ _ => ?cpw, ticketResult_single⟩
  case mwait =>
    refine ⟨_, execMwait_waits f s, chain_foldl (fun a p => ?_) _ s⟩
    cases result : matrixResult a p.2.block (srcWord p.2 .a f.a).toNat (f.field 0 0 == 1) with
    | some q =>
      simp only [result, Option.map_some]
      exact mwaitLane_of_ended result
    | none =>
      rw [mwaitLane_of_running result]
      simp only [result, Option.map_none]
      exact blockOrExpire_ends_or_blocks a p.1 p.2 f _ .timeout 1
  case cpw =>
    by_cases on : guardCoach f.x.guard (coachOf s s.cur.core) = true
    case neg => exact ⟨s, execCpw_skips (Bool.eq_false_iff.2 on), by simp only [if_neg on]⟩
    cases result : copyResult s s.cur.core (srcCoach (coachOf s s.cur.core) f.a).toNat (f.field 0 0 == 1) with
    | some q =>
      refine ⟨_, execCpw_of_ended on result, ?_⟩
      simp only [if_pos on, result, Option.map_some]
      exact endCoachAtIssue_coachEnds s f.dst _ _ q.1 _
    | none =>
      refine ⟨_, execCpw_of_running on result, ?_⟩
      simp only [if_pos on, result, Option.map_none]
      exact blockCoach_ends_or_blocks s f _ .timeout 1

end Sys2Proof.Proofs
end

section
/-! SUPPORT. Counted state read back, and positions that give every participating lane one word (03 R61, 12 R277). -/

namespace Sys2Proof.Proofs

open Sys2Proof.Machine Sys2Proof.Safety

/-! ### Counted state read back -/

@[simp] theorem syncOf_modSync (s : State) (b c : Nat) (f : BlockSync → BlockSync) :
    syncOf (modSync s b f) c = if c = b then f (syncOf s b) else syncOf s c := by
  simp only [syncOf, modSync, modWork, mgetD, mget_mset]
  split <;> rfl

@[simp] theorem syncOf_modCluster (s : State) (c b : Nat) (f : Cluster → Cluster) :
    syncOf (modCluster s c f) b = syncOf s b := rfl

@[simp] theorem clusterOf_modSync (s : State) (b c : Nat) (f : BlockSync → BlockSync) :
    clusterOf (modSync s b f) c = clusterOf s c := rfl

/-! ### One word to every participating lane (03 R61) -/

theorem modThread_congr {a : State} {u : Nat} {f h : Thread → Thread} (same : ∀ x, threadOf a u = some x → f x = h x) :
    modThread a u f = modThread a u h :=
  congrArg (fun m => { a with work := { a.work with threads := m } }) (mmod_congr same)

theorem modThread_of_none {a : State} {u : Nat} (absent : threadOf a u = none) (f : Thread → Thread) :
    modThread a u f = a :=
  congrArg (fun m => { a with work := { a.work with threads := m } }) (mmod_of_none absent f)

/-- Lanes that act in turn and only take one word take it all at once. -/
theorem eachLane_const_eq_writeWord (s : State) (g : Guard) (d : Dst) (x : Word) :
    eachLane s g d (fun acc _ _ => (acc, x)) = writeWord s g d fun _ _ => x := by
  refine .trans (congrArg (fun step => s.cur.lanes.foldl step s) (funext fun a => funext fun u => ?_))
    (foldl_modThread_eq id (fun _ t =>
      if guardOn g t.regs then putWord (latchIndex s) d x t else skipWord (latchIndex s) d t) s.cur.lanes s)
  cases found : threadOf a u with
  | none => exact (modThread_of_none found _).symm
  | some t =>
    have only (y : Thread) (here : threadOf a u = some y) : y = t := Option.some_inj.1 (here.symm.trans found)
    by_cases active : guardOn g t.regs = true
    · simp only [if_pos active]
      exact modThread_congr fun y here => by rw [only y here, if_pos active]
    · simp only [if_neg active]
      exact modThread_congr fun y here => by rw [only y here, if_neg active]

/-- Every lane of the bundle takes a word, as its guard in `s` says, or latches what it has. -/
def wordToLanes (s : State) (g : Guard) (d : Dst) (x : Word) (t : State) : Prop :=
  ∀ v tv, v ∈ s.cur.lanes → threadOf s v = some tv → ∃ tv', threadOf t v = some tv'
    ∧ if guardOn g tv.regs then wroteWord (s.cur.pos % 4) d x tv tv' else skippedWord (s.cur.pos % 4) d tv tv'

/-- The word is given over a state that has the bundle and its threads from `s`. -/
theorem writeWord_wordToLanes {s a : State} (g : Guard) (d : Dst) (x : Word) (nodup : s.cur.lanes.Nodup)
    (lanes : a.cur.lanes = s.cur.lanes) (pos : a.cur.pos = s.cur.pos) (threads : a.work.threads = s.work.threads) :
    wordToLanes s g d x (writeWord a g d fun _ _ => x) := by
  obtain ⟨written, -, -⟩ := writeWord_onlyLanes a g d (fun _ _ => x) (lanes ▸ nodup)
  rw [lanes, pos] at written
  exact fun v tv lane found => written v tv lane ((congrArg (mget · v) threads).trans found)

end Sys2Proof.Proofs
end

section
/-! PROOF of the statement on the forms that post matrix commands, O24 (08 R192, 12 R275, R277, R292 to R294). -/

namespace Sys2Proof.Proofs

open Sys2Proof.Machine Sys2Proof.Safety

/-! ### Binding a command (08 R192, 12 R276) -/

/-- A change of counted state and of clusters at most. -/
def commandsOnly (s t : State) : Prop := ∃ y cs, t = { s with work := { s.work with sync := y }, clusters := cs }

theorem bindCommand_commandsOnly (s : State) (k : Nat) (m : MatCmd) : commandsOnly s (bindCommand s k m) := by
  unfold bindCommand
  dsimp only
  split <;> exact ⟨_, _, rfl⟩

theorem syncOf_setKreg_same (s : State) (b k : Nat) (x : KReg) :
    syncOf (setKreg s b k x) b = { syncOf s b with kregs := mset (syncOf s b).kregs k x } := by
  rw [setKreg, syncOf_modSync, if_pos rfl]

/-- A posted command stands in the lowest free entry of its cluster's table, numbered in its block's post order. -/
theorem postMatrix_posts (s : State) (m : MatCmd) :
    (∃ e, mget (clusterOf (postMatrix s m) m.cluster).table (freeEntry (clusterOf s m.cluster)) = some e
      ∧ e.cmd = { m with seq := (syncOf s m.block).posts } ∧ e.stage = .posted)
    ∧ (syncOf (postMatrix s m) m.block).posts = (syncOf s m.block).posts + 1
    ∧ (syncOf (postMatrix s m) m.block).ticket = (syncOf s m.block).ticket := by
  simp [postMatrix]

/-- What a command comes to by the state of the convergence register that it names. -/
def bindingOutcome (s : State) (k : Nat) (m : MatCmd) (t : State) : Prop :=
  match (kregOf s m.block k).state with
  | .declared => mget (syncOf t m.block).bound m.ticket = some m ∧ (kregOf t m.block k).state = .bound
      ∧ (kregOf t m.block k).command = some m.ticket
  | .withdrawn => mget (syncOf t m.block).ring (m.ticket % 64) = some { status := .withdrawn, fault := .none }
  | _ => (∃ e, mget (clusterOf t m.cluster).table (freeEntry (clusterOf s m.cluster)) = some e
        ∧ e.cmd = { m with seq := (syncOf s m.block).posts } ∧ e.stage = .posted)
      ∧ (syncOf t m.block).posts = (syncOf s m.block).posts + 1

theorem bindCommand_outcome {s : State} {k : Nat} {m : MatCmd} (free : (kregOf s m.block k).state ≠ .bound) :
    bindingOutcome s k m (bindCommand s k m)
    ∧ (syncOf (bindCommand s k m) m.block).ticket = (syncOf s m.block).ticket := by
  unfold bindingOutcome bindCommand
  dsimp only
  cases state : (kregOf s m.block k).state with
  | bound => exact absurd state free
  | idle =>
    obtain ⟨entry, posts, ticket⟩ := postMatrix_posts s m
    exact ⟨⟨entry, posts⟩, ticket⟩
  | signed =>
    obtain ⟨entry, posts, ticket⟩ := postMatrix_posts (setKreg s m.block k {}) m
    simp only [syncOf_setKreg_same] at entry posts ticket
    exact ⟨⟨entry, posts⟩, ticket⟩
  | declared => simp [kregOf, syncOf_setKreg_same, mgetD]
  | withdrawn => exact ⟨syncOf_ringPut _ _ _ _ _, by simp [ringPut, syncOf_setKreg_same]⟩

/-! ### Posting forms (12 R275, R277, R292) -/

/-- 12 R275: the command of a lane before its form fills it in. -/
def commandBase (s : State) (f : FormA) (op u : Nat) (th : Thread) : MatCmd :=
  { op := op, ctx := ctxOfBlock s th.block, block := th.block, core := s.cur.core, cluster := clusterOfCore s.cur.core
    thread := u, ticket := nextTicket (syncOf s th.block).ticket, seq := 0, tile := stepTile th.ctl (f.field 6 4) }

/-- The state of a posting form before its command is bound: a post is counted and the ticket taken. -/
def ticketed (s : State) (b : Nat) : State :=
  takeTicket { s with cur := { s.cur with posts := s.cur.posts + 1 } } b

theorem syncOf_ticketed (s : State) (b : Nat) :
    syncOf (ticketed s b) b = { syncOf s b with
      ticket := nextTicket (syncOf s b).ticket
      wrapped := (syncOf s b).wrapped || (syncOf s b).ticket == 0xFFFFFFFF } := by
  rw [ticketed, takeTicket, syncOf_modSync, if_pos rfl]
  rfl

theorem kregOf_ticketed (s : State) (b k : Nat) : kregOf (ticketed s b) b k = kregOf s b k := by
  rw [kregOf, syncOf_ticketed, kregOf]

/-- The count and the ticket decide nothing of what a command comes to; nor does the word that its form then gives. -/
theorem bindingOutcome_of_ticketed {s a : State} {b k : Nat} {m : MatCmd} {g : Guard} {d : Dst} {x : Word}
    (block : m.block = b) (h : bindingOutcome (ticketed s b) k m a) :
    bindingOutcome s k m (writeWord a g d fun _ _ => x) := by
  subst block
  unfold bindingOutcome at h
  rw [kregOf_ticketed, syncOf_ticketed] at h
  exact h

theorem postingForm_of_pass {s : State} {f : FormA} {op u : Nat} {th : Thread} {rest : List (Nat × Thread)}
    {bad : Thread → MatCmd → Option (FaultCode × Nat)} {fill : Thread → MatCmd → MatCmd}
    (first : activeLanes s f.x.guard = (u, th) :: rest)
    (checks : bad th (fill th (commandBase s f op u th)) = none)
    (owned : ∀ x ∈ (fill th (commandBase s f op u th)).tiles, x ∈ ownedAtIssue s th.block)
    (free : (kregOf s th.block (f.field 3 0)).state ≠ .bound) (entries : s.cur.posts < heldAtIssue s th.block) :
    postingForm s f op bad fill = writeWord
      (bindCommand (ticketed s th.block) (f.field 3 0) (fill th (commandBase s f op u th))) f.x.guard f.dst
      fun _ _ => BitVec.ofNat 32 (nextTicket (syncOf s th.block).ticket) := by
  have reserved : (!((fill th (commandBase s f op u th)).tiles.all fun x => (ownedAtIssue s th.block).contains x)
      || (kregOf s th.block (f.field 3 0)).state == .bound) = false := by
    simp only [Bool.or_eq_false_iff, Bool.not_eq_false', List.all_eq_true, List.contains_iff_mem, beq_eq_false_iff_ne]
    exact ⟨owned, free⟩
  unfold commandBase at checks reserved
  rw [← eachLane_const_eq_writeWord]
  unfold postingForm
  rw [first]
  dsimp only
  rw [checks]
  dsimp only
  rw [reserved, if_neg Bool.false_ne_true, if_neg (Nat.not_lt.2 entries)]
  rfl

/-- What a posting form leaves, by its command. -/
theorem postingForm_outcome {s : State} {f : FormA} {op u : Nat} {th : Thread} {rest : List (Nat × Thread)}
    {bad : Thread → MatCmd → Option (FaultCode × Nat)} {fill : Thread → MatCmd → MatCmd} {m : MatCmd}
    (nodup : s.cur.lanes.Nodup) (first : activeLanes s f.x.guard = (u, th) :: rest)
    (filled : fill th (commandBase s f op u th) = m) (block : m.block = th.block)
    (checks : bad th m = none) (owned : ∀ x ∈ m.tiles, x ∈ ownedAtIssue s th.block)
    (free : (kregOf s th.block (f.field 3 0)).state ≠ .bound) (entries : s.cur.posts < heldAtIssue s th.block) :
    let t := postingForm s f op bad fill
    wordToLanes s f.x.guard f.dst (BitVec.ofNat 32 (nextTicket (syncOf s th.block).ticket)) t
    ∧ (syncOf t th.block).ticket = nextTicket (syncOf s th.block).ticket
    ∧ t.mem = s.mem ∧ t.cur.hold = s.cur.hold ∧ bindingOutcome s (f.field 3 0) m t := by
  subst filled
  intro t
  have posted : t = _ := postingForm_of_pass first checks owned free entries
  generalize fill th (commandBase s f op u th) = m at *
  obtain ⟨_, _, changed⟩ := bindCommand_commandsOnly (ticketed s th.block) (f.field 3 0) m
  obtain ⟨outcome, ticket⟩ := bindCommand_outcome (s := ticketed s th.block) (k := f.field 3 0) (m := m)
    (by rw [block, kregOf_ticketed]; exact free)
  rw [block, syncOf_ticketed] at ticket
  rw [posted]
  refine ⟨writeWord_wordToLanes _ _ _ nodup ?lanes ?pos ?threads, ticket, ?mem, ?hold,
    bindingOutcome_of_ticketed block outcome⟩
  all_goals
    simp only [writeWord_mem, writeWord_cur, changed]
    rfl

/-! ### O24 -/

theorem dbits_low (x : DWord) : dbits x 31 0 = (x.setWidth 32).toNat := by
  simp [dbits, BitVec.toNat_setWidth]

/-- Settles O24: every posting form is the one posting of the command that it fills in. -/
theorem matrixPosts : Obligations.MatrixPosts := by
  refine ⟨?_, ?_, ?_, ?_, ?_, ?_, ?_, ?_, ?_, ?command⟩
  case command =>
    intro s f t m
    exact ⟨rfl, rfl, rfl, congrArg (min · 128) (dbits_low _), rfl, rfl⟩
  all_goals
    intro f s u th rest _ nodup first b k c last ticket m checks owned free entries
    exact ⟨_, rfl, postingForm_outcome nodup first rfl rfl checks owned free entries⟩

end Sys2Proof.Proofs
end

section
/-! SUPPORT. Requests put in flight: the groups of a position's lanes by sector, and the requests made of them (10 R232, R241,
03 R62). -/

namespace Sys2Proof.Proofs

open Sys2Proof.Machine Sys2Proof.Safety

/-! ### Lanes grouped by sector (10 R241) -/

/-- The sector of a group of lanes. -/
def groupSector (g : List LaneReq) : Option Nat := g.head?.map laneSector

/-- Taking the one element with a key to the front. -/
theorem perm_cons_filter_of_find? {α β : Type} [BEq β] [LawfulBEq β] (key : α → β) (x : β) {l : List α} {a : α}
    (distinct : l.Pairwise fun b c => key b ≠ key c) (found : l.find? (fun b => key b == x) = some a) :
    l.Perm (a :: l.filter fun b => key b != x) := by
  induction l with
  | nil => cases found
  | cons b l ih =>
    obtain ⟨others, distinct⟩ := List.pairwise_cons.1 distinct
    by_cases here : key b = x
    · obtain rfl : b = a := by simpa [here] using found
      subst here
      rw [List.filter_cons_of_neg (by simp), List.filter_eq_self.2 fun c later => bne_iff_ne.2 (others c later).symm]
    · rw [List.find?_cons_of_neg (by simpa using here)] at found
      rw [List.filter_cons_of_pos (by simpa using here)]
      exact ((ih distinct found).cons b).trans (.swap a b _)

/-- The groups are a rearrangement of the lanes; each holds lanes of one sector, and no two share theirs. -/
theorem groupBySector_groups (reqs : List LaneReq) :
    (groupBySector reqs).flatten.Perm reqs
    ∧ (∀ g ∈ groupBySector reqs, ∀ p ∈ g, groupSector g = some (laneSector p))
    ∧ (groupBySector reqs).Pairwise fun g h => groupSector g ≠ groupSector h := by
  induction reqs with
  | nil => exact ⟨.nil, List.forall_mem_nil _, .nil⟩
  | cons r rest ih =>
    obtain ⟨perm, uniform, distinct⟩ := ih
    have grouped : groupBySector (r :: rest)
        = match (groupBySector rest).find? fun g => groupSector g == some (laneSector r) with
          | none => [r] :: groupBySector rest
          | some g => (r :: g) :: (groupBySector rest).filter fun h => groupSector h != some (laneSector r) := rfl
    rw [grouped]
    cases found : (groupBySector rest).find? fun g => groupSector g == some (laneSector r) with
    | none =>
      have fresh := List.find?_eq_none.1 found
      refine ⟨perm.cons r, List.forall_mem_cons.2 ⟨fun p only => ?_, uniform⟩,
        List.pairwise_cons.2 ⟨fun g listed same => ?_, distinct⟩⟩
      · rw [List.mem_singleton.1 only]
        rfl
      · exact fresh g listed (beq_iff_eq.2 same.symm)
    | some g =>
      have sector : groupSector g = some (laneSector r) := by simpa using List.find?_some found
      have listed := List.mem_of_find?_eq_some found
      refine ⟨?_, List.forall_mem_cons.2 ⟨fun p member => ?_, fun h kept => uniform h (List.mem_filter.1 kept).1⟩,
        List.pairwise_cons.2 ⟨fun h kept same => ?_, distinct.filter _⟩⟩
      · exact ((perm_cons_filter_of_find? groupSector _ distinct found).flatten.symm.trans perm).cons r
      · obtain rfl | member := List.mem_cons.1 member
        · rfl
        · exact sector.symm.trans (uniform g listed p member)
      · exact bne_iff_ne.1 (List.mem_filter.1 kept).2 same.symm

theorem groupBySector_apart (reqs : List LaneReq) :
    (groupBySector reqs).Pairwise fun g h => ∀ p ∈ g, ∀ q ∈ h, laneSector p ≠ laneSector q := by
  obtain ⟨-, uniform, distinct⟩ := groupBySector_groups reqs
  refine distinct.imp_of_mem fun {g h} left right other p here q there same => other ?_
  rw [uniform g left p here, uniform h right q there, same]

/-! ### Requests numbered -/

section
variable {proto : Access} {gs : List (List LaneReq)} {id : Nat}

theorem of_mem_numberAccesses {a : Access} (h : a ∈ numberAccesses proto gs id) :
    a.lanes ∈ gs ∧ id ≤ a.id ∧ a.id < id + gs.length
    ∧ a = { proto with id := a.id, lanes := a.lanes, line := a.line } := by
  induction gs generalizing id with
  | nil => cases h
  | cons g gs ih =>
    obtain rfl | later := List.mem_cons.1 h
    · exact ⟨List.mem_cons_self, le_rfl, by simp, rfl⟩
    · obtain ⟨lanes, low, high, made⟩ := ih later
      exact ⟨List.mem_cons_of_mem g lanes, by omega, by simp only [List.length_cons]; omega, made⟩

theorem numberAccesses_lanes : (numberAccesses proto gs id).map Access.lanes = gs := by
  induction gs generalizing id with
  | nil => rfl
  | cons g gs ih => exact congrArg (g :: ·) ih

theorem numberAccesses_pairwise {R : List LaneReq → List LaneReq → Prop} (h : gs.Pairwise R) :
    (numberAccesses proto gs id).Pairwise fun a b => a.id < b.id ∧ R a.lanes b.lanes := by
  induction gs generalizing id with
  | nil => exact .nil
  | cons g gs ih =>
    obtain ⟨first, rest⟩ := List.pairwise_cons.1 h
    refine List.pairwise_cons.2 ⟨fun b later => ?_, ih rest⟩
    obtain ⟨lanes, low, -, -⟩ := of_mem_numberAccesses later
    exact ⟨low, first b.lanes lanes⟩

end

/-! ### Requests that enter flight (10 R232, 03 R62) -/

/-- The requests that a position puts in flight. -/
def newRequests (s : State) (proto : Access) (reqs : List LaneReq) : List Access :=
  numberAccesses { proto with issued := !waitsToIssue proto, since := s.dtime, site := s.cur.addr } (groupBySector reqs)
    s.nextAccess

theorem newRequests_lanes_perm (s : State) (proto : Access) (reqs : List LaneReq) :
    ((newRequests s proto reqs).flatMap Access.lanes).Perm reqs := by
  obtain ⟨perm, -, -⟩ := groupBySector_groups reqs
  rwa [List.flatMap_def, newRequests, numberAccesses_lanes]

theorem mem_lanes_newRequests {s : State} {proto : Access} {reqs : List LaneReq} {r : LaneReq} :
    (∃ a ∈ newRequests s proto reqs, r ∈ a.lanes) ↔ r ∈ reqs :=
  List.mem_flatMap.symm.trans (newRequests_lanes_perm s proto reqs).mem_iff

theorem ctrUp_ctrOnly (r : Regs) (c : Nat) : r.ctrUp c = { r with ctr := (r.ctrUp c).ctr } := by
  unfold Regs.ctrUp
  split <;> rfl

theorem activeLanes_uids_nodup {s : State} (g : Guard) (nodup : s.cur.lanes.Nodup) :
    ((activeLanes s g).map Prod.fst).Nodup := by
  have named : (lanes s).map Prod.fst = s.cur.lanes.filter fun u => (threadOf s u).isSome := by
    unfold lanes
    rw [List.map_filterMap, ← List.filterMap_eq_filter]
    congr 1
    funext u
    cases found : threadOf s u <;> simp [Option.guard, found]
  refine List.Sublist.nodup (List.filter_sublist.map Prod.fst) ?_
  rw [named]
  exact nodup.filter _

section
variable {s : State} {g : Guard} {proto : Access} {req : Nat × Thread → LaneReq}
  (nodup : s.cur.lanes.Nodup) (uid : ∀ p, (req p).uid = p.1)
include nodup uid

theorem issueRequests_eq :
    issueRequests s proto ((activeLanes s g).map req)
      = { forLanes s fun _ t => if guardOn g t.regs then t.modRegs fun r => r.ctrUp proto.ctr else t with
          pend := s.pend ++ newRequests s proto ((activeLanes s g).map req)
          nextAccess := s.nextAccess + (newRequests s proto ((activeLanes s g).map req)).length
          cur := { s.cur with
            created := s.cur.created ++ (newRequests s proto ((activeLanes s g).map req)).map Access.id } } := by
  have counted : ((activeLanes s g).map req).foldl
      (fun acc r => modThread acc r.uid fun t => t.modRegs fun x => x.ctrUp proto.ctr) s
      = forLanes s fun _ t => if guardOn g t.regs then t.modRegs fun r => r.ctrUp proto.ctr else t := by
    rw [List.foldl_map]
    simp only [uid]
    exact foldl_activeLanes_eq_forLanes g (fun _ _ t => t.modRegs fun r => r.ctrUp proto.ctr) nodup
  unfold issueRequests
  dsimp only
  rw [counted]
  rfl

/-- A position's requests enter flight: what `form` says of the requests' common part and `lane` of each lane's. -/
theorem issueRequests_putsInFlight {form : Access → Prop} {lane : Thread → LaneReq → Prop}
    (formed : ∀ id ls line, form { proto with
      issued := !waitsToIssue proto, since := s.dtime, site := s.cur.addr, id := id, lanes := ls, line := line })
    (lanes : ∀ p ∈ activeLanes s g, lane p.2 (req p)) :
    putsInFlight s (issueRequests s proto ((activeLanes s g).map req)) g proto.ctr form lane := by
  rw [issueRequests_eq nodup uid]
  obtain ⟨-, uniform, -⟩ := groupBySector_groups ((activeLanes s g).map req)
  have thread (u : Nat) := threadOf_forLanes s
    (fun _ t => if guardOn g t.regs then t.modRegs fun r => r.ctrUp proto.ctr else t) u nodup
  refine ⟨fun u th lane found => ?counts, fun u other => (thread u).trans (if_neg other),
    newRequests s proto ((activeLanes s g).map req), rfl, fun a listed => ?formed,
    numberAccesses_pairwise (groupBySector_apart _), fun a listed p here q there => ?uniform, ?nodup,
    fun a listed r here => ?lane, fun u th lane found active => ?every⟩
  case counts =>
    refine ⟨_, (thread u).trans ((if_pos lane).trans (congrArg (Option.map _) found)), ?_⟩
    cases active : guardOn g th.regs with
    | true =>
      simp only [active, if_true, true_and]
      exact ⟨regs_getCtr_ctrUp th.regs proto.ctr,
        congrArg (fun r => { th with regs := r }) (ctrUp_ctrOnly th.regs proto.ctr)⟩
    | false => simp [active]
  case formed =>
    obtain ⟨-, low, high, made⟩ := of_mem_numberAccesses listed
    rw [newRequests, ← List.length_map (f := Access.lanes), numberAccesses_lanes]
    refine ⟨?_, low, high⟩
    rw [made]
    exact formed _ _ _
  case uniform =>
    obtain ⟨group, -, -, -⟩ := of_mem_numberAccesses listed
    exact Option.some_inj.1 ((uniform _ group p here).symm.trans (uniform _ group q there))
  case nodup =>
    rw [((newRequests_lanes_perm s proto _).map LaneReq.uid).nodup_iff, List.map_map,
      show LaneReq.uid ∘ req = Prod.fst from funext uid]
    exact activeLanes_uids_nodup g nodup
  case lane =>
    obtain ⟨p, member, rfl⟩ := List.mem_map.1 (mem_lanes_newRequests.1 ⟨a, listed, here⟩)
    obtain ⟨lane, found, active⟩ := of_mem_activeLanes member
    rw [uid]
    exact ⟨lane, p.2, found, active, lanes p member⟩
  case every =>
    obtain ⟨a, listed, here⟩ := mem_lanes_newRequests.2
      (List.mem_map_of_mem (f := req) (mem_activeLanes lane found active))
    exact ⟨a, listed, _, here, uid (u, th)⟩

end

end Sys2Proof.Proofs
end

section
/-! PROOF of the statement on accumulator tiles, O25 (12 R296, R297). -/

namespace Sys2Proof.Proofs

open Sys2Proof.Machine Sys2Proof.Safety

/-! ### Forms that act once for a bundle (12 R297) -/

/-- The state with what the clause's checks use kept in the clause (12 R292). -/
def withReserved (s : State) (r : Option (Nat × List Nat)) : State := { s with cur := { s.cur with reserved := r } }

theorem keepReserved_cur (s : State) (b : Nat) : ∃ r, keepReserved s b = withReserved s r := by
  unfold keepReserved
  split <;> exact ⟨_, rfl⟩

theorem oncePerBundle_of_first {s : State} {f : FormA} {act : State → Thread → State × Status} {u : Nat} {th : Thread}
    {rest : List (Nat × Thread)} (first : activeLanes s f.x.guard = (u, th) :: rest) :
    oncePerBundle s f act
      = writeWord (act (keepReserved s th.block) th).1 f.x.guard f.dst
          fun _ _ => (act (keepReserved s th.block) th).2.word := by
  unfold oncePerBundle
  rw [first]
  exact eachLane_const_eq_writeWord _ _ _ _

section
variable {f : FormA} {s : State} {u : Nat} {th : Thread} {rest : List (Nat × Thread)}
  {act : State → Thread → State × Status}
  (nodup : s.cur.lanes.Nodup) (first : activeLanes s f.x.guard = (u, th) :: rest)
include nodup first

/-- A form that cannot act answers `BUSY` and takes nothing. -/
theorem oncePerBundle_refuses (busy : ∀ r, act (withReserved s r) th = (withReserved s r, .busy)) :
    let t := oncePerBundle s f act
    wordToLanes s f.x.guard f.dst 8 t ∧ t.clusters = s.clusters ∧ t.work.sync = s.work.sync := by
  obtain ⟨r, kept⟩ := keepReserved_cur s th.block
  intro t
  have acted : t = _ := oncePerBundle_of_first first
  rw [acted, kept, busy]
  exact ⟨writeWord_wordToLanes _ _ _ nodup rfl rfl rfl, rfl, rfl⟩

/-- A form that acts answers 0 over the state that it leaves. -/
theorem oncePerBundle_acts {after : State → State} {P : State → Prop}
    (done : ∀ r, act (withReserved s r) th = (after (withReserved s r), .done))
    (bundle : ∀ a, (after a).cur = a.cur ∧ (after a).work.threads = a.work.threads)
    (leaves : ∀ r, P (writeWord (after (withReserved s r)) f.x.guard f.dst fun _ _ => 0)) :
    let t := oncePerBundle s f act
    wordToLanes s f.x.guard f.dst 0 t ∧ P t := by
  obtain ⟨r, kept⟩ := keepReserved_cur s th.block
  intro t
  have acted : t = _ := oncePerBundle_of_first first
  obtain ⟨cur, threads⟩ := bundle (withReserved s r)
  rw [acted, kept, done]
  exact ⟨writeWord_wordToLanes _ _ _ nodup (by rw [cur]; rfl) (by rw [cur]; rfl) threads, leaves r⟩

end

theorem mem_maskTiles {mask : Word} {x : Nat} : x ∈ maskTiles mask ↔ x < 8 ∧ mask.getLsbD x = true := by
  rw [maskTiles, List.mem_filter, List.mem_range]

/-! ### Maps -/

theorem mget_merase_other {α : Type} (m : SMap α) {i j : Nat} (other : j ≠ i) : mget (merase m i) j = mget m j := by
  induction m with
  | nil => rfl
  | cons p r ih =>
    obtain ⟨k, v⟩ := p
    by_cases here : i = k
    · subst here
      simp [merase, mget, other]
    · simp [merase, mget, here, ih]

theorem mget_foldl_merase {α : Type} (xs : List Nat) {m : SMap α} (sorted : msorted m = true) (j : Nat) :
    mget (xs.foldl merase m) j = if j ∈ xs then none else mget m j := by
  induction xs generalizing m with
  | nil => simp
  | cons x xs ih =>
    rw [List.foldl_cons, ih (msorted_merase m x sorted), mget_merase m x j sorted]
    by_cases here : j = x <;> simp [here]

/-! ### Tiles taken (12 R297) -/

section
variable {ctx : Nat} {o : TileOwner} {c : Cluster}

theorem ownTile_owners (t x : Nat) :
    mget (ownTile ctx o c t).owners x = if x = t then some o else mget c.owners x := by
  unfold ownTile
  split
  next own => by_cases here : x = t <;> simp [here, own]
  next => exact mget_mset c.owners t x o

theorem ownTile_others {t x : Nat} (other : x ≠ t) :
    mget (ownTile ctx o c t).tiles x = mget c.tiles x ∧ mget (ownTile ctx o c t).owners x = mget c.owners x
    ∧ mget (ownTile ctx o c t).lastCtx x = mget c.lastCtx x := by
  refine ⟨?_, (ownTile_owners t x).trans (if_neg other), ?_⟩ <;> unfold ownTile <;> split
  · rfl
  · dsimp only
    split
    · rfl
    · exact mget_merase_other c.tiles other
  · rfl
  · exact mget_mset_other c.lastCtx ctx other

theorem ownTile_sorted (t : Nat) (sorted : msorted c.tiles = true) : msorted (ownTile ctx o c t).tiles = true := by
  unfold ownTile
  split
  · exact sorted
  · dsimp only
    split
    · exact sorted
    · exact msorted_merase c.tiles t sorted

/-- A tile that holds nothing holds nothing more after another is taken. -/
theorem ownTile_empty {x : Nat} (t : Nat) (sorted : msorted c.tiles = true) (empty : mget c.tiles x = none) :
    mget (ownTile ctx o c t).tiles x = none := by
  unfold ownTile
  split
  · exact empty
  · dsimp only
    split
    · exact empty
    · rw [mget_merase c.tiles t x sorted, empty, ite_self]

/-- A tile that nobody owns and another context had last is emptied as it is taken. -/
theorem ownTile_fresh {x : Nat} (sorted : msorted c.tiles = true) (free : mget c.owners x = none)
    (foreign : mget c.lastCtx x ≠ some ctx) : mget (ownTile ctx o c x).tiles x = none := by
  have taken : ¬ mget c.owners x = some o := by simp [free]
  simp only [ownTile, if_neg taken, if_neg foreign]
  rw [mget_merase c.tiles x x sorted, if_pos rfl]

theorem foldl_ownTile_owners (xs : List Nat) (x : Nat) :
    mget (xs.foldl (ownTile ctx o) c).owners x = if x ∈ xs then some o else mget c.owners x := by
  induction xs generalizing c with
  | nil => simp
  | cons t xs ih =>
    rw [List.foldl_cons, ih, ownTile_owners]
    by_cases here : x = t <;> simp [here]

theorem foldl_ownTile_tiles {xs : List Nat} {x : Nat} (apart : x ∉ xs) :
    mget (xs.foldl (ownTile ctx o) c).tiles x = mget c.tiles x := by
  induction xs generalizing c with
  | nil => rfl
  | cons t xs ih =>
    obtain ⟨tiles, -, -⟩ := ownTile_others (ctx := ctx) (o := o) (c := c) (List.ne_of_not_mem_cons apart)
    rw [List.foldl_cons, ih (List.not_mem_of_not_mem_cons apart), tiles]

theorem foldl_ownTile_empty (xs : List Nat) {x : Nat} (sorted : msorted c.tiles = true) (empty : mget c.tiles x = none) :
    mget (xs.foldl (ownTile ctx o) c).tiles x = none := by
  induction xs generalizing c with
  | nil => exact empty
  | cons t xs ih => exact ih (ownTile_sorted t sorted) (ownTile_empty t sorted empty)

theorem foldl_ownTile_fresh {xs : List Nat} {x : Nat} (listed : x ∈ xs) (sorted : msorted c.tiles = true)
    (free : mget c.owners x = none) (foreign : mget c.lastCtx x ≠ some ctx) :
    mget (xs.foldl (ownTile ctx o) c).tiles x = none := by
  induction xs generalizing c with
  | nil => cases listed
  | cons t xs ih =>
    by_cases here : x = t
    · subst here
      exact foldl_ownTile_empty xs (ownTile_sorted x sorted) (ownTile_fresh sorted free foreign)
    · obtain ⟨-, owners, last⟩ := ownTile_others (ctx := ctx) (o := o) (c := c) here
      exact ih ((List.mem_cons.1 listed).resolve_left here) (ownTile_sorted t sorted) (owners ▸ free) (last ▸ foreign)

end

/-! ### Poison of the tiles taken (22 R506) -/

/-- Poison is cleared and nothing else of the state changes. -/
def clearsPoison (s t : State) : Prop :=
  t = { s with mem := { s.mem with poisoned := t.mem.poisoned } } ∧ ∀ k ∈ t.mem.poisoned, k ∈ s.mem.poisoned

theorem clearTiles_clearsPoison (s : State) (cluster : Nat) (ts : List Nat) :
    clearsPoison s (clearTiles s cluster ts) := by
  unfold clearTiles
  split
  · exact ⟨rfl, fun _ listed => listed⟩
  · exact ⟨rfl, fun _ listed => (List.mem_filter.1 listed).1⟩

theorem clusterOf_clearTiles (s : State) (cluster : Nat) (ts : List Nat) (c : Nat) :
    clusterOf (clearTiles s cluster ts) c = clusterOf s c := by
  rw [(clearTiles_clearsPoison s cluster ts).1]
  rfl

theorem syncOf_clearTiles (s : State) (cluster : Nat) (ts : List Nat) (b : Nat) :
    syncOf (clearTiles s cluster ts) b = syncOf s b := by
  rw [(clearTiles_clearsPoison s cluster ts).1]
  rfl

theorem mem_freshTiles {c : Cluster} {ctx : Nat} {o : TileOwner} {ts : List Nat} {x : Nat} :
    x ∈ freshTiles c ctx o ts ↔ x ∈ ts ∧ mget c.owners x ≠ some o ∧ mget c.lastCtx x ≠ some ctx := by
  rw [freshTiles, List.mem_filter, Bool.and_eq_true, bne_iff_ne, bne_iff_ne]

/-- No pair of a tile that is cleared stays poisoned. -/
theorem clearTiles_unpoisons (s : State) {cluster x m k : Nat} {ts : List Nat} (cleared : x ∈ ts)
    (cluster_lt : cluster < 192) (x_lt : x < 8) (m_lt : m < 128) (k_lt : k < 128) :
    pairPoisoned (clearTiles s cluster ts) cluster x m k = false := by
  rw [pairPoisoned, isPoisoned, ← Bool.not_eq_true, List.contains_iff_mem]
  intro poisoned
  unfold clearTiles at poisoned
  split at poisoned
  next none => simp [List.isEmpty_iff.1 none] at poisoned
  next =>
    obtain ⟨-, kept⟩ := List.mem_filter.1 poisoned
    have tag : sectorKey (.tile cluster x) (tileSector cluster x m k) / 2 ^ 60 = 3 := by
      simp only [sectorKey, memTag, tileSector]
      omega
    have tile : sectorKey (.tile cluster x) (tileSector cluster x m k) % 2 ^ 60 / 4096 = 8 * cluster + x := by
      simp only [sectorKey, memTag, tileSector]
      omega
    rw [tag, tile] at kept
    have : ts.any (fun t => 8 * cluster + x == 8 * cluster + t) = true :=
      List.any_eq_true.2 ⟨x, cleared, beq_self_eq_true _⟩
    simp [this, memTag] at kept

/-! ### `RSV` (12 R297) -/

/-- The tiles or the entries that an `RSV` asks for cannot be had. -/
def reserveBusy (s : State) (b : Nat) (mask : Word) (n : Nat) : Prop :=
  (∃ x, x < 8 ∧ mask.getLsbD x = true
    ∧ ∃ w, mget (clusterOf s (clusterOfBlock s b)).owners x = some w ∧ w ≠ ownerOfBlock s b)
  ∨ 8 < (syncOf s b).entries + n ∨ clusterFree s (clusterOfBlock s b) < n

/-- Whether a tile with this owner is another's. -/
def ownedByOther (o : TileOwner) (w : Option TileOwner) : Bool :=
  match w with
  | none => false
  | some x => x != o

theorem ownedByOther_iff {o : TileOwner} {w : Option TileOwner} :
    ownedByOther o w = true ↔ ∃ x, w = some x ∧ x ≠ o := by
  cases w <;> simp [ownedByOther]

/-- The state in which a block has taken tiles and entries. -/
def tilesTaken (s : State) (b : Nat) (tiles : List Nat) (n prio : Nat) : State :=
  let c := clusterOfBlock s b
  let o := ownerOfBlock s b
  modSync (modCluster (clearTiles s c (freshTiles (clusterOf s c) (ctxOfBlock s b) o tiles)) c fun x =>
    tiles.foldl (ownTile (ctxOfBlock s b) o) x) b fun k => { k with entries := k.entries + n, prio := prio }

theorem reserve_eq (s : State) (b : Nat) (tiles : List Nat) (n prio : Nat) :
    reserve s b tiles n prio =
      if tiles.any (fun t => ownedByOther (ownerOfBlock s b) (mget (clusterOf s (clusterOfBlock s b)).owners t))
          || decide (8 < (syncOf s b).entries + n) || decide (clusterFree s (clusterOfBlock s b) < n) then (s, .busy)
      else (tilesTaken s b tiles n prio, .done) := rfl

theorem reserveBusy_iff {s : State} {b : Nat} {mask : Word} {n : Nat} :
    ((maskTiles mask).any (fun t => ownedByOther (ownerOfBlock s b) (mget (clusterOf s (clusterOfBlock s b)).owners t))
      || decide (8 < (syncOf s b).entries + n) || decide (clusterFree s (clusterOfBlock s b) < n)) = true
      ↔ reserveBusy s b mask n := by
  simp only [reserveBusy, Bool.or_eq_true, List.any_eq_true, mem_maskTiles, ownedByOther_iff, decide_eq_true_eq, and_assoc,
    or_assoc]

theorem reserve_of_busy {s : State} {b : Nat} {mask : Word} {n : Nat} (busy : reserveBusy s b mask n) (prio : Nat) :
    reserve s b (maskTiles mask) n prio = (s, .busy) := by
  rw [reserve_eq, if_pos (reserveBusy_iff.2 busy)]

theorem reserve_of_free {s : State} {b : Nat} {mask : Word} {n : Nat} (free : ¬ reserveBusy s b mask n) (prio : Nat) :
    reserve s b (maskTiles mask) n prio = (tilesTaken s b (maskTiles mask) n prio, .done) := by
  rw [reserve_eq, if_neg (mt reserveBusy_iff.1 free)]

/-- What the taking of tiles and entries leaves. -/
def reserves (s : State) (b : Nat) (mask : Word) (n prio : Nat) (t : State) : Prop :=
  let c := clusterOfBlock s b
  (∀ x, x < 8 → mget (clusterOf t c).owners x =
      if mask.getLsbD x = true then some (ownerOfBlock s b) else mget (clusterOf s c).owners x)
  ∧ (∀ x, x < 8 → mask.getLsbD x = false → mget (clusterOf t c).tiles x = mget (clusterOf s c).tiles x)
  ∧ (∀ x, x < 8 → mask.getLsbD x = true → mget (clusterOf s c).owners x = none →
      mget (clusterOf s c).lastCtx x ≠ some (ctxOfBlock s b) → msorted (clusterOf s c).tiles = true →
      mget (clusterOf t c).tiles x = none)
  ∧ (∀ x m k, c < 192 → x < 8 → m < 128 → k < 128 → mask.getLsbD x = true →
      mget (clusterOf s c).owners x = none →
      mget (clusterOf s c).lastCtx x ≠ some (ctxOfBlock s b) → pairPoisoned t c x m k = false)
  ∧ (syncOf t b).entries = (syncOf s b).entries + n ∧ (syncOf t b).prio = prio
  ∧ t.mem = { s.mem with poisoned := t.mem.poisoned } ∧ (∀ k ∈ t.mem.poisoned, k ∈ s.mem.poisoned)

theorem tilesTaken_reserves (s : State) (b : Nat) (mask : Word) (n prio : Nat) :
    reserves s b mask n prio (tilesTaken s b (maskTiles mask) n prio) := by
  unfold reserves
  extract_lets c
  obtain ⟨cleared, kept⟩ := clearTiles_clearsPoison s c
    (freshTiles (clusterOf s c) (ctxOfBlock s b) (ownerOfBlock s b) (maskTiles mask))
  have cluster : clusterOf (tilesTaken s b (maskTiles mask) n prio) c
      = (maskTiles mask).foldl (ownTile (ctxOfBlock s b) (ownerOfBlock s b)) (clusterOf s c) := by
    simp only [tilesTaken, clusterOf_modSync, clusterOf_modCluster, clusterOf_clearTiles, if_pos, c]
  have counted : syncOf (tilesTaken s b (maskTiles mask) n prio) b
      = { syncOf s b with entries := (syncOf s b).entries + n, prio := prio } := by
    simp only [tilesTaken, syncOf_modSync, syncOf_modCluster, syncOf_clearTiles, if_pos]
  rw [cluster, counted]
  refine ⟨fun x small => ?owners, fun x _ off => foldl_ownTile_tiles fun listed => ?apart,
    fun x small on free foreign sorted => foldl_ownTile_fresh (mem_maskTiles.2 ⟨small, on⟩) sorted free foreign,
    fun x m k few small row column on free foreign => clearTiles_unpoisons s ?fresh few small row column, rfl, rfl,
    congrArg State.mem cleared, kept⟩
  case owners => simp only [foldl_ownTile_owners, mem_maskTiles, small, true_and]
  case apart => exact Bool.false_ne_true (off.symm.trans (mem_maskTiles.1 listed).2)
  case fresh =>
    exact mem_freshTiles.2 ⟨mem_maskTiles.2 ⟨small, on⟩, ne_of_eq_of_ne free (Option.some_ne_none _).symm, foreign⟩

theorem tilesTaken_bundle (s : State) (b : Nat) (tiles : List Nat) (n prio : Nat) :
    (tilesTaken s b tiles n prio).cur = s.cur ∧ (tilesTaken s b tiles n prio).work.threads = s.work.threads := by
  unfold tilesTaken
  extract_lets c o
  obtain ⟨cleared, -⟩ := clearTiles_clearsPoison s c (freshTiles (clusterOf s c) (ctxOfBlock s b) o tiles)
  rw [cleared]
  exact ⟨rfl, rfl⟩

/-- `RSV` answers `BUSY`, or takes what it asks for. -/
theorem rsv_outcome {f : FormA} {s : State} {u : Nat} {th : Thread} {rest : List (Nat × Thread)}
    (nodup : s.cur.lanes.Nodup) (first : activeLanes s f.x.guard = (u, th) :: rest) :
    let mask := srcWord th .a f.a
    let n := (srcWord th .b f.b).toNat
    (reserveBusy s th.block mask n → answers (.rsv f) s fun t =>
      wordToLanes s f.x.guard f.dst 8 t ∧ t.clusters = s.clusters ∧ t.work.sync = s.work.sync)
    ∧ (¬ reserveBusy s th.block mask n → answers (.rsv f) s fun t =>
      wordToLanes s f.x.guard f.dst 0 t ∧ reserves s th.block mask n (f.field 1 0) t) := by
  intro mask n
  refine ⟨fun busy => ⟨_, rfl, oncePerBundle_refuses nodup first fun r =>
      reserve_of_busy (s := withReserved s r) busy _⟩,
    fun free => ⟨_, rfl, oncePerBundle_acts nodup first
      (after := fun a => tilesTaken a th.block (maskTiles mask) n (f.field 1 0))
      (fun r => reserve_of_free (s := withReserved s r) free _) (fun a => tilesTaken_bundle a _ _ _ _) fun r => ?_⟩⟩
  exact tilesTaken_reserves (withReserved s r) th.block mask n (f.field 1 0)

/-! ### `RLS` (12 R297) -/

/-- The block's owner holds this tile, and the mask names it. -/
def releasable (s : State) (b : Nat) (mask : Word) (x : Nat) : Prop :=
  x < 8 ∧ mask.getLsbD x = true ∧ mget (clusterOf s (clusterOfBlock s b)).owners x = some (ownerOfBlock s b)

/-- A command still uses a tile or an entry that an `RLS` gives back. -/
def releaseBusy (s : State) (b : Nat) (mask : Word) (n : Nat) : Prop :=
  (∃ x, releasable s b mask x ∧ ∃ y ∈ ownerBlocks s b, ∃ m ∈ commandsOf s y, x ∈ m.tiles)
  ∨ (syncOf s b).entries - min n (syncOf s b).entries < (commandsOf s b).length

/-- The tiles that an `RLS` gives back. -/
def tilesReleased (s : State) (b : Nat) (mask : Word) : List Nat :=
  (maskTiles mask).filter fun t => (tilesOwned s b).contains t

theorem mem_tilesReleased {s : State} {b : Nat} {mask : Word} {x : Nat} :
    x ∈ tilesReleased s b mask ↔ releasable s b mask x := by
  simp only [tilesReleased, releasable, tilesOwned, List.mem_filter, mem_maskTiles, List.contains_iff_mem, List.mem_range,
    beq_iff_eq]
  tauto

/-- The state in which tiles and entries have been given back. -/
def tilesGiven (s : State) (b : Nat) (mask : Word) (n : Nat) : State :=
  modSync (modCluster s (clusterOfBlock s b) fun x => { x with owners := (tilesReleased s b mask).foldl merase x.owners }) b
    fun y => { y with entries := (syncOf s b).entries - min n (syncOf s b).entries }

theorem release_eq (s : State) (b : Nat) (mask : Word) (n : Nat) :
    release s b (maskTiles mask) n =
      if (tilesReleased s b mask).any (fun t =>
            ((ownerBlocks s b).flatMap (commandsOf s)).any fun m => m.tiles.contains t)
          || decide ((syncOf s b).entries - min n (syncOf s b).entries < (commandsOf s b).length) then (s, .busy)
      else (tilesGiven s b mask n, .done) := rfl

theorem releaseBusy_iff {s : State} {b : Nat} {mask : Word} {n : Nat} :
    ((tilesReleased s b mask).any (fun t => ((ownerBlocks s b).flatMap (commandsOf s)).any fun m => m.tiles.contains t)
      || decide ((syncOf s b).entries - min n (syncOf s b).entries < (commandsOf s b).length)) = true
      ↔ releaseBusy s b mask n := by
  have used (x : Nat) : (∃ m, (∃ y, y ∈ ownerBlocks s b ∧ m ∈ commandsOf s y) ∧ x ∈ m.tiles)
      ↔ ∃ y ∈ ownerBlocks s b, ∃ m ∈ commandsOf s y, x ∈ m.tiles :=
    ⟨fun ⟨m, ⟨y, own, listed⟩, tile⟩ => ⟨y, own, m, listed, tile⟩,
      fun ⟨y, own, m, listed, tile⟩ => ⟨m, ⟨y, own, listed⟩, tile⟩⟩
  simp only [releaseBusy, Bool.or_eq_true, List.any_eq_true, mem_tilesReleased, List.mem_flatMap, List.contains_iff_mem,
    decide_eq_true_eq, used]

theorem release_of_busy {s : State} {b : Nat} {mask : Word} {n : Nat} (busy : releaseBusy s b mask n) :
    release s b (maskTiles mask) n = (s, .busy) := by
  rw [release_eq, if_pos (releaseBusy_iff.2 busy)]

theorem release_of_free {s : State} {b : Nat} {mask : Word} {n : Nat} (free : ¬ releaseBusy s b mask n) :
    release s b (maskTiles mask) n = (tilesGiven s b mask n, .done) := by
  rw [release_eq, if_neg (mt releaseBusy_iff.1 free)]

/-- What the giving back of tiles and entries leaves. -/
def releases (s : State) (b : Nat) (mask : Word) (n : Nat) (t : State) : Prop :=
  let c := clusterOfBlock s b
  (∀ x, releasable s b mask x → mget (clusterOf t c).owners x = none)
  ∧ (∀ x, ¬ releasable s b mask x → mget (clusterOf t c).owners x = mget (clusterOf s c).owners x)
  ∧ (syncOf t b).entries = (syncOf s b).entries - min n (syncOf s b).entries ∧ t.mem = s.mem

theorem tilesGiven_releases {s : State} {b : Nat} (mask : Word) (n : Nat)
    (sorted : msorted (clusterOf s (clusterOfBlock s b)).owners = true) :
    releases s b mask n (tilesGiven s b mask n) := by
  unfold releases
  extract_lets c
  have owners (x : Nat) : mget (clusterOf (tilesGiven s b mask n) c).owners x
      = if x ∈ tilesReleased s b mask then none else mget (clusterOf s c).owners x := by
    simp only [tilesGiven, clusterOf_modSync, clusterOf_modCluster, if_pos, c]
    exact mget_foldl_merase _ sorted x
  have counted : (syncOf (tilesGiven s b mask n) b).entries = (syncOf s b).entries - min n (syncOf s b).entries := by
    simp only [tilesGiven, syncOf_modSync, if_pos]
  exact ⟨fun x mine => (owners x).trans (if_pos (mem_tilesReleased.2 mine)),
    fun x other => (owners x).trans (if_neg (mt mem_tilesReleased.1 other)), counted, rfl⟩

/-- `RLS` answers `BUSY`, or gives back what it names. -/
theorem rls_outcome {f : FormA} {s : State} {u : Nat} {th : Thread} {rest : List (Nat × Thread)}
    (nodup : s.cur.lanes.Nodup) (first : activeLanes s f.x.guard = (u, th) :: rest) :
    let mask := srcWord th .a f.a
    let n := (srcWord th .b f.b).toNat
    (releaseBusy s th.block mask n → answers (.rls f) s fun t =>
      wordToLanes s f.x.guard f.dst 8 t ∧ t.clusters = s.clusters ∧ t.work.sync = s.work.sync)
    ∧ (¬ releaseBusy s th.block mask n → msorted (clusterOf s (clusterOfBlock s th.block)).owners = true →
      answers (.rls f) s fun t => wordToLanes s f.x.guard f.dst 0 t ∧ releases s th.block mask n t) := by
  intro mask n
  refine ⟨fun busy => ⟨_, rfl, oncePerBundle_refuses nodup first fun r =>
      release_of_busy (s := withReserved s r) busy⟩,
    fun free sorted => ⟨_, rfl, oncePerBundle_acts nodup first (after := fun a => tilesGiven a th.block mask n)
      (fun r => release_of_free (s := withReserved s r) free) (fun _ => ⟨rfl, rfl⟩) fun r => ?_⟩⟩
  exact tilesGiven_releases (s := withReserved s r) mask n sorted

/-! ### `ACCRD` (12 R296) -/

/-- The read of a lane's `ACCRD`. -/
def tileRead (s : State) (f : FormA) (p : Nat × Thread) : LaneReq :=
  { uid := p.1, mem := .tile (clusterOfCore s.cur.core) (stepTile p.2.ctl (f.field 6 4))
    addrs := readPosition f (srcWord p.2 .a f.a)
    dst := match f.dst with
      | .reg n => stepReg p.2.ctl .dst n.toNat
      | .suppress => 0 }

/-- The common part of the requests of an `ACCRD`. -/
def tileAccess (s : State) (f : FormA) : Access :=
  { id := 0, kind := .load, space := .globalG, core := s.cur.core, ctx := ctxOfBlock s s.cur.block, block := s.cur.block
    ctr := f.x.ctr.toNat }

theorem execAccrd_of_owned {f : FormA} {s : State}
    (owned : allLanes s f.x.guard fun th => stepTile th.ctl (f.field 6 4) ∈ ownedAtIssue s th.block) :
    exec (.accrd f) s
      = .next (issueRequests s (tileAccess s f) ((activeLanes s f.x.guard).map (tileRead s f))) := by
  have held : ((activeLanes s f.x.guard).all fun p =>
      (ownedAtIssue s p.2.block).contains (stepTile p.2.ctl (f.field 6 4))) = true := by
    refine List.all_eq_true.2 fun p listed => List.contains_iff_mem.2 ?_
    obtain ⟨lane, found, active⟩ := of_mem_activeLanes listed
    exact owned p.1 p.2 lane found active
  have arm : exec (.accrd f) s = execAccrd f s := rfl
  rw [arm, execAccrd]
  simp only [held, Bool.not_true, Bool.false_eq_true, if_false]
  rfl

/-! ### O25 -/

/-- Settles O25: `RSV` and `RLS` by whether they are busy, `ACCRD` by the requests that it puts in flight. -/
theorem tilesAndReads : Obligations.TilesAndReads := by
  refine ⟨⟨?rsv, ?accrd⟩, ?rls⟩
  case rsv =>
    intro f s u th rest _ nodup first
    exact rsv_outcome nodup first
  case accrd =>
    intro f s nodup owned
    exact ⟨_, execAccrd_of_owned owned, issueRequests_putsInFlight nodup (fun _ => rfl)
      (fun _ _ _ => ⟨rfl, rfl, rfl, rfl, rfl, rfl⟩) fun _ _ => ⟨rfl, rfl, rfl⟩⟩
  case rls =>
    intro f s u th rest _ nodup first
    exact rls_outcome nodup first

end Sys2Proof.Proofs
end

section
/-! PROOF of the statement on message queues, O37: `QSEND` and `QRECV` on the cores and the Coachman (13 R306, R307, R325). -/

namespace Sys2Proof.Proofs

open Sys2Proof.Machine Sys2Proof.Safety

/-! ### The Coachman's own results (14 R334) -/

theorem modCoach_coachPuts (a : State) (core j : Nat) (d : Dst) (x : DWord) :
    coachPuts a core j d x (modCoach a core fun c => c.put j d x) := by
  have here : coachOf (modCoach a core fun c => c.put j d x) core = (coachOf a core).put j d x := by simp
  refine ⟨fun m => ?_, fun k => ?_, ?_, fun h other => by simp [other], rfl⟩
  · rw [here, ← coach_get_set]
    cases d <;> rfl
  · rw [here]
    cases d <;> simp only [Coach.put, Coach.set, Coach.setLatch, mgetD, mget_mset] <;> split <;> rfl
  · rw [here]
    cases d <;> rfl

theorem modCoach_coachKeeps (a : State) (core j : Nat) (d : Dst) :
    coachKeeps a core j d (modCoach a core fun c => c.skip j d) := by
  have here : coachOf (modCoach a core fun c => c.skip j d) core = (coachOf a core).skip j d := by simp
  refine ⟨fun m => ?_, fun k => ?_, ?_, fun h other => by simp [other], rfl⟩
  · rw [here]
    cases d <;> rfl
  · rw [here]
    cases d <;> simp only [Coach.skip, Coach.setLatch, mgetD, mget_mset] <;> split <;> rfl
  · rw [here]
    cases d <;> rfl

/-- A further m register written at the end of a Coachman's wait. -/
theorem coachOf_endCoachWait_set (s : State) (core : Nat) (w : Wait) (st : Status) (val : DWord) (n : Nat) (y : DWord)
    (h : Nat) :
    coachOf (endCoachWait s core w st val fun c => c.set n y) h
      = if h = core then (coachOf (endCoachWait s core w st val id) core).set n y
        else coachOf (endCoachWait s core w st val id) h := by
  unfold endCoachWait
  extract_lets c e s1 s2
  cases e.2.2 with
  | none =>
    simp only [coachOf_countTimeout, s1, s2, coachOf_modCoach, if_true]
    split <;> rfl
  | some k =>
    simp only [coachOf_coachEscalate, coachOf_countTimeout, s1, s2, coachOf_modCoach, if_true]
    split <;> rfl

theorem coachOf_endCoachAtIssue_set (s : State) (d : Dst) (x : Deadline) (esc : Bool) (st : Status) (val : DWord)
    (n : Nat) (y : DWord) (h : Nat) :
    coachOf (endCoachAtIssue s d x esc st val fun c => c.set n y) h
      = if h = s.cur.core then (coachOf (endCoachAtIssue s d x esc st val id) s.cur.core).set n y
        else coachOf (endCoachAtIssue s d x esc st val id) h := by
  simp only [endCoachAtIssue, coachOf_modCoach, coachOf_endCoachWait_set, if_true]
  by_cases here : h = s.cur.core
  · simp only [here, if_true]
    generalize coachOf (endCoachWait s s.cur.core _ st val id) s.cur.core = c
    have same : (c.set n y).running = c.running := rfl
    rw [same]
    split <;> rfl
  · simp only [if_neg here]

/-- A wait of the Coachman that ends at issue and writes a further m register. -/
theorem endCoachAtIssue_coachEnds_set (s : State) (d : Dst) (x : Deadline) (esc : Bool) (st : Status) (val : DWord)
    (n : Nat) (y : DWord) :
    coachEnds s s.cur.core d st val (some (n, y)) (endCoachAtIssue s d x esc st val fun c => c.set n y) := by
  obtain ⟨regs, status, wait, others⟩ := endCoachAtIssue_coachEnds s d x esc st val
  have here := coachOf_endCoachAtIssue_set s d x esc st val n y s.cur.core
  rw [if_pos rfl] at here
  refine ⟨fun m => ?_, by rw [here]; exact status, by rw [here]; exact wait, fun h other => ?_⟩
  · rw [here]
    simp only [Coach.get, Coach.set, mgetD, mget_mset]
    by_cases further : m = n
    · simp only [if_pos further, Option.getD_some]
    · simp only [if_neg further]
      exact regs m
  · rw [coachOf_endCoachAtIssue_set, if_neg other]
    exact others h other

/-! ### Conditions that hold of every lane -/

theorem activeLanes_any_le_of_allLanes {s : State} {g : Guard} {n : Nat} {p : Thread → Nat}
    (small : allLanes s g fun t => p t < n) : ((activeLanes s g).any fun q => decide (n ≤ p q.2)) = false := by
  refine List.any_eq_false.2 fun q listed => ?_
  obtain ⟨lane, found, active⟩ := of_mem_activeLanes listed
  simpa using small q.1 q.2 lane found active

theorem underQuota_of_fits {s t : State} {ctx : Nat} (fits : quotaBreach s t ctx = false) : underQuota s ctx t = t := by
  simp [underQuota, fits]

/-! ### `QSEND` (13 R325) -/

/-- The state in which the lanes of a `QSEND` send: with a release, after what they wrote before (R325). -/
def sendStart (f : FormA) (s : State) : State := if f.bit 0 then holdUntilSettled s f.x.guard .dev else s

theorem sendStart_cur (f : FormA) (s : State) :
    (sendStart f s).cur.lanes = s.cur.lanes ∧ (sendStart f s).cur.pos = s.cur.pos := by
  unfold sendStart
  split <;> exact ⟨rfl, rfl⟩

/-- Lanes that act in turn over a state that has the clause's lanes and position. -/
theorem eachLane_inTurn_from {s a : State} (g : Guard) (d : Dst) (act : State → Nat → Thread → State × Word)
    (same : a.cur.lanes = s.cur.lanes ∧ a.cur.pos = s.cur.pos) : inTurn s g d act a (eachLane a g d act) := by
  obtain ⟨lanes, pos⟩ := same
  have steps : laneStep s g d act = laneStep a g d act := by
    funext b u c
    simp only [laneStep, pos]
  rw [inTurn, steps, ← lanes]
  exact eachLane_inTurn a g d act

theorem execQsend_core {f : FormA} {s : State} (agent : s.cur.agent = .core)
    (small : allLanes s f.x.guard fun t => (srcWord t .a f.a).toNat < 64) :
    exec (.qsend f) s = .next (underQuota s (ctxOfBlock s s.cur.block)
      (eachLane (sendStart f s) f.x.guard f.dst (qsendLane f))) := by
  have arm : exec (.qsend f) s = execQsend f s := rfl
  simp only [arm, execQsend, agent, activeLanes_any_le_of_allLanes small, Bool.false_eq_true, if_false]
  rfl

/-- What the Coachman sends. -/
def coachSends (f : FormA) (s : State) (c : Coach) : State :=
  sendMsg s (ctxOfBlock s s.cur.block) (srcCoach c f.a).toNat (srcCoach c f.b)

theorem execQsend_coachman {f : FormA} {s : State} (agent : s.cur.agent = .coachman)
    (small : (srcCoach (coachOf s s.cur.core) f.a).toNat < 64) :
    exec (.qsend f) s = .next (underQuota s (ctxOfBlock s s.cur.block)
      (coachAct s f.x.guard f.dst fun c => (coachSends f s c, 0))) := by
  have arm : exec (.qsend f) s = execQsend f s := rfl
  simp only [arm, execQsend, agent, Nat.not_le.2 small, decide_false, Bool.and_false, Bool.false_eq_true, if_false]
  rfl

/-- A form of the Coachman that sends under the quota of R307. -/
theorem coachForm_of_underQuota {i : Instr} {g : Guard} {d : Dst} {pre : State → Prop}
    {act : State → Coach → State × DWord}
    (arm : ∀ s, s.cur.agent = .coachman → pre s → exec i s
      = .next (underQuota s (ctxOfBlock s s.cur.block) (coachAct s g d (act s)))) :
    coachForm i g d pre (fun s t => quotaBreach s t (ctxOfBlock s s.cur.block) = false) act := by
  intro s agent holds c
  split
  next on =>
    intro fits
    have acted : coachAct s g d (act s)
        = modCoach (act s c).1 s.cur.core fun x => x.put (latchIndex s) d (act s c).2 := if_pos on
    have puts := modCoach_coachPuts (act s c).1 s.cur.core (latchIndex s) d (act s c).2
    exact ⟨_, by rw [arm s agent holds, acted, underQuota_of_fits (fits _ puts)], puts⟩
  next off =>
    intro fits
    have acted : coachAct s g d (act s) = modCoach s s.cur.core fun x => x.skip (latchIndex s) d := if_neg off
    have keeps := modCoach_coachKeeps s s.cur.core (latchIndex s) d
    exact ⟨_, by rw [arm s agent holds, acted, underQuota_of_fits (fits _ keeps)], keeps⟩

/-! ### `QRECV` (13 R325) -/

theorem queueReady_iff (s : State) (ctx q : Nat) :
    queueReady s ctx q = true ↔ (queueWaiters s ctx q).length < (msgQueue s ctx q).all.length := decide_eq_true_iff

/-- The state in which a receiver has joined the waiters of its queue. -/
def joinQueue (s : State) (ctx q : Nat) : State :=
  modMsg s ctx q fun k => { k with turns := (msgQueue s ctx q).turns + 1 }

theorem execQrecv_core {f : FormW} {s : State} (agent : s.cur.agent = .core)
    (small : allLanes s f.x.guard fun t => (srcWord t .a f.a).toNat < 64) :
    exec (.qrecv f) s = .next ((activeLanes s f.x.guard).foldl (fun acc p => qrecvLane f acc p.1 p.2) s) := by
  have arm : exec (.qrecv f) s = execQrecv f s := rfl
  simp only [arm, execQrecv, agent, activeLanes_any_le_of_allLanes small, Bool.false_eq_true, if_false]

theorem execQrecv_skips {f : FormW} {s : State} (agent : s.cur.agent = .coachman)
    (off : guardCoach f.x.guard (coachOf s s.cur.core) = false) : exec (.qrecv f) s = .next s := by
  have arm : exec (.qrecv f) s = execQrecv f s := rfl
  simp only [arm, execQrecv, agent, off, Bool.not_false, if_true]

section
variable {f : FormW} {a : State} {t : Thread}

theorem qrecvLane_of_ready (u : Nat) (ready : queueReady a (ctxOfBlock a t.block) (srcWord t .a f.a).toNat = true) :
    endsNow (takeMsg a (ctxOfBlock a t.block) (srcWord t .a f.a).toNat) u f .done 0 false
      (gotEntry a.dtime (f.field 9 2) (queueHead a (ctxOfBlock a t.block) (srcWord t .a f.a).toNat) (f.field 0 0 == 1))
      (qrecvLane f a u t) := by
  have lane : qrecvLane f a u t = endAtIssue (takeMsg a (ctxOfBlock a t.block) (srcWord t .a f.a).toNat) u f.dst
      f.x.deadline f.x.esc .done 0 false (gotEntry a.dtime (f.field 9 2)
        (queueHead a (ctxOfBlock a t.block) (srcWord t .a f.a).toNat) (f.field 0 0 == 1)) := if_pos ready
  rw [lane]
  exact endAtIssue_endsNow _ u f .done 0 false _

theorem qrecvLane_of_unready (u : Nat)
    (unready : ¬ queueReady a (ctxOfBlock a t.block) (srcWord t .a f.a).toNat = true) :
    qrecvLane f a u t = blockOrExpire (joinQueue a (ctxOfBlock a t.block) (srcWord t .a f.a).toNat) u t f.dst
      f.x.deadline f.x.esc (.queue (ctxOfBlock a t.block) (srcWord t .a f.a).toNat (f.field 0 0 == 1) (f.field 9 2)
        (msgQueue a (ctxOfBlock a t.block) (srcWord t .a f.a).toNat).turns) .timeout 1 := if_neg unready

end

section
variable {f : FormW} {s : State} {q : Nat} (agent : s.cur.agent = .coachman)
  (on : guardCoach f.x.guard (coachOf s s.cur.core) = true)
  (names : (srcCoach (coachOf s s.cur.core) f.a).toNat = q) (small : q < 64)
include agent on names small

theorem execQrecv_of_ready (ready : queueReady s (ctxOfBlock s s.cur.block) q = true) :
    exec (.qrecv f) s = .next (endCoachAtIssue (takeMsg s (ctxOfBlock s s.cur.block) q) f.dst f.x.deadline f.x.esc
      .done 0 fun c => c.set (f.field 9 2) (queueHead s (ctxOfBlock s s.cur.block) q)) := by
  have arm : exec (.qrecv f) s = execQrecv f s := rfl
  simp only [arm, execQrecv, agent, on, names, Nat.not_le.2 small, ready, Bool.not_true, Bool.false_eq_true, if_false,
    if_true]
  rfl

theorem execQrecv_of_unready (unready : ¬ queueReady s (ctxOfBlock s s.cur.block) q = true) :
    exec (.qrecv f) s = .next (blockCoach (joinQueue s (ctxOfBlock s s.cur.block) q) f.dst f.x.deadline f.x.esc
      (.queue (ctxOfBlock s s.cur.block) q (f.field 0 0 == 1) (f.field 9 2)
        (msgQueue s (ctxOfBlock s s.cur.block) q).turns) .timeout 1) := by
  have arm : exec (.qrecv f) s = execQrecv f s := rfl
  simp only [arm, execQrecv, agent, on, names, Nat.not_le.2 small, if_neg unready, Bool.not_true, Bool.false_eq_true,
    if_false]
  rfl

end

/-- R325, 11 R257: what a receiver's registers get, in the terms of the statement. -/
theorem gotEntry_eq (now data : Nat) (x : DWord) (acq : Nat) :
    gotEntry now data x (acq == 1) = fun r =>
      let r1 := r.setPair data x
      if acq = 1 then { r1 with floor := max r1.floor now } else r1 := by
  funext r
  simp only [gotEntry, beq_iff_eq]

/-- Settles O37: lanes send in turn under the quota; a receiver takes the head or joins the waiters of its queue. -/
theorem messageQueues : Obligations.MessageQueues := by
  refine ⟨fun f s agent small fits => ?sends, fun f => ?coachSends, fun f s agent small => ?receives,
    fun f s agent small => ?coachReceives⟩
  case sends =>
    have turns := eachLane_inTurn_from f.x.guard f.dst (qsendLane f) (sendStart_cur f s)
    exact ⟨_, by rw [execQsend_core agent small, underQuota_of_fits (fits _ turns)], turns⟩
  case coachSends =>
    exact coachForm_of_underQuota (act := fun s c => (coachSends f s c, 0)) fun s agent small =>
      execQsend_coachman agent small
  case receives =>
    refine ⟨_, execQrecv_core agent small, chain_foldl (fun a p => ?_) _ s⟩
    by_cases ready : queueReady a (ctxOfBlock a p.2.block) (srcWord p.2 .a f.a).toNat = true
    · have received := qrecvLane_of_ready p.1 ready
      rw [gotEntry_eq] at received
      simp only [if_pos ((queueReady_iff ..).1 ready)]
      exact received
    · rw [qrecvLane_of_unready p.1 ready]
      simp only [if_neg (mt (queueReady_iff ..).2 ready)]
      exact blockOrExpire_ends_or_blocks (joinQueue a (ctxOfBlock a p.2.block) (srcWord p.2 .a f.a).toNat) p.1 p.2 f _
        .timeout 1
  case coachReceives =>
    by_cases on : guardCoach f.x.guard (coachOf s s.cur.core) = true
    case neg => exact ⟨s, execQrecv_skips agent (Bool.eq_false_iff.2 on), by simp only [if_neg on]⟩
    by_cases ready : queueReady s (ctxOfBlock s s.cur.block) (srcCoach (coachOf s s.cur.core) f.a).toNat = true
    · refine ⟨_, execQrecv_of_ready agent on rfl (small on) ready, ?_⟩
      simp only [if_pos on, if_pos ((queueReady_iff ..).1 ready)]
      exact endCoachAtIssue_coachEnds_set (takeMsg s (ctxOfBlock s s.cur.block) _) f.dst _ _ .done 0 _ _
    · refine ⟨_, execQrecv_of_unready agent on rfl (small on) ready, ?_⟩
      simp only [if_pos on, if_neg (mt (queueReady_iff ..).2 ready)]
      exact blockCoach_ends_or_blocks (joinQueue s (ctxOfBlock s s.cur.block) _) f _ .timeout 1

end Sys2Proof.Proofs
end

section
/-! PROOF of the statement on levels, O38: `SPAWN`, `CANCEL` and `CMPL` (13 R326 to R328). -/

namespace Sys2Proof.Proofs

open Sys2Proof.Machine Sys2Proof.Safety

/-! ### Lanes in turn, each of which may fault (03 R61) -/

section
variable (s : State) (g : Guard) (d : Dst)

/-- One lane of a position whose lanes act in turn. -/
def laneActs (act : State → Nat → Thread → State × Word) (a : State) (u : Nat) : State :=
  match threadOf a u with
  | none => a
  | some t =>
    if guardOn g t.regs then modThread (act a u t).1 u (putWord (latchIndex s) d (act a u t).2)
    else modThread a u (skipWord (latchIndex s) d)

/-- One lane of a position whose lanes act in turn and may fault. -/
def laneChecked (f : State → Nat → Thread → Except FaultCode (State × Word)) (q : Except FaultCode State) (u : Nat) :
    Except FaultCode State :=
  match q with
  | .error c => .error c
  | .ok a =>
    match threadOf a u with
    | none => .ok a
    | some t =>
      if guardOn g t.regs then
        match f a u t with
        | .error c => .error c
        | .ok q => .ok (modThread q.1 u (putWord (latchIndex s) d q.2))
      else .ok (modThread a u (skipWord (latchIndex s) d))

theorem eachLane_eq_foldl (act : State → Nat → Thread → State × Word) :
    eachLane s g d act = s.cur.lanes.foldl (laneActs s g d act) s := rfl

theorem eachLaneChecked_eq_foldl (f : State → Nat → Thread → Except FaultCode (State × Word)) :
    eachLaneChecked s g d f = s.cur.lanes.foldl (laneChecked s g d f) (.ok s) := rfl

variable {s g d} {act : State → Nat → Thread → State × Word}
  {f : State → Nat → Thread → Except FaultCode (State × Word)}

theorem laneActs_laneStep (a : State) (u : Nat) : laneStep s g d act a u (laneActs s g d act a u) := by
  unfold laneStep laneActs
  cases threadOf a u with
  | none => rfl
  | some th =>
    by_cases active : guardOn g th.regs = true
    · simp only [if_pos active]
      exact modThread_putsWord _ u _ d _
    · simp only [if_neg active]
      exact modThread_keepsWord a u _ d

theorem laneChecked_of_ok {a : State} {u : Nat}
    (passes : ∀ th, threadOf a u = some th → guardOn g th.regs = true → f a u th = .ok (act a u th)) :
    laneChecked s g d f (.ok a) u = .ok (laneActs s g d act a u) := by
  unfold laneChecked laneActs
  cases found : threadOf a u with
  | none => simp only [found]
  | some th =>
    by_cases active : guardOn g th.regs = true
    · simp only [found, if_pos active, passes th found active]
    · simp only [found, if_neg active]

/-- Where no lane faults on the state that the lanes before it left, the lanes act in turn. -/
theorem foldl_laneChecked_of_ok {us : List Nat} {a : State}
    (passes : ∀ xs u ys m, us = xs ++ u :: ys → chain (laneStep s g d act) xs a m → ∀ th, threadOf m u = some th →
      guardOn g th.regs = true → f m u th = .ok (act m u th)) :
    us.foldl (laneChecked s g d f) (.ok a) = .ok (us.foldl (laneActs s g d act) a) := by
  induction us generalizing a with
  | nil => rfl
  | cons u us ih =>
    rw [List.foldl_cons, List.foldl_cons, laneChecked_of_ok (passes [] u us a rfl rfl)]
    refine ih fun xs v ys m split reached => ?_
    exact passes (u :: xs) v ys m (by rw [split, List.cons_append]) ⟨_, laneActs_laneStep a u, reached⟩

theorem eachLaneChecked_of_meets {P : State → Thread → Prop} (meets : eachMeets s g d act s P)
    (passes : ∀ m u th, P m th → f m u th = .ok (act m u th)) :
    eachLaneChecked s g d f = .ok (eachLane s g d act) := by
  rw [eachLaneChecked_eq_foldl, eachLane_eq_foldl]
  exact foldl_laneChecked_of_ok fun xs u ys m split reached th found active =>
    passes m u th (meets xs u ys m split reached th found active)

end

/-! ### `SPAWN` (13 R326) -/

/-- The range that a lane's `SPAWN` reserves (R326, R315). -/
def spawnEntry (f : FormA) (a : State) (u : Nat) (t : Thread) : SpawnEntry :=
  let k := launchOf a (blockOf a t.block).launch
  let params := (srcPair t .b f.b).toNat
  { first := k.nextIndex, index := k.nextIndex, count := (srcWord t .a f.a).toNat
    entry := (srcPair t .c f.x.srcC).toNat, params := if params = 0 then k.params else params
    accs := accessesOf a u, texs := texsOf a a.cur.core u, wh := t.regs.wh, home := dieOfCore a.cur.core }

/-- What a lane's `SPAWN` does where it does not fault: indices are reserved, and the range is queued unless it is empty
or the launch is being cancelled. -/
def spawnActs (f : FormA) (a : State) (u : Nat) (t : Thread) : State × Word :=
  let l := (blockOf a t.block).launch
  let k := launchOf a l
  let n := (srcWord t .a f.a).toNat
  let a1 := modLaunch a l fun x => { x with nextIndex := x.nextIndex + n }
  (if n = 0 ∨ k.cancelled = true then a1 else modLaunch a1 l fun x => enqueueRange x (spawnEntry f a u t),
    BitVec.ofNat 32 k.nextIndex)

/-- The conditions under which a lane's `SPAWN` does not fault (R326). -/
def spawnFits (f : FormA) (a : State) (t : Thread) : Prop :=
  (srcWord t .a f.a).toNat ≤ 2 ^ 20 ∧ (srcPair t .b f.b).toNat % 64 = 0 ∧ (srcPair t .c f.x.srcC).toNat % 4 = 0
    ∧ (launchOf a (blockOf a t.block).launch).nextIndex + (srcWord t .a f.a).toNat ≤ 2 ^ 32 - 1

theorem spawnLane_of_fits {f : FormA} {a : State} {u : Nat} {t : Thread} (fits : spawnFits f a t) :
    spawnLane f a u t = .ok (spawnActs f a u t) := by
  obtain ⟨few, params, entry, room⟩ := fits
  unfold spawnLane
  simp only [params, entry, Nat.not_lt.2 few, Nat.not_lt.2 room, bne_self_eq_false, Bool.and_false, Bool.or_false,
    Bool.false_eq_true, if_false]
  rfl

theorem execSpawn_of_fits {f : FormA} {s : State}
    (meets : eachMeets s f.x.guard f.dst (spawnActs f) s (spawnFits f)) :
    exec (.spawn f) s = .next (underQuota s (ctxOfBlock s s.cur.block) (eachLane s f.x.guard f.dst (spawnActs f))) := by
  have arm : exec (.spawn f) s = execSpawn f s := rfl
  rw [arm, execSpawn, eachLaneChecked_of_meets meets fun _ _ _ => spawnLane_of_fits]

/-! ### A range that enters a launch (02 R34, 18 R430) -/

theorem spillHome_all {α : Type} (home : α → Nat) (cap : Nat) (q : List α × List α) (x : α) :
    (spillHome home cap q x).1 ++ (spillHome home cap q x).2 = q.1 ++ q.2 ++ [x] := by
  unfold spillHome
  split
  next fits =>
    obtain ⟨empty, -⟩ := Bool.and_eq_true_iff.1 fits
    rw [List.isEmpty_iff.1 empty, List.append_nil, List.append_nil]
  next => exact (List.append_assoc ..).symm

/-- Keys below a bound changed one after another. -/
theorem mgetD_foldl_mset_range {α : Type} (f : α → α) (d : α) (m : SMap α) (n i : Nat) :
    mgetD ((List.range n).foldl (fun m i => mset m i (f (mgetD m i d))) m) i d
      = if i < n then f (mgetD m i d) else mgetD m i d := by
  induction n with
  | zero => rfl
  | succ n ih =>
    rw [List.range_succ, List.foldl_append, List.foldl_cons, List.foldl_nil]
    by_cases last : i = n
    · subst last
      rw [if_neg (Nat.lt_irrefl i)] at ih
      rw [if_pos (Nat.lt_succ_self i), mgetD, mget_mset_same, Option.getD_some, ih]
    · have bound : i < n + 1 ↔ i < n := by omega
      rw [mgetD, mget_mset_other _ _ last]
      simp only [bound]
      exact ih

/-- R430: the barriers of a launch that n blocks have joined. -/
theorem joinBarriers_bar (k : Launch) (n : Nat) {i : Nat} (bar : i < k.desc.launchBars) :
    (mgetD (joinBarriers k n).bars i {}).members = (mgetD k.bars i {}).members + n
      ∧ (mgetD (joinBarriers k n).bars i {}).pending = (mgetD k.bars i {}).pending + n := by
  have joined : mgetD (joinBarriers k n).bars i {} = { mgetD k.bars i {} with
      members := (mgetD k.bars i {}).members + n, pending := (mgetD k.bars i {}).pending + n } :=
    (mgetD_foldl_mset_range (fun b : Barrier => { b with members := b.members + n, pending := b.pending + n }) {}
      k.bars k.desc.launchBars i).trans (if_pos bar)
  rw [joined]
  exact ⟨rfl, rfl⟩

theorem enqueueRange_enters (k : Launch) (e : SpawnEntry) :
    (enqueueRange k e).counter = k.counter + e.count
      ∧ (enqueueRange k e).spawnQ ++ (enqueueRange k e).spawnRing = k.spawnQ ++ k.spawnRing ++ [e] :=
  ⟨rfl, spillHome_all SpawnEntry.home 64 (k.spawnQ, k.spawnRing) e⟩

/-! ### `CMPL` (13 R328) -/

/-- R328: the levels' states that a `CMPL` with acquire takes as complete. -/
theorem cmplLane_eq (f : FormA) (s : State) (u : Nat) (t : Thread) :
    cmplLane f s u t =
      let q := if f.bit 4 then handleLevel s (ctxOfBlock s t.block) (f.field 2 0) (srcWord t .a f.a).toNat
        else ownLevel s t.block (f.field 2 0)
      (if f.bit 3 = true ∧ (q.1 = 1 ∨ q.1 = 3 ∨ q.1 = 6) then
        modThread s u fun x => { x with regs := { x.regs with floor := max x.regs.floor s.dtime } } else s,
        BitVec.ofNat 32 (2 ^ 28 * q.1 + min q.2 (2 ^ 28 - 1))) := by
  unfold cmplLane
  extract_lets q complete
  have reached : (f.bit 3 && complete) = true ↔ f.bit 3 = true ∧ (q.1 = 1 ∨ q.1 = 3 ∨ q.1 = 6) := by
    simp only [complete, Bool.and_eq_true, Bool.or_eq_true, beq_iff_eq, or_assoc]
  simp only [reached]
  rfl

/-- Settles O38: the lanes of a `SPAWN` that all fit act in turn; a `CANCEL` and a `CMPL` fault on no lane. -/
theorem spawnCancelComplete : Obligations.SpawnCancelComplete := by
  refine ⟨fun f s _ meets fits => ?spawn, fun k e => ?enters, fun f => turnForm_of_eachLane fun _ => rfl,
    fun f => turnForm_of_eachLane fun s => ?cmpl⟩
  case spawn =>
    have turns := eachLane_inTurn s f.x.guard f.dst (spawnActs f)
    exact ⟨_, by rw [execSpawn_of_fits meets, underQuota_of_fits (fits _ turns)], turns⟩
  case enters =>
    obtain ⟨counter, queue⟩ := enqueueRange_enters k e
    exact ⟨counter, queue, fun i bar => joinBarriers_bar _ e.count bar⟩
  case cmpl =>
    refine congrArg (fun act => Host.Outcome.next (eachLane s f.x.guard f.dst act)) ?_
    funext a u t
    exact cmplLane_eq f a u t

end Sys2Proof.Proofs
end

section
/-! SUPPORT. Command queues, records, replays and phases read back, and what a report or a write at a home leaves of them
(13 R308 to R312, 20 R460). -/

namespace Sys2Proof.Proofs

open Sys2Proof.Machine

/-! ### Queues, records, replays and phases read back -/

section
variable (s : State) (ctx : Nat)

theorem cmdQueueOf_modCmdQueue (q p : Nat) (f : CmdQueue → CmdQueue) :
    cmdQueueOf (modCmdQueue s ctx q f) ctx p = if p = q then (cmdQueueOf s ctx p).map f else cmdQueueOf s ctx p := by
  simp only [cmdQueueOf, modCmdQueue, ctxOf_modCtx, if_true, mget_mmod]

@[simp] theorem recordOf_modCmdQueue (q h : Nat) (f : CmdQueue → CmdQueue) :
    recordOf (modCmdQueue s ctx q f) ctx h = recordOf s ctx h := by
  simp only [recordOf, modCmdQueue, ctxOf_modCtx, if_true]

@[simp] theorem recordOf_modMore (h : Nat) (f : CtxMore → CtxMore) :
    recordOf (modMore s ctx f) ctx h = recordOf s ctx h := rfl

@[simp] theorem recordOf_modPhase (key h : Nat) (f : Phase → Phase) :
    recordOf (modPhase s ctx key f) ctx h = recordOf s ctx h := by
  simp only [recordOf, modPhase, ctxOf_modCtx, if_true]

@[simp] theorem cmdQueueOf_modMore (q : Nat) (f : CtxMore → CtxMore) :
    cmdQueueOf (modMore s ctx f) ctx q = cmdQueueOf s ctx q := rfl

@[simp] theorem cmdQueueOf_modPhase (key q : Nat) (f : Phase → Phase) :
    cmdQueueOf (modPhase s ctx key f) ctx q = cmdQueueOf s ctx q := by
  simp only [cmdQueueOf, modPhase, ctxOf_modCtx, if_true]

@[simp] theorem cmdQueueOf_modRecord (h q : Nat) (f : Record → Record) :
    cmdQueueOf (modRecord s ctx h f) ctx q = cmdQueueOf s ctx q := by
  simp only [cmdQueueOf, modRecord, ctxOf_modCtx, if_true]

@[simp] theorem phaseOf_modRecord (h key : Nat) (f : Record → Record) :
    phaseOf (modRecord s ctx h f) ctx key = phaseOf s ctx key := by
  simp only [phaseOf, modRecord, ctxOf_modCtx, if_true]

theorem phaseOf_modPhase (key k : Nat) (f : Phase → Phase) :
    phaseOf (modPhase s ctx key f) ctx k = if k = key then f (phaseOf s ctx key) else phaseOf s ctx k := by
  simp only [phaseOf, modPhase, ctxOf_modCtx, if_true, mgetD, mget_mset]
  split <;> rfl

@[simp] theorem moreOf_modPhase (key d : Nat) (f : Phase → Phase) : moreOf (modPhase s ctx key f) d = moreOf s d := rfl

@[simp] theorem moreOf_modCmdQueue (q d : Nat) (f : CmdQueue → CmdQueue) :
    moreOf (modCmdQueue s ctx q f) d = moreOf s d := rfl

end

theorem cmdQueueOf_modCmdQueue_of_some {s : State} {ctx q : Nat} {c : CmdQueue} (queue : cmdQueueOf s ctx q = some c)
    (f : CmdQueue → CmdQueue) : cmdQueueOf (modCmdQueue s ctx q f) ctx q = some (f c) := by
  rw [cmdQueueOf_modCmdQueue, if_pos rfl, queue, Option.map_some]

/-- The first entry of a key, after every entry of that key has changed. -/
theorem find?_map_keyed {α : Type} (key : α → Nat) {f : α → α} (keeps : ∀ x, key (f x) = key x) (h : Nat) (l : List α) :
    (l.map fun x => if key x = h then f x else x).find? (fun x => key x == h)
      = (l.find? fun x => key x == h).map f := by
  have same : ((fun x => key x == h) ∘ fun x => if key x = h then f x else x) = fun x => key x == h := by
    funext x
    by_cases named : key x = h <;> simp [named, keeps]
  rw [List.find?_map, same]
  cases found : l.find? fun x => key x == h with
  | none => rfl
  | some x =>
    have named : key x = h := by simpa using List.find?_some found
    simp only [Option.map_some, if_pos named]

section
variable {s : State} {ctx h : Nat}

theorem recordOf_modRecord_of_found {r : Record} (found : recordOf s ctx h = some r) (f : Record → Record)
    (handle : ∀ x, (f x).handle = x.handle := by intro _; rfl) :
    recordOf (modRecord s ctx h f) ctx h = some (f r) := by
  rw [recordOf, modRecord, ctxOf_modCtx, if_pos rfl]
  exact (find?_map_keyed Record.handle handle h _).trans (congrArg (Option.map f) found)

theorem replayOf_modReplay_of_found {x : Replay} (found : replayOf s ctx h = some x) (f : Replay → Replay)
    (handle : ∀ y, (f y).handle = y.handle := by intro _; rfl) :
    replayOf (modReplay s ctx h f) ctx h = some (f x) := by
  rw [replayOf, modReplay, moreOf_modMore, if_pos rfl]
  exact (find?_map_keyed Replay.handle handle h _).trans (congrArg (Option.map f) found)

end

theorem handle_of_recordOf {s : State} {ctx h : Nat} {r : Record} (found : recordOf s ctx h = some r) : r.handle = h := by
  simpa using List.find?_some found

/-- A record that is listed is found by its handle, if not first of that handle. -/
theorem recordOf_of_mem {s : State} {ctx : Nat} {r : Record} (listed : r ∈ (ctxOf s ctx).records) :
    ∃ x, recordOf s ctx r.handle = some x := by
  exact Option.isSome_iff_exists.1 (List.find?_isSome.2 ⟨r, listed, beq_self_eq_true _⟩)

/-! ### Reports (20 R460, R554) -/

/-- The work of the device, and the queues, records, phases and replays of every context, stand: of a context at most the
write index of its event ring changes. -/
def queuesStand (s t : State) : Prop :=
  t.work = s.work ∧ (∀ c, ∃ n, ctxOf t c = { ctxOf s c with evtWrite := n })
    ∧ ∀ c, (moreOf t c).jobCounter = (moreOf s c).jobCounter ∧ (moreOf t c).replays = (moreOf s c).replays

theorem queuesStand.refl (s : State) : queuesStand s s := ⟨rfl, fun _ => ⟨_, rfl⟩, fun _ => ⟨rfl, rfl⟩⟩

theorem queuesStand.trans {s t u : State} : queuesStand s t → queuesStand t u → queuesStand s u := by
  rintro ⟨work, ctxs, more⟩ ⟨work', ctxs', more'⟩
  refine ⟨work'.trans work, fun c => ?_, fun c => ⟨(more' c).1.trans (more c).1, (more' c).2.trans (more c).2⟩⟩
  obtain ⟨n, first⟩ := ctxs c
  obtain ⟨m, second⟩ := ctxs' c
  exact ⟨m, by rw [second, first]⟩

/-- A change of nothing of the work and the contexts. -/
theorem queuesStand_of_eq {s t : State} (work : t.work = s.work) (ctxs : t.ctxs = s.ctxs) (more : t.more = s.more) :
    queuesStand s t :=
  ⟨work, fun c => ⟨(ctxOf s c).evtWrite, by rw [ctxOf, ctxs, ctxOf]⟩, fun c => by rw [moreOf_congr more]; exact ⟨rfl, rfl⟩⟩

theorem homeOnly.queuesStand {s t : State} : homeOnly s t → queuesStand s t := by
  rintro ⟨_, _, _, rfl⟩
  exact queuesStand_of_eq rfl rfl rfl

theorem modMore_queuesStand (s : State) (ctx : Nat) (f : CtxMore → CtxMore)
    (jobs : (f (moreOf s ctx)).jobCounter = (moreOf s ctx).jobCounter)
    (replays : (f (moreOf s ctx)).replays = (moreOf s ctx).replays) : queuesStand s (modMore s ctx f) := by
  refine ⟨rfl, fun _ => ⟨_, rfl⟩, fun c => ?_⟩
  rw [moreOf_modMore]
  split
  next here => exact ⟨by rw [jobs, here], by rw [replays, here]⟩
  next => exact ⟨rfl, rfl⟩

theorem evtWrite_queuesStand (s : State) (ctx : Nat) :
    queuesStand s (modCtx s ctx fun c => { c with evtWrite := c.evtWrite + 1 }) := by
  refine ⟨rfl, fun c => ?_, fun _ => ⟨rfl, rfl⟩⟩
  rw [ctxOf_modCtx]
  split
  next here => exact ⟨_, by rw [here]⟩
  next => exact ⟨_, rfl⟩

theorem structureFailedOn_queuesStand (s : State) (die ctx addr : Nat) :
    queuesStand s (structureFailedOn s die ctx addr) := by
  unfold structureFailedOn
  split
  · exact .refl s
  · have recorded (e : BlackBox) : queuesStand s (blackBoxAdd s e) := queuesStand_of_eq rfl rfl rfl
    exact (recorded _).trans <| (modMore_queuesStand _ ctx _ rfl rfl).trans (modMore_queuesStand _ ctx _ rfl rfl)

theorem startTrapLimit_queuesStand (s : State) (e : EventEntry) : queuesStand s (startTrapLimit s e) := by
  unfold startTrapLimit
  split
  · exact .refl s
  · exact modMore_queuesStand s _ _ rfl rfl

theorem writeEvent_queuesStand {s t : State} {die : Nat} {e : EventEntry} (h : writeEvent s die e = some t) :
    queuesStand s t := by
  unfold writeEvent at h
  split at h
  · cases h
  · split at h
    · cases h
    · rename_i s1 written
      extract_lets s2 s3 s4 at h
      cases h
      have indexed : queuesStand s s2 := (writeVirtual_homeOnly written).queuesStand.trans (evtWrite_queuesStand s1 e.ctx)
      have dropsOut : queuesStand s2 s3 := queuesStand_of_eq rfl rfl rfl
      have notified : queuesStand s3 (notify s3 e.ctx) := modMore_queuesStand s3 _ _ rfl rfl
      have limited : queuesStand s s4 :=
        ((indexed.trans dropsOut).trans notified).trans (startTrapLimit_queuesStand (notify s3 e.ctx) e)
      exact limited.trans (queuesStand_of_eq rfl rfl rfl)

theorem appendEvent_queuesStand (s : State) (die : Nat) (e : EventEntry) : queuesStand s (appendEvent s die e) := by
  have traced : queuesStand s (addTrace s e.ctx e.kind e.addr) := by
    unfold addTrace
    dsimp only
    split <;> exact queuesStand_of_eq rfl rfl rfl
  unfold appendEvent
  dsimp only
  refine traced.trans ?_
  generalize addTrace s e.ctx e.kind e.addr = t
  have held : queuesStand t (holdEvent t die e) := queuesStand_of_eq rfl rfl rfl
  split
  · exact held
  · split
    · exact writeEvent_queuesStand ‹_›
    · split
      · exact held.trans (structureFailedOn_queuesStand _ _ _ _)
      · exact held

theorem enterReader_queuesStand (s : State) (die ctx vpn : Nat) : queuesStand s (enterReader s die ctx vpn) := by
  obtain ⟨ds, counted⟩ := countDieEvent_dies s die 7 1
  unfold enterReader
  rw [counted]
  exact queuesStand_of_eq rfl rfl rfl

theorem readerFault_queuesStand (s : State) (ctx die handle : Nat) (code : FaultCode) (addr : Nat) :
    queuesStand s (readerFault s ctx die handle code addr) :=
  appendEvent_queuesStand s die _

section
variable {s t : State} (stand : queuesStand s t) (ctx : Nat)
include stand

theorem queuesStand.cmdQueueOf (q : Nat) : cmdQueueOf t ctx q = cmdQueueOf s ctx q := by
  obtain ⟨-, ctxs, -⟩ := stand
  obtain ⟨n, same⟩ := ctxs ctx
  rw [Machine.cmdQueueOf, same, Machine.cmdQueueOf]

theorem queuesStand.recordOf (h : Nat) : recordOf t ctx h = recordOf s ctx h := by
  obtain ⟨-, ctxs, -⟩ := stand
  obtain ⟨n, same⟩ := ctxs ctx
  rw [Machine.recordOf, same, Machine.recordOf]

theorem queuesStand.phaseOf (key : Nat) : phaseOf t ctx key = phaseOf s ctx key := by
  obtain ⟨-, ctxs, -⟩ := stand
  obtain ⟨n, same⟩ := ctxs ctx
  rw [Machine.phaseOf, same, Machine.phaseOf]

theorem queuesStand.jobCounter : (moreOf t ctx).jobCounter = (moreOf s ctx).jobCounter := (stand.2.2 ctx).1

theorem queuesStand.replays : (moreOf t ctx).replays = (moreOf s ctx).replays := (stand.2.2 ctx).2

end

/-! ### Signals written (13 R310) -/

theorem writeBytes_host_homeOnly (s : State) (ws : List (Nat × Byte)) : homeOnly s (writeBytes s .host ws) := by
  have cleared (ks : List Nat) : homeOnly s (ks.foldl (fun acc k => clearPoison acc .host k) s) :=
    foldl_rel homeOnly .refl (fun _ _ _ => .trans) _ (fun t k => clearPoison_homeOnly t .host k) ks s
  unfold writeBytes
  extract_lets sectors whole keep
  exact (cleared whole).trans ⟨_, _, _, rfl⟩

theorem writeWord64_homeOnly {s t : State} {ctx va x : Nat} (h : writeWord64 s ctx va x = .ok t) : homeOnly s t := by
  unfold writeWord64 at h
  split at h
  · cases h
  · rw [← Except.ok.inj h]
    exact homeWrite_homeOnly s _
  · rw [← Except.ok.inj h]
    exact writeBytes_host_homeOnly s _

theorem writeVirtual_getD_homeOnly (s : State) (ctx va : Nat) (bs : List Byte) :
    homeOnly s ((writeVirtual s ctx va bs).getD s) := by
  cases written : writeVirtual s ctx va bs with
  | none => exact .refl s
  | some t => exact writeVirtual_homeOnly written

end Sys2Proof.Proofs
end

section
/-! SUPPORT. A record read at the head of a queue: its handle, its place in the counters, and what its beginning can do to it
(13 R309 to R312). -/

namespace Sys2Proof.Proofs

open Sys2Proof.Machine Sys2Proof.Safety

/-! ### One record changed (13 R310, R312) -/

/-- The queues of a context and its job counter stand, and the record of a handle becomes one that `P` relates to it. -/
def changesRecord (P : Record → Record → Prop) (ctx h : Nat) (s t : State) : Prop :=
  (∀ q, cmdQueueOf t ctx q = cmdQueueOf s ctx q) ∧ (moreOf t ctx).jobCounter = (moreOf s ctx).jobCounter
    ∧ ∀ x, recordOf s ctx h = some x → ∃ y, recordOf t ctx h = some y ∧ P x y

/-- The fields that a record keeps until it completes. -/
def sameRead (x y : Record) : Prop := y.kind = x.kind ∧ y.queue = x.queue ∧ y.addr = x.addr ∧ y.ended = x.ended

/-- A record that has not begun by the change. -/
def staysUnbegun (x y : Record) : Prop := sameRead x y ∧ y.begun = x.begun

theorem sameRead.refl (x : Record) : sameRead x x := ⟨rfl, rfl, rfl, rfl⟩

theorem sameRead.trans {x y z : Record} : sameRead x y → sameRead y z → sameRead x z := by
  rintro ⟨kind, queue, addr, ended⟩ ⟨kind', queue', addr', ended'⟩
  exact ⟨kind'.trans kind, queue'.trans queue, addr'.trans addr, ended'.trans ended⟩

theorem staysUnbegun.refl (x : Record) : staysUnbegun x x := ⟨.refl x, rfl⟩

theorem staysUnbegun.trans {x y z : Record} : staysUnbegun x y → staysUnbegun y z → staysUnbegun x z := by
  rintro ⟨same, begun⟩ ⟨same', begun'⟩
  exact ⟨same.trans same', begun'.trans begun⟩

section
variable {P : Record → Record → Prop} {ctx h : Nat} {s t u : State}

theorem changesRecord.mono {Q : Record → Record → Prop} (change : changesRecord P ctx h s t)
    (weaker : ∀ x y, P x y → Q x y) : changesRecord Q ctx h s t := by
  obtain ⟨queues, jobs, records⟩ := change
  refine ⟨queues, jobs, fun x found => ?_⟩
  obtain ⟨y, after, related⟩ := records x found
  exact ⟨y, after, weaker x y related⟩

theorem changesRecord.trans (transP : ∀ {x y z}, P x y → P y z → P x z) (first : changesRecord P ctx h s t)
    (second : changesRecord P ctx h t u) : changesRecord P ctx h s u := by
  obtain ⟨queues, jobs, records⟩ := first
  obtain ⟨queues', jobs', records'⟩ := second
  refine ⟨fun q => (queues' q).trans (queues q), jobs'.trans jobs, fun x found => ?_⟩
  obtain ⟨y, after, related⟩ := records x found
  obtain ⟨z, last, related'⟩ := records' y after
  exact ⟨z, last, transP related related'⟩

theorem changesRecord_of_stand (reflP : ∀ x, P x x) (stand : queuesStand s t) : changesRecord P ctx h s t :=
  ⟨fun q => stand.cmdQueueOf ctx q, stand.jobCounter ctx, fun x found => ⟨x, (stand.recordOf ctx h).trans found, reflP x⟩⟩

theorem changesRecord_modRecord {f : Record → Record} (handle : ∀ x, (f x).handle = x.handle) (related : ∀ x, P x (f x)) :
    changesRecord P ctx h s (modRecord s ctx h f) :=
  ⟨fun q => cmdQueueOf_modRecord s ctx h q f, rfl, fun x found =>
    ⟨f x, recordOf_modRecord_of_found found f handle, related x⟩⟩

end

section
variable (s : State) (ctx : Nat) (r : Record)

theorem setDue_staysUnbegun (h : Nat) (st : Status) (code : FaultCode) :
    changesRecord staysUnbegun ctx h s (setDue s ctx h st code) :=
  changesRecord_modRecord (fun _ => rfl) fun _ => ⟨⟨rfl, rfl, rfl, rfl⟩, rfl⟩

/-- R312: the reader enters a page that a record waits for. -/
theorem enterPage_staysUnbegun (h die vpn : Nat) :
    changesRecord staysUnbegun ctx h s
      (enterReader (modRecord s ctx h fun x => { x with page := some vpn }) die ctx vpn) := by
  refine .trans .trans ?_ (changesRecord_of_stand .refl (enterReader_queuesStand _ die ctx vpn))
  exact changesRecord_modRecord (fun _ => rfl) fun _ => ⟨⟨rfl, rfl, rfl, rfl⟩, rfl⟩

theorem checkFailed_staysUnbegun (die : Nat) (e : FaultCode × Nat) :
    changesRecord staysUnbegun ctx r.handle s (checkFailed s ctx die r e) := by
  unfold checkFailed
  split
  · exact enterPage_staysUnbegun s ctx r.handle die _
  · exact setDue_staysUnbegun s ctx r.handle _ _

theorem readerMisses_staysUnbegun (die va : Nat) :
    changesRecord staysUnbegun ctx r.handle s (readerMisses s ctx die r va) := by
  unfold readerMisses
  split
  · exact changesRecord_of_stand .refl (.refl s)
  · exact enterPage_staysUnbegun s ctx r.handle die _

theorem waitEval_staysUnbegun : changesRecord staysUnbegun ctx r.handle s (waitEval s ctx r) := by
  have due (st : Status) (code : FaultCode) := setDue_staysUnbegun s ctx r.handle st code
  have stands : changesRecord staysUnbegun ctx r.handle s s := changesRecord_of_stand .refl (.refl s)
  unfold waitEval
  dsimp only
  split
  · split
    · exact due _ _
    · exact readerMisses_staysUnbegun s ctx r _ _
  · exact .trans .trans (due _ _) (changesRecord_of_stand .refl (readerFault_queuesStand _ _ _ _ _ _))
  · split
    · exact due _ _
    · split
      · exact due _ _
      · split
        · exact due _ _
        · exact stands

/-! ### Records that begin (13 R310, R317) -/

theorem checkFailed_sameRead (die : Nat) (e : FaultCode × Nat) :
    changesRecord sameRead ctx r.handle s (checkFailed s ctx die r e) :=
  (checkFailed_staysUnbegun s ctx r die e).mono fun _ _ => And.left

theorem beginSignal_sameRead : changesRecord sameRead ctx r.handle s (beginSignal s ctx r) := by
  unfold beginSignal
  split
  · exact checkFailed_sameRead s ctx r _ _
  · exact changesRecord_modRecord (fun _ => rfl) fun _ => ⟨rfl, rfl, rfl, rfl⟩

theorem beginWait_sameRead : changesRecord sameRead ctx r.handle s (beginWait s ctx r) := by
  unfold beginWait
  extract_lets check deadline s1
  clear_value check
  cases check with
  | error e => exact checkFailed_sameRead s ctx r _ e
  | ok _ =>
    have begun : changesRecord sameRead ctx r.handle s s1 :=
      changesRecord_modRecord (fun _ => rfl) fun _ => ⟨rfl, rfl, rfl, rfl⟩
    have read := waitEval_staysUnbegun s1 ctx { r with begun := true, page := none, deadline := deadline }
    exact .trans .trans begun (read.mono fun _ _ => And.left)

theorem ok_of_bind_ok {ε α β : Type} {x : Except ε α} {f : α → Except ε β} {b : β} (h : x >>= f = .ok b) :
    ∃ a, x = .ok a ∧ f a = .ok b := by
  cases x with
  | error e => cases h
  | ok a => exact ⟨a, rfl, h⟩

theorem copySnapshot_homeOnly {t : State} {src dst n : Nat} (h : copySnapshot s ctx src dst n = .ok t) :
    homeOnly s t := by
  unfold copySnapshot at h
  split at h
  · cases h
  · split at h
    · cases h
    · rw [← Except.ok.inj h]
      exact homeWrite_homeOnly s _

/-- R317: a replay that starts has copied its snapshot and stands among the context's replays. -/
theorem startReplay_copies {t : State} {slot : Nat} (h : startReplay s ctx r slot = .ok t) :
    ∃ s1 f, homeOnly s s1 ∧ t = modMore s1 ctx f ∧ ∀ m, (f m).jobCounter = m.jobCounter := by
  unfold startReplay at h
  obtain ⟨head, -, h⟩ := ok_of_bind_ok h
  obtain ⟨nodes, -, h⟩ := ok_of_bind_ok h
  obtain ⟨-, -, h⟩ := ok_of_bind_ok h
  obtain ⟨s1, copied, h⟩ := ok_of_bind_ok h
  exact ⟨s1, _, copySnapshot_homeOnly s ctx copied, (Except.ok.inj h).symm, fun _ => rfl⟩

theorem beginReplay_sameRead : changesRecord sameRead ctx r.handle s (beginReplay s ctx r) := by
  unfold beginReplay
  split
  · split
    · exact checkFailed_sameRead s ctx r _ _
    · split
      · exact (setDue_staysUnbegun s ctx r.handle _ _).mono fun _ _ => And.left
      · exact changesRecord_of_stand .refl (.refl s)
  · split
    · exact checkFailed_sameRead s ctx r _ _
    next started =>
      obtain ⟨s1, f, copied, rfl, jobs⟩ := startReplay_copies s ctx r started
      refine .trans .trans (changesRecord_of_stand .refl copied.queuesStand) <| .trans .trans (t := modMore s1 ctx f) ?_
        (changesRecord_modRecord (fun _ => rfl) fun _ => ⟨rfl, rfl, rfl, rfl⟩)
      exact ⟨fun _ => rfl, by rw [moreOf_modMore, if_pos rfl, jobs], fun x found => ⟨x, found, .refl x⟩⟩

theorem dropBegun_staysUnbegun : changesRecord staysUnbegun ctx r.handle s (dropBegun s ctx r) := by
  unfold dropBegun
  split
  · exact checkFailed_staysUnbegun s ctx r _ _
  · exact setDue_staysUnbegun s ctx r.handle _ _

/-- R310 kind 1: a launch record fails its checks, or its launch is made and it has begun. -/
theorem beginLaunch_cases : changesRecord staysUnbegun ctx r.handle s (beginLaunch s ctx r)
    ∨ ∃ descAddr params priority powerCap d banks, beginLaunch s ctx r
      = modRecord (newLaunch s ctx r.handle descAddr params priority powerCap none d banks) ctx r.handle
          fun x => { x with begun := true, page := none, launch := some s.work.nextLaunch } := by
  unfold beginLaunch
  extract_lets q check
  clear_value check
  cases check with
  | error e => exact .inl (checkFailed_staysUnbegun s ctx r _ e)
  | ok x => exact .inr ⟨_, _, _, _, x.1, x.2, rfl⟩

/-- R310 kind 5: a phase mark fails its checks, or it has begun and its phase is closed. -/
theorem beginMark_cases : changesRecord staysUnbegun ctx r.handle s (beginMark s ctx r)
    ∨ beginMark s ctx r = modCmdQueue (modRecord s ctx r.handle fun x => { x with begun := true, page := none }) ctx
        r.queue fun q => { q with phaseNo := r.phase + 1 } := by
  unfold beginMark
  split
  · exact .inl (checkFailed_staysUnbegun s ctx r _ _)
  · exact .inr rfl

/-- A launch just made: of a context and a handle, running, with its seed block alone (02 R33). -/
theorem launchOf_newLaunch (handle descAddr params priority powerCap : Nat) (graph : Option Nat) (d : LaunchDesc)
    (banks : SMap (Nat × Nat)) :
    let k := launchOf (newLaunch s ctx handle descAddr params priority powerCap graph d banks) s.work.nextLaunch
    k.ctx = ctx ∧ k.handle = handle ∧ k.counter = 1 ∧ k.state = .running ∧ k.desc = d ∧ k.params = params
      ∧ k.graph = graph ∧ k.bank = banks := by
  simp only [launchOf, newLaunch, modWork, mgetD, mget_mset_same, Option.getD_some]
  exact ⟨rfl, rfl, rfl, rfl, rfl, rfl, rfl, rfl⟩

end

/-! ### What a record that begins comes to -/

/-- What the beginning of a record that has been read comes to: its queue's indices, the job counter and the record's place stand;
a launch record that has begun has its launch, a phase mark that has begun has closed its phase. -/
def recordBegins (ctx : Nat) (r : Record) (s t : State) : Prop :=
  (cmdQueueOf t ctx r.queue).map (fun x => (x.readIdx, x.seq)) = (cmdQueueOf s ctx r.queue).map (fun x => (x.readIdx, x.seq))
  ∧ (moreOf t ctx).jobCounter = (moreOf s ctx).jobCounter
  ∧ ∃ x, recordOf t ctx r.handle = some x ∧ sameRead r x
    ∧ (x.kind = 1 → x.begun = true → x.launch = some s.work.nextLaunch
        ∧ (launchOf t s.work.nextLaunch).handle = x.handle ∧ (launchOf t s.work.nextLaunch).counter = 1
        ∧ (launchOf t s.work.nextLaunch).state = .running ∧ (launchOf t s.work.nextLaunch).ctx = ctx)
    ∧ (x.kind = 5 → x.begun = true → (cmdQueueOf t ctx r.queue).map (·.phaseNo) = some (r.phase + 1))

section
variable {s t : State} {ctx : Nat} {r : Record} (found : recordOf s ctx r.handle = some r)
include found

theorem recordBegins_of_sameRead (change : changesRecord sameRead ctx r.handle s t) (notLaunch : r.kind ≠ 1)
    (notMark : r.kind ≠ 5) : recordBegins ctx r s t := by
  obtain ⟨queues, jobs, records⟩ := change
  obtain ⟨x, after, same⟩ := records r found
  have kind : x.kind = r.kind := same.1
  exact ⟨by rw [queues], jobs, x, after, same, fun one => absurd (kind.symm.trans one) notLaunch,
    fun five => absurd (kind.symm.trans five) notMark⟩

theorem recordBegins_of_staysUnbegun (unbegun : r.begun = false) (change : changesRecord staysUnbegun ctx r.handle s t) :
    recordBegins ctx r s t := by
  obtain ⟨queues, jobs, records⟩ := change
  obtain ⟨x, after, same, begun⟩ := records r found
  have never : x.begun ≠ true := by simp [begun, unbegun]
  exact ⟨by rw [queues], jobs, x, after, same, fun _ yes => absurd yes never, fun _ yes => absurd yes never⟩

theorem beginLaunch_recordBegins (unbegun : r.begun = false) (launch : r.kind = 1) :
    recordBegins ctx r s (beginLaunch s ctx r) := by
  obtain failed | ⟨descAddr, params, priority, powerCap, d, banks, begun⟩ := beginLaunch_cases s ctx r
  · exact recordBegins_of_staysUnbegun found unbegun failed
  obtain ⟨context, handle, counter, running, -⟩ :=
    launchOf_newLaunch s ctx r.handle descAddr params priority powerCap none d banks
  rw [begun]
  refine ⟨by rw [cmdQueueOf_modRecord]; rfl, rfl, _,
    recordOf_modRecord_of_found (s := newLaunch s ctx r.handle _ _ _ _ none d banks) found _,
    ⟨rfl, rfl, rfl, rfl⟩, fun _ _ => ⟨rfl, handle, counter, running, context⟩, fun five => ?_⟩
  exact absurd (launch.symm.trans five) (by decide)

theorem beginMark_recordBegins (unbegun : r.begun = false) (mark : r.kind = 5) {c : CmdQueue}
    (queue : cmdQueueOf s ctx r.queue = some c) : recordBegins ctx r s (beginMark s ctx r) := by
  obtain failed | begun := beginMark_cases s ctx r
  · exact recordBegins_of_staysUnbegun found unbegun failed
  rw [begun]
  refine ⟨?_, rfl, _, (recordOf_modCmdQueue ..).trans (recordOf_modRecord_of_found found _),
    ⟨rfl, rfl, rfl, rfl⟩, fun one => absurd (mark.symm.trans one) (by decide), fun _ _ => ?_⟩
  · simp only [cmdQueueOf_modCmdQueue, cmdQueueOf_modRecord, if_true, queue, Option.map_some]
  · simp only [cmdQueueOf_modCmdQueue, cmdQueueOf_modRecord, if_true, queue, Option.map_some]

theorem beginRecord_recordBegins (unbegun : r.begun = false) {c : CmdQueue} (queue : cmdQueueOf s ctx r.queue = some c)
    (legal : 1 ≤ r.kind ∧ r.kind ≤ 5) : recordBegins ctx r s (beginRecord s ctx r) := by
  by_cases drop : r.drop = true
  · rw [beginRecord, if_pos drop]
    exact recordBegins_of_staysUnbegun found unbegun (dropBegun_staysUnbegun s ctx r)
  rw [beginRecord, if_neg drop]
  obtain kind | kind | kind | kind | kind : r.kind = 1 ∨ r.kind = 2 ∨ r.kind = 3 ∨ r.kind = 4 ∨ r.kind = 5 := by omega
  all_goals simp only [kind]
  · exact beginLaunch_recordBegins found unbegun kind
  · exact recordBegins_of_sameRead found (beginReplay_sameRead s ctx r) (by omega) (by omega)
  · exact recordBegins_of_sameRead found (beginSignal_sameRead s ctx r) (by omega) (by omega)
  · exact recordBegins_of_sameRead found (beginWait_sameRead s ctx r) (by omega) (by omega)
  · exact beginMark_recordBegins found unbegun kind queue

end

end Sys2Proof.Proofs
end

section
/-! SUPPORT. The record at the head of a queue taken, and what reading it comes to (13 R309, R310, R320, R327). -/

namespace Sys2Proof.Proofs

open Sys2Proof.Machine Sys2Proof.Safety

/-! ### The head of a queue taken (13 R309, R320, R327) -/

/-- The record at the head of a queue as it stands once read: with its outcome where its bytes are not legal, and a replay's
deadline in context time. -/
def headRecord (s : State) (ctx q : Nat) (c : CmdQueue) (b : List Byte) : Record :=
  let r0 := parseRecord b q (c.handle q) c.head c.phaseNo
  let dropped := c.marks.contains (c.seq % 2 ^ 24) || (phaseOf s ctx (phaseKey q c.phaseNo)).cancelled
  let r : Record :=
    if !recordOk64 b then { r0 with due := some (.faulted, .illegalEncoding) }
    else { r0 with drop := dropped && r0.kind != 5 }
  if r.kind = 2 then { r with deadline := recordDeadline s ctx r.deadline } else r

/-- A record put before those of its context. -/
def pushRecord (s : State) (ctx : Nat) (r : Record) : State := modCtx s ctx fun x => { x with records := r :: x.records }

/-- A record read from the head of a queue counted by the queue, the job and its phase. -/
def recordCounted (s : State) (ctx q : Nat) (c : CmdQueue) (r : Record) : State :=
  let s1 := modCmdQueue s ctx q fun x =>
    { x with readIdx := (x.readIdx + 1) % max 1 x.size, seq := (x.seq + 1) % 2 ^ 24
             marks := x.marks.filter (· != c.seq % 2 ^ 24) }
  let s2 := modMore (pushRecord s1 ctx r) ctx fun m => { m with jobCounter := m.jobCounter + 1 }
  if r.kind ≠ 5 then modPhase s2 ctx (phaseKey q c.phaseNo) fun p => { p with counter := p.counter + 1 } else s2

/-- The state in which the head record of a queue has its handle and has been counted. -/
def headCounted (s : State) (ctx q : Nat) (c : CmdQueue) (b : List Byte) : State :=
  recordCounted ((writeVirtual s ctx (c.head + 4) (leBytes 4 (c.handle q))).getD s) ctx q c (headRecord s ctx q c b)

section
variable (s : State) (ctx : Nat) (r : Record)

@[simp] theorem cmdQueueOf_pushRecord (q : Nat) : cmdQueueOf (pushRecord s ctx r) ctx q = cmdQueueOf s ctx q := by
  simp only [cmdQueueOf, pushRecord, ctxOf_modCtx, if_true]

theorem recordOf_pushRecord : recordOf (pushRecord s ctx r) ctx r.handle = some r := by
  simp only [recordOf, pushRecord, ctxOf_modCtx, if_true]
  exact List.find?_cons_of_pos (beq_self_eq_true _)

@[simp] theorem moreOf_pushRecord (d : Nat) : moreOf (pushRecord s ctx r) d = moreOf s d := rfl

/-- What the counting of a record leaves. -/
theorem recordCounted_counts {q : Nat} {c : CmdQueue} (queue : cmdQueueOf s ctx q = some c) :
    let t := recordCounted s ctx q c r
    cmdQueueOf t ctx q = some { c with readIdx := (c.readIdx + 1) % max 1 c.size, seq := (c.seq + 1) % 2 ^ 24
                                       marks := c.marks.filter (· != c.seq % 2 ^ 24) }
      ∧ (moreOf t ctx).jobCounter = (moreOf s ctx).jobCounter + 1
      ∧ recordOf t ctx r.handle = some r ∧ t.work = s.work := by
  by_cases mark : r.kind = 5
  all_goals
    simp only [recordCounted, mark, ne_eq, not_true_eq_false, not_false_eq_true, if_true, if_false, cmdQueueOf_modPhase,
      cmdQueueOf_modMore, cmdQueueOf_pushRecord, cmdQueueOf_modCmdQueue, queue, Option.map_some, moreOf_modPhase,
      moreOf_modMore, moreOf_pushRecord, moreOf_modCmdQueue, recordOf_modPhase, recordOf_modMore, recordOf_pushRecord,
      true_and]
    rfl

end

section
variable (s : State) (ctx q : Nat) (c : CmdQueue) (b : List Byte)

theorem headRecord_fields :
    let r := headRecord s ctx q c b
    r.handle = c.handle q ∧ r.kind = fieldOf b 0 1 ∧ r.queue = q ∧ r.addr = c.head ∧ r.ended = none ∧ r.begun = false
      ∧ r.phase = c.phaseNo ∧ r.due = if recordOk64 b then none else some (.faulted, .illegalEncoding) := by
  unfold headRecord
  extract_lets r0 dropped r whole
  have fields : r.handle = c.handle q ∧ r.kind = fieldOf b 0 1 ∧ r.queue = q ∧ r.addr = c.head ∧ r.ended = none
      ∧ r.begun = false ∧ r.phase = c.phaseNo
      ∧ r.due = if recordOk64 b then none else some (.faulted, .illegalEncoding) := by
    cases legal : recordOk64 b <;> simp only [r, legal] <;> exact ⟨rfl, rfl, rfl, rfl, rfl, rfl, rfl, rfl⟩
  by_cases replay : r.kind = 2
  · rw [show whole = { r with deadline := recordDeadline s ctx r.deadline } from if_pos replay]
    exact fields
  · rw [show whole = r from if_neg replay]
    exact fields

theorem takeHead_eq (unmarked : c.marks.contains (c.seq % 2 ^ 24) = false) :
    takeHead s ctx q c b = if (headRecord s ctx q c b).due.isSome then headCounted s ctx q c b
      else beginRecord (headCounted s ctx q c b) ctx (headRecord s ctx q c b) := by
  have kind (r : Record) : (if r.kind = 2 then { r with deadline := recordDeadline s ctx r.deadline } else r).kind
      = r.kind := by
    split <;> rfl
  unfold takeHead takeHeadAs headCounted recordCounted headRecord pushRecord
  simp only [unmarked, kind, Option.isSome_none, Bool.false_eq_true, if_false]

theorem headCounted_counts (queue : cmdQueueOf s ctx q = some c) :
    let t := headCounted s ctx q c b
    cmdQueueOf t ctx q = some { c with readIdx := (c.readIdx + 1) % max 1 c.size, seq := (c.seq + 1) % 2 ^ 24
                                       marks := c.marks.filter (· != c.seq % 2 ^ 24) }
      ∧ (moreOf t ctx).jobCounter = (moreOf s ctx).jobCounter + 1
      ∧ recordOf t ctx (c.handle q) = some (headRecord s ctx q c b) ∧ t.work = s.work := by
  have stand := (writeVirtual_getD_homeOnly s ctx (c.head + 4) (leBytes 4 (c.handle q))).queuesStand
  obtain ⟨handle, -⟩ := headRecord_fields s ctx q c b
  obtain ⟨indices, jobs, found, work⟩ :=
    recordCounted_counts _ ctx (headRecord s ctx q c b) ((stand.cmdQueueOf ctx q).trans queue)
  rw [handle] at found
  rw [stand.jobCounter] at jobs
  exact ⟨indices, jobs, found, work.trans stand.1⟩

end

/-! ### What reading a record comes to -/

/-- The record at the head of a queue: its die's reader serves it and reads its bytes. -/
def atHead (s : State) (ctx q : Nat) (c : CmdQueue) (b : List Byte) : Prop :=
  cmdQueueOf s ctx q = some c ∧ servedQueue s c.die = some (ctx, q) ∧ headBytes s ctx c = .ok b

/-- A queue's head record has been read: its queue and its job have counted it, and it stands among the context's records
as its beginning has left it. -/
def recordRead (s : State) (ctx q : Nat) (c : CmdQueue) (b : List Byte) (t : State) : Prop :=
  (cmdQueueOf t ctx q).map (fun x => (x.readIdx, x.seq)) = some ((c.readIdx + 1) % max 1 c.size, (c.seq + 1) % 2 ^ 24)
  ∧ (moreOf t ctx).jobCounter = (moreOf s ctx).jobCounter + 1
  ∧ ∃ r, recordOf t ctx (q * 2 ^ 24 + c.seq % 2 ^ 24) = some r ∧ r.kind = fieldOf b 0 1 ∧ r.queue = q
      ∧ r.addr = c.base + 64 * c.readIdx ∧ r.ended = none
      ∧ (recordOk64 b = false → r.due = some (.faulted, .illegalEncoding) ∧ r.begun = false)
      ∧ (r.kind = 1 → r.begun = true → r.launch = some s.work.nextLaunch
          ∧ (launchOf t s.work.nextLaunch).handle = r.handle ∧ (launchOf t s.work.nextLaunch).counter = 1
          ∧ (launchOf t s.work.nextLaunch).state = .running ∧ (launchOf t s.work.nextLaunch).ctx = ctx)
      ∧ (r.kind = 5 → r.begun = true → (cmdQueueOf t ctx q).map (·.phaseNo) = some (c.phaseNo + 1))

theorem kind_le_of_recordOk64 {b : List Byte} (legal : recordOk64 b = true) : 1 ≤ fieldOf b 0 1 ∧ fieldOf b 0 1 ≤ 6 := by
  simp only [recordOk64, Bool.and_eq_true, decide_eq_true_eq, and_assoc] at legal
  exact ⟨legal.1, legal.2.1⟩

theorem takeHead_recordRead {s : State} {ctx q : Nat} {c : CmdQueue} {b : List Byte}
    (queue : cmdQueueOf s ctx q = some c) (unmarked : c.marks.contains (c.seq % 2 ^ 24) = false)
    (notCancel : fieldOf b 0 1 ≠ 6) : recordRead s ctx q c b (takeHead s ctx q c b) := by
  obtain ⟨counts, jobs, found, work⟩ := headCounted_counts s ctx q c b queue
  obtain ⟨handle, kind, name, addr, ended, unbegun, phase, due⟩ := headRecord_fields s ctx q c b
  rw [takeHead_eq s ctx q c b unmarked, due]
  generalize headRecord s ctx q c b = r at *
  generalize headCounted s ctx q c b = u at *
  cases legal : recordOk64 b with
  | false =>
    have never : r.begun ≠ true := by simp [unbegun]
    simp only [legal, Bool.false_eq_true, if_false] at due
    refine ⟨by simp only [Bool.false_eq_true, if_false, Option.isSome_some, if_true, counts, Option.map_some], jobs, r,
      found, kind, name, addr, ended, fun _ => ⟨due, unbegun⟩, fun _ yes => absurd yes never, fun _ yes => absurd yes never⟩
  | true =>
    have kinds := kind_le_of_recordOk64 legal
    obtain ⟨indices, counter, x, after, same, launched, closed⟩ := beginRecord_recordBegins (s := u) (ctx := ctx) (r := r)
      (by rw [handle]; exact found) unbegun (by rw [name]; exact counts) (by omega)
    obtain ⟨kind', queue', addr', ended'⟩ := same
    rw [name] at indices closed
    rw [handle] at after
    rw [work] at launched
    rw [phase] at closed
    exact ⟨indices.trans (by rw [counts, Option.map_some]), counter.trans jobs, x, after, kind'.trans kind,
      queue'.trans name, addr'.trans addr, ended'.trans ended, fun illegal => absurd illegal (by simp [legal]), launched,
      closed⟩

theorem readHead_eq_takeHead {s : State} {ctx q : Nat} {c : CmdQueue} {b : List Byte} {kind : Nat → Bool}
    (head : atHead s ctx q c b) (named : kind (fieldOf b 0 1) = true) :
    readHead kind ctx q s = takeHead (modDie s c.die fun d => { d with lastQueue := some (ctx, q) }) ctx q c b := by
  obtain ⟨queue, served, bytes⟩ := head
  simp only [readHead, queue, served, bytes, named, ne_eq, not_true_eq_false, if_false, if_true]

/-- An event that reads the head record of a queue where its kind is one of `kind`. -/
theorem answers_recordRead {i : Instr} {s : State} {ctx q : Nat} {c : CmdQueue} {b : List Byte} {kind : Nat → Bool}
    (arm : exec i s = .next (readHead kind ctx q s)) (head : atHead s ctx q c b) (named : kind (fieldOf b 0 1) = true)
    (unmarked : c.marks.contains (c.seq % 2 ^ 24) = false) (notCancel : fieldOf b 0 1 ≠ 6) :
    answers i s (recordRead s ctx q c b) := by
  refine ⟨_, by rw [arm, readHead_eq_takeHead head named], ?_⟩
  obtain ⟨queue, -, -⟩ := head
  exact takeHead_recordRead (s := modDie s c.die _) queue unmarked notCancel

end Sys2Proof.Proofs
end

section
/-! SUPPORT. Records that wait, complete or are dropped, nodes that begin, and
doorbells (13 R308, R310, R312, R317, R318, R322). -/

namespace Sys2Proof.Proofs

open Sys2Proof.Machine Sys2Proof.Safety

/-! ### Doorbells and the power budget (13 R308, R322, 21 R488) -/

theorem isSome_of_cmdQueueOf {s : State} {ctx q : Nat} {c : CmdQueue} (queue : cmdQueueOf s ctx q = some c) :
    (mget s.ctxs ctx).isSome = true := by
  cases context : mget s.ctxs ctx with
  | some x => rfl
  | none => simp [cmdQueueOf, ctxOf, mgetD, context, mget] at queue

section
variable {s : State} {page ctx : Nat} (reach : hostReach s = true) (bound : pageContext s page = some ctx)
include reach bound

theorem execDoorbellWrite_eq (offset : Nat) (v : Word) : exec (.doorbellWrite page offset v) s
    = .next { ringDoorbell s ctx offset v.toNat with power := { s.power with asleep := false } } := by
  have arm : exec (.doorbellWrite page offset v) s = execDoorbellWrite page offset v s := rfl
  simp only [arm, execDoorbellWrite, reach, bound, if_true, Option.map_some, Option.getD_some]

end

theorem ringDoorbell_queue {s : State} {ctx q v : Nat} {c : CmdQueue} (queue : cmdQueueOf s ctx q = some c)
    (few : q < 256) (inside : v < c.size) :
    ringDoorbell s ctx (4 * q) v = modCmdQueue s ctx q fun x => { x with writeIdx := v } := by
  have offset : 4 * q < 0x400 ∧ 4 * q % 4 = 0 := by omega
  have number : 4 * q / 4 = q := by omega
  simp only [ringDoorbell, Option.isNone_iff_eq_none, Option.isSome_iff_ne_none.1 (isSome_of_cmdQueueOf queue), offset,
    number, queue, inside, and_self, if_true, if_false]

theorem ringDoorbell_svcr {s : State} {ctx v : Nat} (context : (mget s.ctxs ctx).isSome = true)
    (inside : v < (ctxOf s ctx).f.svcrSize) :
    ringDoorbell s ctx 0x800 v = modCtx s ctx fun x => { x with svcrWrite := v } := by
  simp [ringDoorbell, Option.isSome_iff_ne_none.1 context, inside]

theorem ringDoorbell_xfr {s : State} {ctx v : Nat} (context : (mget s.ctxs ctx).isSome = true)
    (inside : v < (ctxOf s ctx).f.xfrSize) :
    ringDoorbell s ctx 0xC00 v = modCtx s ctx fun x => { x with xfrWrite := v } := by
  simp [ringDoorbell, Option.isSome_iff_ne_none.1 context, inside]

/-- R322, log 31: the issue rate that a power budget leaves a queue, a step at a time. -/
theorem powerBudgetEval_throttle {s : State} {ctx q : Nat} {c : CmdQueue} (watts : Nat)
    (queue : cmdQueueOf s ctx q = some c) : answers (.powerBudgetEval ctx q watts) s fun t =>
      (cmdQueueOf t ctx q).map (·.throttle) = some
        (if c.powerCap = 0 then 8 else if c.powerCap < watts then max 1 (c.throttle - 1) else min 8 (c.throttle + 1)) := by
  have arm : exec (.powerBudgetEval ctx q watts) s = execPowerBudgetEval ctx q watts s := rfl
  refine ⟨_, by rw [arm, execPowerBudgetEval, queue, Option.isNone_some, if_neg Bool.false_ne_true], ?_⟩
  beta_reduce
  rw [cmdQueueOf_modCmdQueue_of_some queue, Option.map_some]
  repeat' split
  all_goals rfl

/-! ### Waits for a slot, a word or a page (13 R310, R312, R318) -/

theorem execReplaySlotDeadline_of_full {s : State} {ctx q : Nat} {r : Record} (waits : waitingReplay s ctx q = some r)
    (full : freeSlots s ctx r.addr1 = []) (late : r.deadline ≤ (ctxOf s ctx).ctime) :
    exec (.replaySlotDeadline ctx q) s = .next (setDue s ctx r.handle .busy .none) := by
  have arm : exec (.replaySlotDeadline ctx q) s = execReplaySlotDeadline ctx q s := rfl
  simp only [arm, execReplaySlotDeadline, waits, full, late, List.isEmpty_nil, and_self, if_true]

theorem mem_openRecords {s : State} {ctx q : Nat} {r : Record} :
    r ∈ openRecords s ctx q ↔ r ∈ (ctxOf s ctx).records ∧ r.queue = q ∧ r.ended = none := by
  simp [openRecords]

theorem setDue_due {s : State} {ctx h : Nat} {r : Record} (found : recordOf s ctx h = some r) (st : Status)
    (code : FaultCode) :
    recordOf (setDue s ctx h st code) ctx h = some { r with due := some (st, code), page := none } :=
  recordOf_modRecord_of_found found _

theorem replaySlotDeadline_busy {s : State} {ctx q : Nat} {r : Record} (waits : waitingReplay s ctx q = some r)
    (full : freeSlots s ctx r.addr1 = []) (late : r.deadline ≤ (ctxOf s ctx).ctime) :
    answers (.replaySlotDeadline ctx q) s fun t =>
      ∃ x, recordOf t ctx r.handle = some x ∧ x.due = some (.busy, .none) := by
  obtain ⟨listed, -, -⟩ := mem_openRecords.1 (List.mem_of_find?_eq_some waits)
  obtain ⟨x, found⟩ := recordOf_of_mem listed
  exact ⟨_, execReplaySlotDeadline_of_full waits full late, _, setDue_due found .busy .none, rfl⟩

theorem execGraphReplayRecord_of_slot {s : State} {ctx q : Nat} {r : Record} (waits : waitingReplay s ctx q = some r)
    (slot : freeSlots s ctx r.addr1 ≠ []) (resident : (ctxOf s ctx).resident = true) :
    exec (.graphReplayRecord ctx q) s = .next (beginReplay s ctx r) := by
  have arm : exec (.graphReplayRecord ctx q) s = execGraphReplayRecord ctx q s := rfl
  have free : (freeSlots s ctx r.addr1).isEmpty = false := by simpa using slot
  simp only [arm, execGraphReplayRecord, waits, free, resident, Bool.not_true, Bool.or_false, Bool.false_eq_true, if_false]

theorem execGraphReplayRecord_of_none {s : State} {ctx q : Nat} (none : waitingReplay s ctx q = none) :
    exec (.graphReplayRecord ctx q) s = .next (readHead (· == 2) ctx q s) := by
  have arm : exec (.graphReplayRecord ctx q) s = execGraphReplayRecord ctx q s := rfl
  simp only [arm, execGraphReplayRecord, none]

theorem execWaitRecordReread_eq {s : State} {ctx h : Nat} {r : Record} (found : recordOf s ctx h = some r)
    (kind : r.kind = 4) (begun : r.begun = true) (due : r.due = none) (ended : r.ended = none)
    (resident : (ctxOf s ctx).resident = true) : exec (.waitRecordReread ctx h) s = .next (waitEval s ctx r) := by
  have arm : exec (.waitRecordReread ctx h) s = execWaitRecordReread ctx h s := rfl
  simp only [arm, execWaitRecordReread, found, kind, begun, due, ended, resident, Option.isNone_none, and_self, if_true]

/-- R310 kind 4, log 32: what a wait comes to once its word has been read. -/
theorem waitEval_record {s : State} {ctx : Nat} {r : Record} {x : Nat} {bad : Bool}
    (found : recordOf s ctx r.handle = some r) (read : readWord64 s ctx r.addr1 = .ok (x, bad)) :
    recordOf (waitEval s ctx r) ctx r.handle =
      if bad = true then some { r with due := some (.poisoned, .none), page := none }
      else if r.value ≤ x then some { r with due := some (.done, .none), page := none }
      else if r.deadline ≤ (ctxOf s ctx).ctime then some { r with due := some (.timeout, .none), page := none }
      else some r := by
  simp only [waitEval, read]
  split
  · exact setDue_due found .poisoned .none
  · split
    · exact setDue_due found .done .none
    · split
      · exact setDue_due found .timeout .none
      · exact found

/-- R312: whether a record waits for a page that is no longer met as absent. -/
def pageCame (s : State) (ctx : Nat) (r : Record) : Bool :=
  !r.begun && r.due.isNone && match r.page with
    | some v => readerPresent s ctx v
    | none => false

theorem execRecordPageResolved_of_find {s : State} {ctx q : Nat} {r : Record}
    (first : (openRecords s ctx q).find? (pageCame s ctx) = some r) (resident : (ctxOf s ctx).resident = true) :
    exec (.recordPageResolved ctx q) s = .next
      (beginRecord (modRecord s ctx r.handle fun x => { x with page := none }) ctx { r with page := none }) := by
  have arm : exec (.recordPageResolved ctx q) s = if !(ctxOf s ctx).resident then .next s else
      match (openRecords s ctx q).find? (pageCame s ctx) with
      | some r => .next
        (beginRecord (modRecord s ctx r.handle fun x => { x with page := none }) ctx { r with page := none })
      | none => .next s := rfl
  simp only [arm, resident, first, Bool.not_true, Bool.false_eq_true, if_false]

/-- The record of a queue that waits for a page that has come, all others having begun, is the one checked again. -/
theorem find?_pageCame {s : State} {ctx q v : Nat} {r : Record} (listed : r ∈ openRecords s ctx q)
    (unbegun : r.begun = false) (due : r.due = none) (page : r.page = some v) (present : readerPresent s ctx v = true)
    (others : ∀ x ∈ openRecords s ctx q, x = r ∨ x.begun = true) :
    (openRecords s ctx q).find? (pageCame s ctx) = some r := by
  have here : pageCame s ctx r = true := by simp [pageCame, unbegun, due, page, present]
  obtain ⟨x, found⟩ := Option.isSome_iff_exists.1 (List.find?_isSome.2 ⟨r, listed, here⟩)
  obtain rfl | begun := others x (List.mem_of_find?_eq_some found)
  · exact found
  · have still := List.find?_some found
    simp [pageCame, begun] at still

/-! ### Completion (13 R310, R317) -/

/-- R310: the signals of a record written: each is counted in it, and nothing else of the queues changes. -/
theorem writeSignals_writes {ctx h : Nat} {ws : List (Nat × Nat)} {s t : State} {r : Record}
    (found : recordOf s ctx h = some r) (written : writeSignals ctx h ws s = (t, none)) :
    recordOf t ctx h = some { r with wrote := r.wrote + ws.length }
      ∧ (moreOf t ctx).jobCounter = (moreOf s ctx).jobCounter ∧ ∀ key, phaseOf t ctx key = phaseOf s ctx key := by
  induction ws generalizing s r with
  | nil =>
    obtain ⟨rfl, -⟩ := Prod.mk.inj written
    exact ⟨found, rfl, fun _ => rfl⟩
  | cons w ws ih =>
    unfold writeSignals at written
    split at written
    · cases written
    next s1 stored =>
      have stand := (writeWord64_homeOnly stored).queuesStand
      obtain ⟨last, jobs, phases⟩ := ih (recordOf_modRecord_of_found ((stand.recordOf ctx h).trans found)
        fun x => { x with wrote := x.wrote + 1 }) written
      refine ⟨?_, jobs.trans (stand.jobCounter ctx), fun key => ?_⟩
      · rw [last, List.length_cons, Nat.add_assoc, Nat.add_comm 1]
      · rw [phases, phaseOf_modRecord, stand.phaseOf]

theorem leavePhase_phase {s : State} {ctx : Nat} {r : Record} {st : Status} (notMark : r.kind ≠ 5) :
    leavePhase s ctx r st = modPhase s ctx (phaseKey r.queue r.phase) fun p => { p with counter := p.counter - 1 } :=
  if_neg notMark

/-- R310: a record that leaves its phase changes a phase alone. -/
theorem leavePhase_cases (s : State) (ctx : Nat) (r : Record) (st : Status) :
    leavePhase s ctx r st = s ∨ ∃ key f, leavePhase s ctx r st = modPhase s ctx key f := by
  unfold leavePhase
  split
  · split
    · exact .inr ⟨_, _, rfl⟩
    · exact .inl rfl
  · exact .inr ⟨_, _, rfl⟩

theorem recordOf_leavePhase (s : State) (ctx h : Nat) (r : Record) (st : Status) :
    recordOf (leavePhase s ctx r st) ctx h = recordOf s ctx h := by
  obtain same | ⟨key, f, same⟩ := leavePhase_cases s ctx r st
  · rw [same]
  · rw [same, recordOf_modPhase]

theorem moreOf_leavePhase (s : State) (ctx d : Nat) (r : Record) (st : Status) :
    moreOf (leavePhase s ctx r st) d = moreOf s d := by
  obtain same | ⟨key, f, same⟩ := leavePhase_cases s ctx r st
  · rw [same]
  · rw [same, moreOf_modPhase]

/-- R49: a record counted out of its levels, with its status. -/
theorem countOut_counts {s : State} {ctx h : Nat} {r x : Record} (handle : r.handle = h)
    (found : recordOf s ctx h = some x) (st : Status × FaultCode) :
    recordOf (countOut s ctx r st) ctx h = some { x with ended := some st, due := none, page := none }
      ∧ (moreOf (countOut s ctx r st) ctx).jobCounter = (moreOf s ctx).jobCounter - 1
      ∧ (∀ y ∈ (moreOf (countOut s ctx r st) ctx).replays, y.handle ≠ h)
      ∧ (r.kind ≠ 5 → (phaseOf (countOut s ctx r st) ctx (phaseKey r.queue r.phase)).counter
          = (phaseOf s ctx (phaseKey r.queue r.phase)).counter - 1) := by
  subst handle
  unfold countOut
  extract_lets s2 s3
  refine ⟨?_, ?_, fun y listed => ?_, fun notMark => ?_⟩
  · rw [recordOf_leavePhase]
    exact recordOf_modRecord_of_found found _
  · rw [moreOf_leavePhase, moreOf_modMore, if_pos rfl]
    rfl
  · rw [moreOf_leavePhase, moreOf_modMore, if_pos rfl] at listed
    simpa using (List.mem_filter.1 listed).2
  · rw [leavePhase_phase notMark, phaseOf_modPhase, if_pos rfl]
    exact congrArg (fun p : Phase => p.counter - 1) (phaseOf_modRecord s ctx r.handle _ _)

theorem execRecordCompletion_eq {s s1 : State} {ctx h : Nat} {r : Record} {st : Status × FaultCode}
    (found : recordOf s ctx h = some r) (ended : r.ended = none) (resident : (ctxOf s ctx).resident = true)
    (result : recordResult s ctx r = some st) (written : writeSignals ctx h (signalWrites s ctx r st) s = (s1, none)) :
    exec (.recordCompletion ctx h) s = .next (finishRecord s1 ctx r st) := by
  have arm : exec (.recordCompletion ctx h) s = execRecordCompletion ctx h s := rfl
  simp only [arm, execRecordCompletion, found, ended, resident, result, written, Option.isSome_none, Bool.not_true,
    Bool.or_false, Bool.false_eq_true, if_false]

theorem finishRecord_of_ok {s : State} {ctx : Nat} {r : Record} {st : Status × FaultCode} {p : Place}
    (mapped : translateWalk s ctx r.addr { write := true } = .ok p) :
    ∃ bs, finishRecord s ctx r st = countOut ((writeVirtual s ctx (r.addr + 2) bs).getD s) ctx r st := by
  simp only [finishRecord, mapped]
  exact ⟨_, rfl⟩

/-- R310, R49: a record whose signals and status can be written has completed. -/
theorem recordCompletion_completes {s s1 : State} {ctx h : Nat} {r : Record} {st : Status × FaultCode} {p : Place}
    (found : recordOf s ctx h = some r) (ended : r.ended = none) (resident : (ctxOf s ctx).resident = true)
    (result : recordResult s ctx r = some st) (written : writeSignals ctx h (signalWrites s ctx r st) s = (s1, none))
    (mapped : translateWalk s1 ctx r.addr { write := true } = .ok p) :
    answers (.recordCompletion ctx h) s fun t =>
      recordOf t ctx h = some { r with ended := some st, due := none, page := none
                                       wrote := r.wrote + (signalWrites s ctx r st).length }
      ∧ (moreOf t ctx).jobCounter = (moreOf s ctx).jobCounter - 1
      ∧ (∀ x ∈ (moreOf t ctx).replays, x.handle ≠ h)
      ∧ (r.kind ≠ 5 → (phaseOf t ctx (phaseKey r.queue r.phase)).counter
          = (phaseOf s ctx (phaseKey r.queue r.phase)).counter - 1) := by
  obtain ⟨signalled, jobs, phases⟩ := writeSignals_writes found written
  obtain ⟨bs, finished⟩ := finishRecord_of_ok (st := st) mapped
  have stand := (writeVirtual_getD_homeOnly s1 ctx (r.addr + 2) bs).queuesStand
  obtain ⟨last, counter, replays, phase⟩ := countOut_counts (handle_of_recordOf found)
    ((stand.recordOf ctx h).trans signalled) st
  rw [stand.jobCounter, jobs] at counter
  rw [stand.phaseOf, phases] at phase
  refine ⟨_, execRecordCompletion_eq found ended resident result written, ?_⟩
  rw [finished]
  exact ⟨last, counter, replays, phase⟩

/-! ### Nodes of a graph (13 R317) -/

theorem execGraphNodeBegin_eq {s : State} {ctx h node : Nat} {x : Replay} {r : Record} {n : GraphNode}
    (replay : replayOf s ctx h = some x) (record : recordOf s ctx h = some r) (listed : x.nodes[node]? = some n)
    (ready : nodeReady x n = true) (running : x.state = .running) (resident : (ctxOf s ctx).resident = true) :
    exec (.graphNodeBegin ctx h node) s = .next (modReplay
      (newLaunch s ctx h n.descAddr n.params (queueOfRecord s ctx r).prio (queueOfRecord s ctx r).powerCap (some h)
        n.desc n.banks) ctx h fun y =>
      { y with nodes := y.nodes.modify node fun z => { z with begun := true, launch := some s.work.nextLaunch } }) := by
  have arm : exec (.graphNodeBegin ctx h node) s = execGraphNodeBegin ctx h node s := rfl
  simp only [arm, execGraphNodeBegin, replay, record, listed, ready, running, resident, beq_self_eq_true, Bool.and_self,
    if_true]

/-- R317: a node that begins has its launch, which stands in the node. -/
theorem graphNodeBegin_begins {s : State} {ctx h node : Nat} {x : Replay} {r : Record} {n : GraphNode}
    (replay : replayOf s ctx h = some x) (record : recordOf s ctx h = some r) (listed : x.nodes[node]? = some n)
    (ready : nodeReady x n = true) (running : x.state = .running) (resident : (ctxOf s ctx).resident = true) :
    answers (.graphNodeBegin ctx h node) s fun t =>
      let l := s.work.nextLaunch
      t.work.nextLaunch = l + 1 ∧ (launchOf t l).desc = n.desc ∧ (launchOf t l).params = n.params
      ∧ (launchOf t l).handle = h ∧ (launchOf t l).graph = some h ∧ (launchOf t l).bank = n.banks
      ∧ ((replayOf t ctx h).bind fun y => y.nodes[node]?) = some { n with begun := true, launch := some l } := by
  obtain ⟨-, handle, -, -, desc, params, graph, banks⟩ := launchOf_newLaunch s ctx h n.descAddr n.params
    (queueOfRecord s ctx r).prio (queueOfRecord s ctx r).powerCap (some h) n.desc n.banks
  refine ⟨_, execGraphNodeBegin_eq replay record listed ready running resident, rfl, desc, params, handle, graph, banks, ?_⟩
  have begun := replayOf_modReplay_of_found (s := newLaunch s ctx h n.descAddr n.params
    (queueOfRecord s ctx r).prio (queueOfRecord s ctx r).powerCap (some h) n.desc n.banks) replay fun y =>
    { y with nodes := y.nodes.modify node fun z => { z with begun := true, launch := some s.work.nextLaunch } }
  rw [begun]
  simp only [Option.bind_some, List.getElem?_modify_eq, listed, Option.map_eq_map, Option.map_some]

end Sys2Proof.Proofs
end

section
/-! SUPPORT. Queues reset and refilled (13 R305, R306, R323). -/

namespace Sys2Proof.Proofs

open Sys2Proof.Machine Sys2Proof.Safety

/-! ### Queue reset (13 R323) -/

theorem execQueueReset_eq {s : State} {ctx q : Nat} {c : CmdQueue} (queue : cmdQueueOf s ctx q = some c)
    (fresh : c.reset = false) :
    exec (.queueReset ctx q) s = .next (onContext
      (modCmdQueue s ctx q fun x => { x with reset := true, resetDone := false }) ctx fun x =>
      cancelRecords ((mkeys (ctxOf s ctx).phases).foldl
        (fun acc k => if k / 2 ^ 24 = q then cancelPhase acc ctx k else acc) x) ctx fun r => r.queue == q) := by
  have arm : exec (.queueReset ctx q) s = execQueueReset ctx q s := rfl
  simp only [arm, execQueueReset, queue, fresh, Bool.false_eq_true, if_false]

/-- A record dropped by a queue reset: it has ended. -/
def endDropped (s : State) (ctx : Nat) (r : Record) (x : Record) : Record :=
  { x with ended := some (((recordResult s ctx r).map Prod.fst).getD .cancelled, .none), due := none, page := none }

/-- R323: a dropped record ends every record of its handle and leaves the queues. -/
theorem dropRecord_drops (s : State) (ctx : Nat) (r : Record) :
    (ctxOf (dropRecord s ctx r) ctx).records
        = (ctxOf s ctx).records.map (fun x => if x.handle = r.handle then endDropped s ctx r x else x)
      ∧ ∀ q, cmdQueueOf (dropRecord s ctx r) ctx q = cmdQueueOf s ctx q := by
  unfold dropRecord
  extract_lets st s1 s2
  have dropped : (ctxOf s2 ctx).records
        = (ctxOf s ctx).records.map (fun x => if x.handle = r.handle then endDropped s ctx r x else x)
      ∧ ∀ q, cmdQueueOf s2 ctx q = cmdQueueOf s ctx q := by
    refine ⟨?_, fun q => cmdQueueOf_modRecord s ctx r.handle q _⟩
    have records : (ctxOf s1 ctx).records = _ :=
      congrArg Context.records ((ctxOf_modCtx s ctx ctx _).trans (if_pos rfl))
    exact records
  obtain same | ⟨key, f, same⟩ := leavePhase_cases s2 ctx r st
  · rw [same]
    exact dropped
  · rw [same, modPhase, ctxOf_modCtx, if_pos rfl]
    exact ⟨dropped.1, fun q => (cmdQueueOf_modPhase s2 ctx key q f).trans (dropped.2 q)⟩

/-- After records have been dropped, a record that has not ended is one of before, of none of their handles. -/
theorem of_mem_foldl_dropRecord {ctx : Nat} {rs : List Record} {s : State} {x : Record}
    (listed : x ∈ (ctxOf (rs.foldl (fun acc r => dropRecord acc ctx r) s) ctx).records) (live : x.ended = none) :
    x ∈ (ctxOf s ctx).records ∧ ∀ r ∈ rs, x.handle ≠ r.handle := by
  induction rs generalizing s with
  | nil => exact ⟨listed, fun _ none => absurd none List.not_mem_nil⟩
  | cons r rs ih =>
    obtain ⟨before, others⟩ := ih listed
    rw [(dropRecord_drops s ctx r).1] at before
    obtain ⟨y, here, rfl⟩ := List.mem_map.1 before
    by_cases named : y.handle = r.handle
    · simp [if_pos named, endDropped] at live
    · rw [if_neg named] at others ⊢
      exact ⟨here, List.forall_mem_cons.2 ⟨named, others⟩⟩

theorem cmdQueueOf_foldl_dropRecord (s : State) (ctx q : Nat) (rs : List Record) :
    cmdQueueOf (rs.foldl (fun acc r => dropRecord acc ctx r) s) ctx q = cmdQueueOf s ctx q :=
  foldl_keeps (fun a => cmdQueueOf a ctx q) _ (fun a r => (dropRecord_drops a ctx r).2 q) rs s

theorem execQueueResetDone_eq {s : State} {ctx q : Nat} {c : CmdQueue} (queue : cmdQueueOf s ctx q = some c)
    (reset : c.reset = true) (waiting : c.resetDone = false)
    (settled : ∀ r ∈ openRecords s ctx q, recordSettled s ctx r = true) :
    exec (.queueResetDone ctx q) s = .next (modCmdQueue
      ((openRecords s ctx q).foldl (fun acc r => dropRecord acc ctx r) s) ctx q fun x =>
      { x with resetDone := true, readIdx := x.writeIdx, seq := (x.seq + x.unread.length) % 2 ^ 24 }) := by
  have arm : exec (.queueResetDone ctx q) s = execQueueResetDone ctx q s := rfl
  simp only [arm, execQueueResetDone, queue, reset, waiting, List.all_eq_true.2 settled, Bool.not_false, Bool.and_self,
    if_true]

/-- R323: when the reset is done no record of the queue is open, and its read index stands at its write index. -/
theorem queueResetDone_resets {s : State} {ctx q : Nat} {c : CmdQueue} (queue : cmdQueueOf s ctx q = some c)
    (reset : c.reset = true) (waiting : c.resetDone = false)
    (settled : ∀ r ∈ openRecords s ctx q, recordSettled s ctx r = true) :
    answers (.queueResetDone ctx q) s fun t => openRecords t ctx q = []
      ∧ cmdQueueOf t ctx q = some { c with
          resetDone := true, readIdx := c.writeIdx, seq := (c.seq + c.unread.length) % 2 ^ 24 } := by
  refine ⟨_, execQueueResetDone_eq queue reset waiting settled, ?_, ?_⟩
  · refine List.eq_nil_iff_forall_not_mem.2 fun x still => ?_
    obtain ⟨listed, name, live⟩ := mem_openRecords.1 still
    rw [modCmdQueue, ctxOf_modCtx, if_pos rfl] at listed
    obtain ⟨before, others⟩ := of_mem_foldl_dropRecord listed live
    exact others x (mem_openRecords.2 ⟨before, name, live⟩) rfl
  · exact cmdQueueOf_modCmdQueue_of_some ((cmdQueueOf_foldl_dropRecord s ctx q _).trans queue) _

/-! ### Queues refilled (13 R305, R306) -/

/-- R306: a queue in two parts refilled: its entries stand in order, and its ring is empty or its on-die part full. -/
def refills {α : Type} (cap : Nat) (a b : List α × List α) : Prop :=
  b.1 ++ b.2 = a.1 ++ a.2 ∧ (b.2 = [] ∨ cap ≤ b.1.length)

theorem spillRefillPair_refills {α : Type} (cap : Nat) (q : List α × List α) :
    refills cap q (spillRefillPair cap q) := by
  have parts : spillRefillPair cap q = (q.1 ++ q.2.take (cap - q.1.length), q.2.drop (cap - q.1.length)) := rfl
  rw [parts]
  refine ⟨by rw [List.append_assoc, List.take_append_drop], ?_⟩
  by_cases few : q.2.length ≤ cap - q.1.length
  · exact .inl (List.drop_of_length_le few)
  · right
    rw [List.length_append, List.length_take]
    omega

/-- R305: a queue of several dies refilled: its entries stand in order, and the die of its ring's head is full. -/
def refillsAt {α : Type} (home : α → Nat) (cap : Nat) (a b : List α × List α) : Prop :=
  b.1 ++ b.2 = a.1 ++ a.2 ∧ ∀ x, b.2.head? = some x → cap ≤ (b.1.filter fun y => home y == home x).length

theorem refillFrom_refillsAt {α : Type} (home : α → Nat) (cap : Nat) (die ring : List α) :
    refillsAt home cap (die, ring) (refillFrom home cap die ring) := by
  induction ring generalizing die with
  | nil => exact ⟨rfl, fun _ head => by cases head⟩
  | cons x ring ih =>
    unfold refillFrom
    split
    next room =>
      obtain ⟨order, full⟩ := ih (die ++ [x])
      exact ⟨by rw [order, List.append_assoc, List.singleton_append], full⟩
    next full =>
      refine ⟨rfl, fun y head => ?_⟩
      obtain rfl := Option.some.inj head
      exact Nat.not_lt.1 full

@[simp] theorem rayQueueOf_modRayQueue (s : State) (l i : Nat) (f : RayQueue → RayQueue) :
    rayQueueOf (modRayQueue s l i f) l i = f (rayQueueOf s l i) := by
  simp only [rayQueueOf, modRayQueue, modRays, modWork, mgetD, mget_mset_same, Option.getD_some]

theorem binnerOf_modBinner (s : State) (b : Nat) (f : Binner → Binner) :
    binnerOf (modBinner s b f) b = f (binnerOf s b) := by
  rw [binnerOf, modBinner, dieOf_modDie, if_pos rfl, mgetD, mget_mset_same, Option.getD_some, binnerOf]

/-- A change of a binner's primitives that keeps their launches and numbers keeps their order and the parts' sizes. -/
theorem mapPrims_all_map {x : Binner} {f : BinPrim → BinPrim}
    (named : ∀ p, ((f p).launch, (f p).seq) = (p.launch, p.seq)) :
    (x.mapPrims f).all.map (fun p => (p.launch, p.seq)) = x.all.map fun p => (p.launch, p.seq) := by
  simp only [Binner.all, Binner.mapPrims, List.map_append, List.map_map, Function.comp_def, named]

/-- What the refill of a binner leaves: its primitives in order, its ring empty or its store full (16 R382). -/
def binnerRefills (a b : Binner) : Prop :=
  b.all.map (fun p => (p.launch, p.seq)) = a.all.map (fun p => (p.launch, p.seq))
    ∧ (b.ring = [] ∨ 4096 ≤ b.prims.length)

theorem refillBinner_refills (x : Binner) (n : Nat) : binnerRefills x (refillBinner x n) := by
  obtain ⟨order, full⟩ := spillRefillPair_refills 4096 (x.prims, x.ring)
  unfold refillBinner
  extract_lets p y
  have stored : binnerRefills x y := ⟨congrArg _ order, full⟩
  clear_value y
  split
  next => exact stored
  next l tile bin =>
    split
    next => exact stored
    next h head =>
      split
      next room =>
        refine ⟨(mapPrims_all_map fun p => ?_).trans stored.1, ?_⟩
        · split <;> rfl
        · simpa only [Binner.mapPrims, List.map_eq_nil_iff, List.length_map] using stored.2
      next => exact stored

/-! ### The refills of the device's queues (13 R306) -/

@[simp] theorem msgQueue_modMsg (s : State) (ctx q : Nat) (f : HwQueue → HwQueue) :
    msgQueue (modMsg s ctx q f) ctx q = f (msgQueue s ctx q) := by
  simp only [msgQueue, modMsg, ctxOf_modCtx, if_true, mgetD, mget_mset_same, Option.getD_some]

theorem spillRefill_message {s : State} {ctx n : Nat} (context : (mget s.ctxs ctx).isSome = true) :
    answers (.spillRefill (.message ctx n)) s fun t =>
      refills 256 ((mgetD (ctxOf s ctx).msgs n {}).die, (mgetD (ctxOf s ctx).msgs n {}).ring)
        ((mgetD (ctxOf t ctx).msgs n {}).die, (mgetD (ctxOf t ctx).msgs n {}).ring) := by
  have arm : exec (.spillRefill (.message ctx n)) s
      = .next (if (mget s.ctxs ctx).isSome then modMsg s ctx n (HwQueue.refill 256) else s) := rfl
  refine ⟨_, arm, ?_⟩
  beta_reduce
  rw [if_pos context, ← msgQueue, ← msgQueue, msgQueue_modMsg]
  exact spillRefillPair_refills 256 _

theorem spillRefill_atlas {s : State} {ctx : Nat} (context : (mget s.ctxs ctx).isSome = true) :
    answers (.spillRefill (.atlas ctx)) s fun t =>
      refills 256 ((ctxOf s ctx).atlas.die, (ctxOf s ctx).atlas.ring)
        ((ctxOf t ctx).atlas.die, (ctxOf t ctx).atlas.ring) := by
  have arm : exec (.spillRefill (.atlas ctx)) s = .next (if (mget s.ctxs ctx).isSome then
      modCtx s ctx fun c => { c with atlas := c.atlas.refill 256 } else s) := rfl
  refine ⟨_, arm, ?_⟩
  beta_reduce
  rw [if_pos context, ctxOf_modCtx, if_pos rfl]
  exact spillRefillPair_refills 256 ((ctxOf s ctx).atlas.die, (ctxOf s ctx).atlas.ring)

theorem spillRefill_svc {s : State} {ctx : Nat} (context : (mget s.ctxs ctx).isSome = true) :
    answers (.spillRefill (.svc ctx)) s fun t =>
      refillsAt callHome 32 ((ctxOf s ctx).svcQ.die, (ctxOf s ctx).svcQ.ring)
        ((ctxOf t ctx).svcQ.die, (ctxOf t ctx).svcQ.ring) := by
  have arm : exec (.spillRefill (.svc ctx)) s = .next (if (mget s.ctxs ctx).isSome then
      modCtx s ctx fun c => { c with svcQ := c.svcQ.refillFor callHome 32 } else s) := rfl
  refine ⟨_, arm, ?_⟩
  beta_reduce
  rw [if_pos context, ctxOf_modCtx, if_pos rfl]
  exact refillFrom_refillsAt callHome 32 _ _

theorem spillRefill_spawn {s : State} {l : Nat} (launch : (mget s.work.launches l).isSome = true) :
    answers (.spillRefill (.spawn l)) s fun t =>
      refillsAt SpawnEntry.home 64 ((launchOf s l).spawnQ, (launchOf s l).spawnRing)
        ((launchOf t l).spawnQ, (launchOf t l).spawnRing) := by
  have arm : exec (.spillRefill (.spawn l)) s = .next (modLaunch s l fun k =>
      let p := refillHome SpawnEntry.home 64 (k.spawnQ, k.spawnRing)
      { k with spawnQ := p.1, spawnRing := p.2 }) := rfl
  refine ⟨_, arm, ?_⟩
  beta_reduce
  rw [launchOf_modLaunch_of_isSome _ _ _ launch]
  exact refillFrom_refillsAt SpawnEntry.home 64 _ _

theorem spillRefill_subtree {s : State} {l i : Nat}
    (queue : (mget (mgetD s.work.rays l {}).queues i).isSome = true) :
    answers (.spillRefill (.subtree l i)) s fun t =>
      refills (queueCap s (rayQueueOf s l i).home (rayQueueOf s l i)) ((rayQueueOf s l i).die, (rayQueueOf s l i).ring)
        ((rayQueueOf t l i).die, (rayQueueOf t l i).ring) := by
  have arm : exec (.spillRefill (.subtree l i)) s = .next (if (mget (mgetD s.work.rays l {}).queues i).isSome then
      modRayQueue s l i fun x =>
        let p := spillRefillPair (queueCap s x.home x) (x.die, x.ring)
        { x with die := p.1, ring := p.2 }
      else s) := rfl
  refine ⟨_, arm, ?_⟩
  beta_reduce
  rw [if_pos queue, rayQueueOf_modRayQueue]
  exact spillRefillPair_refills _ _

theorem spillRefill_bin {s : State} {b n : Nat} (listed : b < 8) :
    answers (.spillRefill (.bin b n)) s fun t => binnerRefills (binnerOf s b) (binnerOf t b) := by
  have arm : exec (.spillRefill (.bin b n)) s
      = .next (if b < 8 then modBinner s b fun x => refillBinner x n else s) := rfl
  refine ⟨_, arm, ?_⟩
  beta_reduce
  rw [if_pos listed, binnerOf_modBinner]
  exact refillBinner_refills _ n

theorem spillRefill_fault {s : State} {die : Nat} (listed : die < 4) :
    answers (.spillRefill (.fault die)) s fun t =>
      refills 256 ((dieOf s die).fault.queue, (dieOf s die).fault.ring)
        ((dieOf t die).fault.queue, (dieOf t die).fault.ring) := by
  have arm : exec (.spillRefill (.fault die)) s = .next (if die < 4 then
      modDie s die fun d =>
        let p := spillRefillPair 256 (d.fault.queue, d.fault.ring)
        { d with fault := { d.fault with queue := p.1, ring := p.2 } }
      else s) := rfl
  refine ⟨_, arm, ?_⟩
  beta_reduce
  rw [if_pos listed, dieOf_modDie, if_pos rfl]
  exact spillRefillPair_refills 256 ((dieOf s die).fault.queue, (dieOf s die).fault.ring)

end Sys2Proof.Proofs
end

section
/-! PROOF. Command queues, records, graphs and waits (13 R306, R308 to R312, R317, R318, R322, R323). -/

namespace Sys2Proof.Proofs

open Sys2Proof.Machine Sys2Proof.Safety

/-- R308: the doorbell of a command queue moves its write index. -/
theorem doorbellWrite_queue {s : State} {page ctx q : Nat} {c : CmdQueue} {v : Word} (reach : hostReach s = true)
    (bound : pageContext s page = some ctx) (few : q < 256) (queue : cmdQueueOf s ctx q = some c)
    (inside : v.toNat < c.size) : answers (.doorbellWrite page (4 * q) v) s fun t =>
      cmdQueueOf t ctx q = some { c with writeIdx := v.toNat } ∧ t.power.asleep = false ∧ t.mem = s.mem := by
  have rung := ringDoorbell_queue queue few inside
  have moved : cmdQueueOf (ringDoorbell s ctx (4 * q) v.toNat) ctx q = some { c with writeIdx := v.toNat } := by
    rw [rung, cmdQueueOf_modCmdQueue_of_some queue]
  have memory : (ringDoorbell s ctx (4 * q) v.toNat).mem = s.mem := by
    rw [rung]
    rfl
  exact ⟨_, execDoorbellWrite_eq reach bound (4 * q) v, moved, rfl, memory⟩

/-- R308: the doorbells of a context's service and transfer rings move their write indices. -/
theorem doorbellWrite_ring {s : State} {page ctx : Nat} {v : Word} (reach : hostReach s = true)
    (bound : pageContext s page = some ctx) (context : (mget s.ctxs ctx).isSome = true) :
    (v.toNat < (ctxOf s ctx).f.svcrSize →
      answers (.doorbellWrite page 0x800 v) s fun t => (ctxOf t ctx).svcrWrite = v.toNat)
    ∧ (v.toNat < (ctxOf s ctx).f.xfrSize →
      answers (.doorbellWrite page 0xC00 v) s fun t => (ctxOf t ctx).xfrWrite = v.toNat) := by
  refine ⟨fun inside => ?_, fun inside => ?_⟩
  · have moved : (ctxOf (ringDoorbell s ctx 0x800 v.toNat) ctx).svcrWrite = v.toNat := by
      rw [ringDoorbell_svcr context inside, ctxOf_modCtx, if_pos rfl]
    exact ⟨_, execDoorbellWrite_eq reach bound _ v, moved⟩
  · have moved : (ctxOf (ringDoorbell s ctx 0xC00 v.toNat) ctx).xfrWrite = v.toNat := by
      rw [ringDoorbell_xfr context inside, ctxOf_modCtx, if_pos rfl]
    exact ⟨_, execDoorbellWrite_eq reach bound _ v, moved⟩

/-- Settles O50: the reader's clauses by what `readHead` makes of the record at a queue's head, the completion by what
`writeSignals` and `countOut` leave, the queues' refills by one lemma for each of the three orders of refilling. -/
theorem recordEvents : Obligations.RecordEvents := by
  unfold Obligations.RecordEvents
  intro refilled refilledAt head reads
  refine ⟨?_, ?_, ?_, ?_, ?_, ?_, ?_, ?_, ?_, ?_, ?_, ?_, ?_, ?_, ?_, ?_, ?_, ?_, ?_, ?_, ?_⟩
  · exact fun s page ctx q c v => doorbellWrite_queue
  · exact fun s page ctx v => doorbellWrite_ring
  · exact fun s ctx few => if_pos few
  · refine fun s ctx q c b here kind unmarked _ =>
      answers_recordRead (kind := fun k => k == 1 || k == 0 || decide (6 < k)) rfl here ?_ unmarked (by omega)
    simpa [or_assoc] using kind
  · exact fun s ctx q c b here kind unmarked none => answers_recordRead (kind := (· == 2))
      (execGraphReplayRecord_of_none (none kind)) here (beq_iff_eq.2 kind) unmarked (by omega)
  · exact fun s ctx q c b here kind unmarked _ => answers_recordRead (kind := (· == 3)) rfl here (beq_iff_eq.2 kind)
      unmarked (by omega)
  · exact fun s ctx q c b here kind unmarked _ => answers_recordRead (kind := (· == 4)) rfl here (beq_iff_eq.2 kind)
      unmarked (by omega)
  · exact fun s ctx q c b here kind unmarked _ => answers_recordRead (kind := (· == 5)) rfl here (beq_iff_eq.2 kind)
      unmarked (by omega)
  · exact fun s ctx q c b here kind =>
      congrArg Host.Outcome.next (readHead_eq_takeHead (kind := (· == 6)) here (beq_iff_eq.2 kind))
  · exact fun s ctx q r waits => ⟨execGraphReplayRecord_of_slot waits, replaySlotDeadline_busy waits⟩
  · intro s ctx h x bad r found kind begun due ended resident read
    obtain rfl := handle_of_recordOf found
    exact ⟨_, execWaitRecordReread_eq found kind begun due ended resident, waitEval_record found read⟩
  · exact fun s ctx q v r listed unbegun due page present others resident =>
      execRecordPageResolved_of_find (find?_pageCame listed unbegun due page present others) resident
  · exact fun s s1 ctx h r st found ended resident result written ⟨p, mapped⟩ =>
      recordCompletion_completes found ended resident result written mapped
  · exact fun s ctx h node x r n => graphNodeBegin_begins
  · exact fun s ctx q c queue fresh => ⟨execQueueReset_eq queue fresh, cmdQueueOf_modCmdQueue_of_some queue _⟩
  · exact fun s ctx q c => queueResetDone_resets
  · exact fun s ctx n context => ⟨spillRefill_message context, spillRefill_atlas context, spillRefill_svc context⟩
  · exact fun s l i launch => ⟨spillRefill_spawn launch, spillRefill_subtree⟩
  · exact fun s b n => spillRefill_bin
  · exact fun s die => spillRefill_fault
  · exact fun s ctx q watts c => powerBudgetEval_throttle watts

end Sys2Proof.Proofs
end

section
/-! PROOF of the statement on the class-0 forms of the Coachman, O8 (03 R73, 05 R107 to R120, 14 R334). -/

namespace Sys2Proof.Proofs

open Sys2Proof.Machine Sys2Proof.Safety

/-! ### One rule for a result of the Coachman -/

section
variable {i : Instr} {g : Guard} {d : Dst}

theorem coachResult_of_writeCoach {op val : Coach → DWord}
    (arm : ∀ s, s.cur.agent = .coachman → exec i s = .next (writeCoach s g d op)) (value : ∀ c, op c = val c) :
    coachResult i g d fun _ c => val c := by
  obtain rfl : op = val := funext value
  exact fun s agent => ⟨_, arm s agent, writeCoach_result s g d op⟩

theorem aluForm_coachman {s : State} (agent : s.cur.agent = .coachman) (f : FormA)
    (op : (w : Nat) → BitVec w → BitVec w → BitVec w → BitVec w) :
    aluForm s f op = writeCoach s f.x.guard f.dst fun c =>
      op 64 (srcCoach c f.a) (srcCoach c f.b) (srcCoach c f.x.srcC) := by
  simp only [aluForm, agent]

end

/-- 14 R334: forms with one 64-bit result, by their three sources. -/
def coachValue (i : FormA → Instr) (val : FormA → DWord → DWord → DWord → DWord) : Prop :=
  ∀ f : FormA, coachResult (i f) f.x.guard f.dst fun _ c => val f (srcCoach c f.a) (srcCoach c f.b) (srcCoach c f.x.srcC)

/-- A form that computes one value of the agent's width gives 64 bits on the Coachman. -/
theorem coachValue_of_aluForm {i : FormA → Instr}
    {op : FormA → (w : Nat) → BitVec w → BitVec w → BitVec w → BitVec w} {val : FormA → DWord → DWord → DWord → DWord}
    (arm : ∀ f s, exec (i f) s = .next (aluForm s f (op f))) (value : ∀ f a b c, op f 64 a b c = val f a b c) :
    coachValue i val := fun f =>
  coachResult_of_writeCoach (fun s agent => (arm f s).trans (congrArg _ (aluForm_coachman agent f (op f))))
    fun _ => value f _ _ _

/-! ### The values at 64 bits (05 R106, R116) -/

/-- `Fin` at the Coachman's width, in the terms of the statement. -/
theorem fin_coach (sat u : Bool) (x : Int) :
    fin sat u 64 x = BitVec.ofInt 64 (if !sat then x
      else if u then max 0 (min (2 ^ 64 - 1) x) else max (-2 ^ 63) (min (2 ^ 63 - 1) x)) := by
  cases sat
  · exact fin_wrap u 64 x
  · cases u
    · exact fin_sat_signed 64 x
    · exact fin_sat_unsigned 64 x

/-! ### `ADDC` (05 R108, 14 R334) -/

theorem coach_get_set_reg (c : Coach) (n : Nat) (x : DWord) (m : Nat) :
    (c.set n x).get m = if m = n then x else c.get m := by
  simp only [Coach.get, Coach.set, mgetD, mget_mset]
  split <;> rfl

/-- A Coachman with a result, read back. -/
theorem coachOf_put (s : State) (core j : Nat) (d : Dst) (x : DWord) :
    let c := coachOf s core
    let c' := c.put j d x
    (∀ m, c'.get m = if d = .reg (BitVec.ofNat 7 m) ∧ m < 128 then x else c.get m)
    ∧ (∀ k, mgetD c'.latch k 0 = if k = j then x else mgetD c.latch k 0)
    ∧ c' = { c with m := c'.m, latch := c'.latch } := by
  obtain ⟨regs, latches, rest, -⟩ := modCoach_coachPuts s core j d x
  rw [coachOf_modCoach, if_pos rfl] at rest
  simp only [coachOf_modCoach, if_true] at regs latches
  exact ⟨regs, latches, rest⟩

/-- The Coachman's `ADDC`: the sum to the m register and the latch, then the carry to the m register of the carry-out select. -/
theorem addcCoach_wrote (s : State) (core j : Nat) (f : FormA) :
    let c := coachOf s core
    let c' := addcCoach j f c
    let sum := (srcCoach c f.a).toNat + (srcCoach c f.b).toNat + (carryIn f fun n => c.get n != 0).toNat
    (∀ m, c'.get m = if m + 1 = f.field 6 4 then (if 2 ^ 64 ≤ sum then 1 else 0)
        else if f.dst = .reg (BitVec.ofNat 7 m) ∧ m < 128 then BitVec.ofNat 64 sum else c.get m)
    ∧ (∀ k, mgetD c'.latch k 0 = if k = j then BitVec.ofNat 64 sum else mgetD c.latch k 0)
    ∧ c' = { c with m := c'.m, latch := c'.latch } := by
  intro c c' sum
  obtain ⟨regs, latches, rest⟩ := coachOf_put s core j f.dst (BitVec.ofNat 64 sum)
  have carry : boolV 64 (addcCarry (srcCoach c f.a) (srcCoach c f.b) (carryIn f fun n => c.get n != 0))
      = if 2 ^ 64 ≤ sum then 1 else 0 := by simp only [boolV, addcCarry, decide_eq_true_eq, sum]
  have acted : c' = if f.field 6 4 = 0 then c.put j f.dst (BitVec.ofNat 64 sum)
      else (c.put j f.dst (BitVec.ofNat 64 sum)).set (f.field 6 4 - 1) (if 2 ^ 64 ≤ sum then 1 else 0) := by
    rw [← carry]
    rfl
  rw [acted]
  by_cases discard : f.field 6 4 = 0
  · rw [if_pos discard]
    exact ⟨fun m => by rw [discard, if_neg m.succ_ne_zero]; exact regs m, latches, rest⟩
  · rw [if_neg discard]
    refine ⟨fun m => ?_, latches, ?_⟩
    · have select : m = f.field 6 4 - 1 ↔ m + 1 = f.field 6 4 := by omega
      rw [coach_get_set_reg]
      simp only [select]
      exact congrArg (ite _ _) (regs m)
    · rw [rest]
      rfl

theorem execAddc_coachman {f : FormA} {s : State} (agent : s.cur.agent = .coachman) :
    exec (.addc f) s = .next (modCoach s s.cur.core fun c =>
      if guardCoach f.x.guard c then addcCoach (latchIndex s) f c else c.skip (latchIndex s) f.dst) := by
  have arm : exec (.addc f) s = execAddc f s := rfl
  simp only [arm, execAddc, agent]

/-- Settles O8: each form by its value at 64 bits, and `ADDC` by what it leaves of the Coachman. -/
theorem coachmanForms : Obligations.CoachmanForms := by
  unfold Obligations.CoachmanForms
  intro rd clamp neg amount pos len on
  rw [show on = coachValue from rfl]
  refine ⟨?iadd, ?isub, ?iadd3, ?imul, ?imulh, ?imad, ?imin, ?imax, ?and, ?or, ?xor, ?not, ?mov, ?shl, ?shr, ?sar, ?lea, ?popc,
    ?bfx, ⟨bfiV, ?bfi, fun a b q i below => ?field⟩, ⟨clzCount, ?clz, clzCount_spec⟩, ⟨ctzCount, ?ctz, ctzCount_spec⟩,
    fun f toReg => ?iset, fun f => ?movi, fun f => ?movh, fun f s agent => ?addc⟩
  case iadd | isub | iadd3 | imul | imad => exact coachValue_of_aluForm (fun _ _ => rfl) fun f a b c => fin_coach _ _ _
  case imulh | imin | imax | and | or | xor | not | mov | popc | bfi | clz | ctz =>
    exact coachValue_of_aluForm (fun _ _ => rfl) fun f a b c => rfl
  case shl => exact coachValue_of_aluForm (fun _ _ => rfl) fun f a b c => shlV_eq _ _ _
  case shr => exact coachValue_of_aluForm (fun _ _ => rfl) fun f a b c => shrV_eq _ _ _
  case sar => exact coachValue_of_aluForm (fun _ _ => rfl) fun f a b c => sarV_eq _ _ _
  case lea => exact coachValue_of_aluForm (fun _ _ => rfl) fun f a b c => leaV_eq _ _ _
  case bfx => exact coachValue_of_aluForm (fun _ _ => rfl) fun f a b c => bfxV_eq _ _ _
  case field => exact getLsbD_bfiV a b q i below
  case iset =>
    have arm (s : State) (agent : s.cur.agent = .coachman) :
        exec (.iset f) s = .next (writeCoach s f.x.guard f.dst fun c => boolV 64
          (compareV (f.bit 0) (f.field 3 1) (srcCoach c f.a) (srcCoach c f.b))) := by
      show execIset f s = _
      simp only [execIset, agent]
    exact coachResult_of_writeCoach arm fun c => rfl
  case movi =>
    have arm (s : State) (agent : s.cur.agent = .coachman) :
        exec (.movi f) s = .next (writeCoach s ⟨false, 0⟩ f.dst fun _ => f.imm.setWidth 64) := by
      show execMovi f s = _
      simp only [execMovi, agent]
    exact coachResult_of_writeCoach arm fun c => rfl
  case movh =>
    have arm (s : State) (agent : s.cur.agent = .coachman) :
        exec (.movh f) s = .next (writeCoach s ⟨false, 0⟩ f.dst fun c => movhCoach f c) := by
      show execMovh f s = _
      simp only [execMovh, agent]
    refine coachResult_of_writeCoach arm fun c => ?_
    unfold movhCoach
    cases f.dst <;> rfl
  case addc =>
    obtain ⟨here, others, rest⟩ := modCoach_current s fun c =>
      if guardCoach f.x.guard c then addcCoach (latchIndex s) f c else c.skip (latchIndex s) f.dst
    refine ⟨_, execAddc_coachman agent, ?_⟩
    dsimp only
    rw [here]
    by_cases on : guardCoach f.x.guard (coachOf s s.cur.core) = true
    · obtain ⟨regs, latches, frame⟩ := addcCoach_wrote s s.cur.core (latchIndex s) f
      simp only [on, true_and, forall_const, if_true]
      exact ⟨regs, latches, frame, others, rest⟩
    · obtain ⟨regs, -, frame, -⟩ := modCoach_coachKeeps s s.cur.core (latchIndex s) f.dst
      rw [coachOf_modCoach, if_pos rfl] at frame
      simp only [coachOf_modCoach, if_true] at regs
      have same := congrArg Coach.m frame
      simp only [Bool.eq_false_iff.2 on, Bool.false_eq_true, false_and, if_false, false_implies, true_and]
      exact ⟨regs, by rw [same]; exact frame, others, rest⟩

end Sys2Proof.Proofs
end

section
/-! PROOF of the statement on the copy forms, O22 (14 R335 to R338). -/

namespace Sys2Proof.Proofs

open Sys2Proof.Machine Sys2Proof.Safety

/-! ### The checks of a command block (14 R338) -/

theorem copyMisaligned_eq_true_iff (c : CopyCmd) : copyMisaligned c = true ↔
    ¬ (c.src.toNat % 32 = 0 ∧ c.dst.toNat % 32 = 0 ∧ dbits c.stride 31 0 % 32 = 0 ∧ dbits c.stride 63 32 % 32 = 0
      ∧ dbits c.control 63 40 % 4 = 0) := by
  simp only [copyMisaligned, CopyCmd.sstr, CopyCmd.dstr, Bool.or_eq_true, bne_iff_ne]
  tauto

/-- Check 1 comes before the others, and only it gives `ALIGNMENT`. -/
theorem copyBad_alignment_iff (s : State) (c : CopyCmd) : copyBad s c = some .alignment ↔ copyMisaligned c = true := by
  by_cases misaligned : copyMisaligned c = true
  · exact iff_of_true (if_pos misaligned) misaligned
  · refine iff_of_false ?_ misaligned
    rw [copyBad, if_neg misaligned]
    split <;> simp

/-! ### Posting (14 R336, R338) -/

/-- What a posted command changes: the queue, the tickets, and the posts of its block. -/
theorem postCopy_posts (s : State) (c : CopyCmd) :
    coreOf (postCopy s c) c.core = { coreOf s c.core with
      copyQ := (coreOf s c.core).copyQ ++ [{ c with released := copyEdgesClear s c }]
      copyTicket := c.ticket
      copyWrapped := (coreOf s c.core).copyWrapped || (coreOf s c.core).copyTicket == 0xFFFFFFFF }
    ∧ (∀ g, g ≠ c.core → coreOf (postCopy s c) g = coreOf s g)
    ∧ syncOf (postCopy s c) c.block = { syncOf s c.block with posts := (syncOf s c.block).posts + 1 }
    ∧ (∀ b, b ≠ c.block → syncOf (postCopy s c) b = syncOf s b)
    ∧ postCopy s c = { s with cores := (postCopy s c).cores
                              work := { s.work with sync := (postCopy s c).work.sync } } := by
  have cores (g : Nat) : coreOf (postCopy s c) g = coreOf (modCore s c.core fun k => { k with
      copyQ := k.copyQ ++ [{ c with released := copyEdgesClear s c }]
      copyTicket := c.ticket
      copyWrapped := k.copyWrapped || k.copyTicket == 0xFFFFFFFF }) g := rfl
  refine ⟨?_, fun g other => ?_, ?_, fun b other => ?_, rfl⟩
  · rw [cores, coreOf_modCore, if_pos rfl]
  · rw [cores, coreOf_modCore, if_neg other]
  · rw [postCopy, syncOf_modSync, if_pos rfl]
    rfl
  · rw [postCopy, syncOf_modSync, if_neg other]
    rfl

/-! ### The forms (14 R336, R338) -/

section
variable {s : State} {op : Nat} {f : FormA}

theorem copyForm_of_off (off : guardCoach f.x.guard (coachOf s s.cur.core) = false) :
    copyForm s op f = modCoach s s.cur.core fun x => x.skip (latchIndex s) f.dst := by
  simp only [copyForm, off, Bool.not_false, if_true]

variable (on : guardCoach f.x.guard (coachOf s s.cur.core) = true)
include on

theorem copyForm_of_bad {e : FaultCode} (bad : copyBad s (copyCmdOf s op (coachOf s s.cur.core) f) = some e) :
    copyForm s op f = faultAt s e s.cur.word := by
  simp only [copyForm, on, bad, Bool.not_true, Bool.false_eq_true, if_false]

variable (good : copyBad s (copyCmdOf s op (coachOf s s.cur.core) f) = none)
include good

theorem copyForm_of_full (full : 16 ≤ (coreOf s s.cur.core).copyQ.length) :
    copyForm s op f = modCoach s s.cur.core fun x => x.put (latchIndex s) f.dst 0 := by
  simp only [copyForm, on, good, full, Bool.not_true, Bool.false_eq_true, if_false, if_true]

theorem copyForm_of_room (room : (coreOf s s.cur.core).copyQ.length < 16) :
    copyForm s op f = modCoach (postCopy s (copyCmdOf s op (coachOf s s.cur.core) f)) s.cur.core fun x =>
      x.put (latchIndex s) f.dst (BitVec.ofNat 64 (copyCmdOf s op (coachOf s s.cur.core) f).ticket) := by
  simp only [copyForm, on, good, Nat.not_le.2 room, Bool.not_true, Bool.false_eq_true, if_false]

end

/-- Settles O22: the five forms are one, by the guard, the checks and the room of the queue. -/
theorem copiesPost : Obligations.CopiesPost := by
  unfold Obligations.CopiesPost
  intro form
  have posts {i : FormA → Instr} {op : Nat} (arm : ∀ f s, exec (i f) s = .next (copyForm s op f)) : form i op := by
    intro f s _
    refine ⟨fun off => ?off, fun on => ?on⟩
    case off => exact ⟨_, (arm f s).trans (congrArg _ (copyForm_of_off off)), modCoach_coachKeeps s _ _ _⟩
    case on =>
      intro k n last c
      refine ⟨fun e bad => ?bad, fun good full => ?full, fun good room => ?room, ?alignment⟩
      case bad => rw [arm, copyForm_of_bad on bad]
      case full => exact ⟨_, (arm f s).trans (congrArg _ (copyForm_of_full on good full)), modCoach_coachPuts s _ _ _ _⟩
      case room =>
        exact ⟨_, (arm f s).trans (congrArg _ (copyForm_of_room on good room)), postCopy s c,
          modCoach_coachPuts _ _ _ _ _, postCopy_posts s c⟩
      case alignment => exact (copyBad_alignment_iff s c).trans (copyMisaligned_eq_true_iff c)
  exact ⟨posts fun _ _ => rfl, posts fun _ _ => rfl, posts fun _ _ => rfl, posts fun _ _ => rfl, posts fun _ _ => rfl⟩

end Sys2Proof.Proofs
end

section
/-! SUPPORT. Forms whose every wait looks at one result of the state, and forms in which the Coachman acts (03 R73, 14 R332,
R348, R352). -/

namespace Sys2Proof.Proofs

open Sys2Proof.Machine Sys2Proof.Safety

/-! ### Waits for a result -/

/-- A lane that looks for a result: one that there is ends its wait, else it blocks or is too late. -/
def laneWaits (f : FormW) (now : State → Nat → Thread → Option NowDone) (kind : State → Thread → WaitKind) (a : State)
    (u : Nat) (t : Thread) : State :=
  match now a u t with
  | some q => endAtIssue q.state u f.dst f.x.deadline f.x.esc q.status q.value q.acquire q.more
  | none => blockOrExpire a u t f.dst f.x.deadline f.x.esc (kind a t) .timeout Status.timeout.word

/-- A form of the cores whose lanes look for a result in turn. -/
theorem waitForm_of_laneWaits {i : Instr} {f : FormW} {now : State → Nat → Thread → Option NowDone}
    {kind : State → Thread → WaitKind} (arm : ∀ s, s.cur.agent = .core → exec i s
      = .next ((activeLanes s f.x.guard).foldl (fun acc p => laneWaits f now kind acc p.1 p.2) s)) :
    waitForm i f (fun _ => True) (fun s => s) (fun _ => now) (fun _ a _ t => (a, t, kind a t))
      fun _ _ _ _ => (.timeout, 1) := by
  intro s agent _
  refine ⟨_, arm s agent, chain_foldl (fun a p => ?_) _ s⟩
  dsimp only [laneWaits]
  cases now a p.1 p.2 with
  | some q => exact endAtIssue_endsNow q.state p.1 f q.status q.value q.acquire q.more
  | none => exact blockOrExpire_ends_or_blocks a p.1 p.2 f (kind a p.2) .timeout 1

/-! ### Forms in which the Coachman acts -/

theorem coachAct_of_on {s : State} {g : Guard} {d : Dst} {act : Coach → State × DWord}
    (on : guardCoach g (coachOf s s.cur.core) = true) :
    coachAct s g d act = modCoach (act (coachOf s s.cur.core)).1 s.cur.core fun c =>
      c.put (latchIndex s) d (act (coachOf s s.cur.core)).2 := if_pos on

theorem coachAct_of_off {s : State} {g : Guard} {d : Dst} {act : Coach → State × DWord}
    (off : ¬ guardCoach g (coachOf s s.cur.core) = true) :
    coachAct s g d act = modCoach s s.cur.core fun c => c.skip (latchIndex s) d := if_neg off

/-- A form of the Coachman without conditions. -/
theorem coachForm_of_coachAct {i : Instr} {g : Guard} {d : Dst} {act : State → Coach → State × DWord}
    (arm : ∀ s, s.cur.agent = .coachman → exec i s = .next (coachAct s g d (act s))) :
    coachForm i g d (fun _ => True) (fun _ _ => True) act := by
  intro s agent _ c
  rw [answers, answers, arm s agent]
  split
  next on => exact fun _ => ⟨_, congrArg _ (coachAct_of_on on), modCoach_coachPuts _ _ _ d _⟩
  next off => exact fun _ => ⟨_, congrArg _ (coachAct_of_off off), modCoach_coachKeeps s _ _ d⟩

end Sys2Proof.Proofs
end

section
/-! PROOF of the statement on transaction barriers, O35 (14 R345 to R348, 22 R507). -/

namespace Sys2Proof.Proofs

open Sys2Proof.Machine Sys2Proof.Safety

/-! ### What a form does to a barrier (14 R346, R348) -/

theorem settleTb_eq (b : TxBarrier) : b.settle = if b.valid = true ∧ b.arr = 0 ∧ b.sect = 0 then
    { b with phase := (b.phase + 1) % 16, arr := b.init, flag := 0 } else b := by
  simp only [TxBarrier.settle, Bool.and_eq_true, beq_iff_eq, and_assoc]

/-- `TBI` answers 8 on a barrier in use or a count beyond 2047. -/
theorem initTb_eq (b : TxBarrier) (n : Nat) : ((b.initTb n).1, (b.initTb n).2.code) =
    if (b.valid = true ∧ (b.arr ≠ b.init ∨ b.sect ≠ 0)) ∨ 2047 < n then (b, 8)
    else if n = 0 then ({ b with valid := false }, 0)
    else ({ b with valid := true, init := n, arr := n, sect := 0, flag := 0 }, 0) := by
  simp only [TxBarrier.initTb, Bool.or_eq_true, Bool.and_eq_true, bne_iff_ne, decide_eq_true_eq]
  split
  · rfl
  · split <;> rfl

theorem arriveTb_eq (b : TxBarrier) : b.arriveTb = if b.valid = false ∨ b.arr = 0 then (b, b.phase + 2 ^ 31)
    else ({ b with arr := b.arr - 1 }.settle, b.phase) := by
  simp only [TxBarrier.arriveTb, Bool.or_eq_true, Bool.not_eq_true', beq_iff_eq]

theorem expectTb_eq (b : TxBarrier) (n : Nat) : ((b.expectTb n).1, (b.expectTb n).2.code) =
    if b.valid = false ∨ (2 : Int) ^ 31 - 1 < b.sect + n then (b, 8)
    else ({ b with sect := b.sect + n }.settle, 0) := by
  simp only [TxBarrier.expectTb, Bool.or_eq_true, Bool.not_eq_true', decide_eq_true_eq]
  split <;> rfl

/-- R348: a phase that is over, or one that a flag or a barrier out of use ends. -/
theorem resultTb_eq (b : TxBarrier) (phase : Nat) : b.result phase =
    let d := (b.phase + 16 - phase % 16) % 16
    if 1 ≤ d ∧ d ≤ 7 then some .done
    else if 8 ≤ d then some .stalePhase
    else if b.valid = false then some .busy
    else if b.flag = 0 then none
    else if b.flag = 1 then some .faulted
    else if b.flag = 2 then some .poisoned
    else some .cancelled := by
  have flags : (if b.flag ≠ 0 then some (flagStatus b.flag) else none) = if b.flag = 0 then none
      else if b.flag = 1 then some .faulted else if b.flag = 2 then some .poisoned else some .cancelled := by
    simp only [flagStatus, ne_eq, ite_not, apply_ite some]
  simp only [TxBarrier.result, Bool.not_eq_true', flags]

/-- 22 R507: a thread that reads a poisoned barrier consumes poison. -/
theorem readTb_eq (a : State) (core i u block : Nat) : readTb a core i u block =
    if i ∈ (coreOf a core).badTbs then consumePoison a u block { clause := a.cur.addr } else a := by
  simp only [readTb, consumeLane, List.contains_iff_mem]

/-! ### The forms on both agents -/

/-- A form on a transaction barrier, on either agent: what it makes of the barrier and of its operand. -/
def barrierForm (i : FormA → Instr) (whole : Bool) (act : TxBarrier → Nat → TxBarrier × Nat) : Prop :=
  (∀ f : FormA, turnForm (i f) f.x.guard f.dst (fun _ => True) (fun s => s) (fun _ _ => True) fun s a u t =>
    let q := act (tbOf a s.cur.core (f.field 5 0)) (srcWord t .a f.a).toNat
    (putTb (if whole then a else readTb a s.cur.core (f.field 5 0) u t.block) s.cur.core (f.field 5 0) whole q.1,
      BitVec.ofNat 32 q.2))
  ∧ ∀ f : FormA, coachForm (i f) f.x.guard f.dst (fun _ => True) (fun _ _ => True) fun s c =>
    let q := act (tbOf s s.cur.core (f.field 5 0)) (srcCoach c f.a).toNat
    (putTb s s.cur.core (f.field 5 0) whole q.1, BitVec.ofNat 64 q.2)

theorem tbForm_core {s : State} (agent : s.cur.agent = .core) (f : FormA) (whole : Bool)
    (act : TxBarrier → Nat → TxBarrier × Nat) :
    tbForm s f whole act = eachLane s f.x.guard f.dst fun acc u t =>
      let q := act (tbOf acc s.cur.core (f.field 5 0)) (srcWord t .a f.a).toNat
      (putTb (if whole then acc else readTb acc s.cur.core (f.field 5 0) u t.block) s.cur.core (f.field 5 0) whole q.1,
        BitVec.ofNat 32 q.2) := by
  simp only [tbForm, agent]

theorem tbForm_coachman {s : State} (agent : s.cur.agent = .coachman) (f : FormA) (whole : Bool)
    (act : TxBarrier → Nat → TxBarrier × Nat) :
    tbForm s f whole act = coachAct s f.x.guard f.dst fun c =>
      let q := act (tbOf s s.cur.core (f.field 5 0)) (srcCoach c f.a).toNat
      (putTb s s.cur.core (f.field 5 0) whole q.1, BitVec.ofNat 64 q.2) := by
  simp only [tbForm, agent]

theorem barrierForm_of_tbForm {i : FormA → Instr} {whole : Bool} {act : TxBarrier → Nat → TxBarrier × Nat}
    (arm : ∀ f s, exec (i f) s = .next (tbForm s f whole act)) : barrierForm i whole act :=
  ⟨fun f s agent _ _ => ⟨_, (arm f s).trans (congrArg _ (tbForm_core agent f whole act)),
      eachLane_inTurn s f.x.guard f.dst _⟩,
    fun f => coachForm_of_coachAct fun s agent => (arm f s).trans (congrArg _ (tbForm_coachman agent f whole act))⟩

/-! ### `TBW` (14 R332, R348) -/

/-- What a lane's `TBW` finds of its phase. -/
def tbwNow (f : FormW) (a : State) (u : Nat) (t : Thread) : Option NowDone :=
  ((tbOf a a.cur.core (f.field 5 0)).result (srcWord t .a f.a).toNat).map fun st =>
    { state := readTb a a.cur.core (f.field 5 0) u t.block, status := st, value := BitVec.ofNat 32 st.code
      acquire := st == .done }

/-- What a lane's `TBW` waits for. -/
def tbwKind (f : FormW) (a : State) (t : Thread) : WaitKind := .tb a.cur.core (f.field 5 0) (srcWord t .a f.a).toNat

theorem tbwLane_eq_laneWaits (f : FormW) (a : State) (u : Nat) (t : Thread) :
    tbwLane a f u t = laneWaits f (tbwNow f) (tbwKind f) a u t := by
  unfold tbwLane laneWaits tbwNow
  dsimp only
  cases (tbOf a a.cur.core (f.field 5 0)).result (srcWord t .a f.a).toNat <;> rfl

theorem execTbw_core {f : FormW} {s : State} (agent : s.cur.agent = .core) : exec (.tbw f) s
    = .next ((activeLanes s f.x.guard).foldl (fun acc p => laneWaits f (tbwNow f) (tbwKind f) acc p.1 p.2) s) := by
  have arm : exec (.tbw f) s = execTbw f s := rfl
  simp only [arm, execTbw, agent, tbwLane_eq_laneWaits]

section
variable {f : FormW} {s : State} (agent : s.cur.agent = .coachman)
include agent

theorem execTbw_skips (off : guardCoach f.x.guard (coachOf s s.cur.core) = false) : exec (.tbw f) s = .next s := by
  have arm : exec (.tbw f) s = execTbw f s := rfl
  simp only [arm, execTbw, agent, off, Bool.not_false, if_true]

variable (on : guardCoach f.x.guard (coachOf s s.cur.core) = true)
include on

theorem execTbw_of_ended {st : Status}
    (ended : (tbOf s s.cur.core (f.field 5 0)).result (srcCoach (coachOf s s.cur.core) f.a).toNat = some st) :
    exec (.tbw f) s = .next (endCoachAtIssue s f.dst f.x.deadline f.x.esc st (BitVec.ofNat 64 st.code) id) := by
  have arm : exec (.tbw f) s = execTbw f s := rfl
  have value : st.word.setWidth 64 = BitVec.ofNat 64 st.code := by cases st <;> rfl
  simp only [arm, execTbw, agent, on, ended, value, Bool.not_true, Bool.false_eq_true, if_false]
  rfl

theorem execTbw_of_running
    (running : (tbOf s s.cur.core (f.field 5 0)).result (srcCoach (coachOf s s.cur.core) f.a).toNat = none) :
    exec (.tbw f) s = .next (blockCoach s f.dst f.x.deadline f.x.esc
      (.tb s.cur.core (f.field 5 0) (srcCoach (coachOf s s.cur.core) f.a).toNat) .timeout 1) := by
  have arm : exec (.tbw f) s = execTbw f s := rfl
  simp only [arm, execTbw, agent, on, running, Bool.not_true, Bool.false_eq_true, if_false]
  rfl

end

/-- Settles O35: the forms by what each does to its barrier, `TBW` by the result that its barrier gives. -/
theorem transactionBarriers : Obligations.TransactionBarriers := by
  unfold Obligations.TransactionBarriers
  intro settle tbi tba tbe at_ read form result
  have settles : TxBarrier.settle = settle := funext settleTb_eq
  have inits : (fun b n => ((b.initTb n).1, (b.initTb n).2.code)) = tbi := funext fun b => funext (initTb_eq b)
  have arrives : (fun b _ => b.arriveTb) = tba := funext fun b => funext fun _ => by
    rw [arriveTb_eq, settles]
  have expects : (fun b n => ((b.expectTb n).1, (b.expectTb n).2.code)) = tbe := funext fun b => funext fun n => by
    rw [expectTb_eq, settles]
  have reads : readTb = read := by
    funext a core i u block
    exact readTb_eq a core i u block
  have results : TxBarrier.result = result := funext fun b => funext (resultTb_eq b)
  have named : form = barrierForm := by
    funext i whole act
    simp only [form, ← reads]
    rfl
  rw [← inits, ← arrives, ← expects, ← results, ← reads, named]
  refine ⟨barrierForm_of_tbForm fun _ _ => rfl, barrierForm_of_tbForm fun _ _ => rfl, barrierForm_of_tbForm fun _ _ => rfl,
    fun f => waitForm_of_laneWaits (now := tbwNow f) (kind := tbwKind f) fun _ => execTbw_core,
    fun f s agent _ => ?coach⟩
  case coach =>
    by_cases on : guardCoach f.x.guard (coachOf s s.cur.core) = true
    case neg => exact ⟨s, execTbw_skips agent (Bool.eq_false_iff.2 on), by simp only [if_neg on]⟩
    cases ended : (tbOf s s.cur.core (f.field 5 0)).result (srcCoach (coachOf s s.cur.core) f.a).toNat with
    | some st =>
      refine ⟨_, execTbw_of_ended agent on ended, ?_⟩
      rw [tbOf] at ended
      simp only [at_, if_pos on, ended, Option.map_some]
      exact endCoachAtIssue_coachEnds s f.dst _ _ st _
    | none =>
      refine ⟨_, execTbw_of_running agent on ended, ?_⟩
      rw [tbOf] at ended
      simp only [at_, if_pos on, ended, Option.map_none]
      exact blockCoach_ends_or_blocks s f _ .timeout 1

end Sys2Proof.Proofs
end

section
/-! PROOF of the statement on circular buffers, O36 (14 R349 to R352). -/

namespace Sys2Proof.Proofs

open Sys2Proof.Machine Sys2Proof.Safety

/-! ### `CBGET` (14 R352) -/

/-- What a `CBGET` finds of the slot of its sequence. -/
def cbgetNow (f : FormW) (a : State) (_ : Nat) (t : Thread) : Option NowDone :=
  let b := cbufOf a a.cur.core (f.field 3 0)
  let q := (srcWord t .a f.a).toNat
  let st := mgetD b.status (q % max 1 b.nslot) .done
  if b.valid = false then some { state := a, status := .busy, value := 8 }
  else if q < b.freeSeq then some { state := a, status := .stalePhase, value := 4 }
  else if q < b.fillSeq then
    some { state := a, status := st, acquire := st == .done, value := BitVec.ofNat 32 (st.code + 256 * b.slotAt q) }
  else none

/-- What a `CBGET` waits for. -/
def cbgetKind (f : FormW) (a : State) (t : Thread) : WaitKind :=
  .cbuf a.cur.core (f.field 3 0) (srcWord t .a f.a).toNat

theorem cbgetLane_eq_laneWaits (f : FormW) (a : State) (u : Nat) (t : Thread) :
    cbgetLane a f u t = laneWaits f (cbgetNow f) (cbgetKind f) a u t := by
  simp only [cbgetLane, laneWaits, cbgetNow, cbgetKind, CircBuf.result, Bool.not_eq_true']
  by_cases idle : (cbufOf a a.cur.core (f.field 3 0)).valid = false
  · simp only [if_pos idle]
    rfl
  by_cases freed : (srcWord t .a f.a).toNat < (cbufOf a a.cur.core (f.field 3 0)).freeSeq
  · simp only [if_neg idle, if_pos freed]
    rfl
  by_cases filled : (srcWord t .a f.a).toNat < (cbufOf a a.cur.core (f.field 3 0)).fillSeq
  · simp only [if_neg idle, if_neg freed, if_pos filled]
    rfl
  · simp only [if_neg idle, if_neg freed, if_neg filled]

theorem execCbget_waits (f : FormW) (s : State) : exec (.cbget f) s
    = .next ((activeLanes s f.x.guard).foldl (fun acc p => laneWaits f (cbgetNow f) (cbgetKind f) acc p.1 p.2) s) := by
  have arm : exec (.cbget f) s = execCbget f s := rfl
  simp only [arm, execCbget, cbgetLane_eq_laneWaits]

/-! ### `CBPUT` (14 R352) -/

/-- What a lane's `CBPUT` does, by where its sequence lies: not yet filled, freed already, or between. -/
def cbputActs (f : FormA) (core : Nat) (a : State) (t : Thread) : State × Word :=
  let b := cbufOf a core (f.field 3 0)
  let q := (srcWord t .a f.a).toNat
  let k := q % max 1 b.nslot
  if b.fillSeq ≤ q then (setCbuf a core (f.field 3 0) b, 8)
  else if q < b.freeSeq then (setCbuf a core (f.field 3 0) b, 4)
  else (setCbuf a core (f.field 3 0)
    (CircBuf.advanceFree 64 { b with count := mset b.count k (mgetD b.count k 0 - 1) }), 0)

theorem cbputActs_eq_put (f : FormA) (core : Nat) (a : State) (t : Thread) : cbputActs f core a t =
    let q := (cbufOf a core (f.field 3 0)).put (srcWord t .a f.a).toNat
    (setCbuf a core (f.field 3 0) q.1, q.2.word) := by
  unfold cbputActs CircBuf.put
  dsimp only
  split
  · rfl
  · split <;> rfl

theorem execCbput_eq (f : FormA) (s : State) :
    exec (.cbput f) s = .next (eachLane (holdUntilSettled s f.x.guard .blk) f.x.guard f.dst
      fun a _ t => cbputActs f s.cur.core a t) := by
  simp only [cbputActs_eq_put]
  rfl

/-! ### `CBPUT.init` (14 R351, R352) -/

theorem cbInitBad_eq_false_iff (s : State) (base cfg : Nat) : cbInitBad s base cfg = false ↔
    cfg / 2 ^ 25 = 0 ∧ base % 128 = 0
      ∧ windowOk s s.cur.block s.cur.core base (128 * (cfg % 256 + 1) * (cfg / 256 % 64 + 1)) = true := by
  simp only [cbInitBad, CircBuf.ofConfig, Bool.or_eq_false_iff, bne_eq_false_iff_eq, Bool.not_eq_false', and_assoc]

section
variable {f : FormA} {s : State} {u : Nat} {th : Thread} {rest : List (Nat × Thread)}
  (first : activeLanes s f.x.guard = (u, th) :: rest)
include first

theorem execCbputInit_of_bad (bad : cbInitBad s (srcWord th .a f.a).toNat (srcWord th .b f.b).toNat = true) :
    exec (.cbputInit f) s = .next (faultAt s .protection (srcWord th .a f.a).toNat) := by
  have arm : exec (.cbputInit f) s = execCbputInit f s := rfl
  simp only [arm, execCbputInit, first, bad, if_true]

variable (good : cbInitBad s (srcWord th .a f.a).toNat (srcWord th .b f.b).toNat = false)
include good

theorem execCbputInit_of_inUse
    (inUse : (cbufOf s s.cur.core (f.field 3 0)).takeSeq ≠ (cbufOf s s.cur.core (f.field 3 0)).freeSeq) :
    exec (.cbputInit f) s = .next (eachLane s f.x.guard f.dst fun a _ _ => (a, 8)) := by
  have arm : exec (.cbputInit f) s = execCbputInit f s := rfl
  simp only [arm, execCbputInit, first, good, Bool.false_eq_true, if_false, if_pos inUse]
  rfl

theorem execCbputInit_of_idle
    (idle : (cbufOf s s.cur.core (f.field 3 0)).takeSeq = (cbufOf s s.cur.core (f.field 3 0)).freeSeq) :
    exec (.cbputInit f) s = .next (eachLane (setCbuf s s.cur.core (f.field 3 0)
      (CircBuf.ofConfig (srcWord th .a f.a).toNat (srcWord th .b f.b).toNat)) f.x.guard f.dst fun a _ _ => (a, 0)) := by
  have arm : exec (.cbputInit f) s = execCbputInit f s := rfl
  simp only [arm, execCbputInit, first, good, Bool.false_eq_true, if_false, idle, ne_eq, not_true_eq_false]
  rfl

end

/-- Settles O36: `CBGET` by what it finds of its slot, `CBPUT` lane by lane, `CBPUT.init` by its checks. -/
theorem circularBuffers : Obligations.CircularBuffers := by
  unfold Obligations.CircularBuffers
  intro at_ put
  refine ⟨fun f => waitForm_of_laneWaits (now := cbgetNow f) (kind := cbgetKind f) fun s _ => execCbget_waits f s,
    fun f s _ _ _ => ?put, fun f s u th rest _ first => ?init⟩
  case put => exact ⟨_, execCbput_eq f s, eachLane_inTurn_from _ _ _ ⟨rfl, rfl⟩⟩
  case init =>
    intro base cfg b new good
    have passes : cbInitBad s base cfg = false ↔ good := cbInitBad_eq_false_iff s base cfg
    refine ⟨fun bad => ?fault, fun pass inUse => ?busy, fun pass idle => ?setUp⟩
    case fault => exact execCbputInit_of_bad first (Bool.eq_true_of_not_eq_false (mt passes.1 bad))
    case busy => exact ⟨_, execCbputInit_of_inUse first (passes.2 pass) inUse, eachLane_inTurn s _ _ _⟩
    case setUp =>
      exact ⟨_, execCbputInit_of_idle first (passes.2 pass) idle, eachLane_inTurn_from _ _ _ ⟨rfl, rfl⟩⟩

end Sys2Proof.Proofs
end

section
/-! PROOF of the statement on special registers, O40 (05 R97, R98, 19 R455, 20 R471, R472). -/

namespace Sys2Proof.Proofs

open Sys2Proof.Machine Sys2Proof.Safety

/-! ### `RDS` (05 R97, 20 R472) -/

theorem selectWide_iff (n : Nat) : selectWide n = true ↔ 7 ≤ n ∧ n ≤ 9 ∨ 32 ≤ n ∧ n ≤ 47 := by
  simp [selectWide]

theorem execRds_narrow {f : FormA} {s : State} (agent : s.cur.agent = .core) (narrow : selectWide (f.field 5 0) = false) :
    exec (.rds f) s = .next (writeWord s f.x.guard f.dst fun _ t => specialWord s t (f.field 5 0)) := by
  have arm : exec (.rds f) s = execRds f s := rfl
  simp only [arm, execRds, agent, narrow, Bool.false_eq_true, if_false]

theorem execRds_wide {f : FormA} {s : State} (agent : s.cur.agent = .core) (wide : selectWide (f.field 5 0) = true) :
    exec (.rds f) s = .next (writePair s f.x.guard f.dst fun _ t => specialPair s t (f.field 5 0)) := by
  have arm : exec (.rds f) s = execRds f s := rfl
  simp only [arm, execRds, agent, wide, if_true]

theorem execRds_coachman {f : FormA} {s : State} (agent : s.cur.agent = .coachman) :
    exec (.rds f) s = .next (writeCoach s f.x.guard f.dst fun _ => BitVec.ofNat 64 (coachSpecial s (f.field 5 0))) := by
  have arm : exec (.rds f) s = execRds f s := rfl
  simp only [arm, execRds, agent]

theorem rds_wordResult {f : FormA} {n : Nat} (select : f.field 5 0 = n) (narrow : selectWide n = false)
    {val : State → Thread → Word} (value : ∀ s t, specialWord s t n = val s t) :
    wordResult (.rds f) f.x.guard f.dst val := by
  subst select
  intro s agent nodup
  refine ⟨_, execRds_narrow agent narrow, ?_⟩
  simp only [value]
  exact writeWord_onlyLanes s _ _ _ nodup

theorem rds_pairResult {f : FormA} {n : Nat} (select : f.field 5 0 = n) (wide : selectWide n = true)
    {val : State → Thread → DWord} (value : ∀ s t, specialPair s t n = val s t) :
    pairResult (.rds f) f.x.guard f.dst val := by
  subst select
  intro s agent nodup
  refine ⟨_, execRds_wide agent wide, ?_⟩
  simp only [value]
  exact writePair_onlyLanes s _ _ _ nodup

/-- 05 R97: the selects from 32 on read the limits of a bound register. -/
theorem specialPair_bound (s : State) (t : Thread) {k : Nat} (bound : k < 16) : specialPair s t (32 + k) =
    (bdOf (ctxOf s (ctxOfBlock s t.block)) k).2.1.append (bdOf (ctxOf s (ctxOfBlock s t.block)) k).1 := by
  unfold specialPair
  split
  case h_4 => rw [Nat.add_sub_cancel_left]
  all_goals omega

/-- 05 R97: the selects from 48 on read the action of a bound register. -/
theorem specialWord_bound (s : State) (t : Thread) {k : Nat} (bound : k < 16) : specialWord s t (48 + k) =
    (bdOf (ctxOf s (ctxOfBlock s t.block)) k).2.2.setWidth 32 := by
  unfold specialWord
  split
  case h_12 => rw [Nat.add_sub_cancel_left]
  all_goals omega

/-! ### Sticky bits (05 R98, 19 R455) -/

theorem stickyBits_setWidth (x : Word) : (x.setWidth 2).setWidth 32 = x &&& 3 := by
  refine BitVec.eq_of_toNat_eq ?_
  have low : (x &&& 3).toNat = x.toNat % 4 := Nat.and_two_pow_sub_one_eq_mod x.toNat 2
  rw [BitVec.toNat_setWidth, BitVec.toNat_setWidth, low]
  omega

theorem clearSticky_setWidth (x : Word) (t : Thread) : clearSticky (x.setWidth 2) t =
    { t with regs := { t.regs with chk := t.regs.chk &&& ~~~(x &&& 3) },
             chkReported := t.chkReported &&& ~~~(x.setWidth 2) } := by
  rw [clearSticky, stickyBits_setWidth]

/-! ### `WRS` (20 R472) -/

theorem execWrs_chk {f : FormA} (select : f.field 5 0 = 10) (s : State) : exec (.wrs f) s =
    .next (forLanes s fun _ t => if guardOn f.x.guard t.regs then writeChk (srcWord t .a f.a) t else t) := by
  have arm : exec (.wrs f) s = execWrs f s := rfl
  simp only [arm, execWrs, select, if_true]

theorem execWrs_bound {f : FormA} (select : 32 ≤ f.field 5 0) (s : State) : exec (.wrs f) s =
    .next ((activeLanes s f.x.guard).foldl (fun a p => writeBound a f (f.field 5 0) p.2) s) := by
  have arm : exec (.wrs f) s = execWrs f s := rfl
  have notChk : f.field 5 0 ≠ 10 := by omega
  simp only [arm, execWrs, if_neg notChk]

theorem ctxOf_writeBound (a : State) (f : FormA) (n : Nat) (t : Thread) (c : Nat) : ctxOf (writeBound a f n t) c =
    if c = ctxOfBlock a t.block then { ctxOf a c with bounds := (ctxOf (writeBound a f n t) c).bounds } else ctxOf a c := by
  unfold writeBound
  rw [ctxOf_modCtx]
  split
  next same => subst same; split <;> rfl
  next other => rfl

/-- What a lane's write leaves of each bound register. -/
theorem bdOf_writeBound (a : State) (f : FormA) (n : Nat) (t : Thread) (k : Nat) :
    bdOf (ctxOf (writeBound a f n t) (ctxOfBlock a t.block)) k =
      (let old := bdOf (ctxOf a (ctxOfBlock a t.block)) k
      if n < 48 ∧ k = n - 32 then
        ((srcPair t .a f.a).setWidth 32, (srcPair t .a f.a).extractLsb' 32 32, old.2.2)
      else if 48 ≤ n ∧ k = n - 48 then (old.1, old.2.1, (srcWord t .a f.a).setWidth 2)
      else old) := by
  unfold writeBound
  rw [ctxOf_modCtx, if_pos rfl]
  by_cases limits : n < 48
  · by_cases same : k = n - 32
    · simp only [bdOf, limits, same, mgetD, mget_mset, if_true, Option.getD_some, and_self]
    · simp only [bdOf, limits, same, mgetD, mget_mset, if_true, if_false, and_false, Nat.not_le.2 limits, false_and]
  · have action : 48 ≤ n := Nat.not_lt.1 limits
    by_cases same : k = n - 48
    · simp only [bdOf, limits, action, same, mgetD, mget_mset, if_true, if_false, Option.getD_some, and_self, false_and]
    · simp only [bdOf, limits, same, mgetD, mget_mset, if_false, and_false, false_and]

/-! ### `CHKE` (19 R455) -/

theorem execChke_eq (f : FormA) (s : State) : exec (.chke f) s =
    .next (eachLane (holdClause s ((activeLanes s f.x.guard).any fun p => !readsReturned s p.1)) f.x.guard f.dst
      fun a u t => (modThread a u fun x => { x with
          regs := { x.regs with chk := x.regs.chk &&& ~~~(srcWord t .a f.a &&& 3) },
          chkReported := x.chkReported &&& ~~~((srcWord t .a f.a).setWidth 2) },
        (t.regs.chk &&& 3) ||| ((t.chkReported.setWidth 32) <<< 2))) := by
  have arm : exec (.chke f) s = execChke f s := rfl
  have clears (x : Word) : clearSticky (x.setWidth 2) = _ := funext (clearSticky_setWidth x)
  simp only [arm, execChke, clears]
  rfl

/-- Settles O40: the words and pairs that `RDS` selects, the two kinds of `WRS`, and `CHKE` lane by lane. -/
theorem specialRegisters : Obligations.SpecialRegisters := by
  unfold Obligations.SpecialRegisters
  intro clear bound word pair
  have narrow (n : Nat) (sel : selectWide n = false) (val : State → Thread → Word)
      (value : ∀ s t, specialWord s t n = val s t) : word n val := fun f select => rds_wordResult select sel value
  have wide (n : Nat) (sel : selectWide n = true) (val : State → Thread → DWord)
      (value : ∀ s t, specialPair s t n = val s t) : pair n val := fun f select => rds_pairResult select sel value
  refine ⟨narrow 0 rfl _ fun _ _ => rfl, narrow 1 rfl _ fun _ _ => rfl, narrow 2 rfl _ fun _ _ => rfl,
    narrow 3 rfl _ fun _ _ => rfl, narrow 4 rfl _ fun _ _ => rfl, narrow 5 rfl _ fun _ _ => rfl,
    narrow 6 rfl _ fun _ _ => rfl, wide 7 rfl _ fun _ _ => rfl, wide 8 rfl _ fun _ _ => rfl,
    wide 9 rfl _ fun _ _ => rfl, narrow 10 rfl _ fun _ _ => rfl, narrow 11 rfl _ fun _ _ => rfl,
    narrow 12 rfl _ fun _ _ => rfl, narrow 13 rfl _ fun _ _ => rfl, fun k small => ?limits, fun k small => ?action,
    fun f select s nodup => ?chk, fun f select s => ?bounds, fun f s _ _ _ => ?sticky, fun f s agent => ?coachman⟩
  case limits =>
    exact wide (32 + k) ((selectWide_iff _).2 (by omega)) _ fun s t => specialPair_bound s t small
  case action =>
    refine narrow (48 + k) (Bool.eq_false_iff.2 (mt (selectWide_iff _).1 (by omega))) _ fun s t =>
      specialWord_bound s t small
  case chk =>
    refine ⟨_, execWrs_chk select s, forLanes_onlyLanes s _ _ nodup fun u t => ?_⟩
    by_cases active : guardOn f.x.guard t.regs = true
    · simp only [if_pos active, writeChk, clearSticky_setWidth]
      rfl
    · simp only [if_neg active]
  case bounds =>
    refine ⟨_, execWrs_bound select s, chain_foldl (fun a p => ⟨fun k _ => bdOf_writeBound a f _ p.2 k, ?_,
      fun c other => ?_, rfl⟩) _ s⟩
    · exact (ctxOf_writeBound a f _ p.2 _).trans (if_pos rfl)
    · exact (ctxOf_writeBound a f _ p.2 c).trans (if_neg other)
  case sticky => exact ⟨_, execChke_eq f s, eachLane_inTurn_from _ _ _ ⟨rfl, rfl⟩⟩
  case coachman => exact ⟨_, execRds_coachman agent, writeCoach_result s _ _ _⟩

end Sys2Proof.Proofs
end

section
/-! SUPPORT. What a replay record that is placed or waits changes at most (17 R411, R415). -/

namespace Sys2Proof.Proofs

open Sys2Proof.Machine Sys2Proof.Safety

/-- What a record and its report change at most: what a report does, and the cores, which count it (19 R456). -/
def recordsOnly (s t : State) : Prop := ∃ cs, reportsOnly { s with cores := cs } t

theorem reportsOnly.recordsOnly {s t : State} (h : reportsOnly s t) : recordsOnly s t := ⟨s.cores, h⟩

theorem recordsOnly.refl (s : State) : recordsOnly s s := (reportsOnly.refl s).recordsOnly

theorem recordsOnly.trans {s t u : State} : recordsOnly s t → recordsOnly t u → recordsOnly s u := by
  rintro ⟨_, _, _, _, _, _, _, _, _, rfl⟩ ⟨_, _, _, _, _, _, _, _, _, rfl⟩
  exact ⟨_, _, _, _, _, _, _, _, _, rfl⟩

theorem coresDies_recordsOnly {s t : State} : (∃ cs ds, t = { s with cores := cs, dies := ds }) → recordsOnly s t := by
  rintro ⟨cs, ds, rfl⟩
  exact ⟨cs, s.mem, s.lines, s.frames, ds, s.ctxs, s.more, s.blackBox, s.security, rfl⟩

section
variable {s t : State} (h : recordsOnly s t)
include h

theorem recordsOnly.work_eq : t.work = s.work := by
  obtain ⟨_, _, _, _, _, _, _, _, _, rfl⟩ := h
  rfl

theorem recordsOnly.cur_eq : t.cur = s.cur := by
  obtain ⟨_, _, _, _, _, _, _, _, _, rfl⟩ := h
  rfl

end

theorem placeRecord_recordsOnly {s t : State} {ctx slot : Nat} {r : ReplayRecord}
    (h : placeRecord s ctx slot r = some t) : recordsOnly s t := by
  unfold placeRecord at h
  split at h
  · cases h
  · rename_i s1 written
    extract_lets die s2 s3 at h
    have entered : recordsOnly s s3 :=
      ((writeVirtual_homeOnly written).reportsOnly.trans (modMore_reportsOnly s1 ctx _)).recordsOnly.trans <|
        foldl_rel recordsOnly .refl (fun _ _ _ => .trans) _ (fun acc _ =>
          (coresDies_recordsOnly (countAbsent_coresDies acc r.work)).trans (modDie_reportsOnly _ _ _).recordsOnly) _ s2
    split at h
    · exact Option.some.inj h ▸ entered
    · exact Option.some.inj h ▸ entered.trans (appendEvent_reportsOnly s3 _ _).recordsOnly

theorem takeRecord_recordsOnly (s : State) (ctx : Nat) (r : ReplayRecord) : recordsOnly s (takeRecord s ctx r) := by
  unfold takeRecord
  extract_lets wait
  have waits : reportsOnly s wait := modMore_reportsOnly s ctx _
  split
  · exact waits.recordsOnly
  · split
    · exact waits.recordsOnly
    · split
      · exact placeRecord_recordsOnly ‹_›
      · exact (waits.trans (structureFailedOn_reportsOnly wait _ _ _)).recordsOnly

end Sys2Proof.Proofs
end

section
/-! PROOF of the statement on supervisor calls and traps, O39 (20 R463, R466, R467, R470, R471). -/

namespace Sys2Proof.Proofs

open Sys2Proof.Machine Sys2Proof.Safety

/-! ### Lanes that act in turn under the quota of R307 -/

theorem turnForm_of_underQuota {i : Instr} {g : Guard} {d : Dst} {pre : State → Prop} {start : State → State}
    {act : State → State → Nat → Thread → State × Word}
    (arm : ∀ s, s.cur.agent = .core → pre s → exec i s
      = .next (underQuota s (ctxOfBlock s s.cur.block) (eachLane (start s) g d (act s))))
    (same : ∀ s, (start s).cur.lanes = s.cur.lanes ∧ (start s).cur.pos = s.cur.pos) :
    turnForm i g d pre start (fun s t => quotaBreach s t (ctxOfBlock s s.cur.block) = false) act := by
  intro s agent holds fits
  have turn := eachLane_inTurn_from g d (act s) (same s)
  exact ⟨_, (arm s agent holds).trans (congrArg _ (underQuota_of_fits (fits _ turn))), turn⟩

/-! ### Tags (20 R466) -/

/-- The tag after one: 0 is no tag. -/
def tagAfter (t : Nat) : Nat := if t = 2 ^ 32 - 1 then 1 else t + 1

theorem nextTag_succ (y : BlockSync) (fuel t : Nat) : nextTag y (fuel + 1) t =
    if slotLive y (tagAfter t % 4) then nextTag y fuel (tagAfter t) else tagAfter t := rfl

theorem tagAfter_range {t : Nat} (small : t < 2 ^ 32) : 0 < tagAfter t ∧ tagAfter t < 2 ^ 32 := by
  unfold tagAfter
  split <;> omega

theorem tagAfter_iterate {t n : Nat} (small : t + n < 2 ^ 32) : tagAfter^[n] t = t + n := by
  induction n with
  | zero => rfl
  | succ n ih =>
    rw [Function.iterate_succ_apply', ih (by omega), tagAfter, if_neg (by omega), Nat.add_assoc]

/-- Where one of the tags that come next has a free slot, the search finds such a tag. -/
theorem nextTag_free {y : BlockSync} {fuel t : Nat} (small : t < 2 ^ 32)
    (free : ∃ j, j < fuel ∧ slotLive y (tagAfter^[j + 1] t % 4) = false) :
    0 < nextTag y fuel t ∧ nextTag y fuel t < 2 ^ 32 ∧ slotLive y (nextTag y fuel t % 4) = false := by
  induction fuel generalizing t with
  | zero =>
    obtain ⟨j, none, -⟩ := free
    exact absurd none (Nat.not_lt_zero j)
  | succ fuel ih =>
    obtain ⟨positive, range⟩ := tagAfter_range small
    rw [nextTag_succ]
    split
    next live =>
      refine ih range ?_
      obtain ⟨j, within, slot⟩ := free
      cases j with
      | zero => exact absurd (live.symm.trans slot) (by decide)
      | succ j => exact ⟨j, Nat.lt_of_succ_lt_succ within, slot⟩
    next idle => exact ⟨positive, range, Bool.eq_false_iff.2 idle⟩

/-- Each of the four slots is the slot of one of the seven tags that come next, the step past 2^32 − 1 included. -/
theorem tag_of_slot {t k : Nat} (small : t < 2 ^ 32) (slot : k < 4) : ∃ j, j < 7 ∧ tagAfter^[j + 1] t % 4 = k := by
  by_cases plain : t + ((k + 3 - t % 4) % 4 + 1) < 2 ^ 32
  · refine ⟨(k + 3 - t % 4) % 4, by omega, ?_⟩
    rw [tagAfter_iterate plain]
    omega
  · obtain ⟨r, last, few⟩ : ∃ r, t + r = 2 ^ 32 - 1 ∧ r < 4 := ⟨2 ^ 32 - 1 - t, by omega, by omega⟩
    have wraps : tagAfter^[r + 1] t = 1 := by
      rw [Function.iterate_succ_apply', tagAfter_iterate (by omega), last]
      rfl
    refine ⟨(k + 3) % 4 + r, by omega, ?_⟩
    rw [Nat.add_assoc, Function.iterate_add_apply, wraps, tagAfter_iterate (by omega)]
    omega

theorem slotLive_eq_false_iff (y : BlockSync) (k : Nat) : slotLive y k = false ↔ mget y.calls k = none := by
  simp [slotLive]

/-! ### `SVC` (20 R466, R467) -/

theorem allLive_iff (y : BlockSync) : (List.range 4).all (slotLive y) = true ↔ ¬∃ k, k < 4 ∧ mget y.calls k = none := by
  simp only [List.all_eq_true, List.mem_range, ← slotLive_eq_false_iff, not_exists, not_and, Bool.not_eq_false]

theorem execSvc_posts {f : FormA} {s : State} (active : activeLanes s f.x.guard ≠ [])
    (free : ∃ k, k < 4 ∧ mget (syncOf s s.cur.block).calls k = none) :
    let tag := nextTag (syncOf s s.cur.block) 7 (syncOf s s.cur.block).callCounter
    exec (.svc f) s = .next (underQuota s (ctxOfBlock s s.cur.block)
      (eachLane (postCall (holdUntilSettled s f.x.guard .dev) f tag (activeLanes s f.x.guard)) f.x.guard f.dst
        fun a _ _ => (a, BitVec.ofNat 32 tag))) := by
  have arm : exec (.svc f) s = execSvc f s := rfl
  simp only [arm, execSvc, List.isEmpty_iff, if_neg active, if_neg (mt (allLive_iff _).1 (not_not.2 free))]

theorem execSvc_none {f : FormA} {s : State}
    (none : activeLanes s f.x.guard = [] ∨ ¬∃ k, k < 4 ∧ mget (syncOf s s.cur.block).calls k = none) :
    exec (.svc f) s = .next (eachLane s f.x.guard f.dst fun a _ _ => (a, 0)) := by
  have arm : exec (.svc f) s = execSvc f s := rfl
  simp only [arm, execSvc]
  split
  · rfl
  next active =>
    rw [if_pos ((allLive_iff _).2 (none.resolve_left (mt List.isEmpty_iff.2 active)))]

/-! ### `SVCW` (20 R470) -/

/-- What a `SVCW` finds of the call that its lane's tag names. -/
def svcwNow (f : FormW) (s a : State) (u : Nat) (t : Thread) : Option NowDone :=
  let tag := (srcWord t .a f.a).toNat
  if tag = 0 then some { state := a, status := .done, value := 0, acquire := true }
  else match mget (syncOf s t.block).calls (tag % 4) with
    | none => none
    | some c =>
      if u ∉ c.threads then some { state := a, status := .done, value := 0, acquire := true
                                   more := fun r => r.set (f.field 9 2) 0 }
      else if c.state = 2 then some { state := collectCall a t.block (tag % 4) u, status := .done, value := 0
                                      acquire := true, more := fun r => r.set (f.field 9 2) (replyWord c u) }
      else none

/-- What a `SVCW` waits for. -/
def svcwKind (f : FormW) (t : Thread) : WaitKind := .svc t.block (srcWord t .a f.a).toNat (f.field 9 2)

/-- A lane that looks for a result ends its wait, blocks or is too late. -/
theorem laneWaits_ends_or_blocks (f : FormW) (now : State → Nat → Thread → Option NowDone)
    (kind : State → Thread → WaitKind) (a : State) (u : Nat) (t : Thread) :
    let b := laneWaits f now kind a u t
    match now a u t with
    | some q => endsNow q.state u f q.status q.value q.acquire q.more b
    | none => if tooLate a t f.x.deadline then endsNow a u f .timeout 1 false (fun r => r) b
        else blocksNow a u f (kind a t) b := by
  dsimp only [laneWaits]
  cases now a u t with
  | some q => exact endAtIssue_endsNow q.state u f q.status q.value q.acquire q.more
  | none => exact blockOrExpire_ends_or_blocks a u t f (kind a t) .timeout 1

/-- 20 R470: a lane's tag is 0 or names a live call of its block. -/
def namesCall (f : FormW) (s : State) (t : Thread) : Prop :=
  (srcWord t .a f.a).toNat = 0
    ∨ ∃ c, mget (syncOf s t.block).calls ((srcWord t .a f.a).toNat % 4) = some c ∧ c.tag = (srcWord t .a f.a).toNat

theorem callSlot_of_tag {s : State} {b tag : Nat} {c : CallSlot} (slot : mget (syncOf s b).calls (tag % 4) = some c)
    (same : c.tag = tag) : callSlot s b tag = some c := by
  simp only [callSlot, slot, if_pos same]

theorem svcwLane_eq_laneWaits {f : FormW} {s : State} {t : Thread} (names : namesCall f s t) (a : State) (u : Nat) :
    svcwLane f s a u t = laneWaits f (svcwNow f s) (fun _ => svcwKind f) a u t := by
  by_cases zero : (srcWord t .a f.a).toNat = 0
  · simp only [svcwLane, laneWaits, svcwNow, if_pos zero]
    rfl
  obtain ⟨c, slot, same⟩ := names.resolve_left zero
  simp only [svcwLane, laneWaits, svcwNow, if_neg zero, slot, callSlot_of_tag slot same, Bool.not_eq_true',
    List.contains_eq_mem, decide_eq_false_iff_not]
  by_cases outside : u ∉ c.threads
  · simp only [if_pos outside]
    rfl
  by_cases replied : c.state = 2
  · simp only [if_neg outside, if_pos replied]
    rfl
  · simp only [if_neg outside, if_neg replied, svcwKind]

theorem execSvcw_waits {f : FormW} {s : State} (names : allLanes s f.x.guard (namesCall f s)) : exec (.svcw f) s =
    .next ((activeLanes s f.x.guard).foldl (fun a p => svcwLane f s a p.1 p.2) s) := by
  have arm : exec (.svcw f) s = execSvcw f s := rfl
  have live : ((activeLanes s f.x.guard).any fun p =>
      (srcWord p.2 .a f.a).toNat != 0 && (callSlot s p.2.block (srcWord p.2 .a f.a).toNat).isNone) = false := by
    refine List.any_eq_false.2 fun p listed => ?_
    obtain ⟨lane, found, active⟩ := of_mem_activeLanes listed
    obtain zero | ⟨c, slot, same⟩ := names p.1 p.2 lane found active
    · simp [zero]
    · simp [callSlot_of_tag slot same]
  simp only [arm, execSvcw, live, Bool.false_eq_true, if_false]

/-! ### `TRAP` and `BKPT` (20 R463, R471) -/

theorem trapThreads_frame (s : State) (block : Nat) (uids : List Nat) (resume words addr : Nat) (r : FaultReport) :
    recordsOnly (trapAll s uids resume) (trapThreads s block uids resume words addr r) := by
  by_cases none : uids = []
  · subst none
    exact .refl s
  · obtain ⟨q, -, taken⟩ := trapThreads_takesRecord (s := s) none block resume words addr r
    rw [taken]
    exact takeRecord_recordsOnly _ _ q

/-- The threads whose guard is true stand trapped at the clause; the rest of the work and the clause stand. -/
theorem trapForm_traps {s : State} (f : FormA) (code : FaultCode) (kind trapCode arg : Nat) :
    let t := trapForm s f code kind trapCode arg
    (∀ u th, u ∈ s.cur.lanes → threadOf s u = some th → ∃ th', threadOf t u = some th'
      ∧ th' = if guardOn f.x.guard th.regs then trappedAt s.cur.addr th else th)
    ∧ (∀ u, u ∉ s.cur.lanes → threadOf t u = threadOf s u)
    ∧ t.cur = s.cur ∧ t.work.bundles = s.work.bundles := by
  intro t
  have frame : recordsOnly (trapAll s ((activeLanes s f.x.guard).map Prod.fst) s.cur.addr) t :=
    trapThreads_frame s _ _ _ _ _ _
  have threads (u : Nat) : threadOf t u = if u ∈ (activeLanes s f.x.guard).map Prod.fst
      then (threadOf s u).map (trappedAt s.cur.addr) else threadOf s u := by
    rw [← threadOf_trapAll, threadOf, frame.work_eq, threadOf]
  have outside {u : Nat} (apart : u ∉ (activeLanes s f.x.guard).map Prod.fst) : threadOf t u = threadOf s u :=
    (threads u).trans (if_neg apart)
  refine ⟨fun u th lane found => ?_, fun u apart => outside fun listed => ?_, ?_, ?_⟩
  · by_cases active : guardOn f.x.guard th.regs = true
    · have listed : u ∈ (activeLanes s f.x.guard).map Prod.fst :=
        List.mem_map.2 ⟨(u, th), mem_activeLanes lane found active, rfl⟩
      exact ⟨trappedAt s.cur.addr th, by rw [threads, if_pos listed, found, Option.map_some], (if_pos active).symm⟩
    · refine ⟨th, (outside fun listed => ?_).trans found, (if_neg active).symm⟩
      obtain ⟨p, among, rfl⟩ := List.mem_map.1 listed
      obtain ⟨-, again, on⟩ := of_mem_activeLanes among
      exact active (Option.some.inj (again.symm.trans found) ▸ on)
  · obtain ⟨p, among, rfl⟩ := List.mem_map.1 listed
    exact apart (of_mem_activeLanes among).1
  · rw [frame.cur_eq, trapAll_eq]
  · rw [frame.work_eq, trapAll_eq]

/-- Settles O39: a call is taken once for the bundle, its tag found within seven steps; a trap is `trapForm` for both
forms. -/
theorem supervisorCalls : Obligations.SupervisorCalls := by
  unfold Obligations.SupervisorCalls
  refine ⟨?calls, ?traps⟩
  case calls =>
    intro free record
    refine ⟨fun f => turnForm_of_underQuota (fun s _ ⟨active, slot⟩ => execSvc_posts active slot) fun _ => ⟨rfl, rfl⟩,
      fun f s _ none _ => ?refuses,
      fun y small ⟨k, slot, idle⟩ => ?tags, fun f s _ names => ?waits⟩
    case refuses => exact ⟨_, execSvc_none none, eachLane_inTurn _ _ _ _⟩
    case tags =>
      obtain ⟨j, within, tag⟩ := tag_of_slot small slot
      obtain ⟨positive, range, found⟩ :=
        nextTag_free (y := y) small ⟨j, within, by rw [tag]; exact (slotLive_eq_false_iff y k).2 idle⟩
      exact ⟨positive, range, (slotLive_eq_false_iff y _).1 found⟩
    case waits =>
      refine ⟨_, execSvcw_waits names, chain_foldl_of_mem (fun a p listed => ?_) s⟩
      obtain ⟨lane, found, active⟩ := of_mem_activeLanes listed
      rw [svcwLane_eq_laneWaits (names p.1 p.2 lane found active)]
      exact laneWaits_ends_or_blocks f (svcwNow f s) (fun _ => svcwKind f) a p.1 p.2
  case traps =>
    intro trapped
    exact ⟨fun f s _ => ⟨_, rfl, trapForm_traps f .userTrap 4 _ _⟩,
      fun f s _ => ⟨_, rfl, trapForm_traps f .breakpoint 5 0 0⟩⟩

end Sys2Proof.Proofs
end

section
/-! REFUTATION of the statement on operating points and supervisor fields, O54: a word written to a line in transition (11 R258,
22 R512). -/

namespace Sys2Proof.Proofs

open Sys2Proof.Machine Sys2Proof.Safety

/-! ### O54: a supervisor's write of a device word -/

/-- A state after reset in which line 0 of device memory is in transition. -/
def lineInTransition : State := { State.reset with lines := [(0, { transient := true })] }

/-- 11 R258: the word written waits at its line; nothing of it stands in device memory yet. -/
theorem lineInTransition_holds_word : ∃ t, exec (.supervisorFieldWrite (.deviceWord 0) 1) lineInTransition = .next t
    ∧ t.mem.device = [] ∧ (lineOf t 0).homeWrites = [byteWrites 0 8 1] :=
  ⟨homeWrite lineInTransition (byteWrites 0 8 1), rfl, by decide, by decide⟩

/-- Refutes O54: a supervisor's word on a line in transition is not in memory in the next state; it waits at the slice until
the line is free. -/
theorem not_powerEvents : ¬ Obligations.PowerEvents := by
  unfold Obligations.PowerEvents
  intro h
  extract_lets mailed free puts at h
  obtain ⟨-, -, -, -, -, -, -, -, -, -, fields, -⟩ := h
  obtain ⟨-, -, -, -, -, -, -, -, -, -, -, -, -, -, -, -, -, -, -, words⟩ := fields 1
  obtain ⟨t, written, stored⟩ := words 0 lineInTransition rfl
  obtain ⟨t', holds, unwritten, -⟩ := lineInTransition_holds_word
  obtain rfl : t' = t := by simpa using holds.symm.trans written
  have clean : ∀ i, i < 8 → isPoisoned lineInTransition .device ((0 + i) / 32) = false := by decide
  have listed : setCells lineInTransition.mem.device (byteWrites 0 8 1) ≠ [] := by decide
  exact listed ((stored clean).symm.trans unwritten)

end Sys2Proof.Proofs
end

section
/-!
Proofs of the security events (22 R503-R521): a line read with wrong symbols, lost dies, keys, the boot chain,
attestation, tokens and the debug state.
-/

namespace Sys2Proof.Proofs

open Sys2Proof.Machine Sys2Proof.Safety

/-! ### A line read with wrong symbols (22 R503-R505) -/

theorem symbolError_nil (j : Nat) : symbolError [] j = 0 := rfl

theorem symbolError_singleton_other {k j : Nat} (e : Nat) (other : k ≠ j) : symbolError [(k, e)] j = 0 := by
  simp [symbolError, other]

theorem sectorError_nil (k : Nat) : sectorError [] k = 0 := by
  simp [sectorError, symbolError_nil]

theorem crcMismatch_zero : crcMismatch 0 = false :=
  Bool.eq_false_iff.2 fun differs => (crcMismatch_iff 0 0).1 differs (congrArg crc16 BitVec.xor_zero)

/-- The sectors of a line whose check value the wrong symbols disturb. -/
def disturbed (wrong : List (Nat × Nat)) : List Nat :=
  (List.range 4).filter fun k => crcMismatch (sectorError wrong k)

theorem mem_disturbed {s : State} {line : Nat} {wrong : List (Nat × Nat)} {k : Nat} :
    k ∈ disturbed wrong ↔ k < 4
      ∧ crc16 (cipherOf s (4 * line + k) ^^^ sectorError wrong k) ≠ sectorCheck s (4 * line + k) := by
  rw [disturbed, List.mem_filter, List.mem_range, crcMismatch_iff (cipherOf s (4 * line + k))]
  rfl

theorem correctLine_of_undisturbed (s : State) (line : Nat) {wrong : List (Nat × Nat)} (none : disturbed wrong = []) :
    correctLine s line wrong = s := by
  rw [disturbed] at none
  simp [correctLine, none]

theorem disturbed_nil : disturbed [] = [] :=
  List.filter_eq_nil_iff.2 fun k _ => by rw [sectorError_nil, crcMismatch_zero]; exact Bool.false_ne_true

/-- The number of a line's symbols that are wrong. -/
def wrongSymbols (wrong : List (Nat × Nat)) : Nat := ((List.range 64).filter fun j => symbolError wrong j != 0).length

theorem correctLine_of_few (s : State) (line : Nat) {wrong : List (Nat × Nat)} (some : disturbed wrong ≠ [])
    (few : wrongSymbols wrong ≤ 4) :
    correctLine s line wrong = modDie s (homeDie line) fun d => { d with corrections := d.corrections + 1 } := by
  have nonempty : (disturbed wrong).isEmpty = false := by simpa using some
  unfold correctLine
  exact (if_neg (Bool.eq_false_iff.1 nonempty)).trans (if_pos few)

theorem wrongSymbols_singleton (k e : Nat) : wrongSymbols [(k, e)] ≤ 1 := by
  have only : ∀ j ∈ (List.range 64).filter (fun j => symbolError [(k, e)] j != 0), j = k := by
    intro j listed
    by_contra other
    simp [symbolError_singleton_other e (Ne.symm other)] at listed
  exact ((List.nodup_range.filter _).subperm fun j listed => List.mem_singleton.2 (only j listed)).length_le

theorem isPoisoned_addPoison_same (s : State) (m : Mem) (k : Nat) : isPoisoned (addPoison s m k) m k = true := by
  unfold addPoison
  split
  · assumption
  · simp [isPoisoned]

theorem isPoisoned_addPoison_of (s : State) {m : Mem} (m' : Mem) {k : Nat} (k' : Nat)
    (poisoned : isPoisoned s m k = true) : isPoisoned (addPoison s m' k') m k = true := by
  unfold addPoison
  split
  · exact poisoned
  · simp only [isPoisoned, List.contains_eq_mem, decide_eq_true_eq] at poisoned ⊢
    exact List.mem_cons_of_mem _ poisoned

/-- Sectors poisoned one after another, each with an entry of the black box: every one of them is poisoned. -/
theorem foldl_addPoison_poisons (m : Mem) (sector : Nat → Nat) (entry : Nat → BlackBox) (ks : List Nat) :
    ∀ (s : State) (k : Nat), k ∈ ks ∨ isPoisoned s m (sector k) = true →
      isPoisoned (ks.foldl (fun acc k => blackBoxAdd (addPoison acc m (sector k)) (entry k)) s) m (sector k) = true := by
  induction ks with
  | nil => exact fun s k h => h.resolve_left List.not_mem_nil
  | cons x xs ih =>
    intro s k h
    refine ih _ k ?_
    rcases h with listed | poisoned
    · rcases List.mem_cons.1 listed with rfl | later
      · exact .inr (isPoisoned_addPoison_same s m (sector k))
      · exact .inl later
    · exact .inr (isPoisoned_addPoison_of s m (sector x) poisoned)

theorem correctLine_of_many (s : State) (line : Nat) {wrong : List (Nat × Nat)} (many : 4 < wrongSymbols wrong) {k : Nat}
    (listed : k ∈ disturbed wrong) : isPoisoned (correctLine s line wrong) .device (4 * line + k) = true := by
  have nonempty : (disturbed wrong).isEmpty = false := by
    simpa using List.ne_nil_of_mem listed
  have poisons := foldl_addPoison_poisons .device (4 * line + ·) (fun k =>
    { time := 0, seq := 0, kind := 1, die := homeDie line, ctx := (frameOf s (frameOfLine line)).ctx
      code := FaultCode.poisonConsumed.byte, detail := 128 * line + 32 * k }) _ s k (.inl listed)
  rw [wrongSymbols] at many
  rw [disturbed] at nonempty poisons
  simp only [correctLine, nonempty, Bool.false_eq_true, if_false, Nat.not_le.2 many]
  exact poisons

/-- The patrol reads the lines of a frame; the others have no wrong symbol and stay. -/
theorem foldl_correctLine_one (f i : Nat) (x : Nat × Nat) (inFrame : i < 32) (s : State) :
    (linesOf f).foldl (fun acc l => correctLine acc l (([(i, x)].filter fun w => w.1 == l % 32).map Prod.snd)) s
      = correctLine s (32 * f + i) [x] := by
  have step (acc : State) (j : Nat) (small : j < 32) :
      correctLine acc (32 * f + j) (([(i, x)].filter fun w => w.1 == (32 * f + j) % 32).map Prod.snd)
        = if j = i then correctLine acc (32 * f + i) [x] else acc := by
    have place : (32 * f + j) % 32 = j := by omega
    rw [place]
    by_cases here : j = i
    · subst here
      simp
    · simp [Ne.symm here, here, correctLine_of_undisturbed acc _ disturbed_nil]
  have turns : ∀ (n : Nat) (s : State), n ≤ 32 →
      (List.range n).foldl (fun acc j => correctLine acc (32 * f + j)
        (([(i, x)].filter fun w => w.1 == (32 * f + j) % 32).map Prod.snd)) s
        = if i < n then correctLine s (32 * f + i) [x] else s := by
    intro n s
    induction n with
    | zero => simp
    | succ n ih =>
      intro small
      rw [List.range_succ, List.foldl_append, ih (by omega), List.foldl_cons, List.foldl_nil, step _ n (by omega)]
      by_cases here : n = i
      · simp [here]
      · have same : i < n + 1 ↔ i < n := by omega
        simp [here, same]
  rw [linesOf, List.foldl_map, turns 32 s le_rfl, if_pos inFrame]

/-! ### Attestation (22 R517) -/

theorem onSpdm_of_unreached {s : State} (f : Spdm → Option Spdm) (unreached : securityDie s = none ∨ hostReach s = false) :
    onSpdm s f = s := by
  rcases unreached with lost | cut
  · simp [onSpdm, lost]
  · simp [onSpdm, cut]

theorem onSpdm_of_reached {s : State} (f : Spdm → Option Spdm) (core : (securityDie s).isSome = true)
    (host : hostReach s = true) : onSpdm s f = { s with
      power := { s.power with asleep := false }
      security := { s.security with spdm := (f s.security.spdm).getD s.security.spdm } } := by
  have open' : ((securityDie s).isNone || !hostReach s) = false := by
    rw [← Option.not_isSome, core, host]; rfl
  simp only [onSpdm, open', wake]
  cases f s.security.spdm <;> rfl

/-! ### The boot chain (22 R515, R516) -/

theorem deriveLayers_identifier (st : SecState) (run : List BootImage) : ∀ (n : Nat) (x : BitVec 384) (b : Option LayerId),
    (deriveLayers st n x b run).1 = (n + run.length, run.foldl (fun x i => Config.hkdf x i.hash st.code) x) := by
  induction run with
  | nil => exact fun n x b => rfl
  | cons i r ih =>
    intro n x b
    rw [deriveLayers, ih, List.length_cons, List.foldl_cons, Nat.add_right_comm n, Nat.add_assoc]

theorem deriveLayers_layers (st : SecState) (run : List BootImage) : ∀ (n : Nat) (x : BitVec 384) (b : Option LayerId),
    (deriveLayers st n x b run).2.map (·.layer) = List.range' n (run.length + 1) := by
  induction run with
  | nil => exact fun n x b => rfl
  | cons i r ih =>
    intro n x b
    rw [deriveLayers, List.map_cons, ih, List.length_cons, List.range'_succ]
    rfl

/-! ### Debug (22 R521) and the black box (19 R457) -/

/-- The residence of contexts changes their records alone. -/
theorem foldl_resident (b : Bool) (cs : List Nat) (s : State) :
    ∃ m, cs.foldl (fun acc c => if (mget acc.ctxs c).isSome then modCtx acc c fun x => { x with resident := b } else acc) s
      = { s with ctxs := m } := by
  induction cs generalizing s with
  | nil => exact ⟨_, rfl⟩
  | cons c cs ih =>
    rw [List.foldl_cons]
    split
    · obtain ⟨m, eq⟩ := ih (modCtx s c fun x => { x with resident := b })
      exact ⟨m, eq⟩
    · exact ih s

theorem blackBoxAdd_last (s : State) (e : BlackBox) : ∃ seq,
    (blackBoxAdd s e).blackBox.getLast? = some { e with time := s.dtime, seq := seq } := by
  unfold blackBoxAdd
  extract_lets seq r
  refine ⟨seq, ?_⟩
  have last : r.getLast? = some { e with time := s.dtime, seq := seq } := List.getLast?_concat
  by_cases full : 4096 < r.length
  · simp only [full, if_true]
    have long : r.tail ≠ [] := by
      intro short
      have : r.tail.length = 0 := by rw [short]; rfl
      rw [List.length_tail] at this
      omega
    rw [List.getLast?_tail, if_neg (by omega)]
    exact last
  · simp only [full, if_false]
    exact last

/-! ### What each event leaves -/

theorem crcCorrectionDone_corrects (s : State) (line : Nat) (wrong : List (Nat × Nat))
    (stored : (lineOf s line).transient = false) :
    exec (.crcCorrectionDone line wrong) s = .next (correctLine s line wrong) := by
  have arm : exec (.crcCorrectionDone line wrong) s = execCrcCorrectionDone line wrong s := rfl
  rw [arm, execCrcCorrectionDone, stored]
  rfl

theorem patrolScrub_reads {s : State} {f : Nat} (wrong : List (Nat × Nat × Nat)) (valid : (frameOf s f).valid = true) :
    exec (.patrolScrub f wrong) s = .next ((linesOf f).foldl (fun acc l =>
      correctLine acc l ((wrong.filter fun w => w.1 == l % 32).map Prod.snd))
      (modFrame s f fun x => { x with scrubbed := s.dtime })) :=
  if_pos valid

theorem watchdogBeatMiss_counts {s : State} {die : Nat} (aDie : die < 4) (alive : (dieOf s die).lost = false) :
    let d := dieOf s die
    let n := if d.missed = 0 ∨ s.dtime < d.missedAt + 2000000 then d.missed + 1 else 1
    answers (.watchdogBeatMiss die) s fun t => (dieOf t die).missed = n ∧ (dieOf t die).missedAt = s.dtime
      ∧ ((dieOf t die).lost = true ↔ 4 ≤ n) := by
  intro d n
  let counted := modDie s die fun x => { x with missed := n, missedAt := s.dtime }
  have after : dieOf counted die = { dieOf s die with missed := n, missedAt := s.dtime } := by
    rw [dieOf_modDie, if_pos rfl]
  have runs : ¬ (4 ≤ die ∨ (dieOf s die).lost = true) := by simp [alive, aDie]
  refine ⟨if 4 ≤ n then loseDie counted die else counted, if_neg runs, ?_⟩
  by_cases fourth : 4 ≤ n
  · have gone : loseDie counted die = modDie counted die fun x => { x with lost := true, census := true } :=
      if_neg (by rw [after]; simp [alive])
    simp [fourth, gone, after]
  · simp [fourth, after, alive]

theorem dieLoss_loses {s : State} {die : Nat} (aDie : die < 4) (alive : (dieOf s die).lost = false) :
    answers (.dieLoss die) s fun t => dieOf t die = { dieOf s die with lost := true, census := true }
      ∧ ∀ e, e ≠ die → dieOf t e = dieOf s e := by
  have gone : loseDie s die = modDie s die fun x => { x with lost := true, census := true } := if_neg (by simp [alive])
  refine ⟨loseDie s die, congrArg Host.Outcome.next (if_neg (Nat.not_le.2 aDie)), ?_, fun e => dieOf_loseDie_other s⟩
  rw [gone, dieOf_modDie, if_pos rfl]

section
variable {s : State} {die ctx index session image : Nat}

theorem keyLoad_answers (opened : mailOpen s die = true) (context : ctx < 4096) (named : 0 < index)
    (inTable : index < 4096) (aligned : imageOk s image = true) : exec (.keyLoad die ctx index session image) s = .next (
      if !sessionOk s session then mailReply s die 2 3
      else if (mgetD s.tables.keys index {}).valid then mailReply s die 2 1
      else if s.security.state = .returnMaterial then mailReply s die 2 2
      else mailReply { s with tables := { s.tables with
        keys := mset s.tables.keys index { valid := true, ctx := ctx, bits := Config.unwrapKey session (wrappedPair s image) } } }
          die 0 0) := by
  have arm : exec (.keyLoad die ctx index session image) s = execKeyLoad die ctx index session image s := rfl
  have operands : ¬ (4096 ≤ ctx ∨ index = 0 ∨ 4096 ≤ index ∨ (!imageOk s image) = true) := by
    simp [aligned, context, inTable, Nat.pos_iff_ne_zero.1 named]
  rw [arm, execKeyLoad, onMail_of_open _ opened, if_neg operands]

theorem keyInvalidate_erases (opened : mailOpen s die = true) (named : 0 < index) (inTable : index < 4096) :
    exec (.keyInvalidate die index) s
      = .next (mailReply { s with tables := { s.tables with keys := merase s.tables.keys index } } die 0 0) := by
  have arm : exec (.keyInvalidate die index) s = execKeyInvalidate die index s := rfl
  have operands : ¬ (index = 0 ∨ 4096 ≤ index) := by omega
  rw [arm, execKeyInvalidate, onMail_of_open _ opened, if_neg operands]

end

theorem nextSecurity_eq (x : Security) : nextSecurity x = if x.fuseBurned = true then .returnMaterial
    else if x.pendingToken = true then .debugAuthorised else .productionLocked := rfl

/-- The state of a boot before the black box records it. -/
def bootedState (s : State) (images : List BootImage) : State :=
  let st := nextSecurity s.security
  let run := bootedImages images
  let ids := deriveLayers st 0 (Config.deviceSecret.setWidth 384) none run
  { State.reset with
    inputs := s.inputs, ticks := s.ticks, yields := s.yields, draws := s.draws
    mem := (if st = .returnMaterial then clearPinned s else s).mem
    dies := s.dies.map fun d => (d.1, { ({} : Die) with rowMap := d.2.rowMap })
    tables := { State.reset.tables with keys := [(0, bootKey st run)] }
    security := { booted := run.length, measurements := run.map (·.hash), identifier := some ids.1, layers := ids.2
                  state := st, fuseBurned := s.security.fuseBurned, deviceId := s.security.deviceId }
    blackBox := s.blackBox }

theorem boot_boots (s : State) (images : List BootImage) :
    exec (.boot images) s = .next (blackBoxAdd (bootedState s images) { time := 0, seq := 0, kind := 8 }) := rfl

theorem bootedState_mem {s : State} (images : List BootImage) (unburned : s.security.fuseBurned = false) :
    (bootedState s images).mem = s.mem := by
  have state : nextSecurity s.security ≠ .returnMaterial := by
    rw [nextSecurity_eq, unburned]
    cases s.security.pendingToken <;> simp
  simp only [bootedState, state, if_false]

theorem bootedState_rowMap (s : State) (images : List BootImage) (d : Nat) :
    (dieOf (bootedState s images) d).rowMap = (dieOf s d).rowMap := by
  simp only [dieOf, mgetD, bootedState, mget_map s.dies fun d => { ({} : Die) with rowMap := d.rowMap }]
  cases mget s.dies d <;> rfl

theorem bootKey_bits (st : SecState) (i : BootImage) (r : List BootImage) : (bootKey st (i :: r)).bits =
    Config.deviceKey (Config.hkdf (Config.deviceSecret.setWidth 384) i.hash st.code) := rfl

theorem resumeUnits_resumes (s : State) : (resumeUnits s).security = { s.security with haltedUnits := [] }
    ∧ ∀ g, (coreOf (resumeUnits s) g).halted = false := by
  obtain ⟨m, eq⟩ := foldl_resident true (haltedCtxs s) { s with
    security := { s.security with haltedUnits := [] }
    cores := s.cores.map fun c => (c.1, { c.2 with halted := false }) }
  rw [show resumeUnits s = _ from eq]
  refine ⟨rfl, fun g => ?_⟩
  simp only [coreOf, mgetD, mget_map s.cores fun c => { c with halted := false }]
  cases mget s.cores g <;> rfl

/-- R521: a unit stopped, before the time of its partition's context is. -/
def unitStopped (s : State) (u : UnitId) : State :=
  let s1 := { s with security := { s.security with haltedUnits := s.security.haltedUnits ++ [u] }
                     power := { s.power with gatedUnits := s.power.gatedUnits.filter (· != u) } }
  match u with
  | .core g => modCore s1 g fun c => { c with halted := true, gated := false }
  | _ => s1

theorem unitStopped_stops (s : State) (u : UnitId) :
    (unitStopped s u).security.haltedUnits = s.security.haltedUnits ++ [u]
      ∧ (unitStopped s u).power.asleep = s.power.asleep ∧ ∀ g, u = .core g → (coreOf (unitStopped s u) g).halted = true := by
  refine ⟨by cases u <;> rfl, by cases u <;> rfl, ?_⟩
  rintro g rfl
  simp only [unitStopped, coreOf_modCore, if_true]

theorem haltUnit_stops (s : State) (u : UnitId) : ∃ m, haltUnit s u = { unitStopped s u with ctxs := m } := by
  obtain ⟨m, eq⟩ := foldl_resident false (haltedCtxs (unitStopped s u)) (unitStopped s u)
  exact ⟨m, by cases u <;> exact eq⟩

theorem debugStateSet_sets {s : State} {n : Nat} {d : DebugMode} (session : sessionOk s n = true)
    (mayHalt : d = .halt → s.security.state ≠ .productionLocked) :
    exec (.debugStateSet n d) s = .next { (if d = .halt then s else resumeUnits s) with
      security := { (if d = .halt then s else resumeUnits s).security with debug := d } } := by
  have arm : exec (.debugStateSet n d) s = execDebugStateSet n d s := rfl
  have allowed : (!sessionOk s n || (d == .halt && s.security.state == .productionLocked)) = false := by
    simpa [session] using mayHalt
  rw [arm, execDebugStateSet, allowed]
  rfl

/-- R519: the record at the head of a queue, dropped, is among the context's records with its outcome. -/
theorem takeHeadAs_drops {s : State} {ctx q : Nat} {c : CmdQueue} {b : List Byte} (stop : Status × FaultCode)
    (queue : cmdQueueOf s ctx q = some c) (plain : c.marks.contains (c.seq % 2 ^ 24) = false
      ∨ (parseRecord b q (c.handle q) c.head c.phaseNo).kind ≠ 5) :
    ∃ r, recordOf (takeHeadAs (some stop) s ctx q c b) ctx (c.handle q) = some r ∧ r.due = some stop ∧ r.begun = false := by
  let r0 : Record := { parseRecord b q (c.handle q) c.head c.phaseNo with due := some stop }
  let r := if r0.kind = 2 then { r0 with deadline := recordDeadline s ctx r0.deadline } else r0
  have fields : r.handle = c.handle q ∧ r.kind = r0.kind ∧ r.due = some stop ∧ r.begun = false := by
    simp only [r]
    split <;> exact ⟨rfl, rfl, rfl, rfl⟩
  obtain ⟨handle, kind, due, unbegun⟩ := fields
  let written := (writeVirtual s ctx (c.head + 4) (leBytes 4 (c.handle q))).getD s
  let listed := modMore (pushRecord (modCmdQueue written ctx q fun x =>
    { x with readIdx := (x.readIdx + 1) % max 1 x.size, seq := (x.seq + 1) % 2 ^ 24
             marks := x.marks.filter (· != c.seq % 2 ^ 24) }) ctx r) ctx fun m => { m with jobCounter := m.jobCounter + 1 }
  let counted := modPhase listed ctx (phaseKey q c.phaseNo) fun p => { p with counter := p.counter + 1 }
  have shape : takeHeadAs (some stop) s ctx q c b =
      let s5 := if r0.kind ≠ 5 then counted
        else if c.marks.contains (c.seq % 2 ^ 24) then cancelMarked listed ctx (phaseKey q c.phaseNo) else listed
      if r.due.isSome then s5 else beginRecord s5 ctx r := rfl
  have counts : recordCounted written ctx q c r = if r.kind ≠ 5 then counted else listed := rfl
  have taken : takeHeadAs (some stop) s ctx q c b = recordCounted written ctx q c r := by
    rw [shape, counts, due, kind]
    by_cases mark : r0.kind = 5
    · rw [plain.resolve_right (not_not.2 mark)]
      rfl
    · rw [if_pos mark, if_pos mark]
      rfl
  have stand := (writeVirtual_getD_homeOnly s ctx (c.head + 4) (leBytes 4 (c.handle q))).queuesStand
  obtain ⟨-, -, found, -⟩ := recordCounted_counts written ctx r ((stand.cmdQueueOf ctx q).trans queue)
  rw [handle] at found
  exact ⟨r, taken ▸ found, due, unbegun⟩

theorem capabilityFault_drops {s : State} {ctx : Nat} (x : FirmwareItem) (context : (mget s.ctxs ctx).isSome = true) :
    exec (.capabilityFault ctx x) s = .next (blackBoxAdd (dropItem s ctx x)
      { time := 0, seq := 0, kind := 1, ctx := ctx, code := FaultCode.protection.byte }) :=
  if_neg (by rw [← Option.not_isSome, context]; exact Bool.false_ne_true)

theorem dropItem_record {s : State} {ctx q : Nat} {c : CmdQueue} {b : List Byte} (queue : cmdQueueOf s ctx q = some c)
    (may : readerMay s ctx q c = true) (bytes : headBytes s ctx c = .ok b) :
    dropItem s ctx (.record q) = takeHeadAs (some (.faulted, .protection)) s ctx q c b := by
  simp [dropItem, queue, may, bytes]

/-! ### The obligation -/

/-- An SPDM request, at a reachable security core and at none. -/
theorem onSpdm_asks (s : State) (f : Spdm → Option Spdm) :
    (securityDie s = none ∨ hostReach s = false → (.next (onSpdm s f) : Result) = .next s)
    ∧ ((securityDie s).isSome = true → hostReach s = true → (.next (onSpdm s f) : Result) = .next { s with
      power := { s.power with asleep := false }
      security := { s.security with spdm := (f s.security.spdm).getD s.security.spdm } }) :=
  ⟨fun unreached => by rw [onSpdm_of_unreached f unreached], fun core host => by rw [onSpdm_of_reached f core host]⟩

/-- Settles O53, clause by clause: the effect of each event is the lemma above that names it. -/
theorem securityEvents : Obligations.SecurityEvents := by
  unfold Obligations.SecurityEvents
  extract_lets mailed asks said ready differs
  refine ⟨?crc, ?patrol, ?lost, ?census, ?load, ?invalidate, ?boot, ?version, ?capabilities, ?algorithms, ?digests,
    ?certificate, ?challenge, ?measurements, ?exchange, ?finish, ?close, ?vendor, ?taken, ?refused, ?debug, ?halt, ?drop,
    ?box⟩
  case crc =>
    intro s line wrong stored
    refine ⟨_, crcCorrectionDone_corrects s line wrong stored, fun clean => ?_, fun some few => ?_,
      fun many k small wrongSector => ?_⟩
    · refine correctLine_of_undisturbed s line (List.eq_nil_iff_forall_not_mem.2 fun k listed => ?_)
      obtain ⟨small, wrongSector⟩ := (mem_disturbed (s := s) (line := line)).1 listed
      exact clean k small wrongSector
    · obtain ⟨k, small, wrongSector⟩ := some
      have listed : k ∈ disturbed wrong := (mem_disturbed (s := s) (line := line)).2 ⟨small, wrongSector⟩
      rw [correctLine_of_few s line (List.ne_nil_of_mem listed) few, dieOf_modDie, if_pos rfl]
      exact ⟨rfl, rfl⟩
    · exact correctLine_of_many s line many (mem_disturbed.2 ⟨small, wrongSector⟩)
  case patrol =>
    intro s f i k e valid
    refine ⟨?_, fun inFrame symbol wrongSector => ?_⟩
    · rw [patrolScrub_reads [] valid]
      refine congrArg Host.Outcome.next (List.foldl_fixed' (fun l => ?_) _)
      exact correctLine_of_undisturbed _ l disturbed_nil
    · refine ⟨_, patrolScrub_reads _ valid, ?_⟩
      have listed : k / 16 ∈ disturbed [(k, e)] :=
        (mem_disturbed (s := s) (line := 32 * f + i)).2 ⟨by omega, wrongSector⟩
      rw [foldl_correctLine_one f i (k, e) inFrame, correctLine_of_few _ _ (List.ne_nil_of_mem listed)
        ((wrongSymbols_singleton k e).trans (by decide))]
      refine ⟨rfl, ?_⟩
      rw [dieOf_modDie, if_pos rfl]
      rfl
  case lost => exact fun s die aDie alive => ⟨watchdogBeatMiss_counts aDie alive, dieLoss_loses aDie alive⟩
  case census =>
    intro s die aDie due
    have runs : (decide (die < 4) && (dieOf s die).census) = true := by simp [aDie, due]
    exact congrArg Host.Outcome.next (if_pos runs)
  case load =>
    intro s die ctx index session image opened context named inTable aligned
    have answer := keyLoad_answers (session := session) opened context named inTable aligned
    refine ⟨fun noSession => ⟨_, answer, ?_⟩, fun open' valid => ⟨_, answer, ?_⟩,
      fun open' invalid returned => ⟨_, answer, ?_⟩⟩
    · simp only [noSession, Bool.not_false, if_true]
      exact ⟨mailReply_mail s die 2 3, rfl⟩
    · simp only [open', valid, Bool.not_true, Bool.false_eq_true, if_false, if_true]
      exact ⟨mailReply_mail s die 2 1, rfl⟩
    · simp only [open', invalid, returned, Bool.not_true, Bool.false_eq_true, if_false]
      exact ⟨mailReply_mail _ die 0 0, mget_mset_same _ _ _⟩
  case invalidate =>
    exact fun s die index opened named inTable =>
      ⟨_, keyInvalidate_erases opened named inTable, mailReply_mail _ die 0 0, rfl⟩
  case boot =>
    intro s images
    let run := bootedImages images
    refine ⟨_, boot_boots s images, ?_⟩
    refine ⟨rfl, rfl, rfl, ?_, ?_, ?_, rfl, rfl, rfl, rfl, rfl, rfl, bootedState_mem images, bootedState_rowMap s images⟩
    · exact congrArg some ((deriveLayers_identifier _ run 0 _ none).trans (by rw [Nat.zero_add]; rfl))
    · exact (deriveLayers_layers _ run 0 _ none).trans List.range_eq_range'.symm
    · intro i r first
      have key : mgetD (blackBoxAdd (bootedState s images) { time := 0, seq := 0, kind := 8 }).tables.keys 0 {}
          = bootKey (nextSecurity s.security) run := rfl
      rw [key, show run = i :: r from first]
      exact bootKey_bits _ i r
  case version => exact fun s => onSpdm_asks s _
  case capabilities => exact fun s => onSpdm_asks s _
  case algorithms => exact fun n s => onSpdm_asks s _
  case digests => exact fun s => onSpdm_asks s _
  case certificate => exact fun n s => onSpdm_asks s _
  case challenge => exact fun n s => onSpdm_asks s _
  case measurements => exact fun n s => onSpdm_asks s _
  case exchange => exact fun n s => onSpdm_asks s _
  case finish =>
    intro n s
    simp only [said, beq_iff_eq]
    exact onSpdm_asks s _
  case close =>
    intro n s
    simp only [said, beq_iff_eq]
    exact onSpdm_asks s _
  case vendor => exact fun n s => onSpdm_asks s _
  case taken =>
    intro s n k session token
    have both : (sessionOk s n && tokenOk s k) = true := by simp [session, token]
    exact ⟨congrArg Host.Outcome.next (if_pos both), congrArg Host.Outcome.next (if_pos both)⟩
  case refused =>
    intro s n k missing
    have notBoth : ¬ (sessionOk s n && tokenOk s k) = true := by rcases missing with h | h <;> simp [h]
    exact ⟨congrArg Host.Outcome.next (if_neg notBoth), congrArg Host.Outcome.next (if_neg notBoth)⟩
  case debug =>
    intro s n d session
    refine ⟨fun halts locked => ?_, fun halts unlocked => ?_, fun runs => ?_⟩
    · have refuses : (!sessionOk s n || (d == .halt && s.security.state == .productionLocked)) = true := by
        simp [halts, locked]
      exact if_pos refuses
    · rw [debugStateSet_sets session fun _ => unlocked, if_pos halts, halts]
    · refine ⟨_, debugStateSet_sets session fun halts => absurd halts runs, ?_⟩
      obtain ⟨security, cores⟩ := resumeUnits_resumes s
      simp only [if_neg runs, security, true_and]
      exact cores
  case halt =>
    intro s n u session halting allowed fresh
    have runs : (sessionOk s n && s.security.debug == .halt && mayHalt s u && !s.security.haltedUnits.contains u) = true := by
      simp [session, halting, allowed, fresh]
    obtain ⟨m, stops⟩ := haltUnit_stops (wake s) u
    refine ⟨_, if_pos runs, ?_⟩
    rw [stops]
    exact unitStopped_stops (wake s) u
  case drop =>
    intro s ctx q c b queue may bytes plain
    obtain ⟨r, found, due, unbegun⟩ := takeHeadAs_drops (.faulted, .protection) queue plain
    refine ⟨_, capabilityFault_drops (.record q) (isSome_of_cmdQueueOf queue), r, ?_, due, unbegun⟩
    rw [dropItem_record queue may bytes]
    exact found
  case box =>
    intro s ctx x context
    refine ⟨_, capabilityFault_drops x context, ?_⟩
    obtain ⟨seq, last⟩ := blackBoxAdd_last (dropItem s ctx x)
      { time := 0, seq := 0, kind := 1, ctx := ctx, code := FaultCode.protection.byte }
    rw [last]
    rfl

end Sys2Proof.Proofs
end

section
/-! REFUTATION of the statement on traps, replies and events, O46: a thread that a trap's end has ended is filed again where
the state lists the thread twice (18 R433, 20 R464). -/

namespace Sys2Proof.Proofs

open Sys2Proof.Machine Sys2Proof.Safety

/-! ### O46: the end of a trapped thread that the state lists twice -/

/-- The trap record of the thread. -/
def trappedRecord : ReplayRecord := { cause := 3, kind := 1, work := .core 0x1008 1 [1024] }

/-- A trapped thread of block 1, whose exit at gang barrier 0 leaves nothing pending; the state lists the thread a second time,
as one that waits at that barrier. -/
def trappedTwice : State :=
  let x : Thread := { block := 1, tid := 0, slot := 0, ctl := { pc := 0x1000, run := .trapped } }
  let w : Wait := { kind := .barrier (.gang 1 0 0) 0 true, deadline := 0, resume := 0x1008, site := 0x1000, dst := .suppress
                    esc := false, poll := false }
  { State.reset with
    ctxs := [(1, { ctime := 10 ^ 9 })]
    more := [(1, { replay := [(0, trappedRecord)] })]
    work := { State.reset.work with
      launches := [(1, { ctx := 1, desc := { gangBars := 1 } })]
      blocks := [(1, { launch := 1, gangBars := [(0, { members := 2, pending := 1, arrivals := 1 })] })]
      threads := [(1024, x), (1024, { x with ctl := { x.ctl with run := .blocked, wait := some w } })] } }

/-- 18 R433: the exit completes the phase, and the thread, ended, is filed at the end of the second listing's wait. -/
theorem trappedTwice_runs : ∃ t, exec (.traplimitExpiry 1 0) trappedTwice = .next t
    ∧ (threadOf t 1024).map (·.ctl.run) = some .runnable :=
  ⟨trapEnd trappedTwice 1 0 trappedRecord, by rfl, by decide⟩

/-- Refutes O46: at the trap's time limit the trapped thread ends, its exit completes a barrier's phase, and the wait that the
second listing holds files it again: it is runnable, not exited. -/
theorem not_trapEvents : ¬ Obligations.TrapEvents := by
  unfold Obligations.TrapEvents
  intro h
  extract_lets mailed held allExited at h
  obtain ⟨-, -, -, -, limits, -⟩ := h
  obtain ⟨t, ends, exited⟩ := limits trappedTwice 1 0 trappedRecord (by rfl) (by decide) (by decide)
  obtain ⟨t', runs, runnable⟩ := trappedTwice_runs
  obtain rfl : t' = t := by simpa using runs.symm.trans ends
  have listed : 1024 ∈ trapped trappedTwice 1 0 trappedRecord := by decide
  simpa [runnable] using exited 1024 listed

end Sys2Proof.Proofs
end

section
/-! REFUTATION of the statement on Dray and the replay slots, O51: the time that a trap's limit counts from is set when the
record's event is written (17 R411, 20 R464). -/

namespace Sys2Proof.Proofs

open Sys2Proof.Machine Sys2Proof.Safety

/-! ### O51: a waiting trap record takes a slot -/

/-- A trap record that has waited for a slot since context time 0, with its event. -/
def waitingTrap : ReplayRecord :=
  { cause := 3, kind := 1, work := .core 0x1000 1 [1024], event := some { ctx := 1, kind := 1, threads := 1 } }

/-- Context 1 at context time 5 with virtual page 2 in frame 204H, its replay slots and its event ring in that page, and a trap
record that waits for a slot. -/
def trapWaits : State :=
  let table (at_ frame : Nat) : List (Nat × Byte) := byteWrites at_ 8 (4096 * frame + 1)
  { State.reset with
    mem := { State.reset.mem with device := setCells [] (table 0x100000 0x101 ++ table 0x101000 0x102 ++ table 0x102000 0x103
      ++ byteWrites 0x103010 8 (4096 * 0x204 + 0xF)) }
    frames := [(0x101, { pin := true }), (0x102, { pin := true }), (0x103, { pin := true })
      , (0x204, { valid := true, ctx := 1, vpn := 2 })]
    tables := { State.reset.tables with keys := [(0, { valid := true })] }
    ctxs := [(1, { ctime := 5, f := { ptRoot := 0x100000, rplBase := 0x2000, rplSlots := 4, evtBase := 0x2400, evtSize := 4 } })]
    more := [(1, { replayWaiting := [waitingTrap] })] }

/-- `trapWaits` with the record in slot 0. -/
def trapPlaced : State :=
  (placeRecord (modMore trapWaits 1 fun m => { m with replayWaiting := [] }) 1 0 waitingTrap).getD trapWaits

theorem trapWaits_places :
    placeRecord (modMore trapWaits 1 fun m => { m with replayWaiting := [] }) 1 0 waitingTrap = some trapPlaced := by
  have written : (placeRecord (modMore trapWaits 1 fun m => { m with replayWaiting := [] }) 1 0 waitingTrap).isSome = true := rfl
  rw [← Option.some_get written, trapPlaced, ← Option.get_eq_getD]

/-- 20 R464: the record's event is written with it, and its limit counts from there. -/
theorem trapPlaced_since : (mget (moreOf trapPlaced 1).replay 0).map (·.since) = some 5 := by rfl

/-- Refutes O51: a waiting trap record that takes a slot does not stand there as it waited: the writing of its event sets the
time its limit counts from, here from 0 to 5. -/
theorem not_drayEvents : ¬ Obligations.DrayEvents := by
  unfold Obligations.DrayEvents
  intro h
  extract_lets fault at h
  obtain ⟨-, -, -, -, -, -, -, slots, -⟩ := h
  obtain ⟨-, -, stands⟩ := slots trapWaits trapPlaced 1 0 waitingTrap [] (by rfl) (by rfl) (by rfl)
    (by rfl) trapWaits_places
  have since := trapPlaced_since
  rw [stands] at since
  exact absurd since (by decide)

end Sys2Proof.Proofs
end

section
/-! PROOF of the statement on the barrier forms, O34 (18 R433, R434, R443 to R448). -/

namespace Sys2Proof.Proofs

open Sys2Proof.Machine Sys2Proof.Safety

/-! ### The checks of a barrier form (18 R443, R444) -/

theorem barrierForm_of_allowed {s : State} {g : Guard} {scope i : Nat} (act : State)
    (allowed : allLanes s g fun t => barrierAllowed s t scope i = true) : Machine.barrierForm s g scope i act = act := by
  refine if_pos (List.all_eq_true.2 fun p listed => ?_)
  obtain ⟨lane, found, active⟩ := of_mem_activeLanes listed
  exact allowed p.1 p.2 lane found active

/-- 18 R444: barrier `i` of a scope is declared by the thread's launch. -/
theorem barrierAllowed_iff (s : State) (t : Thread) (scope i : Nat) : barrierAllowed s t scope i = true ↔
    (let d := (launchOfBlock s t.block).desc
     match scope with
     | 0 => i < d.gangBars
     | 1 => i < d.blockBars
     | 2 => d.group = true ∧ i < d.groupBars
     | _ => i < d.launchBars) := by
  match scope with
  | 0 => exact decide_eq_true_iff
  | 1 => exact decide_eq_true_iff
  | 2 => simp [barrierAllowed]
  | _ + 3 => exact decide_eq_true_iff

theorem barrierScope_eq (scope : Nat) :
    barrierScope scope = if scope = 0 ∨ scope = 1 then .blk else if scope = 2 then .cls else .dev := by
  match scope with
  | 0 | 1 | 2 => rfl
  | _ + 3 => rfl

/-! ### `BARW` (18 R446) -/

/-- What a `BARW` finds of its barrier's phase. -/
def barwNow (f : FormW) (a : State) (u : Nat) : Option NowDone :=
  match threadOf a u with
  | none => some { state := a, status := .done, value := 0 }
  | some t =>
    let now := (barrierOf a (barrierId a t (f.field 5 4) (f.field 3 0))).phase
    (phaseResult now (srcWord t .a f.a).toNat).map fun st =>
      { state := a, status := st, value := BitVec.ofNat 32 (st.code + 256 * now), acquire := st == .done }

theorem phaseResult_mod (now p : Nat) : phaseResult now (p % 16) = phaseResult now p := by
  rw [phaseResult, Nat.mod_mod, ← phaseResult]

theorem barwLane_ends_or_blocks (f : FormW) (a : State) (u : Nat) (t0 : Thread) :
    let b := barwLane f (f.field 5 4) (f.field 3 0) a u
    let t := (threadOf a u).getD t0
    let id := barrierId a t (f.field 5 4) (f.field 3 0)
    match barwNow f a u with
    | some q => endsNow q.state u f q.status q.value q.acquire q.more b
    | none =>
      if tooLate a t f.x.deadline then
        endsNow a u f .timeout (BitVec.ofNat 32 (1 + 256 * (barrierOf a id).phase)) false (fun r => r) b
      else blocksNow a u f (.barrier id ((srcWord t .a f.a).toNat % 16) false) b := by
  unfold barwLane barwNow
  cases thread : threadOf a u with
  | none => exact ⟨fun th found => by simp [thread] at found, fun _ _ => rfl, rfl, fun _ => ⟨rfl, rfl⟩⟩
  | some t =>
    simp only [phaseResult_mod, Option.getD_some]
    cases phaseResult (barrierOf a (barrierId a t (f.field 5 4) (f.field 3 0))).phase (srcWord t .a f.a).toNat with
    | some st => exact endAtIssue_endsNow a u f st _ _ _
    | none => exact blockOrExpire_ends_or_blocks a u t f _ .timeout _

/-! ### `BARS` (18 R447) -/

theorem barsWait_ends_or_blocks (f : FormW) (a : State) (u : Nat) (rejected : Bool) (phase : Nat) :
    let b := barsWait f (f.field 5 4) (f.field 3 0) a u rejected phase
    match threadOf a u with
    | none => b = a
    | some th =>
      let id := barrierId a th (f.field 5 4) (f.field 3 0)
      let ends (st : Status) : Prop :=
        endsNow a u f st (BitVec.ofNat 32 (st.code + 256 * phase)) (st == .done) (fun r => r) b
      if rejected = true then ends .busy
      else if (arrivalOf th id).state = 2 then ends .done
      else if tooLate a th f.x.deadline then ends .timeout
      else blocksNow a u f (.barrier id phase true) b := by
  unfold barsWait
  cases threadOf a u with
  | none => rfl
  | some th =>
    dsimp only
    split
    · exact endAtIssue_endsNow a u f .busy _ _ _
    · split
      · exact endAtIssue_endsNow a u f .done _ _ _
      · exact blockOrExpire_ends_or_blocks a u th f _ .timeout _

/-! ### What the end of a phase leaves (18 R433, R434) -/

/-- The blocks, with their barriers, and every thread's arrivals stand. -/
def arrivalsStand (s t : State) : Prop :=
  t.work.blocks = s.work.blocks ∧ ∀ u, (threadOf t u).map (·.arrivals) = (threadOf s u).map (·.arrivals)

theorem arrivalsStand.refl (s : State) : arrivalsStand s s := ⟨rfl, fun _ => rfl⟩

theorem arrivalsStand.trans {s t u : State} (h : arrivalsStand s t) (k : arrivalsStand t u) : arrivalsStand s u :=
  ⟨k.1.trans h.1, fun v => (k.2 v).trans (h.2 v)⟩

theorem modThread_arrivalsStand {s : State} {u : Nat} {t : Thread} (found : threadOf s u = some t)
    {f : Thread → Thread} (stands : (f t).arrivals = t.arrivals) : arrivalsStand s (modThread s u f) := by
  refine ⟨rfl, fun v => ?_⟩
  by_cases same : v = u
  · subst same
    rw [threadOf_modThread_same found, found, Option.map_some, Option.map_some, stands]
  · rw [modThread_others s u f v same]

theorem enterBin_arrivalsStand (s : State) (core u : Nat) (t : Thread) : arrivalsStand s (enterBin s core u t) :=
  ⟨rfl, fun _ => rfl⟩

theorem fileThread_arrivalsStand (s : State) (u : Nat) : arrivalsStand s (fileThread s u) := by
  unfold fileThread
  cases found : threadOf s u with
  | none => exact .refl s
  | some t =>
    dsimp only
    have filed := modThread_arrivalsStand found (f := fun x =>
      { x with ctl := { x.ctl with run := .runnable, refile := false }, filedAt := s.dtime }) rfl
    split
    · exact filed.trans (enterBin_arrivalsStand _ _ _ _)
    · exact filed

/-- A wait that ends `DONE` escalates nothing: its thread is filed. -/
theorem endWait_done_arrivalsStand (s : State) (u : Nat) (w : Wait) (val : Word) (acquire : Bool) (more : Regs → Regs) :
    arrivalsStand s (endWait s u w .done val acquire more) := by
  cases found : threadOf s u with
  | none =>
    rw [endWait, found]
    exact .refl s
  | some t =>
    obtain ⟨ended, regs, arrivals, noTrap⟩ : ∃ t', endWaitRegs s u w .done val acquire more = modThread s u (fun _ => t')
        ∧ t'.arrivals = t.arrivals ∧ t'.ctl.trapDue = none := by
      rw [endWaitRegs, found]
      exact ⟨_, rfl, rfl, rfl⟩
    have due : trapDueOf (modThread s u fun _ => ended) u = none := by
      rw [trapDueOf, threadOf_modThread_same found]
      exact noTrap
    rw [endWait, found]
    simp only [regs, due]
    exact (modThread_arrivalsStand found arrivals).trans (fileThread_arrivalsStand _ u)

theorem syncOnly.arrivalsStand {s t : State} : syncOnly s t → arrivalsStand s t := by
  rintro ⟨_, rfl⟩
  exact ⟨rfl, fun _ => rfl⟩

/-- 18 R433: the state of a barrier whose phase has completed and of its members' arrivals, before the waits on it end. -/
def phaseOver (s : State) (id : BarrierId) : State :=
  let x := barrierOf s id
  let s1 := setBarrier s id { x with phase := (x.phase + 1) % 16, pending := x.members, arrivals := 0 }
  modWork s1 fun w => { w with threads := w.threads.map (completeEntry s id) }

theorem completeBarrier_of_pending {s : State} {id : BarrierId} (pending : (barrierOf s id).pending ≠ 0) :
    completeBarrier s id = s :=
  if_pos (.inl pending)

theorem completeBarrier_arrivalsStand {s : State} {id : BarrierId} (pending : (barrierOf s id).pending = 0)
    (arrivals : (barrierOf s id).arrivals ≠ 0) : arrivalsStand (phaseOver s id) (completeBarrier s id) := by
  have done : ¬ ((barrierOf s id).pending ≠ 0 ∨ (barrierOf s id).arrivals = 0) := by simp [pending, arrivals]
  let counted := modWork (phaseOver s id) fun w => { w with sync := w.sync.map (returnCounts s id) }
  let waiters := phaseWaiters s id (barrierOf s id).phase
  let next := ((barrierOf s id).phase + 1) % 16
  let ended := waiters.foldl (fun acc p =>
      endWait acc p.1 p.2 .done (statusWord .done (barrierField p.2 next)) true fun r => r) counted
  have waits : arrivalsStand counted ended := foldl_rel arrivalsStand .refl (fun _ _ _ => .trans) _
    (fun acc p => endWait_done_arrivalsStand acc p.1 p.2 _ _ _) waiters counted
  have ends : arrivalsStand (phaseOver s id) ended := arrivalsStand.trans ⟨rfl, fun _ => rfl⟩ waits
  unfold completeBarrier
  rw [if_neg done]
  cases id with
  | block b i =>
    dsimp only
    split
    · exact ends.trans ((blockCheck_syncOnly ended b).trans (modSync_syncOnly _ b _)).arrivalsStand
    · exact ends.trans (blockCheck_syncOnly ended b).arrivalsStand
  | gang b g i => exact ends
  | group g i => exact ends
  | launch l i => exact ends

/-- A barrier that a block keeps: of one of its gangs, or its own. -/
def keptBy (b : Nat) (id : BarrierId) : Prop := (∃ g i, id = .gang b g i ∧ i < 4) ∨ ∃ i, id = .block b i

section
variable {s t : State} {b u : Nat} {id : BarrierId}

theorem barrierOf_of_arrivalsStand (kept : keptBy b id) (h : arrivalsStand s t) : barrierOf t id = barrierOf s id := by
  obtain ⟨blocks, -⟩ := h
  rcases kept with ⟨g, i, rfl, -⟩ | ⟨i, rfl⟩ <;> simp only [barrierOf, blockOf, blocks]

theorem arrivalOf_of_arrivalsStand {th : Thread} (h : arrivalsStand s t) (found : threadOf s u = some th) :
    ∃ th', threadOf t u = some th' ∧ arrivalOf th' id = arrivalOf th id := by
  have arrivals := h.2 u
  rw [found, Option.map_some] at arrivals
  obtain ⟨th', found', same⟩ := Option.map_eq_some_iff.1 arrivals
  exact ⟨th', found', by rw [arrivalOf, same, arrivalOf]⟩

theorem barrierOf_setBarrier_same (kept : keptBy b id) (block : (mget s.work.blocks b).isSome = true) (x : Barrier) :
    barrierOf (setBarrier s id x) id = x := by
  rcases kept with ⟨g, i, rfl, -⟩ | ⟨i, rfl⟩
  · simp [barrierOf, setBarrier, block, mgetD]
  · simp [barrierOf, setBarrier, block, mgetD]

theorem setBarrier_threads (kept : keptBy b id) (x : Barrier) : (setBarrier s id x).work.threads = s.work.threads := by
  rcases kept with ⟨g, i, rfl, -⟩ | ⟨i, rfl⟩ <;> rfl

theorem barrierOf_threads (ts : SMap Thread) :
    barrierOf { s with work := { s.work with threads := ts } } id = barrierOf s id := by
  cases id <;> rfl

theorem arrivalOf_completeEntry {th : Thread} (member : inBarrier s id th = true) (arrived : (arrivalOf th id).state = 1) :
    arrivalOf (completeEntry s id (u, th)).2 id = { arrivalOf th id with state := 2 } := by
  have completes : (inBarrier s id th && (arrivalOf th id).state == 1) = true := by simp [member, arrived]
  rw [completeEntry, if_pos completes, arrivalOf, mgetD, mget_mset_same, Option.getD_some]

end

/-! ### The obligation -/

/-- The state of a thread's arrival at a barrier that its block keeps, before the phase may complete. -/
def arrivedAt (s : State) (u : Nat) (id : BarrierId) : State :=
  arriveCount (setArrival s u id { state := 1, phase := (barrierOf s id).phase }) id

section
variable {s : State} {u b : Nat} {t : Thread} {id : BarrierId} (kept : keptBy b id)
  (block : (mget s.work.blocks b).isSome = true) (found : threadOf s u = some t)
include kept

theorem arrive_of_kept : arrive s u t id = completeBarrier (arrivedAt s u id) id := by
  rcases kept with ⟨g, i, rfl, -⟩ | ⟨i, rfl⟩ <;> rfl

theorem barrierOf_arrivedAt (block : (mget s.work.blocks b).isSome = true) : barrierOf (arrivedAt s u id) id
    = { barrierOf s id with pending := (barrierOf s id).pending - 1, arrivals := (barrierOf s id).arrivals + 1 } := by
  have same : barrierOf (setArrival s u id { state := 1, phase := (barrierOf s id).phase }) id = barrierOf s id :=
    barrierOf_threads _
  have counted := barrierOf_setBarrier_same
    (s := setArrival s u id { state := 1, phase := (barrierOf s id).phase }) kept block
  rw [arrivedAt, arriveCount, counted, same]

theorem threadOf_arrivedAt (found : threadOf s u = some t) : threadOf (arrivedAt s u id) u
    = some { t with arrivals := mset t.arrivals (arrivalIndex id) { state := 1, phase := (barrierOf s id).phase } } := by
  rw [arrivedAt, arriveCount, threadOf, setBarrier_threads kept]
  exact threadOf_modThread_same found _

end

theorem inBarrier_of_kept {s s' : State} {b : Nat} {t t' : Thread} {id : BarrierId} (kept : keptBy b id)
    (block : t'.block = t.block) (tid : t'.tid = t.tid) : inBarrier s' id t' = inBarrier s id t := by
  rcases kept with ⟨g, i, rfl, -⟩ | ⟨i, rfl⟩ <;> simp only [inBarrier, block, tid]

/-- 18 R433: an arrival that leaves something pending is recorded and counted. -/
theorem arrive_counts {s : State} {u b : Nat} {t : Thread} {id : BarrierId} (kept : keptBy b id)
    (block : (mget s.work.blocks b).isSome = true) (found : threadOf s u = some t) (more : 1 < (barrierOf s id).pending) :
    barrierOf (arrive s u t id) id
        = { barrierOf s id with pending := (barrierOf s id).pending - 1, arrivals := (barrierOf s id).arrivals + 1 }
      ∧ ∃ t1, threadOf (arrive s u t id) u = some t1 ∧ arrivalOf t1 id = { state := 1, phase := (barrierOf s id).phase } := by
  have counted := barrierOf_arrivedAt (u := u) kept block
  have pending : (barrierOf (arrivedAt s u id) id).pending ≠ 0 := by
    rw [counted]
    exact Nat.sub_ne_zero_of_lt more
  rw [arrive_of_kept kept, completeBarrier_of_pending pending]
  exact ⟨counted, _, threadOf_arrivedAt kept found, by simp [arrivalOf, mgetD]⟩

/-- 18 R433, R434: the arrival that leaves nothing pending completes the phase. -/
theorem arrive_completes {s : State} {u b : Nat} {t : Thread} {id : BarrierId} (kept : keptBy b id)
    (block : (mget s.work.blocks b).isSome = true) (found : threadOf s u = some t) (member : inBarrier s id t = true)
    (last : (barrierOf s id).pending = 1) :
    barrierOf (arrive s u t id) id = { barrierOf s id with phase := ((barrierOf s id).phase + 1) % 16
                                                           pending := (barrierOf s id).members, arrivals := 0 }
      ∧ ∃ t1, threadOf (arrive s u t id) u = some t1 ∧ arrivalOf t1 id = { state := 2, phase := (barrierOf s id).phase } := by
  let a := arrivedAt s u id
  have counted : barrierOf a id = { barrierOf s id with pending := (barrierOf s id).pending - 1
                                                        arrivals := (barrierOf s id).arrivals + 1 } :=
    barrierOf_arrivedAt kept block
  have stands : arrivalsStand (phaseOver a id) (completeBarrier a id) :=
    completeBarrier_arrivalsStand (by rw [counted, last]) (by rw [counted]; exact Nat.succ_ne_zero _)
  have blockThere : (mget a.work.blocks b).isSome = true := by
    rcases kept with ⟨g, i, rfl, -⟩ | ⟨i, rfl⟩ <;>
      simpa [a, arrivedAt, arriveCount, setBarrier, setArrival, modBlock, modThread, modWork] using block
  let t' : Thread := { t with arrivals := mset t.arrivals (arrivalIndex id) { state := 1, phase := (barrierOf s id).phase } }
  have arrived : arrivalOf t' id = { state := 1, phase := (barrierOf s id).phase } := by simp [t', arrivalOf, mgetD]
  have settled : threadOf (phaseOver a id) u = some (completeEntry a id (u, t')).2 := by
    have keys (p : Nat × Thread) : (completeEntry a id p).1 = p.1 := by unfold completeEntry; split <;> rfl
    have listed : mget a.work.threads u = some t' := threadOf_arrivedAt kept found
    simp only [threadOf, phaseOver, modWork, setBarrier_threads kept, mget_map_keyed _ _ keys, listed, Option.map_some]
  obtain ⟨t1, found1, arrival⟩ := arrivalOf_of_arrivalsStand (id := id) stands settled
  rw [arrive_of_kept kept]
  refine ⟨?_, t1, found1, ?_⟩
  · rw [barrierOf_of_arrivalsStand kept stands]
    have next : barrierOf (phaseOver a id) id = { barrierOf a id with
        phase := ((barrierOf a id).phase + 1) % 16, pending := (barrierOf a id).members, arrivals := 0 } :=
      (barrierOf_threads _).trans (barrierOf_setBarrier_same kept blockThere _)
    rw [next, counted]
  · have member' : inBarrier a id t' = true := (inBarrier_of_kept kept rfl rfl).trans member
    rw [arrival, arrivalOf_completeEntry member' (by rw [arrived]), arrived]

/-- Settles O34: each form over its lanes in turn, and an arrival by whether it is the last of its phase. -/
theorem barrierForms : Obligations.BarrierForms := by
  unfold Obligations.BarrierForms
  refine ⟨?forms, ?arrivals⟩
  case forms =>
    intro may settled result
    have allowed {g : Guard} {scope i : Nat} {s : State} (h : may g scope i s) :
        allLanes s g fun t => barrierAllowed s t scope i = true :=
      fun u th lane found active => (barrierAllowed_iff s th scope i).2 (h u th lane found active)
    have settles (g : Guard) (scope : Nat) (s : State) :
        settled g scope s = holdUntilSettled s g (barrierScope scope) := by
      rw [barrierScope_eq]
    refine ⟨fun f s _ pre _ => ?arrive, fun f s _ pre _ => ?withdraw, fun f s _ pre => ?wait, fun f s _ pre => ?both⟩
    case arrive =>
      have lane : baraLane (f.field 5 4) (f.field 3 0) = fun a u t =>
          let id := barrierId a t (f.field 5 4) (f.field 3 0)
          let phase := (barrierOf a id).phase
          if (arrivalOf t id).state = 1 then (a, BitVec.ofNat 32 (8 + 256 * phase))
          else (arrive a u t id, BitVec.ofNat 32 (256 * phase)) := by
        funext a u t
        simp only [baraLane, statusWord, Status.code, Nat.zero_add]
      refine ⟨_, congrArg Host.Outcome.next (barrierForm_of_allowed _ (allowed pre)), ?_⟩
      rw [settles, lane]
      exact eachLane_inTurn_from _ _ _ ⟨rfl, rfl⟩
    case withdraw =>
      exact ⟨_, congrArg Host.Outcome.next (barrierForm_of_allowed _ (allowed pre)), eachLane_inTurn s _ _ _⟩
    case wait =>
      refine ⟨_, congrArg Host.Outcome.next (barrierForm_of_allowed _ (allowed pre)), chain_foldl (fun a p => ?_) _ s⟩
      exact barwLane_ends_or_blocks f a p.1 p.2
    case both =>
      extract_lets id arrived start q
      have folded : barsLanes f start = q.2.foldl (fun acc p => barsWait f (f.field 5 4) (f.field 3 0) acc p.1 p.2.1 p.2.2)
          (barsPoint start (f.field 5 4) (f.field 3 0) q) := rfl
      have arm : exec (.bars f) s = .next (barsLanes f start) := by
        refine congrArg Host.Outcome.next ((barrierForm_of_allowed _ (allowed pre)).trans ?_)
        rw [← settles]
      refine ⟨_, arm, ?_⟩
      rw [folded]
      refine chain_foldl (fun a p => ?_) _ _
      exact barsWait_ends_or_blocks f a p.1 p.2.1 p.2.2
  case arrivals =>
    intro s u t id b kept block found _ member _ x s1
    exact ⟨arrive_counts kept block found, arrive_completes kept block found member⟩

end Sys2Proof.Proofs
end

section
/-! PROOF of the statement on the texture forms, O32 (16 R396 to R398). -/

namespace Sys2Proof.Proofs

open Sys2Proof.Machine Sys2Proof.Safety

/-- The state in which the lanes of a position that take part have had their counter raised. -/
def countedUp (s : State) (g : Guard) (ctr : Nat) : State :=
  forLanes s fun _ t => if guardOn g t.regs then t.modRegs fun r => r.ctrUp ctr else t

/-- The operation that a texture form puts in its core's operand buffer. -/
def texOp (s : State) (op : Nat) (f : FormA) : TexOp :=
  { id := freeTexEntry (coreOf s s.cur.core), op := op, block := s.cur.block, channel := f.field 1 0, ctr := f.x.ctr.toNat
    lanes := (activeLanes s f.x.guard).map fun p =>
      { lane := p.2.ctl.lane, uid := p.1, dst := stepReg p.2.ctl .dst (quadReg f.dst)
        desc := (srcWord p.2 .b f.b).toNat, u := (srcPair p.2 .a f.a).setWidth 32
        v := (srcPair p.2 .a f.a).extractLsb' 32 32 }
    after := s.nextAccess }

section
variable {s : State} {g : Guard} {op : Nat} {f : FormA} (nodup : s.cur.lanes.Nodup)
include nodup

theorem threadOf_countedUp (ctr u : Nat) : threadOf (countedUp s g ctr) u = if u ∈ s.cur.lanes
    then (threadOf s u).map fun t => if guardOn g t.regs then t.modRegs fun r => r.ctrUp ctr else t
    else threadOf s u :=
  threadOf_forLanes s (fun _ t => if guardOn g t.regs then t.modRegs fun r => r.ctrUp ctr else t) u nodup

theorem texForm_puts (active : activeLanes s f.x.guard ≠ [])
    (pass : plansPass s f.x.guard fun t =>
      texPlan s (blockOf s s.cur.block).launch (srcWord t .b f.b).toNat (op != 0x96)) :
    texForm s op f = modCore { countedUp s f.x.guard f.x.ctr.toNat with
      cur := { s.cur with sampled := s.cur.sampled ++ [(texOp s op f).id]
                          hold := s.cur.hold || decide (16 ≤ (coreOf s s.cur.core).texQ.length) }
      nextAccess := s.nextAccess + 1 } s.cur.core fun k => { k with texQ := k.texQ ++ [texOp s op f] } := by
  have plans : planFault s ((activeLanes s f.x.guard).map fun p =>
      texPlan s (blockOf s s.cur.block).launch (srcWord p.2 .b f.b).toNat (op != 0x96)) = none := by
    refine planFault_of_names s fun p listed => ?_
    obtain ⟨q, member, rfl⟩ := List.mem_map.1 listed
    obtain ⟨lane, found, on⟩ := of_mem_activeLanes member
    exact pass q.1 q.2 lane found on
  have counted : (activeLanes s f.x.guard).foldl
      (fun acc p => modThread acc p.1 fun t => t.modRegs fun r => r.ctrUp f.x.ctr.toNat) s
      = countedUp s f.x.guard f.x.ctr.toNat :=
    foldl_activeLanes_eq_forLanes f.x.guard (fun _ _ t => t.modRegs fun r => r.ctrUp f.x.ctr.toNat) nodup
  have some : ¬ (activeLanes s f.x.guard).isEmpty = true := mt List.isEmpty_iff.1 active
  simp only [texForm, plans, if_neg some, counted]
  rfl

end

/-- Settles O32: the three forms differ in the operation's number alone. The counters rise in the form's lanes, and one operation
enters the operand buffer. -/
theorem textureForms : Obligations.TextureForms := by
  unfold Obligations.TextureForms
  intro form
  have enters {i : FormA → Instr} {op : Nat} (arm : ∀ f s, exec (i f) s = .next (texForm s op f)) : form i op := by
    intro f s nodup active pass
    refine ⟨_, (arm f s).trans (congrArg _ (texForm_puts nodup active pass)), fun u th lane found => ?counts,
      fun u other => (threadOf_countedUp nodup _ u).trans (if_neg other),
      ⟨texOp s op f, ?enters, rfl, rfl, rfl, rfl, rfl, rfl, ?uids, ?lanes⟩, fun g other => ?others, rfl, rfl, rfl⟩
    case counts =>
      refine ⟨_, (threadOf_countedUp nodup _ u).trans ((if_pos lane).trans (congrArg (Option.map _) found)), ?_⟩
      by_cases on : guardOn f.x.guard th.regs = true
      · simp only [on, if_true, true_and]
        exact ⟨regs_getCtr_ctrUp th.regs _, congrArg (fun r => { th with regs := r }) (ctrUp_ctrOnly th.regs _)⟩
      · simp [on]
    case enters =>
      rw [coreOf_modCore, if_pos rfl]
      rfl
    case uids => exact List.map_map
    case lanes =>
      intro l listed
      obtain ⟨p, member, rfl⟩ := List.mem_map.1 listed
      exact ⟨p.2, (of_mem_activeLanes member).2.1, rfl, rfl, rfl, rfl⟩
    case others =>
      rw [coreOf_modCore, if_neg other]
      rfl
  exact ⟨enters fun _ _ => rfl, enters fun _ _ => rfl, enters fun _ _ => rfl⟩

end Sys2Proof.Proofs
end

section
/-! SUPPORT. Positions that no lane takes part in (03 R61), and requests that a position performs before it releases
(10 R246): the clause under way stands, but for its hold. -/

namespace Sys2Proof.Proofs

open Sys2Proof.Machine Sys2Proof.Safety

/-! ### Positions without a participating lane -/

theorem skipLanes_inTurn {s : State} {g : Guard} (d : Dst) (act : State → Nat → Thread → State × Word)
    (idle : activeLanes s g = []) : inTurn s g d act s (skipLanes s g d) := by
  have steps : ∀ (l : List Nat) (a : State), (∀ u ∈ l, ∀ t, threadOf a u = some t → guardOn g t.regs = false) →
      chain (laneStep s g d act) l a (l.foldl (fun acc u =>
        match threadOf acc u with
        | none => acc
        | some t => if guardOn g t.regs then acc else modThread acc u (skipWord (latchIndex s) d)) a) := by
    intro l
    induction l with
    | nil => exact fun a _ => rfl
    | cons u r ih =>
      intro a off
      rw [List.foldl_cons]
      cases found : threadOf a u with
      | none =>
        exact ⟨a, by simp only [laneStep, found], ih a fun v later => off v (List.mem_cons_of_mem u later)⟩
      | some t =>
        have skips := off u List.mem_cons_self t found
        simp only [skips, Bool.false_eq_true, if_false]
        refine ⟨_, ?_, ih _ fun v later th at_v => ?_⟩
        · simp only [laneStep, found, skips, Bool.false_eq_true, if_false]
          exact modThread_keepsWord a u _ d
        · by_cases same : v = u
          · subst same
            obtain rfl := Option.some.inj ((threadOf_modThread_same found _).symm.trans at_v)
            cases d <;> exact skips
          · exact off v (List.mem_cons_of_mem u later) th ((modThread_others a u _ v same).symm.trans at_v)
  refine steps s.cur.lanes s fun u lane t found => Bool.eq_false_iff.2 fun active => ?_
  have member := mem_activeLanes lane found active
  rw [idle] at member
  exact absurd member List.not_mem_nil

/-- Where no lane takes part, no request is performed and nothing is held. -/
theorem holdForRelease_of_idle {s : State} {g : Guard} (x : Scope) (idle : activeLanes s g = []) :
    holdForRelease s g x = s := by
  have performs : performCreated s g (fun a => a.kind == .load) = s := by
    refine foldl_keeps id _ (fun acc i => ?_) _ s
    cases accessOf acc i with
    | none => rfl
    | some a => simp [idle]
  simp [holdForRelease, performs, holdUntilSettled, idle, holdClause]

/-! ### A load served leaves the clause under way as it is -/

section
variable {s t : State}

theorem threadsOnly.cur_eq (h : threadsOnly s t) : t.cur = s.cur := by
  obtain ⟨_, rfl⟩ := h
  rfl

theorem cachesOnly.cur_eq (h : cachesOnly s t) : t.cur = s.cur := by
  obtain ⟨⟨_, _, _, _, rfl⟩, -⟩ := h
  rfl

theorem linesOnly.cur_eq (h : linesOnly s t) : t.cur = s.cur := h.cachesOnly.cur_eq

end

theorem rollbackExhausted_cur (s : State) (b : Nat) (w : Consumed) : (rollbackExhausted s b w).cur = s.cur := by
  unfold rollbackExhausted
  extract_lets us core s1
  refine (takeRecord_recordsOnly _ _ _).cur_eq.trans ?_
  have steps {f : State → Nat → State} (step : ∀ a u, (f a u).cur = a.cur) (a : State) : (us.foldl f a).cur = a.cur :=
    foldl_keeps State.cur f step us a
  refine (steps ?_ _).trans (steps ?_ s1)
  · exact fun _ _ => rfl
  · intro a u
    dsimp only
    split <;> rfl

theorem consumePoison_cur (s : State) (u b : Nat) (w : Consumed) : (consumePoison s u b w).cur = s.cur := by
  unfold consumePoison
  split
  · split
    · rfl
    · split
      · split
        · rfl
        · exact rollbackExhausted_cur s b w
      · rfl
  · exact (setSticky_threadsOnly s u 0).cur_eq

theorem consumeRequest_cur (s : State) (a : Access) (bad : Bool) (r : LaneReq) :
    (consumeRequest s a bad r).cur = s.cur := by
  unfold consumeRequest
  split
  · exact consumePoison_cur s _ _ _
  · rfl

theorem countDown_cur (s : State) (a : Access) : (countDown s a).cur = s.cur := (countDown_threadsOnly s a).cur_eq

theorem finishLoad_cur (s : State) (a : Access) (src : Option L1Copy) : (finishLoad s a src).cur = s.cur := by
  unfold finishLoad
  refine (countDown_cur _ a).trans (foldl_keeps State.cur _ (fun acc r => ?_) a.lanes s)
  extract_lets s2 s3
  have returned : s3.cur = acc.cur := consumeRequest_cur s2 a _ r
  split
  · exact returned
  · exact returned

theorem finishTile_cur (s : State) (a : Access) : (finishTile s a).cur = s.cur := by
  unfold finishTile
  refine (countDown_cur _ a).trans (foldl_keeps State.cur _ (fun acc r => ?_) a.lanes s)
  split
  · exact consumeRequest_cur _ a _ r
  · rfl

theorem refuse_cur (s : State) (a : Access) : (refuse s a).cur = s.cur := by
  unfold refuse
  extract_lets n s1
  split <;> rfl

theorem serveLoad_cur (s : State) (a : Access) : (serveLoad s a).cur = s.cur := by
  unfold serveLoad
  split
  · exact finishTile_cur s a
  · split
    · split
      · exact finishLoad_cur s a _
      · split
        · exact (finishLoad_cur _ a _).trans (fillCopy_cachesOnly s _ _ _).cur_eq
        · exact refuse_cur s a
    · split
      · exact (finishLoad_cur _ a _).trans (engineReads_linesOnly s _ _).cur_eq
      · split
        · exact (finishLoad_cur _ a _).trans (privateLines_cachesOnly s a false).cur_eq
        · exact finishLoad_cur s a _

/-- What a position performs before its release holds the clause at most. -/
theorem holdForRelease_cur (s : State) (g : Guard) (x : Scope) :
    ∃ h, (holdForRelease s g x).cur = { s.cur with hold := h } := by
  have held : ∀ (t : State) (b : Bool), (∃ h, t.cur = { s.cur with hold := h }) →
      ∃ h, (holdClause t b).cur = { s.cur with hold := h } := by
    rintro t b ⟨h, same⟩
    exact ⟨_, congrArg (fun c : Cur => { c with hold := c.hold || b }) same⟩
  unfold holdForRelease holdUntilSettled
  refine held _ _ ?_
  unfold performCreated
  have performs := foldl_rel (fun a b : State => (∃ h, a.cur = { s.cur with hold := h }) →
    ∃ h, b.cur = { s.cur with hold := h }) (fun _ => id) (fun _ _ _ one two => two ∘ one)
    (fun acc i =>
      match accessOf acc i with
      | none => acc
      | some a =>
        if !(a.kind == .load) || !(a.lanes.any fun r => (activeLanes s g).any fun p => p.1 == r.uid) then acc
        else if canPerform acc a && !lineBusy acc a then serveAccess acc a
        else holdClause acc true) (fun acc i before => ?_) s.cur.created s
  · exact performs ⟨_, rfl⟩
  split
  · exact before
  · rename_i a _
    by_cases load : a.kind = .load
    · split
      · exact before
      · split
        · simp only [serveAccess, load]
          rw [serveLoad_cur]
          exact before
        · exact held acc true before
    · rw [if_pos (by simp [load])]
      exact before

theorem holdForRelease_lanes (s : State) (g : Guard) (x : Scope) :
    (holdForRelease s g x).cur.lanes = s.cur.lanes ∧ (holdForRelease s g x).cur.pos = s.cur.pos := by
  obtain ⟨h, same⟩ := holdForRelease_cur s g x
  rw [same]
  exact ⟨rfl, rfl⟩

end Sys2Proof.Proofs
end

section
/-! PROOF of the statement on atlas requests and primitives, O33 (16 R387, R391, R392, R399). -/

namespace Sys2Proof.Proofs

open Sys2Proof.Machine Sys2Proof.Safety

theorem planFault_active_of_pass {s : State} {g : Guard} {plan : Thread → Plan} (pass : plansPass s g plan) :
    planFault s ((activeLanes s g).map fun p => plan p.2) = none := by
  refine planFault_of_names s fun p listed => ?_
  obtain ⟨q, member, rfl⟩ := List.mem_map.1 listed
  obtain ⟨lane, found, on⟩ := of_mem_activeLanes member
  exact pass q.1 q.2 lane found on

/-! ### Forms that read the visibility descriptor (R391, R399) -/

theorem withVis_of_idle {s : State} {f : FormA} (go : VisDesc → State) (idle : activeLanes s f.x.guard = []) :
    withVis s f go = skipLanes s f.x.guard f.dst := by
  simp [withVis, idle]

theorem withVis_of_ok {s : State} {f : FormA} {d : VisDesc} (go : VisDesc → State)
    (active : activeLanes s f.x.guard ≠ []) (read : visDesc s (blockOf s s.cur.block).launch = .ok d) :
    withVis s f go = go d := by
  simp [withVis, active, read]

/-- A form that reads the descriptor where a lane takes part lets its lanes act in turn where it does so past the
descriptor. -/
theorem turnForm_of_withVis {i : Instr} {f : FormA} {d : VisDesc} {pre : State → Prop} {start : State → State}
    {fits : State → State → Prop} {act : State → State → Nat → Thread → State × Word} {go : State → VisDesc → State}
    (arm : ∀ s, exec i s = .next (withVis s f (go s)))
    (idle : ∀ s, activeLanes s f.x.guard = [] → start s = s)
    (goes : ∀ s, pre s → (∀ t, inTurn s f.x.guard f.dst (act s) (start s) t → fits s t) →
      inTurn s f.x.guard f.dst (act s) (start s) (go s d)) :
    turnForm i f.x.guard f.dst (fun s =>
      (activeLanes s f.x.guard ≠ [] → visDesc s (blockOf s s.cur.block).launch = .ok d) ∧ pre s) start fits act := by
  rintro s - ⟨vis, holds⟩ fit
  refine ⟨_, arm s, ?_⟩
  by_cases none : activeLanes s f.x.guard = []
  · rw [withVis_of_idle _ none, idle s none]
    exact skipLanes_inTurn f.dst (act s) none
  · rw [withVis_of_ok _ none (vis none)]
    exact goes s holds fit

/-! ### `PRIM` (R387, R399) -/

theorem spillPush_append {α : Type} (cap : Nat) (q : List α × List α) (x : α) :
    (spillPush cap q x).1 ++ (spillPush cap q x).2 = q.1 ++ q.2 ++ [x] := by
  unfold spillPush
  split
  next room => simp [List.isEmpty_iff.1 (Bool.and_eq_true_iff.1 room).1]
  next => rw [List.append_assoc]

/-- A primitive that a binner files comes last in its order. -/
theorem all_spillPush (b : Binner) (q : BinPrim) :
    Binner.all { b with prims := (spillPush 4096 (b.prims, b.ring) q).1, ring := (spillPush 4096 (b.prims, b.ring) q).2 }
      = b.all ++ [q] :=
  spillPush_append 4096 (b.prims, b.ring) q

theorem acceptPrim_files (a : State) (d : VisDesc) (p : BinPrim) :
    ∃ x ts, (binnerOf (acceptPrim a d p) d.binner).all
      = (binnerOf a d.binner).all ++ [binPrim (binnerOf a d.binner) { p with unbinned := x } ts] := by
  refine ⟨(viewsOf d p).filter fun k => (viewBins a (launchOf a p.launch).ctx d p k).isNone,
    (viewsOf d p).flatMap fun k => (viewBins a (launchOf a p.launch).ctx d p k).getD [], ?_⟩
  rw [← all_spillPush]
  unfold acceptPrim
  rw [binnerOf_modBinner]
  rfl

/-- Where the binner is not flushing and no primitive is too big, a clause that fits counts as it stands. -/
theorem acceptOrFlush_of_fits {s s1 : State} {f : FormA} {d : VisDesc} (idle : (binnerOf s d.binner).flushing = false)
    (small : (launchOf s (blockOf s s.cur.block).launch).cancelled = true ∨ allLanes s f.x.guard fun t =>
      primTooBig s d (primOf f t (blockOf s s.cur.block).launch 0) = false)
    (fits : quotaBreach s s1 (ctxOfBlock s s.cur.block) = false)
    (range : (launchOf s1 (blockOf s s.cur.block).launch).primSeq ≤ 2 ^ 32) : acceptOrFlush s s1 f d = s1 := by
  have none_big : (!(launchOf s (blockOf s s.cur.block).launch).cancelled && (activeLanes s f.x.guard).any fun p =>
      primTooBig s d (primOf f p.2 (blockOf s s.cur.block).launch 0)) = false := by
    obtain cancelled | fine := small
    · rw [cancelled]
      rfl
    · rw [Bool.and_eq_false_iff]
      refine .inr (List.any_eq_false.2 fun p listed => ?_)
      obtain ⟨lane, found, active⟩ := of_mem_activeLanes listed
      simpa using fine p.1 p.2 lane found active
  unfold acceptOrFlush
  extract_lets l wraps
  have kept : wraps = false := decide_eq_false (Nat.not_lt.2 range)
  rw [idle, none_big, fits, kept]
  rfl

/-- Settles O33: lanes act in turn, each form's after its own checks; `ATREQ` is held for the release before them. -/
theorem visibilityForms : Obligations.VisibilityForms := by
  unfold Obligations.VisibilityForms
  intro vis
  refine ⟨fun f d => ?atreq, fun f => turnForm_of_eachLane fun _ => rfl, fun f d => ?prim, fun a d p launch => ?accept⟩
  case atreq =>
    refine turnForm_of_withVis (go := fun s d =>
      match planFault s ((activeLanes s f.x.guard).map fun p => atreqPlan s d p.2 (srcWord p.2 .a f.a).toNat) with
      | some s1 => s1
      | none =>
        underQuota s (ctxOfBlock s s.cur.block)
          (eachLane (holdForRelease s f.x.guard .dev) f.x.guard f.dst (atreqLane f d))) (fun _ => rfl)
      (fun s idle => holdForRelease_of_idle .dev idle) fun s pass fits => ?_
    have turn := eachLane_inTurn_from f.x.guard f.dst (atreqLane f d) (holdForRelease_lanes s f.x.guard .dev)
    simp only [planFault_active_of_pass pass, underQuota_of_fits (fits _ turn)]
    exact turn
  case prim =>
    refine turnForm_of_withVis (go := fun s d =>
      match planFault s ((activeLanes s f.x.guard).map fun p => primPlan s d f p.2) with
      | some s1 => s1
      | none => acceptOrFlush s (eachLane s f.x.guard f.dst (primLane f d)) f d) (fun _ => rfl) (fun _ _ => rfl) ?_
    rintro s ⟨pass, idle, small⟩ fits
    have turn := eachLane_inTurn s f.x.guard f.dst (primLane f d)
    obtain ⟨quota, range⟩ := fits _ turn
    simp only [planFault_active_of_pass pass, acceptOrFlush_of_fits idle small quota range]
    exact turn
  case accept =>
    obtain ⟨x, ts, files⟩ := acceptPrim_files a d p
    exact ⟨congrArg Launch.primSeq (launchOf_modLaunch_of_isSome a p.launch _ launch),
      ⟨_, files, rfl, rfl, rfl, rfl⟩, rfl, rfl⟩

end Sys2Proof.Proofs
end

section
/-! REFUTATION of the statement on the ray forms, O31: a claim needs a slot that can be written, and finds its `STATE` there though
the page cannot be read (15 R378). -/

namespace Sys2Proof.Proofs

open Sys2Proof.Machine Sys2Proof.Safety

/-! ### A position of one lane -/

section
variable {s a : State} {g : Guard} {d : Dst} {act : State → Nat → Thread → State × Word} {u : Nat} {th : Thread}
  (alone : s.cur.lanes = [u]) (found : threadOf a u = some th)
include alone found

theorem inTurn_single {b : State} (on : guardOn g th.regs = true) (turn : inTurn s g d act a b) :
    putsWord (act a u th).1 u (s.cur.pos % 4) d (act a u th).2 b := by
  simp only [inTurn, alone, chain] at turn
  obtain ⟨m, step, rfl⟩ := turn
  simpa only [laneStep, found, on, if_true] using step

theorem eachMeets_single {P : State → Thread → Prop} (meets : P a th) : eachMeets s g d act a P := by
  intro xs v ys m split reached th' there _
  rw [alone] at split
  obtain ⟨rfl, rfl, -⟩ : xs = [] ∧ v = u ∧ ys = [] := by simpa [List.cons_eq_append_iff] using split
  obtain rfl : m = a := reached
  obtain rfl := Option.some.inj (found.symm.trans there)
  exact meets

end

/-! ### O31: the slot of a ray under way in a page that can be written and not read -/

/-- `RAYQ` of ray 0, by a lane with an empty record block. -/
def claimForm : FormA :=
  { dst := .reg 40, a := .reg 0, b := .reg 2
    x := { guard := ⟨false, 0⟩, ctr := 0, srcC := .reg 0, rnd := .rn, sat := false, mods := 0 } }

/-- A scene of one ray and one subtree; its slots begin at 3000H. -/
def claimScene : Scene :=
  { pool := 0x3000, nrays := 1, nsub := 1, subtab := 0, root := 0, nhit := 1, hittab := 0, upt := 0
    starvRuns := 64, starvTime := 200 }

/-- The lane that files the ray. -/
def claimLane : Thread := { block := 1, tid := 0, slot := 0 }

/-- Context 1 with virtual page 2, which can be read and written, in frame 204H and virtual page 3, which can be written only, in
frame 205H. Page 2 holds the scene; ray 0's slot, in page 3, holds `STATE` 1: the ray is under way. -/
def unreadableSlot : State :=
  let entry (at_ word : Nat) : List (Nat × Byte) := byteWrites at_ 8 word
  { State.reset with
    mem := { State.reset.mem with device := setCells [] (entry 0x100000 0x101001 ++ entry 0x101000 0x102001
      ++ entry 0x102000 0x103001 ++ entry 0x103010 0x20400F ++ entry 0x103018 0x20500B
      ++ entry 0x204000 0x3000 ++ byteWrites 0x204008 4 1 ++ byteWrites 0x20400C 4 1 ++ byteWrites 0x20401C 4 1
      ++ byteWrites 0x205040 1 1) }
    frames := [(0x101, { pin := true }), (0x102, { pin := true }), (0x103, { pin := true })
      , (0x204, { valid := true, ctx := 1, vpn := 2 }), (0x205, { valid := true, ctx := 1, vpn := 3 })]
    tables := { State.reset.tables with keys := [(0, { valid := true })] }
    ctxs := [(1, { f := { ptRoot := 0x100000 } })]
    work := { State.reset.work with
      launches := [(1, { ctx := 1, bank := [(15, (0x2000, 64))] })]
      blocks := [(1, { launch := 1 })]
      threads := [(1024, claimLane)] }
    cur := { agent := .core, block := 1, lanes := [1024] } }

/-- Threads take no part in the quota of R307. -/
theorem quotaBreach_threads (s a : State) (ts : SMap Thread) (ctx : Nat) :
    quotaBreach s { a with work := { a.work with threads := ts } } ctx = quotaBreach s a ctx := rfl

/-- 15 R378: the model finds the ray under way: `BUSY`. -/
theorem unreadableSlot_busy : ∃ t, exec (.rayq claimForm) unreadableSlot = .next t
    ∧ (threadOf t 1024).map (·.regs.get 40) = some 8 := by
  refine ⟨_, rfl, ?_⟩
  decide

/-- Refutes O31: `RAYQ` needs a slot that can be written, and reads its `STATE` at the home: it answers `BUSY` for a ray that
is under way. The statement's `STATE` is what the context can read, 0 in a page that it cannot, and claims the slot. -/
theorem not_rayForms : ¬ Obligations.RayForms := by
  unfold Obligations.RayForms
  intro h
  extract_lets scene offset at h
  obtain ⟨claims, -⟩ := h
  obtain ⟨t, runs, turn⟩ := claims claimForm claimScene unreadableSlot rfl (fun _ => by rfl) (by
    intro u th lane found _
    obtain rfl := List.mem_singleton.1 lane
    obtain rfl : claimLane = th := Option.some.inj found
    exact ⟨_, _, by rfl⟩)
    (eachMeets_single rfl (u := 1024) (th := claimLane) (by rfl) (by decide))
    (fun t turn => by
      obtain ⟨-, -, others⟩ := inTurn_single rfl (u := 1024) (th := claimLane) (by rfl) (by rfl) turn
      rw [others, quotaBreach_threads]
      decide +kernel)
  obtain ⟨puts, -, -⟩ := inTurn_single rfl (u := 1024) (th := claimLane) (by rfl) (by rfl) turn
  obtain ⟨th, there, written, -⟩ := puts claimLane (by decide)
  have zero : th.regs.get 40 = 0 := by
    rw [written 40]
    decide
  obtain ⟨t', answered, busy⟩ := unreadableSlot_busy
  obtain rfl : t' = t := by simpa using answered.symm.trans runs
  rw [there, Option.map_some, zero] at busy
  exact absurd busy (by decide)

end Sys2Proof.Proofs
end

section
/-! SUPPORT. What records, reports and completions of rays leave: the runs of the clusters, the dies' run counters and the hit
lists (15 R366, R370, R372, R373). -/

namespace Sys2Proof.Proofs

open Sys2Proof.Machine Sys2Proof.Safety

/-- The clusters with their runs, every die's run counter and every hit list stand. -/
def runsStand (s t : State) : Prop :=
  t.clusters = s.clusters ∧ (∀ d, (dieOf t d).runCounter = (dieOf s d).runCounter)
    ∧ ∀ l d, hitListOf t l d = hitListOf s l d

theorem runsStand.refl (s : State) : runsStand s s := ⟨rfl, fun _ => rfl, fun _ _ => rfl⟩

theorem runsStand.trans {s t u : State} : runsStand s t → runsStand t u → runsStand s u := by
  rintro ⟨clusters, counters, hits⟩ ⟨clusters', counters', hits'⟩
  exact ⟨clusters'.trans clusters, fun d => (counters' d).trans (counters d), fun l d => (hits' l d).trans (hits l d)⟩

theorem runsStand_foldl {β : Type} {f : State → β → State} (step : ∀ s b, runsStand s (f s b)) (l : List β) (s : State) :
    runsStand s (l.foldl f s) :=
  foldl_rel runsStand .refl (fun _ _ _ => .trans) f step l s

/-- What changes neither clusters nor dies nor the launches' rays. -/
theorem runsStand_of_eq {s t : State} (clusters : t.clusters = s.clusters) (dies : t.dies = s.dies)
    (rays : t.work.rays = s.work.rays) : runsStand s t :=
  ⟨clusters, fun d => by simp only [dieOf, dies], fun l d => by simp only [hitListOf, rays]⟩

theorem homeOnly.runsStand {s t : State} : homeOnly s t → runsStand s t := by
  rintro ⟨_, _, _, rfl⟩
  exact runsStand_of_eq rfl rfl rfl

theorem modDie_runsStand (s : State) (d : Nat) {f : Die → Die} (kept : ∀ x, (f x).runCounter = x.runCounter) :
    runsStand s (modDie s d f) := by
  refine ⟨rfl, fun e => ?_, fun _ _ => rfl⟩
  rw [dieOf_modDie]
  split
  next same => rw [kept, same]
  next => rfl

theorem modMore_runsStand (s : State) (c : Nat) (f : CtxMore → CtxMore) : runsStand s (modMore s c f) :=
  runsStand_of_eq rfl rfl rfl

theorem modCtx_runsStand (s : State) (c : Nat) (f : Context → Context) : runsStand s (modCtx s c f) :=
  runsStand_of_eq rfl rfl rfl

theorem modLaunch_runsStand (s : State) (l : Nat) (f : Launch → Launch) : runsStand s (modLaunch s l f) :=
  runsStand_of_eq rfl rfl rfl

theorem modRays_runsStand (s : State) (l : Nat) {f : RayLaunch → RayLaunch} (kept : ∀ x, (f x).hits = x.hits) :
    runsStand s (modRays s l f) := by
  refine ⟨rfl, fun _ => rfl, fun k d => ?_⟩
  simp only [hitListOf, modRays, modWork, mgetD, mget_mset]
  split
  next same => rw [Option.getD_some, kept, same]
  next => rfl

theorem modRayQueue_runsStand (s : State) (l i : Nat) (f : RayQueue → RayQueue) : runsStand s (modRayQueue s l i f) :=
  modRays_runsStand s l fun _ => rfl

theorem writtenOr_runsStand (s : State) (ctx va : Nat) (bs : List Byte) :
    runsStand s ((writeVirtual s ctx va bs).getD s) := by
  cases written : writeVirtual s ctx va bs with
  | none => exact .refl s
  | some t => exact (writeVirtual_homeOnly written).runsStand

/-! ### Reports and records (17 R411, 20 R460, R554) -/

theorem blackBoxAdd_runsStand (s : State) (e : BlackBox) : runsStand s (blackBoxAdd s e) := runsStand_of_eq rfl rfl rfl

theorem structureFailedOn_runsStand (s : State) (die ctx addr : Nat) : runsStand s (structureFailedOn s die ctx addr) := by
  unfold structureFailedOn
  split
  · exact .refl s
  · exact runsStand_of_eq rfl rfl rfl

theorem addTrace_runsStand (s : State) (ctx kind addr : Nat) : runsStand s (addTrace s ctx kind addr) := by
  unfold addTrace
  dsimp only
  split
  · exact runsStand_of_eq rfl rfl rfl
  · exact .refl s

theorem startTrapLimit_runsStand (s : State) (e : EventEntry) : runsStand s (startTrapLimit s e) := by
  unfold startTrapLimit
  split
  · exact .refl s
  · exact modMore_runsStand s _ _

theorem writeEvent_runsStand {s t : State} {die : Nat} {e : EventEntry} (h : writeEvent s die e = some t) :
    runsStand s t := by
  unfold writeEvent at h
  split at h
  · cases h
  · split at h
    · cases h
    · rename_i s1 written
      cases h
      refine .trans ?_ (blackBoxAdd_runsStand _ _)
      refine .trans ?_ ((modMore_runsStand _ _ _).trans (startTrapLimit_runsStand _ e))
      refine .trans (t := modCtx s1 e.ctx fun c => { c with evtWrite := c.evtWrite + 1 }) ?_
        (modDie_runsStand _ die fun _ => rfl)
      exact (writeVirtual_homeOnly written).runsStand.trans (modCtx_runsStand s1 _ _)

theorem holdEvent_runsStand (s : State) (die : Nat) (e : EventEntry) : runsStand s (holdEvent s die e) := by
  refine modDie_runsStand s die fun x => ?_
  split <;> rfl

theorem appendEvent_runsStand (s : State) (die : Nat) (e : EventEntry) : runsStand s (appendEvent s die e) := by
  unfold appendEvent
  dsimp only
  refine (addTrace_runsStand s e.ctx e.kind e.addr).trans ?_
  generalize addTrace s e.ctx e.kind e.addr = t
  split
  · exact holdEvent_runsStand t die e
  · split
    · exact writeEvent_runsStand ‹_›
    · split
      · exact (holdEvent_runsStand t die e).trans (structureFailedOn_runsStand _ _ _ _)
      · exact holdEvent_runsStand t die e

theorem countDieEvent_runsStand (s : State) (die code n : Nat) : runsStand s (countDieEvent s die code n) := by
  unfold countDieEvent
  split
  · exact .refl s
  · exact modDie_runsStand s die fun _ => rfl

theorem countEvent_runsStand (s : State) (core code n : Nat) : runsStand s (countEvent s core code n) := by
  unfold countEvent
  dsimp only
  refine runsStand.trans ?_ (countDieEvent_runsStand _ _ _ _)
  split
  · exact .refl s
  · exact runsStand_of_eq rfl rfl rfl

theorem countAbsent_runsStand (s : State) (w : ReplayWork) : runsStand s (countAbsent s w) := by
  cases w with
  | core _ _ _ | coachman _ _ | copy _ _ | texture _ _ _ => exact countEvent_runsStand s _ 7 1
  | matrix _ _ _ _ | ray _ _ _ _ _ _ _ _ | raster _ _ _ _ _ _ => exact countDieEvent_runsStand s _ 7 1

theorem enterFault_runsStand (s : State) (die : Nat) (e : FaultEntry) : runsStand s (enterFault s die e) := by
  refine modDie_runsStand s die fun x => ?_
  split <;> rfl

theorem placeRecord_runsStand {s t : State} {ctx slot : Nat} {r : ReplayRecord} (h : placeRecord s ctx slot r = some t) :
    runsStand s t := by
  unfold placeRecord at h
  split at h
  · cases h
  · rename_i s1 written
    extract_lets die s2 s3 at h
    have entered : runsStand s s3 :=
      (writeVirtual_homeOnly written).runsStand.trans <| (modMore_runsStand s1 ctx _).trans <|
        runsStand_foldl (fun acc _ => (countAbsent_runsStand acc r.work).trans (enterFault_runsStand _ die _)) _ s2
    split at h
    · exact Option.some.inj h ▸ entered
    · exact Option.some.inj h ▸ entered.trans (appendEvent_runsStand s3 _ _)

theorem takeRecord_runsStand (s : State) (ctx : Nat) (r : ReplayRecord) : runsStand s (takeRecord s ctx r) := by
  unfold takeRecord
  extract_lets wait
  have waits : runsStand s wait := modMore_runsStand s ctx _
  split
  · exact waits
  · split
    · exact waits
    · split
      · exact placeRecord_runsStand ‹_›
      · exact waits.trans (structureFailedOn_runsStand wait _ _ _)

/-! ### Rays that complete or are held (15 R370, R372) -/

theorem startFlush_runsStand (s : State) (b : Nat) : runsStand s (startFlush s b) :=
  modDie_runsStand s (b / 2) fun _ => rfl

theorem launchSettled_runsStand (s : State) (l : Nat) : runsStand s (launchSettled s l) := by
  unfold launchSettled
  dsimp only
  split
  · exact modMore_runsStand s _ _
  · exact .refl s

theorem launchDown_runsStand (s : State) (l : Nat) : runsStand s (launchDown s l) := by
  unfold launchDown
  split
  · exact (modLaunch_runsStand s l _).trans (runsStand_foldl startFlush_runsStand _ _)
  · exact (modLaunch_runsStand s l _).trans (launchSettled_runsStand _ l)

theorem clearExits_runsStand (s : State) (l id : Nat) : runsStand s (clearExits s l id) := by
  unfold clearExits
  split
  · exact modRays_runsStand s l fun _ => rfl
  · exact .refl s

theorem holdRay_runsStand (s : State) (l id loc : Nat) (act : RayAct) : runsStand s (holdRay s l id loc act) := by
  unfold holdRay
  refine .trans ?_ (takeRecord_runsStand _ _ _)
  exact modRays_runsStand s l fun _ => rfl

theorem holdRayAt_runsStand (s : State) (l id loc va : Nat) (act : RayAct) : runsStand s (holdRayAt s l id loc va act) := by
  unfold holdRayAt
  refine .trans ?_ (takeRecord_runsStand _ _ _)
  exact modRays_runsStand s l fun _ => rfl

theorem closeRay_runsStand (s : State) (l id loc : Nat) (st : Status) (code : FaultCode) (report : Bool) :
    runsStand s (closeRay s l id loc st code report) := by
  unfold closeRay
  extract_lets ctx fault s1 s2
  split
  · exact holdRay_runsStand s l id loc _
  · have closed : runsStand s s2 :=
      (writtenOr_runsStand s _ _ _).trans <| (clearExits_runsStand _ l id).trans <|
        (modLaunch_runsStand s1 l _).trans (launchDown_runsStand _ l)
    split
    · exact closed.trans (appendEvent_runsStand s2 _ _)
    · exact closed

theorem completeRay_runsStand (s : State) (l id loc : Nat) (st : Status) (code : FaultCode) (report : Bool) :
    runsStand s (completeRay s l id loc st code report) := by
  unfold completeRay
  dsimp only
  split
  · exact closeRay_runsStand s l id loc st code report
  · exact modRays_runsStand s l fun _ => rfl

theorem returnRay_runsStand (s : State) (l i loc : Nat) (e : RayEntry) : runsStand s (returnRay s l i loc e) := by
  unfold returnRay
  dsimp only
  split
  · exact holdRay_runsStand s l e.id loc _
  · exact completeRay_runsStand s l e.id loc _ _ _
  · exact (writtenOr_runsStand s _ _ _).trans (modRayQueue_runsStand _ l i _)

theorem returnRays_runsStand (s : State) (l i loc : Nat) (es : List RayEntry) : runsStand s (returnRays s l i loc es) :=
  runsStand_foldl (fun acc e => returnRay_runsStand acc l i loc e) _ s

/-! ### Filing (15 R356, R364) -/

theorem holdSubtree_runsStand (s : State) (l i die run addr : Nat) : runsStand s (holdSubtree s l i die run addr) := by
  unfold holdSubtree
  dsimp only
  split
  · exact .refl s
  · exact (modRayQueue_runsStand s l i _).trans (takeRecord_runsStand _ _ _)

theorem filedOr_runsStand (s : State) (ctx va state stamp filed : Nat) :
    runsStand s ((filingWrites s ctx va state stamp filed).getD s) := by
  cases written : filingWrites s ctx va state stamp filed with
  | none => exact .refl s
  | some t =>
    obtain ⟨s1, first, second⟩ := Option.bind_eq_some_iff.1 written
    exact (writeVirtual_homeOnly first).runsStand.trans (writeVirtual_homeOnly second).runsStand

theorem enterQueue_runsStand (s : State) (l : Nat) (c : Scene) (i id die : Nat) :
    runsStand s (enterQueue s l c i id die) := by
  unfold enterQueue
  dsimp only
  split
  · exact holdRay_runsStand s l id die _
  · exact completeRay_runsStand s l id die _ _ _
  · exact (filedOr_runsStand s _ _ _ _ _).trans (modRayQueue_runsStand _ l i _)

theorem fileRay_runsStand (s : State) (l : Nat) (c : Scene) (i id : Nat) : runsStand s (fileRay s l c i id) := by
  unfold fileRay
  dsimp only
  split
  · exact enterQueue_runsStand s l c i id _
  · exact completeRay_runsStand s l id 0 _ _ _
  · exact completeRay_runsStand s l id 0 _ _ _
  · exact (enterQueue_runsStand s l c i id _).trans (holdSubtree_runsStand _ l i _ _ _)
  · exact completeRay_runsStand s l id 0 _ _ _

end Sys2Proof.Proofs
end

section
/-! SUPPORT. The Omnibus and the ray traversal units as device events (15 R365 to R367, R373). -/

namespace Sys2Proof.Proofs

open Sys2Proof.Machine Sys2Proof.Safety

theorem runsStand.run_eq {s t : State} (h : runsStand s t) (cluster : Nat) :
    (clusterOf t cluster).run = (clusterOf s cluster).run := by
  simp only [clusterOf, h.1]

theorem clusters_run_eq {s t : State} (h : t.clusters = s.clusters) (cluster : Nat) :
    (clusterOf t cluster).run = (clusterOf s cluster).run := by
  simp only [clusterOf, h]

theorem endRun_run (s : State) (cluster : Nat) : (clusterOf (endRun s cluster) cluster).run = none := by
  rw [endRun, clusterOf_modCluster, if_pos rfl]

/-! ### The start of a run (15 R365, R366) -/

theorem takeRays_runsStand (l i loc : Nat) (es : List RayEntry) (acc : State × List (Nat × RayEntry)) :
    runsStand acc.1 (es.foldl (takeRay l i loc) acc).1 := by
  refine foldl_rel (fun a b : State × List (Nat × RayEntry) => runsStand a.1 b.1) (fun a => .refl a.1)
    (fun _ _ _ => .trans) _ (fun a e => ?_) es acc
  unfold takeRay
  dsimp only
  split
  · exact holdRay_runsStand a.1 l e.id loc _
  · exact completeRay_runsStand a.1 l e.id loc _ _ _
  · exact writtenOr_runsStand a.1 _ _ _

/-- What the start of a run leaves: the die has counted it, and a run of the cluster is the chosen one. -/
theorem startRun_starts {s : State} {die cluster : Nat} {x : RayChoice} (c : Scene) (idle : (clusterOf s cluster).run = none) :
    let t := startRun s die cluster c x
    (dieOf t die).runCounter = ((dieOf s die).runCounter + 1) % 2 ^ 64
    ∧ ∀ r, (clusterOf t cluster).run = some r → r.launch = x.launch ∧ r.subtree = x.subtree ∧ r.loaded = false
        ∧ r.rays ≠ [] ∧ r.number = (dieOf t die).runCounter ∧ r.upt = runUpt s (launchOf s x.launch).ctx c
        ∧ r.startedAt = (ctxOf s (launchOf s x.launch).ctx).ctime := by
  unfold startRun
  extract_lets taken s1 s2 p t
  have counted : (dieOf s1 die).runCounter = ((dieOf s die).runCounter + 1) % 2 ^ 64 := by
    refine ((countDieEvent_runsStand _ die 10 1).2.1 die).trans ?_
    rw [dieOf_modDie, if_pos rfl]
  have chosen : runsStand s1 p.1 :=
    (modRayQueue_runsStand s1 x.launch x.subtree _).trans (takeRays_runsStand x.launch x.subtree _ taken (s2, []))
  have still : (clusterOf p.1 cluster).run = none := by
    refine (chosen.run_eq cluster).trans (((countDieEvent_runsStand _ die 10 1).run_eq cluster).trans ?_)
    exact idle
  have number := chosen.2.1 die
  by_cases empty : p.2.isEmpty = true
  · have none : t = p.1 := if_pos empty
    rw [none]
    refine ⟨number.trans counted, fun r run => ?_⟩
    rw [still] at run
    cases run
  · have some : t = modCluster p.1 cluster _ := if_neg empty
    rw [some]
    refine ⟨number.trans counted, fun r run => ?_⟩
    rw [clusterOf_modCluster, if_pos rfl] at run
    obtain rfl := Option.some.inj run
    refine ⟨rfl, rfl, rfl, fun rays => empty ?_, number.symm, rfl, rfl⟩
    exact List.isEmpty_iff.2 (List.map_eq_nil_iff.1 rays)

theorem omnibusRunStart_of_valid {s : State} {die cluster : Nat} {x : RayChoice} {c : Scene} {y : Subtree}
    (own : cluster / 48 = die) (real : die < 4) (idle : (clusterOf s cluster).run = none)
    (selected : selectRun s die cluster = some x) (scene : heldScene s x.launch = some c)
    (valid : readSubtree s (launchOf s x.launch).ctx c x.subtree = .valid y) :
    exec (.omnibusRunStart die cluster) s = .next (startRun s die cluster c x) := by
  have arm : exec (.omnibusRunStart die cluster) s = execOmnibusRunStart die cluster s := rfl
  have may : ¬ (cluster / 48 ≠ die ∨ 4 ≤ die ∨ (clusterOf s cluster).run.isSome) := by
    simp [own, idle, Nat.not_le.2 real]
  simp only [arm, execOmnibusRunStart, if_neg may, selected, scene, startChoice, valid]

/-! ### Loading (15 R366) -/

theorem subtreeLoadComplete_of_ok {s : State} {cluster : Nat} {r : RayRun} {c : Scene} {x : Subtree} {bs : List Byte}
    (run : (clusterOf s cluster).run = some r) (unloaded : r.loaded = false)
    (resident : (ctxOf s (launchOf s r.launch).ctx).resident = true) (scene : heldScene s r.launch = some c)
    (valid : readSubtree s (launchOf s r.launch).ctx c r.subtree = .valid x)
    (bytes : readEngine s (.ray cluster) (launchOf s r.launch).ctx x.base x.size = .ok bs) :
    exec (.subtreeLoadComplete cluster) s = .next
      (modCluster (engineUsed s (.ray cluster) (launchOf s r.launch).ctx [(x.base, x.size)]) cluster fun k => { k with
        run := some { r with loaded := true, buffer := bs, bad := badSectors s (launchOf s r.launch).ctx x.base x.size } }) := by
  have arm : exec (.subtreeLoadComplete cluster) s = execSubtreeLoadComplete cluster s := rfl
  simp [arm, execSubtreeLoadComplete, run, unloaded, resident, loadSubtree, scene, valid, bytes]

/-! ### Retirement (15 R366, R367, R555) -/

theorem setExits_clusters (s : State) (l id : Nat) (es : List (Nat × Bound)) : (setExits s l id es).clusters = s.clusters := by
  unfold setExits
  split <;> rfl

theorem writeHit_clusters (s : State) (ctx va : Nat) (old new : RayRec) : (writeHit s ctx va old new).clusters = s.clusters := by
  unfold writeHit
  split
  · rfl
  · exact (writtenOr_runsStand s _ _ _).1

theorem scribble_clusters (s : State) (ctx va : Nat) : (scribble s ctx va).clusters = s.clusters :=
  (writtenOr_runsStand s _ _ _).1

theorem retireVisited_clusters (s : State) (r : RayRun) (c : Scene) (loc id : Nat) (old : RayRec) (order : Nat) (v : Visit) :
    (retireVisited s r c loc id old order v).clusters = s.clusters := by
  unfold retireVisited
  extract_lets l ctx va fails
  have failed (st : Status) (code : FaultCode) (report : Bool) : (fails st code report).clusters = s.clusters :=
    (completeRay_runsStand _ l id loc st code report).1.trans (setExits_clusters s l id [])
  split
  · exact failed _ _ _
  · split <;> exact failed _ _ _
  · extract_lets pending
    clear_value pending
    split
    · exact failed _ _ _
    · have hit := writeHit_clusters s ctx va old v.ray
      split
      · exact (fileRay_runsStand _ l c _ id).1.trans ((scribble_clusters _ ctx va).trans ((setExits_clusters _ l id _).trans hit))
      · have cleared := (setExits_clusters (writeHit s ctx va old v.ray) l id []).trans hit
        split
        · exact (writtenOr_runsStand (setExits (writeHit s ctx va old v.ray) l id []) _ _ _).1.trans cleared
        · exact (completeRay_runsStand _ l id loc _ _ _).1.trans cleared

theorem engineUsed_clusters (s : State) (x : Engine) (ctx : Nat) (rs : List (Nat × Nat)) :
    (engineUsed s x ctx rs).clusters = s.clusters := by
  obtain ⟨m, used⟩ := engineUsed_tlb s x ctx rs
  rw [used]

theorem retireRay_clusters (s : State) (cluster : Nat) (r : RayRun) (e : RayEntry) :
    (retireRay s cluster r e).clusters = s.clusters := by
  unfold retireRay
  extract_lets l ctx loc
  split
  · exact (returnRay_runsStand s l _ loc e).1
  · rename_i c _
    split
    · exact (holdRay_runsStand s l e.id loc _).1
    · exact (completeRay_runsStand s l e.id loc _ _ _).1
    · have used := engineUsed_clusters s (.ray cluster) ctx [(c.slot e.id, 128)]
      have ends (st : Status) (code : FaultCode) (report : Bool) :=
        (completeRay_runsStand (engineUsed s (.ray cluster) ctx [(c.slot e.id, 128)]) l e.id loc st code report).1.trans used
      dsimp only
      split
      · exact ends _ _ _
      · split
        · exact ends _ _ _
        · exact ends _ _ _
        · exact (retireVisited_clusters _ r c loc e.id _ _ _).trans used

section
variable {s : State} {cluster : Nat} {r : RayRun} (run : (clusterOf s cluster).run = some r)
include run

theorem rayRetire_of_none (loaded : r.loaded = true) (resident : (ctxOf s (launchOf s r.launch).ctx).resident = true)
    (none : r.rays = []) : exec (.rayRetire cluster) s = .next (endRun s cluster) := by
  have arm : exec (.rayRetire cluster) s = execRayRetire cluster s := rfl
  simp [arm, execRayRetire, run, loaded, resident, none]

/-- The first ray of a run retires; past 20 µs the others go back to their queue and the run is over. -/
theorem rayRetire_of_cons (loaded : r.loaded = true) (resident : (ctxOf s (launchOf s r.launch).ctx).resident = true)
    {e : RayEntry} {rest : List RayEntry} (rays : r.rays = e :: rest) :
    let held := slotFaultAt s cluster r.launch e.id = some .pageAbsent
    let s1 := modCluster s cluster fun c =>
      { c with run := if rest.isEmpty || runOver s r then none
                      else some { r with rays := rest, out := if held then r.out + 1 else r.out } }
    let s2 := retireRay s1 cluster r e
    exec (.rayRetire cluster) s
      = .next (if runOver s r then returnRays s2 r.launch r.subtree (rayLocation cluster) rest else s2) := by
  have arm : exec (.rayRetire cluster) s = execRayRetire cluster s := rfl
  simp [arm, execRayRetire, run, loaded, resident, rays]

theorem runTimeLimit_of_over (long : runOver s r = true) : exec (.runTimeLimit cluster) s
    = .next (returnRays (endRun s cluster) r.launch r.subtree (rayLocation cluster) r.rays) := by
  have arm : exec (.runTimeLimit cluster) s = execRunTimeLimit cluster s := rfl
  simp [arm, execRunTimeLimit, run, long]

end

/-! ### Hit blocks (15 R373) -/

theorem joinHits_runsStand (c : Scene) (l die : Nat) (ids : List Nat) (acc : State × List HitRay) :
    runsStand acc.1 (ids.foldl (joinHit c l die) acc).1 := by
  refine foldl_rel (fun a b : State × List HitRay => runsStand a.1 b.1) (fun a => .refl a.1)
    (fun _ _ _ => .trans) _ (fun a id => ?_) ids acc
  have ends (st : Status) (code : FaultCode) (report : Bool) := completeRay_runsStand a.1 l id die st code report
  have waits (va : Nat) := holdRayAt_runsStand a.1 l id die va .shade
  unfold joinHit
  dsimp only
  split
  · exact waits _
  · exact ends _ _ _
  · split
    · exact ends _ _ _
    · split
      · exact waits _
      · exact ends _ _ _
      · split
        · exact ends _ _ _
        · exact .refl a.1

theorem formHitBlock_hits {s : State} {l : Nat} (die : Nat) {c : Scene} (scene : heldScene s l = some c) :
    hitListOf (formHitBlock s l die) l die = (hitListOf s l die).drop (hitBlockSize s l) := by
  simp only [formHitBlock, scene]
  generalize fresh : modRays s l (fun r =>
    { r with hits := mset r.hits die ((hitListOf s l die).drop (hitBlockSize s l)) }) = s1
  have dropped : hitListOf s1 l die = (hitListOf s l die).drop (hitBlockSize s l) := by
    rw [← fresh]
    simp [hitListOf, modRays, modWork, mgetD]
  have joined := (joinHits_runsStand c l die (((hitListOf s l die).take (hitBlockSize s l)).map Prod.fst) (s1, [])).2.2 l die
  split
  · exact joined.trans dropped
  · exact joined.trans dropped

end Sys2Proof.Proofs
end

section
/-! SUPPORT. The flush of a binner and the quads of a texture operation as device events (16 R386 to R388, R396). -/

namespace Sys2Proof.Proofs

open Sys2Proof.Machine Sys2Proof.Safety

/-! ### The end of a flush (16 R388) -/

theorem binnerOf_congr {s t : State} (dies : t.dies = s.dies) (b : Nat) : binnerOf t b = binnerOf s b := by
  simp only [binnerOf, dieOf, dies]

theorem releaseHeld_dies (s : State) (l : Nat) : (releaseHeld s l).dies = s.dies := by
  unfold releaseHeld
  split
  · unfold launchSettled
    dsimp only
    split <;> rfl
  · rfl

theorem keep_all (x : Binner) (f : BinPrim → Bool) : (x.keep f).all = x.all.filter f := (List.filter_append ..).symm

theorem binnerFlushDone_empties {s : State} {b : Nat} (real : b < 8) (done : flushOver s b = true) :
    answers (.binnerFlushDone b) s fun t => (binnerOf t b).flushing = false
      ∧ (binnerOf t b).all = (binnerOf s b).all.filter fun p => !(primDue p).isEmpty := by
  have arm : exec (.binnerFlushDone b) s = execBinnerFlushDone b s := rfl
  have may : ¬ (8 ≤ b ∨ !flushOver s b) := by simp [done, real]
  simp only [answers, arm, execBinnerFlushDone, if_neg may]
  refine ⟨_, rfl, ?_⟩
  rw [binnerOf_congr (foldl_keeps State.dies releaseHeld releaseHeld_dies _ _), binnerOf_modBinner]
  exact ⟨rfl, keep_all _ _⟩

/-! ### Tiles (16 R386, R387) -/

theorem homeOnly.dies_eq {s t : State} : homeOnly s t → t.dies = s.dies := by
  rintro ⟨_, _, _, rfl⟩
  rfl

theorem engineUsed_dies (s : State) (x : Engine) (ctx : Nat) (rs : List (Nat × Nat)) : (engineUsed s x ctx rs).dies = s.dies := by
  obtain ⟨_, used⟩ := engineUsed_tlb s x ctx rs
  rw [used]

theorem writeEntry_all (s : State) (b ctx va : Nat) (bs : List Byte) :
    (binnerOf (writeEntry s b ctx va bs) b).all = (binnerOf s b).all := by
  unfold writeEntry
  split
  · rfl
  · dsimp only
    split
    · rfl
    · rw [binnerOf_modBinner, ← binnerOf_congr (homeWrite_homeOnly s _).dies_eq b]
      rfl

theorem drawPixel_all (s : State) (b ctx : Nat) (d : VisDesc) (cmp view : Nat) (p : BinPrim)
    (x : Nat × Nat × Word × Word × Word) : (binnerOf (drawPixel s b ctx d cmp view p x) b).all = (binnerOf s b).all := by
  unfold drawPixel
  extract_lets va s1
  have reads : s1.dies = s.dies := (engineReads_linesOnly _ _ _).homeOnly.dies_eq.trans (engineUsed_dies s _ ctx _)
  rw [← binnerOf_congr reads b]
  split
  · exact writeEntry_all s1 b ctx va _
  · rfl

theorem mem_binOf {s : State} {b l view tile : Nat} {p : BinPrim} : p ∈ binOf s b l view tile ↔
    p ∈ (binnerOf s b).all ∧ p.launch = l ∧ (view, tile) ∈ p.refs ++ p.ringRefs := by
  simp [binOf]

theorem binOf_congr {s t : State} {b : Nat} (same : (binnerOf t b).all = (binnerOf s b).all) (l view tile : Nat) :
    binOf t b l view tile = binOf s b l view tile := by
  simp only [binOf, same]

/-- What still stands in a bin after the references of one sequence position are taken out stood there before, at another. -/
theorem mem_binOf_dropRefs {s : State} {b l view tile n : Nat} {p : BinPrim}
    (left : p ∈ binOf (dropRefs s b l view tile (some n)) b l view tile) : p ∈ binOf s b l view tile ∧ p.seq ≠ n := by
  obtain ⟨stands, launch, ref⟩ := mem_binOf.1 left
  rw [dropRefs, binnerOf_modBinner, Binner.mapPrims, Binner.all, ← List.map_append] at stands
  obtain ⟨p0, before, made⟩ := List.mem_map.1 stands
  by_cases hit : p0.launch = l ∧ (some n).getD p0.seq = p0.seq
  · rw [if_pos hit] at made
    subst made
    simp at ref
  · rw [if_neg hit] at made
    subst made
    exact ⟨mem_binOf.2 ⟨before, launch, ref⟩, fun same => hit ⟨launch, same.symm⟩⟩

/-- Primitives that are drawn without a fault leave the bin. -/
theorem mem_binOf_drawPrims {s : State} {b ctx cmp l view tile : Nat} {d : VisDesc}
    {ws : List (BinPrim × List (Nat × Nat × Word × Word × Word))}
    (drawn : (drawPrims s b ctx d cmp l view tile ws).2 = none) {p : BinPrim}
    (left : p ∈ binOf (drawPrims s b ctx d cmp l view tile ws).1 b l view tile) :
    p ∈ binOf s b l view tile ∧ ∀ w ∈ ws, p.seq ≠ w.1.seq := by
  induction ws generalizing s with
  | nil => exact ⟨left, fun _ listed => absurd listed List.not_mem_nil⟩
  | cons w r ih =>
    unfold drawPrims at drawn left
    cases fault : pixelFault s b ctx d cmp view w.2 with
    | some e => simp [fault] at drawn
    | none =>
      rw [fault] at drawn left
      obtain ⟨stands, later⟩ := ih drawn left
      obtain ⟨stood, other⟩ := mem_binOf_dropRefs stands
      have drew : (binnerOf (w.2.foldl (fun a x => drawPixel a b ctx d cmp view w.1 x) s) b).all = (binnerOf s b).all :=
        foldl_keeps (fun a => (binnerOf a b).all) _ (fun a x => drawPixel_all a b ctx d cmp view w.1 x) w.2 s
      rw [binOf_congr drew] at stood
      refine ⟨stood, fun v listed => ?_⟩
      obtain rfl | rest := List.mem_cons.1 listed
      · exact other
      · exact later v rest

/-- A bin of which every primitive is drawn without a fault is empty. -/
theorem binOf_drawPrims {s : State} {b ctx cmp l view tile : Nat} {d : VisDesc}
    (offers : BinPrim → List (Nat × Nat × Word × Word × Word))
    (drawn : (drawPrims s b ctx d cmp l view tile ((binOf s b l view tile).map fun p => (p, offers p))).2 = none) :
    binOf (drawPrims s b ctx d cmp l view tile ((binOf s b l view tile).map fun p => (p, offers p))).1 b l view tile = [] := by
  refine List.eq_nil_iff_forall_not_mem.2 fun p left => ?_
  obtain ⟨stood, others⟩ := mem_binOf_drawPrims drawn left
  exact others (p, offers p) (List.mem_map_of_mem stood) rfl

theorem rasteriseTile_of_due {s : State} {b view tile : Nat} {x : Nat × Nat × Nat} (real : b < 8)
    (flushing : (binnerOf s b).flushing = true) (here : binnerWaits s b = false)
    (due : (tilesDue s b).find? (fun t => t.2 == (view, tile) && (ctxOf s (dueCtx s t)).resident) = some x) :
    exec (.rasteriseTile b view tile) s = .next (rasterTile s b x.1 view tile) := by
  have arm : exec (.rasteriseTile b view tile) s = execRasteriseTile b view tile s := rfl
  have may : ¬ (8 ≤ b ∨ !(binnerOf s b).flushing ∨ binnerWaits s b) := by simp [flushing, here, real]
  simp only [arm, execRasteriseTile, if_neg may, due]

/-! ### Quads (16 R396, R398) -/

/-- The registers of a lane that has received the four words of its sample. -/
def quadTaken (dst : Nat) (ws : List Word) (r : Regs) : Regs :=
  (List.range 4).foldl (fun m k => m.set (dst + k) (ws.getD k 0)) r

theorem quadTaken_get (dst : Nat) (ws : List Word) (r : Regs) {k : Nat} (word : k < 4) :
    (quadTaken dst ws r).get (dst + k) = ws.getD k 0 := by
  have words : quadTaken dst ws r = (((r.set (dst + 0) (ws.getD 0 0)).set (dst + 1) (ws.getD 1 0)).set (dst + 2)
    (ws.getD 2 0)).set (dst + 3) (ws.getD 3 0) := rfl
  obtain rfl | rfl | rfl | rfl : k = 0 ∨ k = 1 ∨ k = 2 ∨ k = 3 := by omega
  · simp [words]
  · simp [words]
  · simp [words]
  · simp [words]

theorem writeQuad_cons (s : State) (p : TexLane × List Word) (r : List (TexLane × List Word)) : writeQuad s (p :: r)
    = writeQuad (modThread s p.1.uid fun t => t.modRegs (quadTaken p.1.dst p.2)) r := rfl

theorem writeQuad_others {xs : List (TexLane × List Word)} {u : Nat} (other : u ∉ xs.map fun p => p.1.uid) (s : State) :
    threadOf (writeQuad s xs) u = threadOf s u := by
  induction xs generalizing s with
  | nil => rfl
  | cons p r ih =>
    obtain ⟨distinct, later⟩ := not_or.1 fun h => other (List.mem_cons.2 h)
    rw [writeQuad_cons, ih later, modThread_others s p.1.uid _ u distinct]

theorem threadOf_writeQuad {xs : List (TexLane × List Word)} (apart : (xs.map fun p => p.1.uid).Nodup)
    {p : TexLane × List Word} (listed : p ∈ xs) (s : State) : threadOf (writeQuad s xs) p.1.uid
      = (threadOf s p.1.uid).map fun t => t.modRegs (quadTaken p.1.dst p.2) := by
  induction xs generalizing s with
  | nil => cases listed
  | cons q r ih =>
    obtain ⟨fresh, rest⟩ := List.nodup_cons.1 apart
    rw [writeQuad_cons]
    obtain rfl | later := List.mem_cons.1 listed
    · exact (writeQuad_others fresh _).trans ((mget_mmod s.work.threads p.1.uid p.1.uid _).trans (if_pos rfl))
    · rw [ih rest later, modThread_others s q.1.uid _ p.1.uid fun same => fresh (List.mem_map.2 ⟨p, later, same⟩)]

/-- What lowers a counter at most leaves every thread's lane registers. -/
theorem modThread_v {f : Thread → Thread} (kept : ∀ t, (f t).regs.v = t.regs.v) (s : State) (u v : Nat) :
    (threadOf (modThread s u f) v).map (·.regs.v) = (threadOf s v).map (·.regs.v) := by
  by_cases same : v = u
  · subst same
    rw [threadOf, modThread, show (modWork s fun w => { w with threads := mmod w.threads v f }).work.threads
      = mmod s.work.threads v f from rfl, mget_mmod, if_pos rfl, Option.map_map]
    exact congrArg (fun g => (mget s.work.threads v).map g) (funext kept)
  · rw [modThread_others s u f v same]

theorem ctrDown_v (r : Regs) (c : Nat) : (r.ctrDown c).v = r.v := by
  unfold Regs.ctrDown
  split <;> rfl

theorem quadOver_v (s : State) (core : Nat) (o : TexOp) (q u : Nat) :
    (threadOf (quadOver s core o q) u).map (·.regs.v) = (threadOf s u).map (·.regs.v) := by
  unfold quadOver
  dsimp only
  split
  · exact foldl_keeps (fun a => (threadOf a u).map (·.regs.v)) _
      (fun a l => modThread_v (f := fun t => t.modRegs fun r => r.ctrDown o.ctr)
        (fun t => ctrDown_v t.regs o.ctr) a l.uid u) o.lanes _
  · rfl

/-- A quad whose lanes all have their words, and meet no poison, writes them. -/
theorem sampleQuad_takes {s : State} {core q : Nat} {o : TexOp} (apart : ((quadLanes o q).map TexLane.uid).Nodup)
    (clean : ∀ x ∈ quadLanes o q,
      (∃ ws, laneTaps s core (ctxOfBlock s o.block) (blockOf s o.block).launch o.op o.channel x = .ok ws)
      ∧ laneMeetsPoison s (ctxOfBlock s o.block) (blockOf s o.block).launch o.op x = false)
    (free : engineWaits s (dieOfCore core) false (rangeLines s (.sampler core) (ctxOfBlock s o.block)
      ((quadLanes o q).flatMap (tapRanges s (ctxOfBlock s o.block) (blockOf s o.block).launch o.op))) = false)
    {x : TexLane} (lane : x ∈ quadLanes o q) {ws : List Word}
    (words : laneTaps s core (ctxOfBlock s o.block) (blockOf s o.block).launch o.op o.channel x = .ok ws)
    {th : Thread} (found : threadOf s x.uid = some th) :
    ∃ th', threadOf (sampleQuad s core o q) x.uid = some th' ∧ ∀ k, k < 4 → th'.regs.get (x.dst + k) = ws.getD k 0 := by
  unfold sampleQuad
  extract_lets l ctx die rs ranges lines faults s0 s1 s2
  have fine : faults = [] := by
    refine List.filterMap_eq_nil_iff.2 fun p listed => ?_
    obtain ⟨y, there, rfl⟩ := List.mem_map.1 listed
    obtain ⟨⟨vs, ok⟩, -⟩ := clean y there
    simp only [l, ctx, ok]
  have unpoisoned : s2 = s1 := by
    refine (List.foldl_ext _ (fun a _ => a) s1 fun a y there => if_neg ?_).trans (List.foldl_fixed _)
    exact Bool.not_eq_true _ ▸ (clean y there).2
  have reads : threadOf s0 x.uid = some th := by
    refine ((foldl_rel cachesOnly .refl (fun _ _ _ => .trans) _ (fun a n => dropCopy_cachesOnly a _ n) lines _).threadOf_eq
      x.uid).trans (((engineReads_linesOnly _ die lines).cachesOnly.threadOf_eq x.uid).trans ?_)
    obtain ⟨_, used⟩ := engineUsed_tlb s (.sampler core) ctx ranges
    rw [used]
    exact found
  have written : threadOf s1 x.uid = some (th.modRegs (quadTaken x.dst ws)) := by
    refine (threadOf_writeQuad (p := (x, ws)) ?_ ?_ s0).trans ?_
    · simpa only [rs, List.map_map, Function.comp_def] using apart
    · refine List.mem_map.2 ⟨_, List.mem_map_of_mem lane, ?_⟩
      simp only [l, ctx, words]
    · rw [reads]
      rfl
  rw [fine]
  dsimp only [worstFault, List.foldl]
  rw [if_neg (Bool.not_eq_true _ ▸ free)]
  have kept := quadOver_v s2 core o q x.uid
  rw [unpoisoned, written] at kept
  obtain ⟨th', there, same⟩ := Option.map_eq_some_iff.1 kept
  refine ⟨th', unpoisoned ▸ there, fun k word => ?_⟩
  rw [Regs.get, same]
  exact quadTaken_get x.dst ws th.regs word

end Sys2Proof.Proofs
end

section
/-! PROOF of the statement on the ray, raster and texture units, O49 (15 R365 to R367, R373, 16 R386 to R388, R396). -/

namespace Sys2Proof.Proofs

open Sys2Proof.Machine Sys2Proof.Safety

theorem rasterTile_of_ok {s : State} {b l view tile : Nat} {d : VisDesc} {m : List Nat} (desc : visDesc s l = .ok d)
    (matrix : viewMatrix s (launchOf s l).ctx d view = .ok m) :
    let ctx := (launchOf s l).ctx
    let s1 := binView s b l view d
    let slot := rasterSlot s1 ctx d
    let work := (binOf s1 b l view tile).map fun p => (p, tileOffers d slot.2 m view tile p)
    let q := drawPrims s1 b ctx d slot.1 l view tile work
    engineWaits s1 (b / 2) true (workLines s1 b ctx d view work) = false →
    (q.2 = none → rasterTile s b l view tile = q.1)
    ∧ ∀ e, q.2 = some e → rasterTile s b l view tile = tileFault q.1 b l view tile e.1 1 e.2.1 e.2.2 := by
  intro ctx s1 slot work q free
  have draws : rasterTile s b l view tile = match q.2 with
      | none => q.1
      | some e => tileFault q.1 b l view tile e.1 1 e.2.1 e.2.2 := by
    unfold rasterTile
    simp only [desc, matrix]
    exact if_neg (Bool.not_eq_true _ ▸ free)
  refine ⟨fun drawn => ?_, fun e fault => ?_⟩
  · rw [draws, drawn]
  · rw [draws, fault]

/-- A ray whose slot can be read makes its visit. -/
theorem retireRay_of_visited {s : State} {cluster : Nat} {r : RayRun} {e : RayEntry} {c : Scene} {u : RayUpt} {b : List Byte}
    (scene : heldScene s r.launch = some c) (slot : slotFaultAt s cluster r.launch e.id = none)
    (clean : poisonedRange s (launchOf s r.launch).ctx (c.slot e.id) 128 = false) (table : runTable r = some u)
    (bytes : readEngine s (.ray cluster) (launchOf s r.launch).ctx (c.slot e.id) 64 = .ok b) :
    retireRay s cluster r e
      = retireVisited (engineUsed s (.ray cluster) (launchOf s r.launch).ctx [(c.slot e.id, 128)]) r c (rayLocation cluster)
          e.id (parseRay b e.id) u.order
          (visit { upt := u, buffer := r.buffer, bad := r.bad, nsub := c.nsub } (parseRay b e.id)) := by
  simp only [retireRay, scene, slot, clean, table, bytes, Bool.false_eq_true, if_false]

theorem textureQuadComplete_of_ready {s : State} {core op q : Nat} {o : TexOp}
    (entry : (coreOf s core).texQ.find? (fun o => o.id == op) = some o) (unparked : o.parked = false)
    (ready : texReady s o = true) (resident : (ctxOf s (ctxOfBlock s o.block)).resident = true)
    (quad : nextQuad o = some q) : exec (.textureQuadComplete core op) s = .next (sampleQuad s core o q) := by
  have arm : exec (.textureQuadComplete core op) s = execTextureQuadComplete core op s := rfl
  simp [arm, execTextureQuadComplete, entry, unparked, ready, resident, quad]

/-- Settles O49: each event by what it does where it may happen; what completes or holds a ray leaves the clusters' runs, the
dies' run counters and the hit lists, and what draws a primitive leaves the bins but for its own references. -/
theorem unitEvents : Obligations.UnitEvents := by
  unfold Obligations.UnitEvents
  refine ⟨?starts, ?loads, ?retires, ?limits, ?hits, fun s b => binnerFlushDone_empties, ?tiles, ?quads⟩
  case starts =>
    intro s die cluster x c y own real idle selected scene valid
    exact ⟨_, omnibusRunStart_of_valid own real idle selected scene valid, startRun_starts c idle⟩
  case loads =>
    intro s cluster r c x bs run unloaded resident scene valid bytes
    refine ⟨_, subtreeLoadComplete_of_ok run unloaded resident scene valid bytes, ?_⟩
    beta_reduce
    rw [clusterOf_modCluster, if_pos rfl]
  case retires =>
    intro s cluster r run loaded resident
    refine ⟨fun none => ⟨_, rayRetire_of_none run loaded resident none, endRun_run s cluster⟩,
      fun e rest rays => ⟨?_, ?_⟩⟩
    · intro long
      have over20 : runOver s r = true := decide_eq_true long
      refine ⟨_, rayRetire_of_cons run loaded resident rays, ?_⟩
      beta_reduce
      rw [if_pos over20, (returnRays_runsStand _ _ _ _ _).run_eq, clusters_run_eq (retireRay_clusters _ cluster r e),
        clusterOf_modCluster, if_pos rfl, over20, Bool.or_true]
      rfl
    · intro short ctx held s1
      have within : runOver s r = false := decide_eq_false (Nat.not_le.2 short)
      have retires : exec (.rayRetire cluster) s = .next (retireRay s1 cluster r e) := by
        rw [rayRetire_of_cons run loaded resident rays]
        simp only [within, Bool.or_false, Bool.false_eq_true, if_false]
        rfl
      refine ⟨⟨_, retires, clusters_run_eq (retireRay_clusters s1 cluster r e) cluster⟩, ?_⟩
      intro c u b scene slot clean table bytes
      exact retires.trans (congrArg _ (retireRay_of_visited scene slot clean table bytes))
  case limits =>
    intro s cluster r run long
    refine ⟨_, runTimeLimit_of_over run (decide_eq_true long), ?_⟩
    exact ((returnRays_runsStand _ _ _ _ _).run_eq cluster).trans (endRun_run s cluster)
  case hits =>
    intro s l die c due resident scene
    have arm : exec (.hitListAgeExpiry l die) s = .next (if hitBlockDue s l die && (ctxOf s (launchOf s l).ctx).resident
      then formHitBlock s l die else s) := rfl
    refine ⟨_, arm, ?_⟩
    rw [due, resident]
    exact formHitBlock_hits die scene
  case tiles =>
    intro s b view tile x d m real flushing here due desc matrix ctx s1 slot work q free
    have runs : exec (.rasteriseTile b view tile) s = .next (rasterTile s b x.1 view tile) :=
      rasteriseTile_of_due real flushing here due
    obtain ⟨draws, faults⟩ := rasterTile_of_ok (tile := tile) desc matrix free
    exact ⟨fun drawn => ⟨q.1, runs.trans (congrArg _ (draws drawn)), rfl, binOf_drawPrims _ drawn⟩,
      fun e fault => runs.trans (congrArg _ (faults e fault))⟩
  case quads =>
    intro s core op q o entry unparked ready resident quad apart l ctx clean free
    exact ⟨_, textureQuadComplete_of_ready entry unparked ready resident quad, fun x lane ws words th found =>
      sampleQuad_takes apart clean free lane words found⟩

end Sys2Proof.Proofs
end
